-- ==== Sys2Proof/Word.lean ====
section
/-! DEFINITION. The word types of the model and their plainest arithmetic. -/

namespace Sys2Proof

/-- A register of BAR0: 64 bits (chapter 00, *Access codes*). -/
abbrev Word := BitVec 64
/-- Half a register, the unit of a 32-bit access (R328, R329). -/
abbrev Half := BitVec 32
/-- The smallest addressed unit of memory (R7). -/
abbrev Byte := BitVec 8
/-- Device time: TAI seconds in bits 95..48, the fraction of a second in units of 2^-48 s in bits 47..0 (R11). -/
abbrev DTime := BitVec 96

/-- An operand that a mode bit takes from a register or from the instruction's own field (R54, R63). -/
inductive Operand (w : Nat) where
  | reg (r : Fin 32)
  | imm (n : BitVec w)
  deriving DecidableEq, Repr

/-- Who sends an access (R327, R333), in the order in which simultaneous accesses are applied. -/
inductive Requester where
  | port0 | port1 | port2 | port3 | port4 | sc0 | sc1
  deriving DecidableEq, Repr

/-- What the check bits find when a command reads a memory word (R20, R250): the upset of a cell is no act of the block, so
the command that reads the word says what it meets. awc is a mismatch of the address-and-write check, on DRAM only. -/
inductive Ecc where
  | clean | corrected | uncorrected | awc
  deriving DecidableEq, Repr

/-- Whether the word is uncorrected (R20, R250). -/
def Ecc.bad : Ecc → Bool
  | .uncorrected | .awc => true
  | _ => false

/-- A line of SRAM that a grain uses and that arrives late (R249): whether it holds envelope points, and the samples of the grain, counted
from its first, that are due before it arrives: from_ up to upTo. -/
structure LateLine where
  envelope : Bool
  from_ : Nat
  upTo : Nat
  deriving DecidableEq, Repr

/-- What the snapshot of an item's entry meets (R95, R249, R250): what SECDED finds in it, and whether a line of it arrives late. -/
structure SnapshotRead where
  ecc : Ecc
  late : Bool
  deriving DecidableEq, Repr

/-- What a PLAY meets (R20): in its fetch, and in the segment-table entry that it reads at issue. -/
structure PlayRead where
  fetch : Ecc
  entry : Ecc
  deriving DecidableEq, Repr

/-- What the check of a stream block meets (R20, R119, R361): ecc in the word at byte address addr of its samples, and snap in the entry that an
ABORT's window snapshots. -/
structure BlockRead where
  ecc : Ecc
  addr : BitVec 37
  snap : SnapshotRead
  deriving DecidableEq, Repr

/-- A kerf (R78): the voice that reaches it, and the late lines of a first grain that begins there (R249). -/
structure KerfRun where
  voice : Fin 64
  late : List LateLine
  deriving DecidableEq, Repr

/-- How a datagram comes in on PORT1 to PORT4 (R269): over IPv6 or IPv4, as a fragment, and the VLAN identifiers of its 802.1Q tags. -/
structure EthFrame where
  v6 : Bool := false
  frag : Bool := false
  tags : List (BitVec 12) := []
  deriving DecidableEq, Repr

/-- A stream packet beside its header (R116, R117): the UDP port that it was sent to on PORT1 to PORT4, its payload, what the header
of a RING slot meets (R361), and the frame that carries it. -/
structure StreamBody where
  udp : BitVec 16
  words : List Word
  ecc : Ecc
  frame : EthFrame := {}
  deriving DecidableEq, Repr

/-- A message that a port discards (R270, R272): from another source than the partner, or with a wrong header or CRC; and its length in
bytes. -/
structure Discard where
  foreign : Bool
  len : BitVec 24 := 32
  deriving DecidableEq, Repr

/-- What an Ethernet port meets as it loses block lock (R269): loss of signal, the module's absence, and codewords that the FEC could not
correct. -/
structure EthLoss where
  signal : Bool
  absent : Bool := false
  uncorrected : BitVec 16 := 0
  deriving DecidableEq, Repr

/-- A tREFI tick (R261): the rank; whether a refresh set of it completes in the same cycle; and whether the set that the tick makes due is
issued while a request at urgency 3 from ports 0 to 3 waits on the sub-channel. -/
structure RankTick where
  rank : Bool
  done : Bool := false
  urgent : Bool := false
  deriving DecidableEq, Repr

/-- The events of R268 and R353 that reset PORT0. -/
inductive PortReset where
  | flr | hot | linkDown | perst
  deriving DecidableEq, Repr

/-- Which part of a register a read takes (R328): a 32-bit read of the low word, one at the offset + 4, or all 64 bits. -/
inductive ReadPart where
  | low | high | full
  deriving DecidableEq, Repr

/-- What a write carries (R329): 64 bits, or 32 bits for the offset + 4. -/
inductive WriteData where
  | full (w : Word)
  | high (h : Half)
  deriving DecidableEq, Repr

/-- What the header of an MLP command says (R272, R273): its HSN, FLAGS.OOB, whether LEN fits the command, and on PORT0 the size of its
response buffer; an opcode that Table: MLP commands does not hold, when the message names one in the command's place (R275); and the frame
that carries it. -/
structure MlpHead where
  hsn : BitVec 32
  oob : Bool
  fits : Bool
  room : BitVec 32
  code : Option (BitVec 16) := none
  frame : EthFrame := {}
  deriving DecidableEq, Repr

/-- What the header of a received PTP message says: the port less 1, domainNumber, sdoId, sequenceId, and correctionField. -/
structure PtpHead where
  port : Fin 4
  domain : BitVec 8
  sdo : BitVec 12
  seq : BitVec 16
  corr : BitVec 64
  deriving DecidableEq, Repr

/-- A timestamp of a PTP message: seconds and nanoseconds (R228). -/
structure PtpTime where
  sec : BitVec 48
  ns : BitVec 32
  deriving DecidableEq, Repr

/-- Which parts of Rest memory prove uncorrectable when a wake reads them (R361): save-list registers by offset, trained sets by
channel, the Service Cores' state, and words of the calibration slots; and how many words of it were found corrected (R20). -/
structure RestUpset where
  regs : List (BitVec 32)
  sets : BitVec 4
  core : Bool
  corrected : BitVec 16 := 0
  slots : List (BitVec 15) := []
  deriving DecidableEq, Repr

end Sys2Proof
end

