-- ==== Sys2Proof/Syntax.lean ====
section
/-! DEFINITION. The commands of the device: one constructor for every row of the table of commands, with its operands. A row that is an access
or a message carries who sends it and what it says; a row that is a happening inside the device or at a pin carries what the device cannot know
by itself: which unit, when, and what the check bits of the memory words it reads find. -/

namespace Sys2Proof

inductive Instr where
  /-- ARM (R46): A write of 1 to CORE_CTL.ARM in HALT checks the header, cost table and start source and, if all pass, arms the core and
  reserves an RT program. -/
  | arm (k : Fin 64) (q : Requester) (w : Word)
  /-- START (R47): A write of 1 to CORE_CTL.START with START_SRC = HOST starts an ARMED core, and is ignored in other cases. -/
  | start (k : Fin 64) (q : Requester) (w : Word)
  /-- STOP (R44): CORE_CTL.STOP returns a running, waiting or armed core to HALT, abandoning any blocking instruction. -/
  | stop (k : Fin 64) (q : Requester) (w : Word)
  /-- RESUME (R44): CORE_CTL.RESUME continues a halted core at PC, going to RUN for RT or to ADMIT_WAIT for STD and BG. -/
  | resume (k : Fin 64) (q : Requester) (w : Word)
  /-- RESET (R44): CORE_CTL.RESET clears the registers, stack and fault of a halted, done or faulted core, drops uncommitted descriptors and
  releases any reservation. -/
  | reset (k : Fin 64) (q : Requester) (w : Word)
  /-- STEP (R377): CORE_CTL.STEP executes one instruction from PC in HALT without ever blocking. -/
  | step (k : Fin 64) (q : Requester) (w : Word) (e ecc : Ecc)
  /-- TIME_START (R47): DTIME reaches CORE_START_SEC:FRAC and an ARMED core with START_SRC = TIME leaves ARMED. -/
  | timeStart (k : Fin 64)
  /-- ADMISSION_GRANT (R48): The Budget Governor finds headroom and moves a core from ADMIT_WAIT to RUN. -/
  | admissionGrant (k : Fin 64)
  /-- ADMISSION_TIMEOUT (R48): ADMIT_TMO ms pass in ADMIT_WAIT and the STD core returns to ARMED or HALT with ADMIT_REFUSED set. -/
  | admissionTimeout (k : Fin 64)
  /-- CLUSTER_FILL_DONE (R35): The zero fill of a cluster's memories completes and its cores go from INIT to HALT. -/
  | clusterFillDone (c : Fin 16)
  /-- QSTALL_RESUME (R36): A queue entry frees and a core stalled in QSTALL completes its emission and returns to RUN. -/
  | qstallResume (k : Fin 64)
  /-- BUDGET_GRANT (R49): The Governor grants a higher phase, ends BWAIT and writes 0 to gd. -/
  | budgetGrant (k : Fin 64)
  /-- BUDGET_TIMEOUT (R49): ADMIT_TMO passes in BWAIT for an STD program, the phase is kept and BUDGET writes 1 to gd. -/
  | budgetTimeout (k : Fin 64)
  /-- EVT_WAIT_TIMEOUT (R76): TMO × 64 cycles pass in EVWAIT with no latch set, and gd receives 0. -/
  | evtWaitTimeout (k : Fin 64)
  /-- BUF_OP_COMPLETE (R72): A BUF.ALLOC, BUF.FENCE, BUF.GET or BUF.PUT that blocked the core completes. -/
  | bufOpComplete (k : Fin 64)
  /-- ADD (R59): gd = ga + gb. -/
  | add (k : Fin 64) (e : Ecc) (d a b : Fin 32)
  /-- SUB (R59): gd = ga − gb. -/
  | sub (k : Fin 64) (e : Ecc) (d a b : Fin 32)
  /-- AND (R59): Bitwise AND of two registers. -/
  | and (k : Fin 64) (e : Ecc) (d a b : Fin 32)
  /-- OR (R59): Bitwise OR of two registers. -/
  | or (k : Fin 64) (e : Ecc) (d a b : Fin 32)
  /-- XOR (R59): Bitwise XOR of two registers. -/
  | xor (k : Fin 64) (e : Ecc) (d a b : Fin 32)
  /-- SHL (R59): Logical left shift by gb[5:0]. -/
  | shl (k : Fin 64) (e : Ecc) (d a b : Fin 32)
  /-- SHR (R59): Logical right shift by gb[5:0]. -/
  | shr (k : Fin 64) (e : Ecc) (d a b : Fin 32)
  /-- SRA (R59): Arithmetic right shift by gb[5:0]. -/
  | sra (k : Fin 64) (e : Ecc) (d a b : Fin 32)
  /-- MUL (R59): Low 64 bits of ga × gb. -/
  | mul (k : Fin 64) (e : Ecc) (d a b : Fin 32)
  /-- ADDI (R59): gd = ga + the sign-extended IMM32. -/
  | addi (k : Fin 64) (e : Ecc) (d a : Fin 32) (imm : BitVec 32)
  /-- ANDI (R59): Bitwise AND with the zero-extended IMM32. -/
  | andi (k : Fin 64) (e : Ecc) (d a : Fin 32) (imm : BitVec 32)
  /-- ORI (R59): Bitwise OR with the zero-extended IMM32. -/
  | ori (k : Fin 64) (e : Ecc) (d a : Fin 32) (imm : BitVec 32)
  /-- XORI (R59): Bitwise XOR with the zero-extended IMM32. -/
  | xori (k : Fin 64) (e : Ecc) (d a : Fin 32) (imm : BitVec 32)
  /-- SHLI (R59): Left shift by IMM32[5:0]. -/
  | shli (k : Fin 64) (e : Ecc) (d a : Fin 32) (imm : BitVec 32)
  /-- SHRI (R59): Logical right shift by IMM32[5:0]. -/
  | shri (k : Fin 64) (e : Ecc) (d a : Fin 32) (imm : BitVec 32)
  /-- SRAI (R59): Arithmetic right shift by IMM32[5:0]. -/
  | srai (k : Fin 64) (e : Ecc) (d a : Fin 32) (imm : BitVec 32)
  /-- LDI (R59): gd = the sign-extended IMM48. -/
  | ldi (k : Fin 64) (e : Ecc) (d : Fin 32) (imm : BitVec 48)
  /-- LDIH (R59): Sets gd[63:48] to IMM16 and leaves gd[47:0] unchanged. -/
  | ldih (k : Fin 64) (e : Ecc) (d : Fin 32) (imm : BitVec 16)
  /-- LD (R59): Loads a data-memory word into gd. -/
  | ld (k : Fin 64) (e ecc : Ecc) (d a : Fin 32) (off : BitVec 16)
  /-- ST (R59): Stores gb to a data-memory word. -/
  | st (k : Fin 64) (e : Ecc) (a b : Fin 32) (off : BitVec 16)
  /-- DTRD_SEC (R60): Samples DTIME, returns the seconds and latches the fraction. -/
  | dtrdSec (k : Fin 64) (e : Ecc) (d : Fin 32)
  /-- DTRD_FRAC (R60): Returns the latched DTIME fraction. -/
  | dtrdFrac (k : Fin 64) (e : Ecc) (d : Fin 32)
  /-- BEQ (R61): Branches when ga = gb. -/
  | beq (k : Fin 64) (e : Ecc) (a b : Fin 32) (tgt : Fin 8192)
  /-- BNE (R61): Branches when ga ≠ gb. -/
  | bne (k : Fin 64) (e : Ecc) (a b : Fin 32) (tgt : Fin 8192)
  /-- BLT (R61): Branches when ga < gb, signed. -/
  | blt (k : Fin 64) (e : Ecc) (a b : Fin 32) (tgt : Fin 8192)
  /-- BGE (R61): Branches when ga ≥ gb, signed. -/
  | bge (k : Fin 64) (e : Ecc) (a b : Fin 32) (tgt : Fin 8192)
  /-- BLTU (R61): Branches when ga < gb, unsigned. -/
  | bltu (k : Fin 64) (e : Ecc) (a b : Fin 32) (tgt : Fin 8192)
  /-- BGEU (R61): Branches when ga ≥ gb, unsigned. -/
  | bgeu (k : Fin 64) (e : Ecc) (a b : Fin 32) (tgt : Fin 8192)
  /-- BBS (R61): Branches when bit gb[5:0] of ga is 1. -/
  | bbs (k : Fin 64) (e : Ecc) (a b : Fin 32) (tgt : Fin 8192)
  /-- BBC (R61): Branches when bit gb[5:0] of ga is 0. -/
  | bbc (k : Fin 64) (e : Ecc) (a b : Fin 32) (tgt : Fin 8192)
  /-- BEQI (R61): Branches when ga equals the immediate. -/
  | beqi (k : Fin 64) (e : Ecc) (a : Fin 32) (imm : BitVec 30) (tgt : Fin 8192)
  /-- BNEI (R61): Branches when ga differs from the immediate. -/
  | bnei (k : Fin 64) (e : Ecc) (a : Fin 32) (imm : BitVec 30) (tgt : Fin 8192)
  /-- BLTI (R61): Branches when ga < the immediate, signed. -/
  | blti (k : Fin 64) (e : Ecc) (a : Fin 32) (imm : BitVec 30) (tgt : Fin 8192)
  /-- BGEI (R61): Branches when ga ≥ the immediate, signed. -/
  | bgei (k : Fin 64) (e : Ecc) (a : Fin 32) (imm : BitVec 30) (tgt : Fin 8192)
  /-- BLTUI (R61): Branches when ga < the immediate, unsigned. -/
  | bltui (k : Fin 64) (e : Ecc) (a : Fin 32) (imm : BitVec 30) (tgt : Fin 8192)
  /-- BGEUI (R61): Branches when ga ≥ the immediate, unsigned. -/
  | bgeui (k : Fin 64) (e : Ecc) (a : Fin 32) (imm : BitVec 30) (tgt : Fin 8192)
  /-- BBSI (R61): Branches when the immediate-numbered bit of ga is 1. -/
  | bbsi (k : Fin 64) (e : Ecc) (a : Fin 32) (imm : BitVec 30) (tgt : Fin 8192)
  /-- BBCI (R61): Branches when the immediate-numbered bit of ga is 0. -/
  | bbci (k : Fin 64) (e : Ecc) (a : Fin 32) (imm : BitVec 30) (tgt : Fin 8192)
  /-- GOTO (R62): Sets PC to the target. -/
  | goto (k : Fin 64) (e : Ecc) (tgt : Fin 8192)
  /-- CALL (R62): Pushes PC + 1 and jumps to the target. -/
  | call (k : Fin 64) (e : Ecc) (tgt : Fin 8192)
  /-- RET (R62): Pops PC from the call stack. -/
  | ret (k : Fin 64) (e : Ecc)
  /-- END (R62): The core enters DONE and fires DONE. -/
  | end_ (k : Fin 64) (e : Ecc)
  /-- NOP (R62): Does nothing for one cycle. -/
  | nop (k : Fin 64) (e : Ecc)
  /-- PLAY (R65): Emits a descriptor that plays a segment-table entry, after the issue and DRAM-slot checks. -/
  | play (k : Fin 64) (e : PlayRead) (seg kerf : Operand 16)
  /-- LOOP (R66): Emits a descriptor that repeats the next LEN descriptors COUNT times. -/
  | loop (k : Fin 64) (e : Ecc) (count : Operand 24) (len : BitVec 5)
  /-- JUMP (R67): Emits a descriptor that arms a SEGMENT, GRAIN or IMMEDIATE jump to a jump-table entry. -/
  | jump (k : Fin 64) (e : Ecc) (mode : Fin 3) (discard : Bool) (ec : BitVec 8) (entry : Fin 16)
  /-- JUMP_DISARM (R67): Emits a descriptor that clears the voice's armed jump. -/
  | jumpDisarm (k : Fin 64) (e : Ecc) (none_ : Bool)
  /-- WAIT_TRIG (R68): Emits a WAIT that holds the voice until a TRIG_IN edge. -/
  | waitTrig (k : Fin 64) (e : Ecc) (arg : BitVec 16)
  /-- WAIT_EVENT (R68): Emits a WAIT that holds the voice until an event on a channel. -/
  | waitEvent (k : Fin 64) (e : Ecc) (arg : BitVec 16)
  /-- WAIT_TIME (R68): Emits a WAIT that holds the voice until an absolute DTIME. -/
  | waitTime (k : Fin 64) (e : Ecc) (a b : Fin 32)
  /-- WAIT_KERF (R68): Emits a WAIT that holds the voice until the next kerf of another voice of the quad. -/
  | waitKerf (k : Fin 64) (e : Ecc) (arg : BitVec 16)
  /-- SETF (R69): Emits a descriptor that sets the voice NCO frequency word. -/
  | setf (k : Fin 64) (e : Ecc) (a : Fin 32)
  /-- SETP (R69): Emits a descriptor that sets or adds to the voice NCO phase. -/
  | setp (k : Fin 64) (e : Ecc) (add : Bool) (phase : Operand 32)
  /-- RAMPF (R69): Emits a descriptor that ramps the voice NCO frequency word. -/
  | rampf (k : Fin 64) (e : Ecc) (a b : Fin 32)
  /-- MARK (R70): Emits a descriptor that sets, clears, pulses or toggles a marker lane. -/
  | mark (k : Fin 64) (e : Ecc) (lane mode : Fin 4) (offset : BitVec 28) (width : BitVec 16)
  /-- TRIGO (R71): Emits a descriptor that pulses a TRIG_OUT line at the next PLAY. -/
  | trigo (k : Fin 64) (e : Ecc) (line : Fin 16)
  /-- BUF_ALLOC (R72): Allocates a buffer in SRAM, DRAM or either, and returns a handle or status. -/
  | bufAlloc (k : Fin 64) (e : Ecc) (d a : Fin 32) (region : Fin 3)
  /-- BUF_ATTACH (R72): BUF.ALLOC in ATTACH mode adds a hold on a live handle. -/
  | bufAttach (k : Fin 64) (e : Ecc) (d a : Fin 32)
  /-- BUF_FREE (R125): Gives up the program's hold and emits a descriptor that carries it to the kerf. -/
  | bufFree (k : Fin 64) (e : Ecc) (a : Fin 32)
  /-- BUF_FENCE (R72): Blocks until earlier BUF.PUTs to a handle have reached memory. -/
  | bufFence (k : Fin 64) (e : Ecc) (a : Fin 32)
  /-- BUF_GET (R72): Copies words from a buffer into data memory. -/
  | bufGet (k : Fin 64) (e ecc : Ecc) (d a b : Fin 32) (daddr : BitVec 12) (nw : BitVec 8)
  /-- BUF_PUT (R72): Copies words from data memory into a buffer. -/
  | bufPut (k : Fin 64) (e ecc : Ecc) (d a b : Fin 32) (daddr : BitVec 12) (nw : BitVec 8)
  /-- EVT_FIRE (R74): Fires an event channel from the core. -/
  | evtFire (k : Fin 64) (e : Ecc) (ec : Operand 7)
  /-- EVT_WAIT_ARM (R76): EVT.WAIT with ARM = 1 selects the channels of EI0 and EI1 and completes. -/
  | evtWaitArm (k : Fin 64) (e : Ecc) (d : Fin 32) (eca ecb : BitVec 8)
  /-- EVT_WAIT (R76): EVT.WAIT with ARM = 0 returns latched inputs, or blocks in EVWAIT until a latch sets. -/
  | evtWait (k : Fin 64) (e : Ecc) (d : Fin 32) (eca ecb : BitVec 8) (tmo : BitVec 24)
  /-- BUDGET (R49): Declares the class and switches the program to a cost-table phase, waiting in BWAIT when the phase costs more. -/
  | budget (k : Fin 64) (e : Ecc) (d : Fin 32) (cls : Fin 4) (phase : Fin 16)
  /-- WINDOW_CLOSE (R94): A commit window closes, and the voice takes and commits the next descriptors and snapshots the entry of the next
  item. -/
  | windowClose (v : Fin 64) (e : SnapshotRead)
  /-- KERF (R78): A kerf instant is reached, register commits apply, zero-sample descriptors act, and the next item, span, hold or idle
  grain begins. -/
  | kerf (v : KerfRun)
  /-- GRAIN_START (R93): A grain of an item begins at the voice, which is the deadline of its DRAM refill and its line fetches. -/
  | grainStart (v : Fin 64) (late : List LateLine)
  /-- GRAIN_FETCH_ISSUE (R143): The voice issues a grain's fetch 512 samples ahead, or skips it when the grain is covered. -/
  | grainFetchIssue (v : Fin 64) (e : Ecc) (addr : BitVec 37)
  /-- REFILL_GRAIN_ARRIVE (R109): A fetched DRAM grain arrives in the line buffer and FILL rises. -/
  | refillGrainArrive (v : Fin 64) (e : Ecc) (addr : BitVec 37)
  /-- WAIT_RELEASE (R99): A WAIT's condition is met and the hold releases, placing the next kerf. -/
  | waitRelease (v : Fin 64) (e : SnapshotRead)
  /-- JUMP_ACCEPT (R102): An event on the armed jump channel moves the jump from armed to pending. -/
  | jumpAccept (v : Fin 64)
  /-- JUMP_LAND (R103): A pending jump lands, abandons the item in play and plays the jump-table target. -/
  | jumpLand (v : Fin 64)
  /-- VOICE_JT_WRITE (R101): A write to VOICE_JTn clears LOADED, snapshots the named entry and starts the preload of the target. -/
  | voiceJtWrite (v : Fin 64) (n : Fin 16) (q : Requester) (w : Word) (ecc : Ecc)
  /-- JT_PRELOAD_DONE (R101): The first grain of a jump target is in the jump buffer and LOADED sets. -/
  | jtPreloadDone (v : Fin 64) (n : Fin 16) (ecc : Ecc)
  /-- VOICE_SEGTAB_WRITE (R82): A VOICE_SEGTAB write is checked and takes effect at a kerf, or is ignored with SEGTAB_ERR. -/
  | voiceSegtabWrite (v : Fin 64) (q : Requester) (w : Word)
  /-- MARK_ACTION (R176): A scheduled MARK action reaches its sample and acts on the voice's lane state. -/
  | markAction (v : Fin 64)
  /-- MARK_PULSE_END (R176): A running marker pulse ends after WIDTH samples. -/
  | markPulseEnd (v : Fin 64)
  /-- RAMP_END (R69): A RAMPF ramp completes its count of samples and FW then holds. -/
  | rampEnd (v : Fin 64)
  /-- STREAM_PACKET_RX (R118): A stream packet arrives from a port or ring and is written to its ring slot, placed, or dropped. -/
  | streamPacketRx (src : Fin 6) (peer : Bool) (h0 h1 h2 h3 : Word) (payload : StreamBody)
  /-- STREAM_BLOCK_CHECK (R119): A block's check instant arrives and the block is found present or missing. -/
  | streamBlockCheck (v : Fin 64) (e : BlockRead)
  /-- STM_CFG_ENABLE (R116): A write of EN = 1 to STM_CFG enables a binding, or is ignored with CFG_ERR. -/
  | stmCfgEnable (b : Fin 64) (q : Requester) (w : Word)
  /-- HOST_BUF_ALLOC (R130): BUF_CMD ALLOC allocates a buffer held by the host. -/
  | hostBufAlloc (q : Requester) (w : Word)
  /-- HOST_BUF_FREE (R130): BUF_CMD FREE ends a host hold. -/
  | hostBufFree (q : Requester) (w : Word)
  /-- HOST_BUF_ATTACH (R130): BUF_CMD ATTACH adds a host hold on a live handle. -/
  | hostBufAttach (q : Requester) (w : Word)
  /-- HOST_BUF_QUERY (R130): BUF_CMD QUERY fills BUF_INFO and BUF_ADDR for a handle. -/
  | hostBufQuery (q : Requester) (w : Word)
  /-- CH_ENABLE (R132): A write of EN = 1 checks the channel configuration and schedules the start. -/
  | chEnable (n : Fin 16) (q : Requester) (w : Word)
  /-- CH_DISABLE (R134): A write of EN = 0 schedules the channel stop at the next grid boundary. -/
  | chDisable (n : Fin 16) (q : Requester) (w : Word)
  /-- CHANNEL_START (R134): The channel starts at its start boundary, sets its elastic buffer and RUN, and leaves park. -/
  | channelStart (n : Fin 16)
  /-- CHANNEL_STOP (R134): The channel stops at a grid boundary, abandons its voices' items and returns to PARK. -/
  | channelStop (n : Fin 16)
  /-- RUNTIME_BOUNDARY (R135): At the run-time boundary, pending run-time writes to the channel take effect. -/
  | runtimeBoundary (n : Fin 16)
  /-- CH_SLOT_WRITE (R139): A slot write is checked and takes effect at the run-time boundary, or is ignored with XB_ERR. -/
  | chSlotWrite (n : Fin 16) (p : Fin 8) (q : Requester) (w : Word)
  /-- VOICE_JOIN (R140): A moved voice joins its new channel at the first qualifying grid boundary. -/
  | voiceJoin (v : Fin 64)
  /-- NCO_RESYNC (R138): A write of 1 to CH_CTL.NCO_RESYNC schedules an NCO reset for the channel's group. -/
  | ncoResync (n : Fin 16) (q : Requester) (w : Word)
  /-- NCO_RESET (R138): The NCO accumulators of the group reset at CH_NCO_EPOCH or at the run-time boundary. -/
  | ncoReset (n : Fin 16)
  /-- RANGE_REQUEST (R166): A write to CH_DAC_RANGE.RANGE_NEXT requests a range change. -/
  | rangeRequest (n : Fin 16) (q : Requester) (w : Word)
  /-- RANGE_CHANGE_START (R167): A range change starts, and the output is in ZERO for tRANGE. -/
  | rangeChangeStart (n : Fin 16)
  /-- RANGE_DONE (R167): tRANGE ends, the output resumes, RANGE_DONE fires and RANGE_CHG counts. -/
  | rangeDone (n : Fin 16)
  /-- MUTE_WRITE (R168): A write to CH_DAC_CTL.MUTE enters or leaves ZERO at the run-time boundary. -/
  | muteWrite (n : Fin 16) (q : Requester) (w : Word)
  /-- SC_ENGAGE (R171): A leg's current limit engages on a fault at the pin. -/
  | scEngage (n : Fin 16) (p : Bool)
  /-- SC_EPISODE (R171): After 20 ns of continuous limiting, SC_FLAG and SC_ACTIVE set, SC_EPIS counts and SC fires. -/
  | scEpisode (n : Fin 16) (p : Bool)
  /-- SC_RELEASE (R171): The limit has been released for 1 µs and SC_ACTIVE clears. -/
  | scRelease (n : Fin 16)
  /-- DAC_BIAS_SETTLED (R164): The DAC array bias settles 20 µs after the analog domain switches on. -/
  | dacBiasSettled (n : Fin 16)
  /-- TRIG_IN_EDGE (R182): An accepted TRIG_IN edge is timestamped and fires its TRIGIN producer. -/
  | trigInEdge (n : Fin 16) (t : Nat) (rising : Bool) (held : Nat)
  /-- TI_CFG_APPLY (R183): A write to TI_CFGn takes effect within 100 ns. -/
  | tiCfgApply (n : Fin 16)
  /-- TRIG_OUT_PULSE (R184): A TRIG_OUT pulse rises from a TRIGO or an event. -/
  | trigOutPulse (m : Fin 16)
  /-- TRIG_OUT_PULSE_END (R185): A TRIG_OUT pulse falls after its width. -/
  | trigOutPulseEnd (m : Fin 16)
  /-- EVENT_PASS (R190): A producer fires and its event channels pass the event with its reference time. -/
  | eventPass (n : Nat)
  /-- EVENT_DELIVERY (R195): An event reaches a live consumer input and is merged, lost to overrun, or taken. -/
  | eventDelivery (n : Nat) (i : Fin 416)
  /-- EVT_FIRE_WRITE (R193): A write to EVT_FIRE0 or EVT_FIRE1 fires the event channels whose bits are set. -/
  | evtFireWrite (i : Fin 2) (q : Requester) (w : Word)
  /-- ROUTING_APPLY (R196): A change of producer field or consumer selection takes effect within 20 ns. -/
  | routingApply (n : Nat)
  /-- RELAY_DELAY_OUTPUT (R197): A relay unit in DELAY produces its output PARAM after the event it took. -/
  | relayDelayOutput (r : Fin 8)
  /-- RELAY_TIMER_OUTPUT (R197): A relay unit in TIMER produces an output at START + k × PARAM. -/
  | relayTimerOutput (r : Fin 8)
  /-- EVR_CFG_WRITE (R197): A write to EVR_CFGr, checked by the loop guard, changes mode or input, may restart a TIMER and drops a held
  event. -/
  | evrCfgWrite (r : Fin 8) (q : Requester) (w : Word)
  /-- EVR_PARAM_WRITE (R197): A write to EVR_PARAMr changes the delay, divisor or period and restarts a TIMER. -/
  | evrParamWrite (r : Fin 8) (q : Requester) (w : Word)
  /-- EVR_START_WRITE (R197): A write to EVR_START restarts a TIMER relay. -/
  | evrStartWrite (r : Fin 8) (frac : Bool) (q : Requester) (w : Word)
  /-- EC_SRC_WRITE (R199): A write to EC_SRC_A or EC_SRC_B is checked by the loop guard and changes producer fields. -/
  | ecSrcWrite (c : Fin 128) (b : Bool) (q : Requester) (w : Word)
  /-- EC_CTL_WRITE (R199): A write to EC_CTL sets LOOP_PERMIT and the channel locks, with clearing LOOP_PERMIT checked by the loop guard. -/
  | ecCtlWrite (c : Fin 128) (q : Requester) (w : Word)
  /-- REF_INPUT_LOST (R205): A reference input becomes invalid, which may switch the source or make the Reference PLL coast. -/
  | refInputLost (x : Fin 2)
  /-- REF_GATE_END (R205): A 10 ms frequency gate ends and checks each input against its window. -/
  | refGateEnd (a b : Option (BitVec 32))
  /-- REF_QUALIFIED (R205): An input that stays valid for QUAL × 10 ms becomes qualified. -/
  | refQualified (x : Fin 2)
  /-- REF_SOURCE_WRITE (R207): A write to MAN_SRC or MODE that names a qualified input switches the source. -/
  | refSourceWrite (q : Requester) (w : Word)
  /-- REF_PLL_LOCK (R212): The Reference PLL declares lock and enters LOCKED. -/
  | refPllLock (j : BitVec 64)
  /-- SP_RETUNE (R210): A write of 1 to SP_CTL.RETUNE applies the staged SP_FREQ, parks the quad and rechecks its channels. -/
  | spRetune (j : Fin 4) (q : Requester) (w : Word)
  /-- SP_BAND_SELECT (R215): The Spindle PLL chooses its band in BAND, or waits with NO_BAND. -/
  | spBandSelect (q : Fin 4)
  /-- SP_LOCK_DECLARED (R212): A Spindle PLL declares lock and enters ALIGN. -/
  | spLockDeclared (q : Fin 4)
  /-- SP_ALIGN_DONE (R213): ALIGN completes and the Spindle PLL enters LOCKED, or FROZEN under FREEZE. -/
  | spAlignDone (q : Fin 4)
  /-- SPINDLE_UNLOCK (R217): A Spindle PLL loses lock in LOCKED, parks its quad's channels and counts SPINDLE_UNLOCK. -/
  | spindleUnlock (q : Fin 4) (rail : Bool)
  /-- SP_BMEAS (R216): A write of 1 to SP_CTL.BMEAS starts an open-loop measurement of the VCO, or is refused. -/
  | spBmeas (j : Fin 4) (q : Requester) (w : Word)
  /-- SP_BMEAS_DONE (R216): The band measurement completes, writes SP_BMEAS and reacquires. -/
  | spBmeasDone (q : Fin 4) (flo fhi : BitVec 24)
  /-- CLK_RELEASE (R217): A write to CLK_RELEASE resumes the channels of frozen quads. -/
  | clkRelease (q : Requester) (w : Word)
  /-- SP_POLICY_WRITE (R217): A write of POLICY = REALIGN to a frozen Spindle PLL resumes its channels. -/
  | spPolicyWrite (j : Fin 4) (q : Requester) (w : Word)
  /-- CHANNEL_UNPARK (R217): A parked channel leaves park at the first grid boundary at least 2 µs after relock, release or recovery. -/
  | channelUnpark (n : Fin 16)
  /-- SYSTEM_PLL_UNLOCK (R360): The System PLL loses lock and causes a cold reset, counting SPLL_RST. -/
  | systemPllUnlock
  /-- DRAM_PLL_UNLOCK (R360): The DRAM PLL loses lock and the controllers stop issuing commands. -/
  | dramPllUnlock
  /-- DRAM_PLL_RELOCK (R360): The DRAM PLL relocks and service resumes, or the channels go UNTRAINED. -/
  | dramPllRelock
  /-- AUX_RETUNE (R221): A write of 1 to AUX_CTL.RETUNE applies AUX_FREQ and ADIV. -/
  | auxRetune (i : Fin 2) (q : Requester) (w : Word)
  /-- AUX_ARM (R222): A write of 1 to AUX_CTL.ARM arms the ramp at AUX_START, or is refused with RAMP_ERR. -/
  | auxArm (i : Fin 2) (q : Requester) (w : Word)
  /-- AUX_RAMP_START (R222): The ramp starts at AUX_START, or at once with RAMP_LATE. -/
  | auxRampStart (i : Fin 2)
  /-- AUX_RAMP_POINT (R222): The ramp reaches a point and moves on under RMODE. -/
  | auxRampPoint (i : Fin 2)
  /-- AUX_RAMP_STOP (R222): A write of RMODE = OFF stops the ramp where it stands. -/
  | auxRampStop (i : Fin 2) (q : Requester) (w : Word)
  /-- CO_ENABLE (R223): A write of EN = 1 to CO_CFGj starts a CLKOUT pair, or is ignored with ERR. -/
  | coEnable (j : Fin 8) (q : Requester) (w : Word)
  /-- CO_DLY_APPLY (R224): A change of CLKOUT delay takes effect within 1 µs without a runt pulse. -/
  | coDlyApply (j : Fin 8)
  /-- SET (R230): Time command SET loads DTIME with the argument. -/
  | set (q : Requester) (w : Word)
  /-- SET_AT_PPS (R230): Time command SET_AT_PPS steps DTIME at the next PPS_IN edge. -/
  | setAtPps (q : Requester) (w : Word)
  /-- ADJ (R230): Time command ADJ steps DTIME by a signed offset. -/
  | adj (q : Requester) (w : Word)
  /-- ALIGN_PPS (R230): Time command ALIGN_PPS steps DTIME to align the next PPS_IN edge to the second. -/
  | alignPps (q : Requester) (w : Word)
  /-- TIME_STEP (R236): Time command STEP applies the pending holdover REMAIN as a step. -/
  | timeStep (q : Requester) (w : Word)
  /-- CANCEL (R230): Time command CANCEL withdraws a waiting command or sets REMAIN to 0. -/
  | cancel (q : Requester) (w : Word)
  /-- PPS_CMD_TIMEOUT (R230): No PPS_IN edge within 2 s refuses a waiting SET_AT_PPS or ALIGN_PPS with code PPS. -/
  | ppsCmdTimeout
  /-- PPS_IN_EDGE (R232): A conditioned PPS_IN edge is timestamped, fires PPS_IN and applies any waiting PPS command. -/
  | ppsInEdge (t : Nat) (rising : Bool)
  /-- PPS_MISS (R232): No edge within 1.0001 s of the last sets PPS_MISS and clears PPS_VALID. -/
  | ppsMiss
  /-- TM_NOW_READ (R229): A read of TM_NOW_SEC samples DTIME and latches the fraction for the requester. -/
  | tmNowRead (q : Requester) (part : ReadPart)
  /-- SECOND (R191): DTIME passes a whole TAI second and SECOND fires. -/
  | second
  /-- SLEW_COMPLETE (R236): A SLEW policy removes the last of REMAIN and SLEWING clears. -/
  | slewComplete
  /-- HO_POLICY_WRITE (R237): A write to TM_HO_CFG.POLICY changes how REMAIN is handled. -/
  | hoPolicyWrite (q : Requester) (w : Word)
  /-- PTP_SYNC_RX (R240): A received Sync updates the servo, which may step DTIME, declare LOCKED or LOST. -/
  | ptpSyncRx (h : PtpHead) (twoStep : Bool) (origin : PtpTime) (t : Nat)
  /-- PTP_FOLLOW_UP_RX (R238): A received Follow_Up supplies the precise time of a two-step Sync. -/
  | ptpFollowUpRx (h : PtpHead) (origin : PtpTime)
  /-- PTP_DELAY_REQ_RX (R238): A received Delay_Req is answered with Delay_Resp. -/
  | ptpDelayReqRx (h : PtpHead) (t : Nat)
  /-- PTP_DELAY_RESP_RX (R240): A received Delay_Resp updates meanPathDelay. -/
  | ptpDelayRespRx (h : PtpHead) (t4 : PtpTime)
  /-- PTP_ANNOUNCE_RX (R241): A received Announce updates the parent and port states. -/
  | ptpAnnounceRx (h : PtpHead) (prio1 cls acc : BitVec 8) (var : BitVec 16) (prio2 : BitVec 8) (gm : BitVec 64) (steps : BitVec 16)
  /-- PTP_MANAGEMENT_RX (R238): A management GET is answered, and SET and COMMAND are refused. -/
  | ptpManagementRx (h : PtpHead) (get : Bool)
  /-- PTP_ANNOUNCE_TIMEOUT (R240): announceReceiptTimeout expires, the servo goes LOST, PTP_LOST fires and the Reference PLL coasts. -/
  | ptpAnnounceTimeout
  /-- PTP_SYNC_TX (R238): The logSyncInterval timer sends a Sync on a master port. -/
  | ptpSyncTx (i : Fin 4)
  /-- PTP_ANNOUNCE_TX (R241): The logAnnounceInterval timer sends an Announce with the current clock quality. -/
  | ptpAnnounceTx (i : Fin 4)
  /-- PTP_DELAY_REQ_TX (R238): The delay-request timer sends a Delay_Req on the receiving port. -/
  | ptpDelayReqTx (i : Fin 4)
  /-- CD_START (R242): A write of 1 to CD_CFGp.START begins cable-delay measurement on a port. -/
  | cdStart (i : Fin 4) (q : Requester) (w : Word)
  /-- CD_STOP (R242): A write of 1 to CD_CFGp.STOP ends repeated measurement. -/
  | cdStop (i : Fin 4) (q : Requester) (w : Word)
  /-- CD_REPEAT (R242): The PERIOD timer starts the next cable-delay measurement. -/
  | cdRepeat (i : Fin 4)
  /-- CD_RESULT (R242): A measurement's exchanges complete and a valid result is written, or FAIL or SPREAD_REJ sets. -/
  | cdResult (i : Fin 4)
  /-- CDX_RX (R272): A CDX exchange frame is received and answered, or completes an exchange. -/
  | cdxRx (i : Fin 4) (t1 t2 t3 : BitVec 64) (t : Nat)
  /-- BAR2_ACCESS (R246): A host read or write through BAR2 reaches waveform SRAM, or is out of range. -/
  | bar2Access (write : Bool) (x : BitVec 27) (be : BitVec 8) (data : Word) (e : Ecc)
  /-- BAR4_ACCESS (R265): A host read or write through BAR4 reaches DRAM through the window, or is out of range. -/
  | bar4Access (write : Bool) (x : BitVec 32) (be : BitVec 8) (data : Word) (e : Ecc)
  /-- MEM_POOL_WRITE (R246): A write to MEM_POOL sets the allocator bases, or is ignored with POOL_ERR. -/
  | memPoolWrite (q : Requester) (w : Word)
  /-- MEM_CFG_WRITE (R349): A write to MEM_CFG.POP sets the DRAM population and moves the channels to UNTRAINED. -/
  | memCfgWrite (q : Requester) (w : Word)
  /-- BANK_FILL_DONE (R246): The zero fill of a switched-on bank group completes. -/
  | bankFillDone (g : Fin 8)
  /-- SCRUB_STEP (R253): The scrubber reads a line or burst and writes back a corrected word. -/
  | scrubStep (d : Bool) (a : BitVec 37) (e : Ecc)
  /-- TREFI_TICK (R261): A tREFI tick raises the refresh debt of a rank. -/
  | trefiTick (c : Fin 4) (b : Bool) (rank : RankTick)
  /-- REFRESH_SET_DONE (R261): A refresh set completes and lowers the debt. -/
  | refreshSetDone (c : Fin 4) (b rank urgent : Bool)
  /-- MEM_FREQ_REQUEST (R262): A write of GO = 1 to MEM_FREQ requests a DRAM set-point change, or is refused. -/
  | memFreqRequest (q : Requester) (w : Word)
  /-- FREQ_CHANGE_DONE (R262): The set-point change completes and the channels leave self-refresh. -/
  | freqChangeDone
  /-- MEM_TRAIN_REQUEST (R263): A write of GO = 1 to MEM_TRAIN starts a FULL or PERIODIC run, or is refused. -/
  | memTrainRequest (q : Requester) (w : Word)
  /-- TRAIN_STEP_DONE (R263): A training step ends, and the run proceeds, fails or completes. -/
  | trainStepDone (fail : Bool)
  /-- PERIODIC_TRAIN (R263): RETRAIN_MS passes or the DRAM temperature moves 5 °C and a PERIODIC run starts. -/
  | periodicTrain (c : Fin 4)
  /-- DRAM_FILL_DONE (R263): The zero fill after the first FULL run completes and the channel becomes READY. -/
  | dramFillDone (c : Fin 4)
  /-- PING (R275): MLP PING returns session, sequence state and DTIME. -/
  | ping (p : Fin 5) (h : MlpHead)
  /-- OPEN (R279): MLP OPEN starts a new session, discards held commands and posts BIND. -/
  | open_ (p : Fin 5) (h : MlpHead)
  /-- JOURNAL_READ (R275): MLP JOURNAL_READ returns journal entries. -/
  | journalRead (p : Fin 5) (h : MlpHead) (first count : BitVec 32)
  /-- NOTE_READ (R281): MLP NOTE_READ returns stored notifications. -/
  | noteRead (p : Fin 5) (h : MlpHead) (first count : BitVec 32)
  /-- REG_READ (R275): MLP REG_READ reads BAR0 registers. -/
  | regRead (p : Fin 5) (h : MlpHead) (off : BitVec 64) (count : BitVec 32) (e : Ecc)
  /-- REG_WRITE (R275): MLP REG_WRITE writes BAR0 registers and counts ignored writes. -/
  | regWrite (p : Fin 5) (h : MlpHead) (off : BitVec 64) (count : BitVec 32) (vals : List Word) (e : Ecc)
  /-- MEM_READ (R275): MLP MEM_READ reads SRAM or DRAM. -/
  | memRead (p : Fin 5) (h : MlpHead) (region addr len : BitVec 64) (e : Ecc)
  /-- MEM_WRITE (R275): MLP MEM_WRITE writes SRAM or DRAM. -/
  | memWrite (p : Fin 5) (h : MlpHead) (region addr len : BitVec 64) (vals : List Word)
  /-- IMAGE_LOAD (R275): MLP IMAGE_LOAD checks and loads an image into a halted core and optionally arms it. -/
  | imageLoad (p : Fin 5) (h : MlpHead) (core : Byte) (arm : Bool) (image : List Word)
  /-- NOTE_CFG (R281): MLP NOTE_CFG sets the session's notification kind mask. -/
  | noteCfg (p : Fin 5) (h : MlpHead) (mask : BitVec 32)
  /-- PTP_DS_GET (R275): MLP PTP_DS_GET returns a PTP dataset. -/
  | ptpDsGet (p : Fin 5) (h : MlpHead) (id : BitVec 16)
  /-- PTP_DS_SET (R275): MLP PTP_DS_SET writes a PTP dataset. -/
  | ptpDsSet (p : Fin 5) (h : MlpHead) (id : BitVec 16) (data : List Byte)
  /-- MLP_DISCARD (R272): A malformed, out-of-window or foreign MLP message is discarded and counts DROP. -/
  | mlpDiscard (p : Fin 5) (d : Discard)
  /-- SEQGAP_TIMEOUT (R277): The gap timer expires, held commands are discarded, SEQGAP counts and is notified. -/
  | seqgapTimeout (p : Fin 5)
  /-- P0_CMD_TAIL_WRITE (R273): The host advances P0_CMD_IDX.TAIL and the device fetches new command entries. -/
  | p0CmdTailWrite (q : Requester) (tail : BitVec 16)
  /-- P0_RSP_HEAD_WRITE (R273): The host advances P0_RSP_IDX.HEAD, freeing response entries so fetching resumes. -/
  | p0RspHeadWrite (q : Requester) (head : BitVec 16)
  /-- PORT0_RESET (R268): An FLR, hot reset, link down or PERST_N disables the PORT0 rings and discards its held state. -/
  | port0Reset (kind : PortReset)
  /-- PERST_N_RELEASE (R353): PERST_N goes high after step 6 and PORT0 starts link training. -/
  | perstNRelease
  /-- PRT_BIND_WRITE (R271): A PL0 write to PRT_BINDp requests a binding change. -/
  | prtBindWrite (p : Fin 5) (q : Requester) (w : Word)
  /-- BINDING_APPLY (R271): The binding change applies when the executing command completes, ending the session. -/
  | bindingApply (p : Fin 5)
  /-- IRQ_COALESCE_TIMEOUT (R282): COAL_US passes after a response entry and the ring requests its MSI-X vector. -/
  | irqCoalesceTimeout
  /-- PRT_FI_WRITE (R283): A write to PRT_FIp enables fault injection or clears it and releases held groups. -/
  | prtFiWrite (p : Fin 5) (q : Requester) (w : Word)
  /-- REORDER_TIMEOUT (R283): A reorder group is not full 100 µs after its first frame and is released. -/
  | reorderTimeout (p : Fin 5) (tx : Bool)
  /-- ARP_RX (R269): An ARP frame is received and answered. -/
  | arpRx (p : Fin 4) (target : BitVec 32)
  /-- ND_RX (R269): A Neighbour Discovery message is received and answered. -/
  | ndRx (p : Fin 4) (hi lo : Word)
  /-- ICMP_ECHO_RX (R269): An ICMP or ICMPv6 echo request is received and answered. -/
  | icmpEchoRx (p : Fin 4) (v6 frag : Bool)
  /-- PWR_REQ_ACTIVE (R290): PWR_REQ TARGET = ACTIVE leaves TRIM or wakes from DOZE. -/
  | pwrReqActive (q : Requester) (w : Word)
  /-- PWR_REQ_TRIM (R290): PWR_REQ TARGET = TRIM throttles STD and BG cores. -/
  | pwrReqTrim (q : Requester) (w : Word)
  /-- PWR_REQ_DOZE (R290): PWR_REQ TARGET = DOZE runs the entry handshake and enters DOZE. -/
  | pwrReqDoze (q : Requester) (w : Word)
  /-- PWR_REQ_REST (R290): PWR_REQ TARGET = REST runs the entry handshake and enters REST. -/
  | pwrReqRest (q : Requester) (w : Word)
  /-- HANDSHAKE_RETRY (R292): 1 ms after a DELAY the controller asks the domain again. -/
  | handshakeRetry
  /-- PWR_DOM_ON_WRITE (R288): A write to PWR_DOM_ON switches one domain on, or asks it off under the handshake. -/
  | pwrDomOnWrite (one : Bool) (q : Requester) (w : Word)
  /-- WAKE (R298): An enabled wake source fires and the device wakes from DOZE or REST. -/
  | wake (src : Fin 12) (t : Nat) (fresh : Bool)
  /-- PG_GOOD (R287): A PG input rises and the next supply is enabled. -/
  | pgGood (line : Fin 6)
  /-- PG_TIMEOUT (R299): A PG does not arrive within PG_TMO and the wake attempt fails. -/
  | pgTimeout
  /-- OSC_READY (R298): The fast oscillator reports ready. -/
  | oscReady
  /-- OSC_TIMEOUT (R299): The fast oscillator does not report ready within OSC_TMO and the wake attempt fails. -/
  | oscTimeout
  /-- WAKE_RETRY (R299): 10 ms after a failed wake attempt the controller tries again, or returns to REST with FAULT_N. -/
  | wakeRetry
  /-- WAKE_DONE (R298): The wake reaches ACTIVE, records PWR_ACT and fires WAKE_DONE. -/
  | wakeDone (u : RestUpset)
  /-- PG_LOSS (R364): A PG falls for over 10 µs while its supply is on, and the device parks, powers down and retries. -/
  | pgLoss (line : Fin 6)
  /-- BROWNOUT_WARN (R301): A supply falls below its warning level, stops BG work and admission, and parks if enabled. -/
  | brownoutWarn (rest : Bool)
  /-- BROWNOUT_CLEAR (R301): The supply stays above warning plus hysteresis for 10 µs and BO_ACTIVE clears. -/
  | brownoutClear (rest : Bool)
  /-- SUPPLY_RESET_LEVEL (R300): VDD_REST or VDD_CORE reaches its reset level and causes POR or cold reset. -/
  | supplyResetLevel (rest : Bool)
  /-- GOV_EVAL (R302): Every 1 ms the Governor evaluates headroom and serves the admission queues. -/
  | govEval (temps : List (BitVec 16)) (mons : List (BitVec 32)) (rest : BitVec 32)
  /-- GOV_TRIM_ENTER (R306): H < 0 for 1 ms sets GOV_TRIM and doubles the throttle dividers. -/
  | govTrimEnter
  /-- GOV_THROTTLE_DOUBLE (R306): Every 10 ms with H < 0 the dividers double again. -/
  | govThrottleDouble
  /-- GOV_THROTTLE_HALVE (R306): After 100 ms and then every 10 ms with H ≥ MARGIN the dividers halve, clearing GOV_TRIM at 1. -/
  | govThrottleHalve
  /-- COEF_UPDATE (R303): SC1 updates BG_COEF every second. -/
  | coefUpdate (core vr sr dr : BitVec 16)
  /-- HW_GUARD_ENGAGE (R307): With SC1 halted, a sensor at TJ_LIMIT sets every STD and BG divider to 255. -/
  | hwGuardEngage
  /-- HW_GUARD_RELEASE (R307): Every sensor falls 5 °C below TJ_LIMIT and the guard restores the dividers. -/
  | hwGuardRelease
  /-- THERMAL_TRIP (R360): A sensor at 115 °C for 100 µs parks the outputs and forces REST. -/
  | thermalTrip
  /-- PWR_RMEM_ACCESS (R295): A PWR_RMEM_DATA access reads or writes Rest memory and advances the address. -/
  | pwrRmemAccess (q : Requester) (write : Bool) (w : Word) (e : Ecc)
  /-- CAL_START (R314): A write of 1 to CAL_CTL.START sets DUE. -/
  | calStart (n : Fin 16) (q : Requester) (w : Word)
  /-- CAL_ABORT (R316): A run is cut short by ABORT or another cause and counts CAL_ABORT. -/
  | calAbort (n : Fin 16) (q : Requester) (w : Word)
  /-- CAL_FLIP (R319): A write of 1 to CAL_CTL.FLIP makes the inactive bank active, or is ignored with WR_ERR. -/
  | calFlip (n : Fin 16) (q : Requester) (w : Word)
  /-- CAL_TEMP_CHECK (R314): Every 10 ms the quad temperature is compared with T_LAST and may set DUE. -/
  | calTempCheck (n : Fin 16)
  /-- CAL_RUN_START (R315): Admission is granted and a calibration run starts. -/
  | calRunStart (n : Fin 16)
  /-- CAL_STEP_DONE (R313): A run step or slice exchange completes and the run moves on. -/
  | calStepDone (n : Fin 16)
  /-- CAL_DONE (R318): The run's bank flip takes effect, the run completes and CAL_DONE fires. -/
  | calDone (n : Fin 16)
  /-- CAL_BANK_WRITE (R319): A write to the calibration bank window, refused for the active bank or during a run. -/
  | calBankWrite (n : Fin 16) (j : Fin 10) (q : Requester) (w : Word)
  /-- CAL_STORE (R322): A store of calibration results to a Rest-memory slot is requested. -/
  | calStore (q : Requester) (w : Word)
  /-- CAL_STORE_DONE (R322): A store completes its slot and any merged request follows. -/
  | calStoreDone
  /-- REGISTER_WRITE (R337): A BAR0 write to a register with no row of its own is checked for protection and applied. -/
  | registerWrite (q : Requester) (off : BitVec 24) (d : WriteData) (e ecc : Ecc)
  /-- REGISTER_READ_LOW (R328): A 32-bit read of a low word latches the high word into the requester's shadow. -/
  | registerReadLow (q : Requester) (off : BitVec 24) (part : ReadPart) (e : Ecc)
  /-- REGISTER_WRITE_LOW (R329): A 32-bit low-word write is held until its high word completes it, or is dropped. -/
  | registerWriteLow (q : Requester) (off : BitVec 24) (h : Half)
  /-- BAD_ACCESS (R326): A BAR0 access of illegal size or alignment reads 0 or is dropped and sets SIZE_ERR. -/
  | badAccess (q : Requester) (write : Bool)
  /-- CORE_DMEM_ACCESS (R53): A host access to CORE_DMEM_DATA moves one data-memory word and advances the address. -/
  | coreDmemAccess (k : Fin 64) (q : Requester) (write : Bool) (w : Word) (part : ReadPart) (e : Ecc)
  /-- GLB_CNT_CLR (R343): A write to GLB_CNT_CLR clears global trouble counters. -/
  | glbCntClr (q : Requester) (w : Word)
  /-- BLOCK_CNT_CLR (R343): A write of 1 to a block's own CNT_CLR bit clears that block's counters. -/
  | blockCntClr (q : Requester) (off : BitVec 24)
  /-- GLB_ONCE_WRITE (R339): The first passing write to GLB_ONCE spends its fields until cold reset. -/
  | glbOnceWrite (q : Requester) (w : Word)
  /-- GLB_PROT_WRITE (R336): A PL0 write to GLB_PROT changes the protection table for later accesses. -/
  | glbProtWrite (i : Fin 12) (q : Requester) (w : Word)
  /-- POR (R347): VDD_REST stays above 3.06 V for 10 µs and the Rest domain leaves power-on reset. -/
  | por
  /-- CRYSTAL_READY (R347): The crystal oscillator reports ready and power-up continues. -/
  | crystalReady (porst : Bool) (bootsel : BitVec 2)
  /-- CRYSTAL_TIMEOUT (R360): The crystal is not ready 1 s after POR and FAULT_N is asserted. -/
  | crystalTimeout (porst : Bool) (bootsel : BitVec 2)
  /-- COLD_RESET (R352): PORST_N held low for 10 µs resets every domain except the Rest domain. -/
  | coldReset
  /-- CHIP_RESET (R350): The JTAG instruction CHIP_RESET causes a cold reset. -/
  | chipReset
  /-- DOORBELL (R356): The host writes DOORBELL and the loader takes the SRAM image. -/
  | doorbell (e : Ecc)
  /-- IMAGE_LOADED (R357): The loader completes loading an image and the Service Cores run, or it waits or stops. -/
  | imageLoaded (a b : Fin 5) (ver : BitVec 32)
  /-- WATCHDOG_EXPIRY (R358): The 100 ms watchdog expires and the Service Cores halt. -/
  | watchdogExpiry
  /-- SPLL_RST_CLEAR (R360): 1 s in ACTIVE without a System PLL reset returns SPLL_RST to 0. -/
  | spllRstClear
  /-- VOICE_SAMPLE (R141): At each voice sample of the channel grid, the voice NCO advances, ramps step, TICK and PAT values are produced
  and the channel forms its composed sum. -/
  | voiceSample (n : Fin 16)
  /-- DAC_SAMPLE (R28): At each DAC sample the Burr Guard chooses the output by precedence, applies the underrun repeat or ramp and the
  major-carry hold, and the channel NCO advances. -/
  | dacSample (n : Fin 16)
  /-- AUX_LOCK_DECLARED (R221): An auxiliary synthesizer declares lock under R212, enters LOCKED and releases its CLKOUT pairs from the
  inactive level. -/
  | auxLockDeclared (i : Fin 2)
  /-- AUX_LOSS_OF_LOCK (R212): An auxiliary synthesizer declares loss of lock and AUX_STATUS.STATE reads LOST. -/
  | auxLossOfLock (i : Fin 2)
  /-- REF_INPUT_VALID (R205): Edges return on an invalid REF_A or REF_B input, which becomes valid again and starts its qualification time.
  -/
  | refInputValid (x : Fin 2)
  /-- CURRENT_LIMIT_RELEASED (R171): The fault at a DAC pin goes away and the leg's current limit disengages, cancelling a pending episode
  or starting the 1 µs release time. -/
  | currentLimitReleased (n : Fin 16) (p : Bool)
  /-- CORE_SUPPLY_RETURN (R351): After a cold reset caused by VDD_CORE, the supply stays above 0.660 V for 10 µs and the device resumes at
  step 4 of the power-up sequence. -/
  | coreSupplyReturn
  /-- PORST_N_RELEASE (R352): PORST_N goes high, the domains leave reset and power-up continues by sampling BOOTSEL or resuming at step 4.
  -/
  | porstNRelease (bootsel : BitVec 2)
  /-- SERVICE_CORE_ECC_ERROR (R358): An uncorrected error in a Service Core's own memories halts both Service Cores with CODE ECC. -/
  | serviceCoreEccError
  /-- PCIE_LINK_UP (R353): PORT0 link training completes and P0_LINK.UP sets with the negotiated width and speed. -/
  | pcieLinkUp (width speed : BitVec 4)
  /-- ETH_LINK_UP (R269): An Ethernet port gains PCS block lock and ETH_STAT.UP sets. -/
  | ethLinkUp (p : Fin 4)
  /-- ETH_LINK_DOWN (R269): An Ethernet port loses block lock or signal and ETH_STAT.UP clears. -/
  | ethLinkDown (p : Fin 4) (loss : EthLoss)
  /-- CD_EXCHANGE_TX (R242): Every 20 µs during a LOOP or PEER measurement the port sends the next exchange frame and timestamps t1. -/
  | cdExchangeTx (i : Fin 4) (t : Nat)
  /-- RELAY_DIVIDE_OUTPUT (R197): A relay unit in DIVIDE fires its output 10 ns after the reference time of the Nth event it took. -/
  | relayDivideOutput (r : Fin 8)
  deriving DecidableEq, Repr

end Sys2Proof
end

