-- ==== Sys2Proof/WellFormed.lean ====
section
/-! DEFINITION. Which commands are well formed: operands that the types of Syntax.lean leave open and the spec bounds. -/

namespace Sys2Proof

/-- A DTIME of 96 bits (R11). -/
def timeOk (t : Nat) : Bool := decide (t < 2 ^ 96)

/-- The offset of a register (R326). -/
def aligned (off : BitVec 24) : Bool := off.toNat % 8 == 0

/-- The widths that PORT0 trains to (R267). -/
def widthOk (w : BitVec 4) : Bool := w == 1 || w == 2 || w == 4 || w == 8

/-- Words of payload that a stream packet's header names (R117). -/
def packetWords (h0 h1 : BitVec 64) : Nat := (h1.toNat % 65536 * (if h0.getLsbD 26 then 4 else 2) + 7) / 8

/-- Whether a command is well formed. -/
def WellFormed : Instr → Bool
  | .arm .. => true
  | .start .. => true
  | .stop .. => true
  | .resume .. => true
  | .reset .. => true
  | .step .. => true
  | .timeStart .. => true
  | .admissionGrant .. => true
  | .admissionTimeout .. => true
  | .clusterFillDone .. => true
  | .qstallResume .. => true
  | .budgetGrant .. => true
  | .budgetTimeout .. => true
  | .evtWaitTimeout .. => true
  | .bufOpComplete .. => true
  | .add .. => true
  | .sub .. => true
  | .and .. => true
  | .or .. => true
  | .xor .. => true
  | .shl .. => true
  | .shr .. => true
  | .sra .. => true
  | .mul .. => true
  | .addi .. => true
  | .andi .. => true
  | .ori .. => true
  | .xori .. => true
  | .shli .. => true
  | .shri .. => true
  | .srai .. => true
  | .ldi .. => true
  | .ldih .. => true
  | .ld .. => true
  | .st .. => true
  | .dtrdSec .. => true
  | .dtrdFrac .. => true
  | .beq .. => true
  | .bne .. => true
  | .blt .. => true
  | .bge .. => true
  | .bltu .. => true
  | .bgeu .. => true
  | .bbs .. => true
  | .bbc .. => true
  | .beqi .. => true
  | .bnei .. => true
  | .blti .. => true
  | .bgei .. => true
  | .bltui .. => true
  | .bgeui .. => true
  | .bbsi .. => true
  | .bbci .. => true
  | .goto .. => true
  | .call .. => true
  | .ret .. => true
  | .end_ .. => true
  | .nop .. => true
  | .play .. => true
  | .loop .. => true
  | .jump .. => true
  | .jumpDisarm .. => true
  | .waitTrig .. => true
  | .waitEvent .. => true
  | .waitTime .. => true
  | .waitKerf .. => true
  | .setf .. => true
  | .setp .. => true
  | .rampf .. => true
  | .mark .. => true
  | .trigo .. => true
  | .bufAlloc .. => true
  | .bufAttach .. => true
  | .bufFree .. => true
  | .bufFence .. => true
  | .bufGet .. => true
  | .bufPut .. => true
  | .evtFire .. => true
  | .evtWaitArm .. => true
  | .evtWait .. => true
  | .budget .. => true
  | .windowClose .. => true
  | .kerf v => v.late.all fun l => decide (l.from_ ≤ l.upTo) && decide (l.upTo ≤ 512)
  | .grainStart _ late => late.all fun l => decide (l.from_ ≤ l.upTo) && decide (l.upTo ≤ 512)
  | .grainFetchIssue .. => true
  | .refillGrainArrive .. => true
  | .waitRelease .. => true
  | .jumpAccept .. => true
  | .jumpLand .. => true
  | .voiceJtWrite .. => true
  | .jtPreloadDone .. => true
  | .voiceSegtabWrite .. => true
  | .markAction .. => true
  | .markPulseEnd .. => true
  | .rampEnd .. => true
  | .streamPacketRx src _ h0 h1 _ _ payload => src == 5 || payload.words.length == packetWords h0 h1
  | .streamBlockCheck .. => true
  | .stmCfgEnable .. => true
  | .hostBufAlloc .. => true
  | .hostBufFree .. => true
  | .hostBufAttach .. => true
  | .hostBufQuery .. => true
  | .chEnable .. => true
  | .chDisable .. => true
  | .channelStart .. => true
  | .channelStop .. => true
  | .runtimeBoundary .. => true
  | .chSlotWrite .. => true
  | .voiceJoin .. => true
  | .ncoResync .. => true
  | .ncoReset .. => true
  | .rangeRequest .. => true
  | .rangeChangeStart .. => true
  | .rangeDone .. => true
  | .muteWrite .. => true
  | .scEngage .. => true
  | .scEpisode .. => true
  | .scRelease .. => true
  | .dacBiasSettled .. => true
  | .trigInEdge _ t _ _ => timeOk t
  | .tiCfgApply .. => true
  | .trigOutPulse .. => true
  | .trigOutPulseEnd .. => true
  | .eventPass .. => true
  | .eventDelivery .. => true
  | .evtFireWrite .. => true
  | .routingApply .. => true
  | .relayDelayOutput .. => true
  | .relayTimerOutput .. => true
  | .evrCfgWrite .. => true
  | .evrParamWrite .. => true
  | .evrStartWrite .. => true
  | .ecSrcWrite .. => true
  | .ecCtlWrite .. => true
  | .refInputLost .. => true
  | .refGateEnd .. => true
  | .refQualified .. => true
  | .refSourceWrite .. => true
  | .refPllLock .. => true
  | .spRetune .. => true
  | .spBandSelect .. => true
  | .spLockDeclared .. => true
  | .spAlignDone .. => true
  | .spindleUnlock .. => true
  | .spBmeas .. => true
  | .spBmeasDone .. => true
  | .clkRelease .. => true
  | .spPolicyWrite .. => true
  | .channelUnpark .. => true
  | .systemPllUnlock => true
  | .dramPllUnlock => true
  | .dramPllRelock => true
  | .auxRetune .. => true
  | .auxArm .. => true
  | .auxRampStart .. => true
  | .auxRampPoint .. => true
  | .auxRampStop .. => true
  | .coEnable .. => true
  | .coDlyApply .. => true
  | .set .. => true
  | .setAtPps .. => true
  | .adj .. => true
  | .alignPps .. => true
  | .timeStep .. => true
  | .cancel .. => true
  | .ppsCmdTimeout => true
  | .ppsInEdge t _ => timeOk t
  | .ppsMiss => true
  | .tmNowRead .. => true
  | .second => true
  | .slewComplete => true
  | .hoPolicyWrite .. => true
  | .ptpSyncRx _ _ _ t => timeOk t
  | .ptpFollowUpRx .. => true
  | .ptpDelayReqRx _ t => timeOk t
  | .ptpDelayRespRx .. => true
  | .ptpAnnounceRx .. => true
  | .ptpManagementRx .. => true
  | .ptpAnnounceTimeout => true
  | .ptpSyncTx .. => true
  | .ptpAnnounceTx .. => true
  | .ptpDelayReqTx .. => true
  | .cdStart .. => true
  | .cdStop .. => true
  | .cdRepeat .. => true
  | .cdResult .. => true
  | .cdxRx _ _ _ _ t => timeOk t
  | .bar2Access .. => true
  | .bar4Access .. => true
  | .memPoolWrite .. => true
  | .memCfgWrite .. => true
  | .bankFillDone .. => true
  | .scrubStep _ a _ => a.toNat % 8 == 0
  | .trefiTick .. => true
  | .refreshSetDone .. => true
  | .memFreqRequest .. => true
  | .freqChangeDone => true
  | .memTrainRequest .. => true
  | .trainStepDone .. => true
  | .periodicTrain .. => true
  | .dramFillDone .. => true
  | .ping .. => true
  | .open_ .. => true
  | .journalRead .. => true
  | .noteRead .. => true
  | .regRead .. => true
  | .regWrite .. => true
  | .memRead .. => true
  | .memWrite .. => true
  | .imageLoad .. => true
  | .noteCfg .. => true
  | .ptpDsGet .. => true
  | .ptpDsSet .. => true
  | .mlpDiscard .. => true
  | .seqgapTimeout .. => true
  | .p0CmdTailWrite .. => true
  | .p0RspHeadWrite .. => true
  | .port0Reset .. => true
  | .perstNRelease => true
  | .prtBindWrite .. => true
  | .bindingApply .. => true
  | .irqCoalesceTimeout => true
  | .prtFiWrite .. => true
  | .reorderTimeout .. => true
  | .arpRx .. => true
  | .ndRx .. => true
  | .icmpEchoRx .. => true
  | .pwrReqActive .. => true
  | .pwrReqTrim .. => true
  | .pwrReqDoze .. => true
  | .pwrReqRest .. => true
  | .handshakeRetry => true
  | .pwrDomOnWrite .. => true
  | .wake src t _ => decide (src ≠ 0) && timeOk t
  | .pgGood .. => true
  | .pgTimeout => true
  | .oscReady => true
  | .oscTimeout => true
  | .wakeRetry => true
  | .wakeDone .. => true
  | .pgLoss .. => true
  | .brownoutWarn .. => true
  | .brownoutClear .. => true
  | .supplyResetLevel .. => true
  | .govEval temps mons _ => temps.length == 8 && mons.length == 72
  | .govTrimEnter => true
  | .govThrottleDouble => true
  | .govThrottleHalve => true
  | .coefUpdate .. => true
  | .hwGuardEngage => true
  | .hwGuardRelease => true
  | .thermalTrip => true
  | .pwrRmemAccess .. => true
  | .calStart .. => true
  | .calAbort .. => true
  | .calFlip .. => true
  | .calTempCheck .. => true
  | .calRunStart .. => true
  | .calStepDone .. => true
  | .calDone .. => true
  | .calBankWrite .. => true
  | .calStore .. => true
  | .calStoreDone => true
  | .registerWrite _ off _ _ _ => aligned off
  | .registerReadLow _ off _ _ => aligned off
  | .registerWriteLow _ off _ => aligned off
  | .badAccess .. => true
  | .coreDmemAccess .. => true
  | .glbCntClr .. => true
  | .blockCntClr _ off => aligned off
  | .glbOnceWrite .. => true
  | .glbProtWrite .. => true
  | .por => true
  | .crystalReady .. => true
  | .crystalTimeout .. => true
  | .coldReset => true
  | .chipReset => true
  | .doorbell .. => true
  | .imageLoaded .. => true
  | .watchdogExpiry => true
  | .spllRstClear => true
  | .voiceSample .. => true
  | .dacSample .. => true
  | .auxLockDeclared .. => true
  | .auxLossOfLock .. => true
  | .refInputValid .. => true
  | .currentLimitReleased .. => true
  | .coreSupplyReturn => true
  | .porstNRelease .. => true
  | .serviceCoreEccError => true
  | .pcieLinkUp width speed => widthOk width && decide (1 ≤ speed.toNat ∧ speed.toNat ≤ 5)
  | .ethLinkUp .. => true
  | .ethLinkDown .. => true
  | .cdExchangeTx _ t => timeOk t
  | .relayDivideOutput .. => true

end Sys2Proof
end

