-- ==== Sys2Proof/Decode.lean ====
section
/-! DEFINITION. The device takes commands, not words: no row of the table of commands has bits, so no word spells a command. The words
of Novdex instructions, which a core fetches from its own memory, are decoded in Machine/Novdex.lean. -/

namespace Sys2Proof

/-- The command that a word of nbits bits spells by the table of commands: none, since no row has bits. -/
def decodeTableWord (_nbits _w : Nat) : Option Instr := none

end Sys2Proof
end

