-- ==== Sys2Proof/Config.lean ====
section
/-! DEFINITION. What the spec leaves open: constants without a body. Nothing in Lean can evaluate one, so a claim that
mentions the model holds for every value. Each is named in a row of notes/assumptions. -/

namespace Sys2Proof.Config

/-- The n-th value that the spec leaves open. State.choice counts those already drawn. -/
opaque freeValue : Nat → BitVec 64

/-- Whether the fetch of a grain reads line l of its data at the last instant that R95 allows and not at the first, as the n-th choice. -/
opaque readLate : (n l : Nat) → Bool

/-- Whether entry i of the quarter-wave table of R89, 2^17 sin (π i / 8192), is rounded up. -/
opaque tableUp : (i : Nat) → Bool

/-- Whether the first-order correction between two entries of that table is rounded up, u counting from its start in 2^-16 of an entry. -/
opaque correctionUp : (u : Nat) → Bool

/-- Whether the channel NCO's 18-bit sine of a quarter-wave angle, r / 2^46 of a quarter turn, is rounded up (R151). -/
opaque ncoUp : (r : Nat) → Bool

/-- Taps of the filters, in units of 2^-30. What the spec states of them is in Machine/Figures.lean. A voice's fractional-delay filter at
voff / 1024 voice sample, for the sample d places on (R80). -/
opaque voiceTap : (voff : Nat) → (d : Int) → Int

/-- The interpolator's stage A of factor ra and its half-band stage, for an input sample that lies d output samples before (R149). -/
opaque stageATap : (ra : Nat) → (d : Int) → Int
opaque halfBandTap : (d : Int) → Int

/-- The coefficient of the p-th power of the phase in the Farrow structure, for the word d places on (R150). -/
opaque farrowTap : (p : Nat) → (d : Int) → Int

/-- The fractional-delay filter of the trim, with FRAC = frac, for the DAC sample d places on (R152). -/
opaque trimTap : (frac : Nat) → (d : Int) → Int

/-- The sinc and droop correction of mode 1 to 3, for the DAC sample d places on (R154). -/
opaque droopTap : (mode : Nat) → (d : Int) → Int

/-- 2^16 times the part of a TICK step that has been taken d / 1024 voice samples after its edge, for d other than 0 (R90). -/
opaque stepShape : (voff : Nat) → (d : Int) → Int

/-- The mean frequency of the Reference PLL's loop over a span of DTIME, as an offset from 2.4 GHz in 2^-40 of it (R208). -/
opaque meanRate : (from_ till : Nat) → Int

/-- The taps of the 24-bit LFSR of R211, whose polynomial the spec does not state. -/
opaque lfsrTaps : BitVec 24

/-- The first update of the word of ramp generator i from DTIME 0 on, in DTIME units: the spec does not place the raster of R222. -/
opaque rampLag : (i : Nat) → Nat

/-- By how much the own delay of the converter of channel n falls short of 2.50 ns, in fs, taken modulo 60,001, while its quad's sensor reads
temp (R160, R311). -/
opaque converterLack : (n temp : Nat) → Nat

/-- The lag of the driver of lane l of channel n, in fs, taken modulo 30,001, likewise (R311). -/
opaque laneLag : (n l temp : Nat) → Nat

/-- From the write that starts a CLKOUT divider at DTIME t to its first rising edge, in DTIME units, when source src is no Spindle clock
(R224: the spec does not place it). -/
opaque coStart : (src t : Nat) → Nat

/-- DTIME units that a cycle of the Rest clock counts, by the rate that the Rest domain measured before the n-th entry (R234). -/
opaque restStep : Nat → Nat

/-- Whether the VCO band that auxiliary synthesizer hardware chooses for frequency word n0 also covers word n (R222: the
bands are the hardware's and the spec gives none). -/
opaque auxBandCovers : (n0 n : Nat) → Bool

/-- Stepping of the part, the two reset fields of DEV_ID that depend on it (R2): its letter from A, and its digit. -/
opaque stepMajor : Fin 15
opaque stepMinor : Fin 10

/-- The levels of a CS_N of a DRAM group that self-refresh requires and at reset (R349, R369). -/
opaque csSelfRefresh : Bool
opaque csReset : Bool

/-- The word that IDCODE shifts out (R372). -/
opaque idcode : BitVec 32

/-- How long after ACTIVE the Global block answers configuration requests, in DTIME units, 1 ms or less (R353). -/
opaque globalReady : Fin (2 ^ 48 / 1000 + 1)

/-- clockIdentity of the PTP instance (R238: IEEE 1588-2019 makes it of an EUI-64 that the spec does not give). -/
opaque clockIdentity : BitVec 64

/-- Its offsetScaledLogVariance, which the spec does not give (R241). -/
opaque clockVariance : BitVec 16

/-- The SECDED (72,64) check byte of a word, and one that decodes as uncorrected for it (R250, R251: the code's matrix is not stated). -/
opaque secded : BitVec 64 → BitVec 8
opaque poisonByte : BitVec 64 → BitVec 8

/-- A byte of DRAM whose contents became undefined (R360): the n-th loss, byte address a. -/
opaque lostByte : (n a : Nat) → BitVec 8

/-- Word i of the parts of Rest memory whose layout the spec does not give (save list, trained sets, Service Core state), after the n-th
entry that wrote it (R295). -/
opaque savedWord : (n i : Nat) → BitVec 64

/-- The dataField of a PTP management dataset that IEEE 1588-2019 and not the spec lays out, as the n-th choice. -/
opaque dataset : (n id : Nat) → List (BitVec 8)

/-- L1SyncState of port i + 1 at DTIME t while L1SYNC is enabled (R238): IEEE 1588-2019 and the partner's messages decide it. -/
opaque l1State : (i t : Nat) → BitVec 4

end Sys2Proof.Config
end

