-- ==== Sys2Proof/Machine/RegMap.lean ====
section
/-! DEFINITION. The register map of BAR0: every register the chapters list, its offset, its access codes, its reserved
fields, its reset value (chapters 00 and 02 to 17), and a name for every field. Typed from the register tables of spec/. -/

namespace Sys2Proof.Machine

/-- Every register family of BAR0, by the manual's name. Registers that the manual numbers are one family with indexes. -/
inductive Reg where
  | DEV_ID
  | DEV_CAP
  | GLB_STATUS
  | GLB_ONCE
  | GLB_SCLVL
  | GLB_LOCK
  | GLB_CFG
  | PROT_LAST
  | GLB_RSVD_LAST
  | GLB_PROT0
  | GLB_PROTA
  | GLB_PROT11
  | GLB_TRB
  | GLB_CNT_CLR
  | PWR_REQ
  | PWR_STATUS
  | PWR_REFUSER
  | PWR_DOM_ON0
  | PWR_DOM_ON1
  | PWR_DOM_STAT0
  | PWR_DOM_STAT1
  | REST_CFG
  | REST_BANKS
  | PWR_WAKE_EN
  | PWR_ALARM_SEC
  | PWR_ALARM_FRAC
  | PWR_WAKE_REC
  | PWR_WAKE_SEC
  | PWR_WAKE_FRAC
  | PWR_ACT_SEC
  | PWR_ACT_FRAC
  | PWR_WAKE_CFG
  | PWR_FAULT
  | PWR_BO_CFG
  | PWR_RMEM_ADDR
  | PWR_RMEM_DATA
  | PWR_LOCK
  | BG_CFG
  | BG_STATUS
  | BG_RESV
  | BG_COEF
  | BG_TEMP
  | PWR_MON
  | CLK_REF_CFG
  | CLK_REF_STATUS
  | REF_FREQ
  | REF_MON
  | REF_LOCKDET
  | REF_MEAS
  | LOCKMON_SEL
  | CLK_RELEASE
  | CLK_LOCK
  | SP_CTL
  | SP_FREQ
  | SP_LOCKDET
  | SP_SEED
  | SP_STATUS
  | SP_BMEAS
  | SP_FDAC
  | SP_BAND
  | AUX_CTL
  | AUX_FREQ
  | AUX_STATUS
  | AUX_START_SEC
  | AUX_START_FRAC
  | AUX_PT_N
  | AUX_PT_T
  | CO_CFG
  | CO_DLY
  | TM_NOW_SEC
  | TM_NOW_FRAC
  | TM_CMD
  | TM_ARG_SEC
  | TM_ARG_FRAC
  | TM_STATUS
  | TM_UNC
  | TM_HO_CFG
  | TM_HO_REMAIN
  | TM_HO_BUILD
  | TM_PPS_CFG
  | TM_PPS_SEC
  | TM_PPS_FRAC
  | TM_REST_CFG
  | TM_LOCK
  | TM_RETLOG_A
  | TM_RETLOG_B
  | TM_RETLOG_C
  | PTP_CFG
  | PTP_STAT
  | PTP_OFFSET
  | PTP_MPD
  | PTP_PORT
  | PTP_TSADJ
  | PTP_PSTAT
  | CD_CFG
  | CD_LOOP
  | CD_RES
  | CD_STAT
  | CD_MAP
  | CD_TGT
  | TI_CFG
  | TI_TS_SEC
  | TI_TS_FRAC
  | TI_CNT
  | TO_CFG
  | TRIG_LOCK
  | EVT_FIRE
  | EVF_STATUS
  | EVF_LOOP_LAST
  | EVF_CIN_SEL
  | EVF_CIN_CNT
  | EVF_OVR
  | EVF_OVR6
  | EVF_LOCK
  | EVF_IRQ_SEL
  | EVF_WAKE_SEL
  | EVF_IRQ_PEND
  | EVF_VTRB
  | EVF_CHEV
  | EC_SRC_A
  | EC_SRC_B
  | EC_CTL
  | EVR_CFG
  | EVR_PARAM
  | EVR_START_SEC
  | EVR_START_FRAC
  | EVR_TS_SEC
  | EVR_TS_FRAC
  | CAL_CFG
  | CAL_STORE
  | CAL_LOCK
  | CAL_CTL
  | CAL_STATUS
  | CAL_TEMP
  | CAL_CNT
  | CAL_LAST_SEC
  | CAL_LAST_FRAC
  | CAL_B_MAIN
  | CAL_B_MK
  | CAL_B_SLICE
  | MEM_CFG
  | MEM_STATUS
  | MEM_FREQ
  | MEM_TRAIN
  | MEM_TRAIN_STAT
  | MEM_MAINT
  | MEM_SCRUB
  | MEM_POOL
  | MEM_BAR4
  | MEM_ECC_LOG
  | MEM_ECC_CNT
  | MEM_SRAM_STAT
  | MEM_LOCK
  | MEM_PORTQ
  | MEM_PORT4
  | MEM_PORT5
  | MEM_PORT6
  | MEM_PORT7
  | DDR_STAT
  | STM_CFG
  | STM_RING
  | STM_SLIP
  | STM_STAT
  | STM_CNT
  | REFILL_CTL
  | REFILL_STAT
  | BUF_CMD
  | BUF_RES
  | BUF_INFO
  | BUF_ADDR
  | BUF_POOL
  | DRAM_BACKED
  | PRT_BIND0
  | PRT_BIND
  | PRT_SEQ
  | PRT_CFG
  | PRT_CNT
  | PRT_FI
  | PRT_FI_CNT
  | LNK_JNL
  | LNK_LOCK
  | P0_CMDQ_BASE
  | P0_RSPQ_BASE
  | P0_QCFG
  | P0_CMD_IDX
  | P0_RSP_IDX
  | P0_IRQ
  | P0_LINK
  | ETH_CFG
  | ETH_MAC
  | ETH_IP4
  | ETH_IP6_HI
  | ETH_IP6_LO
  | ETH_STAT
  | ETH_PEER_HI
  | ETH_PEER_LO
  | MSIX_TAB
  | MSIX_PBA
  | LNK_JWIN
  | CH_CTL
  | CH_STATUS
  | CH_CFG
  | CH_EPOCH_SEC
  | CH_EPOCH_FRAC
  | CH_GROUP
  | CH_COMP
  | CH_SLOT
  | CH_NCO_FW
  | CH_NCO_PH
  | CH_NCO_EPOCH_SEC
  | CH_NCO_EPOCH_FRAC
  | CH_TRIM
  | CH_TRIM_AUTO
  | CH_TRIM_EFF
  | CH_LAT
  | CH_DPCNT
  | CH_LOCK
  | CH_DAC_CTL
  | CH_DAC_CFG
  | CH_DAC_RANGE
  | CH_DAC_STATUS
  | CH_DAC_CNT
  | CH_DAC_LOCK
  | MK_CFG
  | MK_STATUS
  | MK_LOCK
  | VOICE_CTL
  | VOICE_STATUS
  | VOICE_POS
  | VOICE_KERF_SEC
  | VOICE_KERF_FRAC
  | VOICE_SEGTAB
  | VOICE_SEGTAB_ACT
  | VOICE_JT_STAT
  | VOICE_TROUBLE
  | VOICE_LOCK
  | VOICE_JT
  | VOICE_Q
  | CORE_CTL
  | CORE_STATUS
  | CORE_PC
  | CORE_START_SEC
  | CORE_START_FRAC
  | CORE_START_EVT
  | CORE_FAULT
  | CORE_QUEUE
  | CORE_BUDGET
  | CORE_DMEM_ADDR
  | CORE_DMEM_DATA
  | CORE_LOCK
  | CORE_HDR
  | CORE_GREG
  | CORE_STACK
  | CORE_COST
  | CORE_IMEM
  deriving DecidableEq, Repr

/-- One row of the register tables: where the family lies, how its members are spaced, which bits carry which access
code (R9), which bits are reserved (R331), and what every member reads as after cold reset. -/
structure RegSpec where
  /-- BAR0 offset of member (0, 0); for a voice register, the offset inside the voice slice (R108). -/
  base : Nat
  /-- Whether the first index is a voice, placed in the slice of its channel block (R108). -/
  voice : Bool := false
  /-- Number of members and spacing, first index. -/
  n1 : Nat := 1
  s1 : Nat := 0
  /-- Number of members and spacing, second index. -/
  n2 : Nat := 1
  s2 : Nat := 0
  reset : Nat := 0
  rw : Nat := 0
  ro : Nat := 0
  w1c : Nat := 0
  w1s : Nat := 0
  wo : Nat := 0
  rwl : Nat := 0
  wonce : Nat := 0
  rsvd : Nat := 0
  deriving DecidableEq, Repr

/-- The register tables of the manual, one row per family. -/
def Reg.spec : Reg → RegSpec
  | .DEV_ID => { base := 0x0, reset := 0x4D56961600000000, ro := 0xFFFFFFFFFFFFFFFF, rsvd := 0xFFFFFF }   -- spec/00 R2
  | .DEV_CAP => { base := 0x8, reset := 0x3040104400, ro := 0xFFFFFFFFFFFFFFFF, rsvd := 0xFFFFFF00000000FF }   -- spec/00 R2
  | .GLB_STATUS => { base := 0x10, ro := 0xFFFFFFFFFFFFFFF1, w1c := 0xE, rsvd := 0xFFFFFFFFFFFFFFF1 }   -- spec/16 R345
  | .GLB_ONCE => { base := 0x18, wonce := 0xFFFFFFFFFFFFFFFF, rsvd := 0xFFFFFFFC }   -- spec/16 R339
  | .GLB_SCLVL => { base := 0x20, reset := 0x5, rw := 0xFFFFFFFFFFFFFFFF, rsvd := 0xFFFFFFFFFFFFFFF0 }   -- spec/16 R333
  | .GLB_LOCK => { base := 0x28, rw := 0xFFFFFFFFFFFFFFFF, rsvd := 0xFFFFFFFFFFFFFFFE }   -- spec/16 R345
  | .GLB_CFG => { base := 0x30, reset := 0x3, rwl := 0xFFFFFFFFFFFFFFFF, rsvd := 0xFFFFFFFFFFFFFFFC }   -- spec/16 R345
  | .PROT_LAST => { base := 0x38, ro := 0x7FFFFFFFFFFFFFFF, w1c := 0x8000000000000000, rsvd := 0xFFFE000000000 }   -- spec/16 R342
  | .GLB_RSVD_LAST => { base := 0x40, ro := 0x7FFFFFFFFFFFFFFF, w1c := 0x8000000000000000, rsvd := 0x71FFFFFFFF000000 }   -- spec/16 R331
  | .GLB_PROT0 => { base := 0x100, reset := 0x606060606060606, rw := 0xFFFFFFFFFFFFFFFF, rsvd := 0xF0F0F0F0F0F0F0F0 }   -- spec/16 R334
  | .GLB_PROTA => { base := 0x108, n1 := 10, s1 := 0x8, reset := 0xA0A0A0A0A0A0A0A, rw := 0xFFFFFFFFFFFFFFFF, rsvd := 0xF0F0F0F0F0F0F0F0 }   -- spec/16 R334
  | .GLB_PROT11 => { base := 0x158, reset := 0xA0A, rw := 0xFFFFFFFFFFFFFFFF, rsvd := 0xFFFFFFFFFFFFF0F0 }   -- spec/16 R334
  | .GLB_TRB => { base := 0x200, n1 := 5, s1 := 0x8, ro := 0xFFFFFFFFFFFFFFFF }   -- spec/16 R344
  | .GLB_CNT_CLR => { base := 0x228, w1s := 0xFFFFFFFFFFFFFFFF, rsvd := 0x7FFFFFFFFFFE0000 }   -- spec/16 R343
  | .PWR_REQ => { base := 0x10000, w1s := 0x8000000000000000, rwl := 0x7FFFFFFFFFFFFFFF, rsvd := 0x7FFFFFFFFFFFFEF8 }   -- spec/14 R290
  | .PWR_STATUS => { base := 0x10008, ro := 0xFFFFFFFFFFFFCEFF, w1c := 0x3100, rsvd := 0xFFFFFF00FFFFC0F0 }   -- spec/14 R309
  | .PWR_REFUSER => { base := 0x10010, reset := 0x7F, ro := 0xFFFFFFFFFFFFFFFF, rsvd := 0xFFFF0000FFFFFF80 }   -- spec/14 R293
  | .PWR_DOM_ON0 => { base := 0x10018, reset := 0xFFFFFFFFFFFFFFFF, rwl := 0xFFFFFFFFFFFFFFFF }   -- spec/14 R288
  | .PWR_DOM_ON1 => { base := 0x10020, reset := 0xFF, rwl := 0xFFFFFFFFFFFFFFFF, rsvd := 0xFFFFFFFFFFFFFF00 }   -- spec/14 R288
  | .PWR_DOM_STAT0 => { base := 0x10028, ro := 0xFFFFFFFFFFFFFFFF }   -- spec/14 R288
  | .PWR_DOM_STAT1 => { base := 0x10030, ro := 0xFFFFFFFFFFFFFFFF, rsvd := 0xFFFFFFFFFFFFFF00 }   -- spec/14 R288
  | .REST_CFG => { base := 0x10040, reset := 0x1, rwl := 0xFFFFFFFFFFFFFFFF, rsvd := 0xFFFFFFFFFFFFFFFE }   -- spec/14 R295
  | .REST_BANKS => { base := 0x10048, rwl := 0xFFFFFFFFFFFFFFFF, rsvd := 0xFFFF000000000000 }   -- spec/14 R295
  | .PWR_WAKE_EN => { base := 0x10050, reset := 0x1, rwl := 0xFFFFFFFFFFFFFFFF, rsvd := 0xFFFFFFFFFFFFF800 }   -- spec/14 R297
  | .PWR_ALARM_SEC => { base := 0x10058, rwl := 0xFFFFFFFFFFFFFFFF, rsvd := 0xFFFF000000000000 }   -- spec/14 R297
  | .PWR_ALARM_FRAC => { base := 0x10060, rwl := 0xFFFFFFFFFFFFFFFF, rsvd := 0xFFFF000000000000 }   -- spec/14 R297
  | .PWR_WAKE_REC => { base := 0x10068, ro := 0xFFFFFFFFFFFFFFFF, rsvd := 0xFFFFFFFFFF00 }   -- spec/14 R298
  | .PWR_WAKE_SEC => { base := 0x10070, ro := 0xFFFFFFFFFFFFFFFF, rsvd := 0xFFFF000000000000 }   -- spec/14 R298
  | .PWR_WAKE_FRAC => { base := 0x10078, ro := 0xFFFFFFFFFFFFFFFF, rsvd := 0xFFFF000000000000 }   -- spec/14 R298
  | .PWR_ACT_SEC => { base := 0x10080, ro := 0xFFFFFFFFFFFFFFFF, rsvd := 0xFFFF000000000000 }   -- spec/14 R298
  | .PWR_ACT_FRAC => { base := 0x10088, ro := 0xFFFFFFFFFFFFFFFF, rsvd := 0xFFFF000000000000 }   -- spec/14 R298
  | .PWR_WAKE_CFG => { base := 0x10090, reset := 0x20A0A, rwl := 0xFFFFFFFFFFFFFFFF, rsvd := 0xFFFFFFFFFFF80000 }   -- spec/14 R299
  | .PWR_FAULT => { base := 0x10098, reset := 0xFF, ro := 0xFFFFFFFFFFFF7FFF, w1c := 0x8000, rsvd := 0xFFFFFFFFFF007F00 }   -- spec/14 R299
  | .PWR_BO_CFG => { base := 0x100A0, reset := 0x1, rwl := 0xFFFFFFFFFFFFFFFF, rsvd := 0xFFFFFFFFFFFFFFFE }   -- spec/14 R301
  | .PWR_RMEM_ADDR => { base := 0x100A8, rw := 0xFFFFFFFFFFFFFFFF, rsvd := 0xFFFFFFFFFFFC0007 }   -- spec/14 R295
  | .PWR_RMEM_DATA => { base := 0x100B0, rw := 0xFFFFFFFFFFFFFFFF }   -- spec/14 R295
  | .PWR_LOCK => { base := 0x100F8, rw := 0xFFFFFFFFFFFFFFFF, rsvd := 0xFFFFFFFFFFFFFFFE }   -- spec/14 R309
  | .BG_CFG => { base := 0x10100, reset := 0xA410644B02583208, rwl := 0xFFFFFFFFFFFFFFFF }   -- spec/14 R302
  | .BG_STATUS => { base := 0x10108, ro := 0xFFFFFFFFFFFFFFFF, rsvd := 0xFF00FE }   -- spec/14 R302
  | .BG_RESV => { base := 0x10110, ro := 0xFFFFFFFFFFFFFFFF, rsvd := 0xFFFF }   -- spec/14 R303
  | .BG_COEF => { base := 0x10118, reset := 0x1E000A00040014, ro := 0xFFFFFFFFFFFFFFFF }   -- spec/14 R303
  | .BG_TEMP => { base := 0x10120, n1 := 8, s1 := 0x8, ro := 0xFFFFFFFFFFFFFFFF, rsvd := 0xFFFFFFFFFFFF0000 }   -- spec/14 R302
  | .PWR_MON => { base := 0x10200, n1 := 72, s1 := 0x8, ro := 0xFFFFFFFFFFFFFFFF, rsvd := 0xFFFFFFFF00000000 }   -- spec/14 R302
  | .CLK_REF_CFG => { base := 0x20000, reset := 0x30301010100, rwl := 0xFFFFFFFFFFFFFFFF, rsvd := 0xFFFFFCF00000F8E0 }   -- spec/10 R204
  | .CLK_REF_STATUS => { base := 0x20008, reset := 0x30, ro := 0xFFFFFFFFFFF0FFFF, w1c := 0xF0000, rsvd := 0xFFFFFFFC0CF0F0C8 }   -- spec/10 R206
  | .REF_FREQ => { base := 0x20010, n1 := 2, s1 := 0x8, reset := 0x9896800000, rwl := 0xFFFFFFFFFFFFFFFF, rsvd := 0xFFFF000000000000 }   -- spec/10 R205
  | .REF_MON => { base := 0x20020, reset := 0x640064, rwl := 0xFFFFFFFFFFFFFFFF, rsvd := 0xFFFFFFFFFF000000 }   -- spec/10 R205
  | .REF_LOCKDET => { base := 0x20028, reset := 0x410000014, rwl := 0xFFFFFFFFFFFFFFFF, rsvd := 0xFFFFFF000000FF00 }   -- spec/10 R212
  | .REF_MEAS => { base := 0x20030, ro := 0xFFFFFFFFFFFFFFFF }   -- spec/10 R205
  | .LOCKMON_SEL => { base := 0x20038, reset := 0x7, rwl := 0xFFFFFFFFFFFFFFFF, rsvd := 0xFFFFFFFFFFFFFE00 }   -- spec/10 R220
  | .CLK_RELEASE => { base := 0x20040, w1s := 0xFFFFFFFFFFFFFFFF, rsvd := 0xFFFFFFFFFFFFFFF0 }   -- spec/10 R217
  | .CLK_LOCK => { base := 0x20048, rw := 0xFFFFFFFFFFFFFFFF, rsvd := 0xFFFFFFFFFFFFFFFE }   -- spec/10 R226
  | .SP_CTL => { base := 0x21000, n1 := 4, s1 := 0x100, w1s := 0x10010, rwl := 0xFFFFFFFFFFFEFFEF, rsvd := 0xFFFFFFFFFFFEC0EC }   -- spec/10 R210
  | .SP_FREQ => { base := 0x21008, n1 := 4, s1 := 0x100, reset := 0x14000000, rwl := 0xFFFFFFFFFFFFFFFF, rsvd := 0xE0FCFFFF }   -- spec/10 R209
  | .SP_LOCKDET => { base := 0x21010, n1 := 4, s1 := 0x100, reset := 0x410000014, rwl := 0xFFFFFFFFFFFFFFFF, rsvd := 0xFFFFFF000000FF00 }   -- spec/10 R212
  | .SP_SEED => { base := 0x21018, n1 := 4, s1 := 0x100, reset := 0x1, rwl := 0xFFFFFFFFFFFFFFFF, rsvd := 0xFFFFFFFFFF000000 }   -- spec/10 R211
  | .SP_STATUS => { base := 0x21020, n1 := 4, s1 := 0x100, ro := 0xFFFFFFFFFFE0FFFF, w1c := 0x1F0000, rsvd := 0xFFFFFFE0C0F8 }   -- spec/10 R213
  | .SP_BMEAS => { base := 0x21028, n1 := 4, s1 := 0x100, ro := 0xFFFFFFFFFFFFFFFF, rsvd := 0x7FFF000000000000 }   -- spec/10 R216
  | .SP_FDAC => { base := 0x21030, n1 := 4, s1 := 0x100, ro := 0xFFFFFFFFFFFFFFFF, rsvd := 0xFFF8000000000000 }   -- spec/10 R209
  | .SP_BAND => { base := 0x21800, n1 := 4, s1 := 0x200, n2 := 64, s2 := 0x8, rwl := 0xFFFFFFFFFFFFFFFF, rsvd := 0x40FF000000000000 }   -- spec/10 R215
  | .AUX_CTL => { base := 0x23000, n1 := 2, s1 := 0x400, w1s := 0x300, rwl := 0xFFFFFFFFFFFFFCFF, rsvd := 0xFFFC00000308FCCC }   -- spec/10 R221
  | .AUX_FREQ => { base := 0x23008, n1 := 2, s1 := 0x400, reset := 0xC000000, rwl := 0xFFFFFFFFFFFFFFFF, rsvd := 0xE0FFFFFF }   -- spec/10 R221
  | .AUX_STATUS => { base := 0x23010, n1 := 2, s1 := 0x400, ro := 0xFFFFFFFFFFFCFFFF, w1c := 0x30000, rsvd := 0xFFFFFFFFFFFCF0CC }   -- spec/10 R221
  | .AUX_START_SEC => { base := 0x23018, n1 := 2, s1 := 0x400, rwl := 0xFFFFFFFFFFFFFFFF, rsvd := 0xFFFF000000000000 }   -- spec/10 R222
  | .AUX_START_FRAC => { base := 0x23020, n1 := 2, s1 := 0x400, rwl := 0xFFFFFFFFFFFFFFFF, rsvd := 0xFFFF000000000000 }   -- spec/10 R222
  | .AUX_PT_N => { base := 0x23100, n1 := 2, s1 := 0x400, n2 := 16, s2 := 0x10, rwl := 0xFFFFFFFFFFFFFFFF, rsvd := 0xE0FFFFFF }   -- spec/10 R222
  | .AUX_PT_T => { base := 0x23108, n1 := 2, s1 := 0x400, n2 := 16, s2 := 0x10, rwl := 0xFFFFFFFFFFFFFFFF, rsvd := 0xFFFFFFFF00000000 }   -- spec/10 R222
  | .CO_CFG => { base := 0x24000, n1 := 8, s1 := 0x10, w1c := 0x8000000000000000, rwl := 0x7FFFFFFFFFFFFFFF, rsvd := 0x7FFFFFFFF000FF00 }   -- spec/10 R223
  | .CO_DLY => { base := 0x24008, n1 := 8, s1 := 0x10, rwl := 0xFFFFFFFFFFFFFFFF, rsvd := 0xFFFFFFFFFF00FC00 }   -- spec/10 R224
  | .TM_NOW_SEC => { base := 0x30000, ro := 0xFFFFFFFFFFFFFFFF, rsvd := 0xFFFF000000000000 }   -- spec/11 R229
  | .TM_NOW_FRAC => { base := 0x30008, ro := 0xFFFFFFFFFFFFFFFF, rsvd := 0xFFFF000000000000 }   -- spec/11 R229
  | .TM_CMD => { base := 0x30010, w1s := 0x8000000000000000, rwl := 0x7FFFFFFFFFFFFFFF, rsvd := 0x7FFFFFFFFFFFFFF0 }   -- spec/11 R230
  | .TM_ARG_SEC => { base := 0x30018, rwl := 0xFFFFFFFFFFFFFFFF, rsvd := 0xFFFF000000000000 }   -- spec/11 R230
  | .TM_ARG_FRAC => { base := 0x30020, rwl := 0xFFFFFFFFFFFFFFFF, rsvd := 0xFFFF000000000000 }   -- spec/11 R230
  | .TM_STATUS => { base := 0x30028, ro := 0xFFFFFFFFFFFFFE73, w1c := 0x18C, rsvd := 0xFFFFFF00FFFFFE02 }   -- spec/11 R230
  | .TM_UNC => { base := 0x30030, reset := 0xFFFFFFFFFFFF, rwl := 0xFFFFFFFFFFFFFFFF, rsvd := 0xFFFF000000000000 }   -- spec/11 R233
  | .TM_HO_CFG => { base := 0x30038, reset := 0x44C00000FA0, rwl := 0xFFFFFFFFFFFFFFFF }   -- spec/11 R236
  | .TM_HO_REMAIN => { base := 0x30040, ro := 0xFFFFFFFFFFFFFFFF }   -- spec/11 R236
  | .TM_HO_BUILD => { base := 0x30048, ro := 0xFFFFFFFFFFFFFFFF }   -- spec/11 R236
  | .TM_PPS_CFG => { base := 0x30050, rwl := 0xFFFFFFFFFFFFFFFF, rsvd := 0xFFFF00000000FFF8 }   -- spec/11 R232
  | .TM_PPS_SEC => { base := 0x30058, ro := 0xFFFFFFFFFFFFFFFF }   -- spec/11 R232
  | .TM_PPS_FRAC => { base := 0x30060, ro := 0xFFFFFFFFFFFFFFFF }   -- spec/11 R232
  | .TM_REST_CFG => { base := 0x30068, reset := 0x1400000001, rwl := 0xFFFFFFFFFFFFFFFF, rsvd := 0xFFFFFF00FFFFFFFE }   -- spec/11 R234
  | .TM_LOCK => { base := 0x30078, rw := 0xFFFFFFFFFFFFFFFF, rsvd := 0xFFFFFFFFFFFFFFFE }   -- spec/11 R244
  | .TM_RETLOG_A => { base := 0x30100, n1 := 8, s1 := 0x20, ro := 0xFFFFFFFFFFFFFFFF, rsvd := 0xFFF000000000000 }   -- spec/11 R235
  | .TM_RETLOG_B => { base := 0x30108, n1 := 8, s1 := 0x20, ro := 0xFFFFFFFFFFFFFFFF }   -- spec/11 R235
  | .TM_RETLOG_C => { base := 0x30110, n1 := 8, s1 := 0x20, ro := 0xFFFFFFFFFFFFFFFF }   -- spec/11 R235
  | .PTP_CFG => { base := 0x31000, reset := 0x80800000D0D300, rwl := 0xFFFFFFFFFFFFFFFF, rsvd := 0xF0000F0 }   -- spec/11 R240
  | .PTP_STAT => { base := 0x31008, ro := 0xFFFFFFFFFFFFFFFF, rsvd := 0xFFFFFFC8 }   -- spec/11 R240
  | .PTP_OFFSET => { base := 0x31010, ro := 0xFFFFFFFFFFFFFFFF }   -- spec/11 R240
  | .PTP_MPD => { base := 0x31018, ro := 0xFFFFFFFFFFFFFFFF }   -- spec/11 R240
  | .PTP_PORT => { base := 0x31040, n1 := 4, s1 := 0x40, rwl := 0xFFFFFFFFFFFFFFFF, rsvd := 0xFFFFFF0C }   -- spec/11 R238
  | .PTP_TSADJ => { base := 0x31048, n1 := 4, s1 := 0x40, rwl := 0xFFFFFFFFFFFFFFFF }   -- spec/11 R239
  | .PTP_PSTAT => { base := 0x31050, n1 := 4, s1 := 0x40, ro := 0xFFFFFFFFFFFFFFFF, rsvd := 0xFFFFFFFFFFFFFF00 }   -- spec/11 R238
  | .CD_CFG => { base := 0x32040, n1 := 4, s1 := 0x40, w1s := 0x3, rwl := 0xFFFFFFFFFFFFFFFC, rsvd := 0xCFFFC }   -- spec/11 R242
  | .CD_LOOP => { base := 0x32048, n1 := 4, s1 := 0x40, rwl := 0xFFFFFFFFFFFFFFFF, rsvd := 0xFFFFFF0000000000 }   -- spec/11 R242
  | .CD_RES => { base := 0x32050, n1 := 4, s1 := 0x40, ro := 0xFFFFFFFFFFFFFFFF }   -- spec/11 R242
  | .CD_STAT => { base := 0x32058, n1 := 4, s1 := 0x40, ro := 0xFFFFFFFFFFFFFFF3, w1c := 0xC, rsvd := 0xFFF2 }   -- spec/11 R242
  | .CD_MAP => { base := 0x32400, n1 := 16, s1 := 0x10, reset := 0x10000, w1c := 0x4000000000000000, rwl := 0xBFFFFFFFFFFFFFFF, rsvd := 0x38FF000000000000 }   -- spec/11 R243
  | .CD_TGT => { base := 0x32408, n1 := 16, s1 := 0x10, rwl := 0xFFFFFFFFFFFFFFFF }   -- spec/11 R243
  | .TI_CFG => { base := 0x38000, n1 := 16, s1 := 0x20, rwl := 0xFFFFFFFFFFFFFFFF, rsvd := 0xFFFFF80000000088 }   -- spec/08 R181
  | .TI_TS_SEC => { base := 0x38008, n1 := 16, s1 := 0x20, ro := 0xFFFFFFFFFFFFFFFF }   -- spec/08 R182
  | .TI_TS_FRAC => { base := 0x38010, n1 := 16, s1 := 0x20, ro := 0xFFFFFFFFFFFFFFFF }   -- spec/08 R182
  | .TI_CNT => { base := 0x38018, n1 := 16, s1 := 0x20, ro := 0xFFFFFFFFFFFFFFFE, w1s := 0x1, rsvd := 0xFFFFFFFFFFFE }   -- spec/08 R181
  | .TO_CFG => { base := 0x38200, n1 := 16, s1 := 0x8, reset := 0x170000000002, rwl := 0xFFFFFFFFFFFFFFFF, rsvd := 0xFFFF0000FFFF80F0 }   -- spec/08 R184
  | .TRIG_LOCK => { base := 0x38300, rw := 0xFFFFFFFFFFFFFFFF, rsvd := 0xFFFFFFFFFFFFFFFE }   -- spec/08 R189
  | .EVT_FIRE => { base := 0x40000, n1 := 2, s1 := 0x8, wo := 0xFFFFFFFFFFFFFFFF }   -- spec/09 R193
  | .EVF_STATUS => { base := 0x40010, ro := 0xFFFFFFFFFFFFFFF2, w1c := 0xD, rsvd := 0xFFFFFFFFFFFFFFF0 }   -- spec/09 R199
  | .EVF_LOOP_LAST => { base := 0x40018, ro := 0xFFFFFFFFFFFFFFFF, rsvd := 0xFFFFFFFF0000FF80 }   -- spec/09 R199
  | .EVF_CIN_SEL => { base := 0x40020, rw := 0xFFFFFFFFFFFFFFFF, rsvd := 0xFFFFFFFFFFFFFE00 }   -- spec/09 R195
  | .EVF_CIN_CNT => { base := 0x40028, ro := 0xFFFFFFFFFFFFFFFE, w1s := 0x1, rsvd := 0xFFFFFFFE }   -- spec/09 R195
  | .EVF_OVR => { base := 0x40030, n1 := 6, s1 := 0x8, w1c := 0xFFFFFFFFFFFFFFFF }   -- spec/09 R195
  | .EVF_OVR6 => { base := 0x40060, ro := 0xFFFFFFFF00000000, w1c := 0xFFFFFFFF, rsvd := 0xFFFFFFFF00000000 }   -- spec/09 R195
  | .EVF_LOCK => { base := 0x40080, rw := 0xFFFFFFFFFFFFFFFF, rsvd := 0xFFFFFFFFFFFFFFFE }   -- spec/09 R203
  | .EVF_IRQ_SEL => { base := 0x40100, n1 := 8, s1 := 0x8, reset := 0x8080808080808080, rwl := 0xFFFFFFFFFFFFFFFF }   -- spec/09 R194
  | .EVF_WAKE_SEL => { base := 0x40140, reset := 0x8080808080808080, rwl := 0xFFFFFFFFFFFFFFFF }   -- spec/09 R194
  | .EVF_IRQ_PEND => { base := 0x40148, w1c := 0xFFFFFFFFFFFFFFFF }   -- spec/09 R194
  | .EVF_VTRB => { base := 0x40180, n1 := 8, s1 := 0x8, reset := 0x1F1F1F1F1F1F1F1F, rwl := 0xFFFFFFFFFFFFFFFF, rsvd := 0xE0E0E0E0E0E0E0E0 }   -- spec/09 R191
  | .EVF_CHEV => { base := 0x401C0, n1 := 2, s1 := 0x8, reset := 0x707070707070707, rwl := 0xFFFFFFFFFFFFFFFF, rsvd := 0xF8F8F8F8F8F8F8F8 }   -- spec/09 R191
  | .EC_SRC_A => { base := 0x41000, n1 := 128, s1 := 0x20, rwl := 0xFFFFFFFFFFFFFFFF, rsvd := 0x7C007C007C007C00 }   -- spec/09 R190
  | .EC_SRC_B => { base := 0x41008, n1 := 128, s1 := 0x20, rwl := 0xFFFFFFFFFFFFFFFF, rsvd := 0x7C007C007C007C00 }   -- spec/09 R190
  | .EC_CTL => { base := 0x41010, n1 := 128, s1 := 0x20, ro := 0xFFFFFFFFFFFE0000, w1s := 0x10000, rwl := 0xFFFF, rsvd := 0xFFFFFFFEFFF0 }   -- spec/09 R199
  | .EVR_CFG => { base := 0x42000, n1 := 8, s1 := 0x40, reset := 0x8000, rwl := 0xFFFFFFFFFFFFFFFF, rsvd := 0xFFFFFFFFFFFF00FC }   -- spec/09 R197
  | .EVR_PARAM => { base := 0x42008, n1 := 8, s1 := 0x40, rwl := 0xFFFFFFFFFFFFFFFF }   -- spec/09 R197
  | .EVR_START_SEC => { base := 0x42010, n1 := 8, s1 := 0x40, rwl := 0xFFFFFFFFFFFFFFFF, rsvd := 0xFFFF000000000000 }   -- spec/09 R197
  | .EVR_START_FRAC => { base := 0x42018, n1 := 8, s1 := 0x40, rwl := 0xFFFFFFFFFFFFFFFF, rsvd := 0xFFFF000000000000 }   -- spec/09 R197
  | .EVR_TS_SEC => { base := 0x42020, n1 := 8, s1 := 0x40, ro := 0xFFFFFFFFFFFFFFFF }   -- spec/09 R197
  | .EVR_TS_FRAC => { base := 0x42028, n1 := 8, s1 := 0x40, ro := 0xFFFFFFFFFFFFFFFF }   -- spec/09 R197
  | .CAL_CFG => { base := 0x50000, reset := 0x1, rwl := 0xFFFFFFFFFFFFFFFF, rsvd := 0xFFFFFFFFFFFFFFFE }   -- spec/15 R322
  | .CAL_STORE => { base := 0x50008, ro := 0x7FFFFFFFFFFFFFFF, w1s := 0x8000000000000000, rsvd := 0x7FFFFFFC00000000 }   -- spec/15 R322
  | .CAL_LOCK => { base := 0x50010, rw := 0xFFFFFFFFFFFFFFFF, rsvd := 0xFFFFFFFFFFFFFFFE }   -- spec/15 R325
  | .CAL_CTL => { base := 0x51000, n1 := 16, s1 := 0x200, reset := 0xF10, w1s := 0xD, rwl := 0xFFFFFFFFFFFFFFF2, rsvd := 0xFFFFFFFFFFFFE0E2 }   -- spec/15 R314
  | .CAL_STATUS => { base := 0x51008, n1 := 16, s1 := 0x200, ro := 0xFFFFFFFFFFFFFFBF, w1c := 0x40, rsvd := 0xFFFFFF00FFC0F080 }   -- spec/15 R317
  | .CAL_TEMP => { base := 0x51010, n1 := 16, s1 := 0x200, reset := 0x40, ro := 0xFFFFFFFFFFFF0000, rwl := 0xFFFF, rsvd := 0xFFFFFFFF0000FE00 }   -- spec/15 R314
  | .CAL_CNT => { base := 0x51018, n1 := 16, s1 := 0x200, ro := 0xFFFFFFFFFFFFFFFE, w1s := 0x1, rsvd := 0xFFFFFFFFFFFE }   -- spec/15 R318
  | .CAL_LAST_SEC => { base := 0x51020, n1 := 16, s1 := 0x200, ro := 0xFFFFFFFFFFFFFFFF, rsvd := 0xFFFF000000000000 }   -- spec/15 R318
  | .CAL_LAST_FRAC => { base := 0x51028, n1 := 16, s1 := 0x200, ro := 0xFFFFFFFFFFFFFFFF, rsvd := 0xFFFF000000000000 }   -- spec/15 R318
  | .CAL_B_MAIN => { base := 0x51100, n1 := 16, s1 := 0x200, rwl := 0xFFFFFFFFFFFFFFFF, rsvd := 0x7FFF000000000000 }   -- spec/15 R319
  | .CAL_B_MK => { base := 0x51108, n1 := 16, s1 := 0x200, rwl := 0xFFFFFFFFFFFFFFFF }   -- spec/15 R319
  | .CAL_B_SLICE => { base := 0x51110, n1 := 16, s1 := 0x200, n2 := 8, s2 := 0x8, rwl := 0xFFFFFFFFFFFFFFFF }   -- spec/15 R319
  | .MEM_CFG => { base := 0x60000, reset := 0x10, rwl := 0xFFFFFFFFFFFFFFFF, rsvd := 0xFFFFFFFFFFFFFFEC }   -- spec/12 R254
  | .MEM_STATUS => { base := 0x60008, ro := 0xFFFFFFFFFFFFFFF0, w1c := 0xF, rsvd := 0xFFFFFFFFFFF0FCF0 }   -- spec/12 R262
  | .MEM_FREQ => { base := 0x60010, w1s := 0x8000000000000000, rwl := 0x7FFFFFFFFFFFFFFF, rsvd := 0x7FFFFFFFFFFFFFFE }   -- spec/12 R262
  | .MEM_TRAIN => { base := 0x60018, w1s := 0x8000000000000000, rwl := 0x7FFFFFFFFFFFFFFF, rsvd := 0x7FFFFFFFFFFFF0EE }   -- spec/12 R263
  | .MEM_TRAIN_STAT => { base := 0x60020, ro := 0xFFFFFFFFFFFFFFF1, w1c := 0xE, rsvd := 0xFFFFFFFF00F0 }   -- spec/12 R263
  | .MEM_MAINT => { base := 0x60028, reset := 0x640004, rwl := 0xFFFFFFFFFFFFFFFF, rsvd := 0xFFFFFFFF0000FFF8 }   -- spec/12 R261
  | .MEM_SCRUB => { base := 0x60030, reset := 0x1800180003, rwl := 0xFFFFFFFFFFFFFFFF, rsvd := 0xFFFF00000000FFFC }   -- spec/12 R253
  | .MEM_POOL => { base := 0x60038, rwl := 0xFFFFFFFFFFFFFFFF }   -- spec/12 R246
  | .MEM_BAR4 => { base := 0x60040, rwl := 0xFFFFFFFFFFFFFFFF, rsvd := 0xFFFFFFFFFFFFFF80 }   -- spec/12 R265
  | .MEM_ECC_LOG => { base := 0x60048, ro := 0x7FFFFFFFFFFFFFFF, w1c := 0x8000000000000000, rsvd := 0xFFFFE000000000 }   -- spec/12 R252
  | .MEM_ECC_CNT => { base := 0x60050, ro := 0xFFFFFFFFFFFFFFFE, w1s := 0x1, rsvd := 0xFFFE }   -- spec/12 R252
  | .MEM_SRAM_STAT => { base := 0x60058, ro := 0xFFFFFFFFFFFFFFFE, w1s := 0x1, rsvd := 0xFFFFFFC0FFFE }   -- spec/12 R249
  | .MEM_LOCK => { base := 0x60060, rw := 0xFFFFFFFFFFFFFFFF, rsvd := 0xFFFFFFFFFFFFFFFE }   -- spec/12 R266
  | .MEM_PORTQ => { base := 0x60100, n1 := 4, s1 := 0x8, reset := 0x2, rwl := 0xFFFFFFFFFFFFFFFF, rsvd := 0xFFFFFFFFFFFFFFFC }   -- spec/12 R257
  | .MEM_PORT4 => { base := 0x60120, reset := 0x7D000000001, rwl := 0xFFFFFFFFFFFFFFFF, rsvd := 0xFFFFFFFC }   -- spec/12 R257
  | .MEM_PORT5 => { base := 0x60128, reset := 0x1F400000002, rwl := 0xFFFFFFFFFFFFFFFF, rsvd := 0xFFFFFFFC }   -- spec/12 R257
  | .MEM_PORT6 => { base := 0x60130, reset := 0x271000000000, rwl := 0xFFFFFFFFFFFFFFFF, rsvd := 0xFFFFFFFC }   -- spec/12 R257
  | .MEM_PORT7 => { base := 0x60138, reset := 0x3E800000000, rwl := 0xFFFFFFFFFFFFFFFF, rsvd := 0xFFFFFFFC }   -- spec/12 R257
  | .DDR_STAT => { base := 0x60200, n1 := 4, s1 := 0x40, ro := 0xFFFFFFFFFFFEFFFF, w1s := 0x10000, rsvd := 0xF00FFFFEFCF8 }   -- spec/12 R261
  | .STM_CFG => { base := 0x68000, n1 := 64, s1 := 0x40, rwl := 0xFFFFFFFFFFFFFFFF, rsvd := 0xFF00E30FFFFE }   -- spec/05 R116
  | .STM_RING => { base := 0x68008, n1 := 64, s1 := 0x40, rwl := 0xFFFFFFFFFFFFFFFF, rsvd := 0xFFFF00000000 }   -- spec/05 R118
  | .STM_SLIP => { base := 0x68010, n1 := 64, s1 := 0x40, rwl := 0xFFFFFFFFFFFFFFFF, rsvd := 0xFFFFFFFF00000000 }   -- spec/05 R122
  | .STM_STAT => { base := 0x68018, n1 := 64, s1 := 0x40, ro := 0xFFFFFFFFFFFFFFF8, w1c := 0x7, rsvd := 0x3FFFFFF8 }   -- spec/05 R120
  | .STM_CNT => { base := 0x68020, n1 := 64, s1 := 0x40, ro := 0xFFFFFFFFFFFFFFFE, w1s := 0x1, rsvd := 0xFE }   -- spec/05 R118
  | .REFILL_CTL => { base := 0x69000, n1 := 64, s1 := 0x10, reset := 0x703, rwl := 0xFFFFFFFFFFFFFFFF, rsvd := 0xFFFFFFFFFFFFF8F8 }   -- spec/05 R109
  | .REFILL_STAT => { base := 0x69008, n1 := 64, s1 := 0x10, ro := 0xFFFFFFFFFFFFEEFF, w1c := 0x1000, w1s := 0x100, rsvd := 0xE008 }   -- spec/05 R115
  | .BUF_CMD => { base := 0x6A000, w1s := 0x8000000000000000, rwl := 0x7FFFFFFFFFFFFFFF, rsvd := 0x7CFFFFFC00000000 }   -- spec/05 R130
  | .BUF_RES => { base := 0x6A008, ro := 0xFFFFFFFFFFFFFFFF, rsvd := 0xFFFFFF00000000 }   -- spec/05 R130
  | .BUF_INFO => { base := 0x6A010, ro := 0xFFFFFFFFFFFFFFFF, rsvd := 0x3FF80000 }   -- spec/05 R130
  | .BUF_ADDR => { base := 0x6A018, ro := 0xFFFFFFFFFFFFFFFF, rsvd := 0x7FFFFFE000000000 }   -- spec/05 R130
  | .BUF_POOL => { base := 0x6A020, ro := 0xFFFFFFFFFFFFFFFF }   -- spec/05 R129
  | .DRAM_BACKED => { base := 0x6A028, ro := 0xFFFFFFFFFFFFFFFF }   -- spec/05 R113
  | .PRT_BIND0 => { base := 0x70000, reset := 0x1, ro := 0xFFFF000000000001, rwl := 0xFFFFFFFFFFFE, rsvd := 0xFFFFFFFFFFF8 }   -- spec/13 R271
  | .PRT_BIND => { base := 0x70040, n1 := 4, s1 := 0x40, ro := 0xFFFF000000000000, rwl := 0xFFFFFFFFFFFF, rsvd := 0xFFFFFFF8 }   -- spec/13 R271
  | .PRT_SEQ => { base := 0x70008, n1 := 5, s1 := 0x40, ro := 0xFFFFFFFFFFFFFFFF }   -- spec/13 R277
  | .PRT_CFG => { base := 0x70010, n1 := 5, s1 := 0x40, reset := 0x3E80000, rwl := 0xFFFFFFFFFFFFFFFF, rsvd := 0xFFFFFFFF0000FFFF }   -- spec/13 R277
  | .PRT_CNT => { base := 0x70018, n1 := 5, s1 := 0x40, ro := 0xFFFFFFFFFFFFFFFE, w1s := 0x1, rsvd := 0xFFFE }   -- spec/13 R272
  | .PRT_FI => { base := 0x70020, n1 := 5, s1 := 0x40, rwl := 0xFFFFFFFFFFFFFFFF, rsvd := 0xE0F0 }   -- spec/13 R283
  | .PRT_FI_CNT => { base := 0x70028, n1 := 5, s1 := 0x40, ro := 0xFFFFFFFFFFFFFFFE, w1s := 0x1, rsvd := 0xFFFE }   -- spec/13 R283
  | .LNK_JNL => { base := 0x70180, ro := 0xFFFFFFFFFFFFFFFF, rsvd := 0xFFFFFFFF00000000 }   -- spec/13 R280
  | .LNK_LOCK => { base := 0x70188, rw := 0xFFFFFFFFFFFFFFFF, rsvd := 0xFFFFFFFFFFFFFFFE }   -- spec/13 R285
  | .P0_CMDQ_BASE => { base := 0x71000, rwl := 0xFFFFFFFFFFFFFFFF, rsvd := 0xFFF }   -- spec/13 R273
  | .P0_RSPQ_BASE => { base := 0x71008, rwl := 0xFFFFFFFFFFFFFFFF, rsvd := 0xFFF }   -- spec/13 R273
  | .P0_QCFG => { base := 0x71010, rwl := 0xFFFFFFFFFFFFFFFF, rsvd := 0xFFFFFFFFFF0EFF0E }   -- spec/13 R273
  | .P0_CMD_IDX => { base := 0x71018, ro := 0xFFFFFFFF00000000, rwl := 0xFFFFFFFF, rsvd := 0xFFFF0000FFFF0000 }   -- spec/13 R273
  | .P0_RSP_IDX => { base := 0x71020, ro := 0xFFFFFFFF00000000, rwl := 0xFFFFFFFF, rsvd := 0xFFFF0000FFFF0000 }   -- spec/13 R273
  | .P0_IRQ => { base := 0x71028, reset := 0x100, rwl := 0xFFFFFFFFFFFFFFFF, rsvd := 0xFFFFFFFF00000040 }   -- spec/13 R282
  | .P0_LINK => { base := 0x71030, ro := 0xFFFFFFFFFFFFFFFD, w1c := 0x2, rsvd := 0xFFFFFFFFFFFF00FC }   -- spec/13 R268
  | .ETH_CFG => { base := 0x72000, n1 := 4, s1 := 0x40, reset := 0x4D4C05DC00000000, rwl := 0xFFFFFFFFFFFFFFFF, rsvd := 0x1FF0E }   -- spec/13 R269
  | .ETH_MAC => { base := 0x72008, n1 := 4, s1 := 0x40, rwl := 0xFFFFFFFFFFFFFFFF, rsvd := 0xFFFF000000000000 }   -- spec/13 R269
  | .ETH_IP4 => { base := 0x72010, n1 := 4, s1 := 0x40, rwl := 0xFFFFFFFFFFFFFFFF, rsvd := 0xFFFFFF0000000000 }   -- spec/13 R269
  | .ETH_IP6_HI => { base := 0x72018, n1 := 4, s1 := 0x40, rwl := 0xFFFFFFFFFFFFFFFF }   -- spec/13 R269
  | .ETH_IP6_LO => { base := 0x72020, n1 := 4, s1 := 0x40, rwl := 0xFFFFFFFFFFFFFFFF }   -- spec/13 R269
  | .ETH_STAT => { base := 0x72028, n1 := 4, s1 := 0x40, ro := 0xFFFFFFFFFFFFFFEF, w1s := 0x10, rsvd := 0xFFFFFFFFFFE0 }   -- spec/13 R269
  | .ETH_PEER_HI => { base := 0x72030, n1 := 4, s1 := 0x40, rwl := 0xFFFFFFFFFFFFFFFF }   -- spec/13 R271
  | .ETH_PEER_LO => { base := 0x72038, n1 := 4, s1 := 0x40, rwl := 0xFFFFFFFFFFFFFFFF }   -- spec/13 R271
  | .MSIX_TAB => { base := 0x78000, n1 := 128, s1 := 0x8, rw := 0xFFFFFFFFFFFFFFFF }   -- spec/13 R282
  | .MSIX_PBA => { base := 0x79000, ro := 0xFFFFFFFFFFFFFFFF }   -- spec/13 R282
  | .LNK_JWIN => { base := 0x7A000, n1 := 1024, s1 := 0x8, ro := 0xFFFFFFFFFFFFFFFF }   -- spec/13 R280
  | .CH_CTL => { base := 0x100000, n1 := 16, s1 := 0x10000, w1s := 0x2, rwl := 0xFFFFFFFFFFFFFFFD, rsvd := 0xFFFFFFFFFFFFFFFC }   -- spec/06 R157
  | .CH_STATUS => { base := 0x100008, n1 := 16, s1 := 0x10000, ro := 0xFFFFFFFFFFFFFC03, w1c := 0x3FC, rsvd := 0xFFFFFF00FFFFFC02 }   -- spec/06 R157
  | .CH_CFG => { base := 0x100010, n1 := 16, s1 := 0x10000, reset := 0x1000011, rwl := 0xFFFFFFFFFFFFFFFF, rsvd := 0x1FFF0E }   -- spec/06 R157
  | .CH_EPOCH_SEC => { base := 0x100020, n1 := 16, s1 := 0x10000, rwl := 0xFFFFFFFFFFFFFFFF, rsvd := 0xFFFF000000000000 }   -- spec/06 R133
  | .CH_EPOCH_FRAC => { base := 0x100028, n1 := 16, s1 := 0x10000, rwl := 0xFFFFFFFFFFFFFFFF, rsvd := 0xFFFF000000000000 }   -- spec/06 R133
  | .CH_GROUP => { base := 0x100030, n1 := 16, s1 := 0x10000, rwl := 0xFFFFFFFFFFFFFFFF, rsvd := 0xFFFFFFFFFFFFFFF0 }   -- spec/06 R136
  | .CH_COMP => { base := 0x100038, n1 := 16, s1 := 0x10000, reset := 0x4000, rwl := 0xFFFFFFFFFFFFFFFF, rsvd := 0xFFFFFFFFFFFF0000 }   -- spec/06 R141
  | .CH_SLOT => { base := 0x100040, n1 := 16, s1 := 0x10000, n2 := 8, s2 := 0x8, rwl := 0xFFFFFFFFFFFFFFFF, rsvd := 0xFFFFFFFFFFFF70CC }   -- spec/06 R139
  | .CH_NCO_FW => { base := 0x100080, n1 := 16, s1 := 0x10000, rwl := 0xFFFFFFFFFFFFFFFF, rsvd := 0xFFFF000000000000 }   -- spec/06 R151
  | .CH_NCO_PH => { base := 0x100088, n1 := 16, s1 := 0x10000, rwl := 0xFFFFFFFFFFFFFFFF, rsvd := 0xFFFFFFFF00000000 }   -- spec/06 R151
  | .CH_NCO_EPOCH_SEC => { base := 0x100090, n1 := 16, s1 := 0x10000, rwl := 0xFFFFFFFFFFFFFFFF, rsvd := 0xFFFF000000000000 }   -- spec/06 R138
  | .CH_NCO_EPOCH_FRAC => { base := 0x100098, n1 := 16, s1 := 0x10000, rwl := 0xFFFFFFFFFFFFFFFF, rsvd := 0xFFFF000000000000 }   -- spec/06 R138
  | .CH_TRIM => { base := 0x1000A0, n1 := 16, s1 := 0x10000, rwl := 0xFFFFFFFFFFFFFFFF, rsvd := 0x7FFFFFFF80000000 }   -- spec/06 R152
  | .CH_TRIM_AUTO => { base := 0x1000A8, n1 := 16, s1 := 0x10000, rwl := 0xFFFFFFFFFFFFFFFF, rsvd := 0xFFFFFFFF80000000 }   -- spec/06 R152
  | .CH_TRIM_EFF => { base := 0x1000B0, n1 := 16, s1 := 0x10000, ro := 0xFFFFFFFFFFFFFFFF, rsvd := 0xFFFFFFFFC0000000 }   -- spec/06 R152
  | .CH_LAT => { base := 0x1000B8, n1 := 16, s1 := 0x10000, ro := 0xFFFFFFFFFFFFFFFF }   -- spec/06 R155
  | .CH_DPCNT => { base := 0x1000C0, n1 := 16, s1 := 0x10000, ro := 0xFFFFFFFFFFFFFFFE, w1s := 0x1, rsvd := 0xFFFE }   -- spec/06 R148
  | .CH_LOCK => { base := 0x1000C8, n1 := 16, s1 := 0x10000, rw := 0xFFFFFFFFFFFFFFFF, rsvd := 0xFFFFFFFFFFFFFFFE }   -- spec/06 R157
  | .CH_DAC_CTL => { base := 0x101000, n1 := 16, s1 := 0x10000, rwl := 0xFFFFFFFFFFFFFFFF, rsvd := 0xFFFFFFFFFFFFFFFE }   -- spec/07 R168
  | .CH_DAC_CFG => { base := 0x101008, n1 := 16, s1 := 0x10000, reset := 0x100, rwl := 0xFFFFFFFFFFFFFFFF, rsvd := 0xFFFFFFFFFFC0FEEC }   -- spec/07 R174
  | .CH_DAC_RANGE => { base := 0x101010, n1 := 16, s1 := 0x10000, reset := 0x101, ro := 0xFFFFFFFFFFFFFF00, rwl := 0xFF, rsvd := 0xFFFFFFFFFFFFEC8C }   -- spec/07 R166
  | .CH_DAC_STATUS => { base := 0x101018, n1 := 16, s1 := 0x10000, ro := 0xFFFFFFFFFFFFF3FF, w1c := 0xC00, rsvd := 0xFFFFFFFFFFFFF0F0 }   -- spec/07 R174
  | .CH_DAC_CNT => { base := 0x101020, n1 := 16, s1 := 0x10000, ro := 0xFFFFFFFFFFFFFFFE, w1s := 0x1, rsvd := 0xFFFE }   -- spec/07 R174
  | .CH_DAC_LOCK => { base := 0x101028, n1 := 16, s1 := 0x10000, rw := 0xFFFFFFFFFFFFFFFF, rsvd := 0xFFFFFFFFFFFFFFFE }   -- spec/07 R174
  | .MK_CFG => { base := 0x102000, n1 := 16, s1 := 0x10000, n2 := 4, s2 := 0x8, reset := 0x10000, ro := 0xFFFFFFC000000000, rwl := 0x3FFFFFFFFF, rsvd := 0x3FFFFC8000 }   -- spec/08 R178
  | .MK_STATUS => { base := 0x102020, n1 := 16, s1 := 0x10000, ro := 0xFFFFFFFFFFFFE0FF, w1c := 0x1F00, rsvd := 0xFFFFFFFFFFFFE0F0 }   -- spec/08 R176
  | .MK_LOCK => { base := 0x102028, n1 := 16, s1 := 0x10000, rw := 0xFFFFFFFFFFFFFFFF, rsvd := 0xFFFFFFFFFFFFFFFE }   -- spec/08 R188
  | .VOICE_CTL => { base := 0x0, voice := true, n1 := 64, rwl := 0xFFFFFFFFFFFFFFFF, rsvd := 0x780000FF0000FFFE }   -- spec/04 R108
  | .VOICE_STATUS => { base := 0x8, voice := true, n1 := 64, ro := 0xFFFFFFFFFFFFFFF0, w1c := 0xF, rsvd := 0x3F0000F88FFFF0 }   -- spec/04 R108
  | .VOICE_POS => { base := 0x10, voice := true, n1 := 64, ro := 0xFFFFFFFFFFFFFFFF, rsvd := 0xF0000000FFF80000 }   -- spec/04 R108
  | .VOICE_KERF_SEC => { base := 0x18, voice := true, n1 := 64, ro := 0xFFFFFFFFFFFFFFFF, rsvd := 0xFFFF000000000000 }   -- spec/04 R108
  | .VOICE_KERF_FRAC => { base := 0x20, voice := true, n1 := 64, ro := 0xFFFFFFFFFFFFFFFF, rsvd := 0xFFFF000000000000 }   -- spec/04 R108
  | .VOICE_SEGTAB => { base := 0x28, voice := true, n1 := 64, rwl := 0xFFFFFFFFFFFFFFFF, rsvd := 0xFFFFF800001F }   -- spec/04 R82
  | .VOICE_SEGTAB_ACT => { base := 0x30, voice := true, n1 := 64, ro := 0xFFFFFFFFFFFFFFFF, rsvd := 0xFFFFF800001F }   -- spec/04 R82
  | .VOICE_JT_STAT => { base := 0x40, voice := true, n1 := 64, ro := 0xFFFFFFFFFFFFFFFF, rsvd := 0xFFFF70000FF00000 }   -- spec/04 R101
  | .VOICE_TROUBLE => { base := 0x48, voice := true, n1 := 64, ro := 0xFFFFFFFFFFFFFFFE, w1s := 0x1, rsvd := 0xFFFE }   -- spec/04 R103
  | .VOICE_LOCK => { base := 0x50, voice := true, n1 := 64, rw := 0xFFFFFFFFFFFFFFFF, rsvd := 0xFFFFFFFFFFFFFFFE }   -- spec/04 R108
  | .VOICE_JT => { base := 0x80, voice := true, n1 := 64, n2 := 16, s2 := 0x8, rwl := 0xFFFFFFFFFFFFFFFF }   -- spec/04 R101
  | .VOICE_Q => { base := 0x200, voice := true, n1 := 64, n2 := 64, s2 := 0x8, ro := 0xFFFFFFFFFFFFFFFF }   -- spec/04 R97
  | .CORE_CTL => { base := 0x200000, n1 := 64, s1 := 0x8000, w1s := 0x7E, rwl := 0xFFFFFFFFFFFFFF81, rsvd := 0xFFFFFFFFFFFFFC01 }   -- spec/02 R52
  | .CORE_STATUS => { base := 0x200008, n1 := 64, s1 := 0x8000, ro := 0xFFFFFFFFFFFF81FF, w1c := 0x7E00, rsvd := 0xFFFFFFFFFF0001F0 }   -- spec/02 R43
  | .CORE_PC => { base := 0x200010, n1 := 64, s1 := 0x8000, ro := 0xFFFFFFFFFFFFFFFF, rsvd := 0xFFFFFFFFFFFFE000 }   -- spec/02 R52
  | .CORE_START_SEC => { base := 0x200020, n1 := 64, s1 := 0x8000, rwl := 0xFFFFFFFFFFFFFFFF, rsvd := 0xFFFF000000000000 }   -- spec/02 R47
  | .CORE_START_FRAC => { base := 0x200028, n1 := 64, s1 := 0x8000, rwl := 0xFFFFFFFFFFFFFFFF, rsvd := 0xFFFF000000000000 }   -- spec/02 R47
  | .CORE_START_EVT => { base := 0x200030, n1 := 64, s1 := 0x8000, rwl := 0xFFFFFFFFFFFFFFFF, rsvd := 0xFFFFFFFFFFFFFF80 }   -- spec/02 R47
  | .CORE_FAULT => { base := 0x200038, n1 := 64, s1 := 0x8000, ro := 0xFFFFFFFFFFFFFFFF, rsvd := 0xFFFFE000FF00 }   -- spec/02 R51
  | .CORE_QUEUE => { base := 0x200040, n1 := 64, s1 := 0x8000, ro := 0xFFFFFFFEFFFFC0FF, w1s := 0x100000000, rwl := 0x3F00, rsvd := 0xFFFFFFFE0000C0C0 }   -- spec/02 R39
  | .CORE_BUDGET => { base := 0x200048, n1 := 64, s1 := 0x8000, reset := 0x100000000, ro := 0xFFFFFFFFFFFF, rwl := 0xFFFF000000000000, rsvd := 0xFF000000F80C }   -- spec/02 R48
  | .CORE_DMEM_ADDR => { base := 0x200050, n1 := 64, s1 := 0x8000, rw := 0xFFFFFFFFFFFFFFFF, rsvd := 0xFFFFFFFFFFFF8007 }   -- spec/02 R53
  | .CORE_DMEM_DATA => { base := 0x200058, n1 := 64, s1 := 0x8000, rw := 0xFFFFFFFFFFFFFFFF }   -- spec/02 R53
  | .CORE_LOCK => { base := 0x200060, n1 := 64, s1 := 0x8000, rw := 0xFFFFFFFFFFFFFFFF, rsvd := 0xFFFFFFFFFFFFFFFE }   -- spec/02 R52
  | .CORE_HDR => { base := 0x200080, n1 := 64, s1 := 0x8000, n2 := 8, s2 := 0x8, rwl := 0xFFFFFFFFFFFFFFFF }   -- spec/02 R41
  | .CORE_GREG => { base := 0x200100, n1 := 64, s1 := 0x8000, n2 := 32, s2 := 0x8, ro := 0xFFFFFFFFFFFFFFFF }   -- spec/02 R32
  | .CORE_STACK => { base := 0x200200, n1 := 64, s1 := 0x8000, n2 := 8, s2 := 0x8, ro := 0xFFFFFFFFFFFFFFFF, rsvd := 0xFFFFFFFFFFFFC000 }   -- spec/02 R32
  | .CORE_COST => { base := 0x200400, n1 := 64, s1 := 0x8000, n2 := 64, s2 := 0x8, rwl := 0xFFFFFFFFFFFFFFFF }   -- spec/02 R42
  | .CORE_IMEM => { base := 0x400000, n1 := 64, s1 := 0x10000, n2 := 8192, s2 := 0x8, rwl := 0xFFFFFFFFFFFFFFFF }   -- spec/02 R53

/-- The block that holds a BAR0 offset: 0–7 the service blocks, 16 the channel blocks, 32 core control, 64 instruction
memory (chapter 01, *BAR0 blocks*). -/
def blockOf (off : Nat) : Nat :=
  if off < 0x80000 then off / 0x10000 else if off < 0x200000 then 16 else if off < 0x400000 then 32 else 64

/-- The families of a block. -/
def Reg.inBlock : Nat → List Reg
  | 0 => [.DEV_ID, .DEV_CAP, .GLB_STATUS, .GLB_ONCE, .GLB_SCLVL, .GLB_LOCK, .GLB_CFG,
    .PROT_LAST, .GLB_RSVD_LAST, .GLB_PROT0, .GLB_PROTA, .GLB_PROT11, .GLB_TRB, .GLB_CNT_CLR]
  | 1 => [.PWR_REQ, .PWR_STATUS, .PWR_REFUSER, .PWR_DOM_ON0, .PWR_DOM_ON1, .PWR_DOM_STAT0, .PWR_DOM_STAT1,
    .REST_CFG, .REST_BANKS, .PWR_WAKE_EN, .PWR_ALARM_SEC, .PWR_ALARM_FRAC, .PWR_WAKE_REC, .PWR_WAKE_SEC,
    .PWR_WAKE_FRAC, .PWR_ACT_SEC, .PWR_ACT_FRAC, .PWR_WAKE_CFG, .PWR_FAULT, .PWR_BO_CFG, .PWR_RMEM_ADDR,
    .PWR_RMEM_DATA, .PWR_LOCK, .BG_CFG, .BG_STATUS, .BG_RESV, .BG_COEF, .BG_TEMP,
    .PWR_MON]
  | 2 => [.CLK_REF_CFG, .CLK_REF_STATUS, .REF_FREQ, .REF_MON, .REF_LOCKDET, .REF_MEAS, .LOCKMON_SEL,
    .CLK_RELEASE, .CLK_LOCK, .SP_CTL, .SP_FREQ, .SP_LOCKDET, .SP_SEED, .SP_STATUS,
    .SP_BMEAS, .SP_FDAC, .SP_BAND, .AUX_CTL, .AUX_FREQ, .AUX_STATUS, .AUX_START_SEC,
    .AUX_START_FRAC, .AUX_PT_N, .AUX_PT_T, .CO_CFG, .CO_DLY]
  | 3 => [.TM_NOW_SEC, .TM_NOW_FRAC, .TM_CMD, .TM_ARG_SEC, .TM_ARG_FRAC, .TM_STATUS, .TM_UNC,
    .TM_HO_CFG, .TM_HO_REMAIN, .TM_HO_BUILD, .TM_PPS_CFG, .TM_PPS_SEC, .TM_PPS_FRAC, .TM_REST_CFG,
    .TM_LOCK, .TM_RETLOG_A, .TM_RETLOG_B, .TM_RETLOG_C, .PTP_CFG, .PTP_STAT, .PTP_OFFSET,
    .PTP_MPD, .PTP_PORT, .PTP_TSADJ, .PTP_PSTAT, .CD_CFG, .CD_LOOP, .CD_RES,
    .CD_STAT, .CD_MAP, .CD_TGT, .TI_CFG, .TI_TS_SEC, .TI_TS_FRAC, .TI_CNT,
    .TO_CFG, .TRIG_LOCK]
  | 4 => [.EVT_FIRE, .EVF_STATUS, .EVF_LOOP_LAST, .EVF_CIN_SEL, .EVF_CIN_CNT, .EVF_OVR, .EVF_OVR6,
    .EVF_LOCK, .EVF_IRQ_SEL, .EVF_WAKE_SEL, .EVF_IRQ_PEND, .EVF_VTRB, .EVF_CHEV, .EC_SRC_A,
    .EC_SRC_B, .EC_CTL, .EVR_CFG, .EVR_PARAM, .EVR_START_SEC, .EVR_START_FRAC, .EVR_TS_SEC,
    .EVR_TS_FRAC]
  | 5 => [.CAL_CFG, .CAL_STORE, .CAL_LOCK, .CAL_CTL, .CAL_STATUS, .CAL_TEMP, .CAL_CNT,
    .CAL_LAST_SEC, .CAL_LAST_FRAC, .CAL_B_MAIN, .CAL_B_MK, .CAL_B_SLICE]
  | 6 => [.MEM_CFG, .MEM_STATUS, .MEM_FREQ, .MEM_TRAIN, .MEM_TRAIN_STAT, .MEM_MAINT, .MEM_SCRUB,
    .MEM_POOL, .MEM_BAR4, .MEM_ECC_LOG, .MEM_ECC_CNT, .MEM_SRAM_STAT, .MEM_LOCK, .MEM_PORTQ,
    .MEM_PORT4, .MEM_PORT5, .MEM_PORT6, .MEM_PORT7, .DDR_STAT, .STM_CFG, .STM_RING,
    .STM_SLIP, .STM_STAT, .STM_CNT, .REFILL_CTL, .REFILL_STAT, .BUF_CMD, .BUF_RES,
    .BUF_INFO, .BUF_ADDR, .BUF_POOL, .DRAM_BACKED]
  | 7 => [.PRT_BIND0, .PRT_BIND, .PRT_SEQ, .PRT_CFG, .PRT_CNT, .PRT_FI, .PRT_FI_CNT,
    .LNK_JNL, .LNK_LOCK, .P0_CMDQ_BASE, .P0_RSPQ_BASE, .P0_QCFG, .P0_CMD_IDX, .P0_RSP_IDX,
    .P0_IRQ, .P0_LINK, .ETH_CFG, .ETH_MAC, .ETH_IP4, .ETH_IP6_HI, .ETH_IP6_LO,
    .ETH_STAT, .ETH_PEER_HI, .ETH_PEER_LO, .MSIX_TAB, .MSIX_PBA, .LNK_JWIN]
  | 16 => [.CH_CTL, .CH_STATUS, .CH_CFG, .CH_EPOCH_SEC, .CH_EPOCH_FRAC, .CH_GROUP, .CH_COMP,
    .CH_SLOT, .CH_NCO_FW, .CH_NCO_PH, .CH_NCO_EPOCH_SEC, .CH_NCO_EPOCH_FRAC, .CH_TRIM, .CH_TRIM_AUTO,
    .CH_TRIM_EFF, .CH_LAT, .CH_DPCNT, .CH_LOCK, .CH_DAC_CTL, .CH_DAC_CFG, .CH_DAC_RANGE,
    .CH_DAC_STATUS, .CH_DAC_CNT, .CH_DAC_LOCK, .MK_CFG, .MK_STATUS, .MK_LOCK, .VOICE_CTL,
    .VOICE_STATUS, .VOICE_POS, .VOICE_KERF_SEC, .VOICE_KERF_FRAC, .VOICE_SEGTAB, .VOICE_SEGTAB_ACT, .VOICE_JT_STAT,
    .VOICE_TROUBLE, .VOICE_LOCK, .VOICE_JT, .VOICE_Q]
  | 32 => [.CORE_CTL, .CORE_STATUS, .CORE_PC, .CORE_START_SEC, .CORE_START_FRAC, .CORE_START_EVT, .CORE_FAULT,
    .CORE_QUEUE, .CORE_BUDGET, .CORE_DMEM_ADDR, .CORE_DMEM_DATA, .CORE_LOCK, .CORE_HDR, .CORE_GREG,
    .CORE_STACK, .CORE_COST]
  | 64 => [.CORE_IMEM]
  | _ => []

/-- The families of a block with a reset value other than 0. -/
def Reg.nonzeroIn : Nat → List Reg
  | 0 => [.DEV_ID, .DEV_CAP, .GLB_SCLVL, .GLB_CFG, .GLB_PROT0, .GLB_PROTA, .GLB_PROT11]
  | 1 => [.PWR_REFUSER, .PWR_DOM_ON0, .PWR_DOM_ON1, .REST_CFG, .PWR_WAKE_EN, .PWR_WAKE_CFG, .PWR_FAULT,
    .PWR_BO_CFG, .BG_CFG, .BG_COEF]
  | 2 => [.CLK_REF_CFG, .CLK_REF_STATUS, .REF_FREQ, .REF_MON, .REF_LOCKDET, .LOCKMON_SEL, .SP_FREQ,
    .SP_LOCKDET, .SP_SEED, .AUX_FREQ]
  | 3 => [.TM_UNC, .TM_HO_CFG, .TM_REST_CFG, .PTP_CFG, .CD_MAP, .TO_CFG]
  | 4 => [.EVF_IRQ_SEL, .EVF_WAKE_SEL, .EVF_VTRB, .EVF_CHEV, .EVR_CFG]
  | 5 => [.CAL_CFG, .CAL_CTL, .CAL_TEMP]
  | 6 => [.MEM_CFG, .MEM_MAINT, .MEM_SCRUB, .MEM_PORTQ, .MEM_PORT4, .MEM_PORT5, .MEM_PORT6,
    .MEM_PORT7, .REFILL_CTL]
  | 7 => [.PRT_BIND0, .PRT_CFG, .P0_IRQ, .ETH_CFG, .MSIX_TAB]
  | 16 => [.CH_CFG, .CH_COMP, .CH_SLOT, .CH_DAC_CFG, .CH_DAC_RANGE, .MK_CFG]
  | 32 => [.CORE_BUDGET]
  | _ => []

/-- Base of voice v's slice: the channel block 4(v/16) + (v mod 16)/4, slice v mod 4 (R108). -/
def voiceBase (v : Nat) : Nat := 0x108000 + v / 4 * 0x10000 + v % 4 * 0x1000

/-- BAR0 offset of member (i, j) of a family. -/
def Reg.addr (r : Reg) (i j : Nat) : Nat :=
  if r.spec.voice then voiceBase i + r.spec.base + j * r.spec.s2
  else r.spec.base + i * r.spec.s1 + j * r.spec.s2

/-- The member of family r at BAR0 offset off, if it has one there. -/
def Reg.memberAt (r : Reg) (off : Nat) : Option (Nat × Nat) :=
  if r.spec.voice then
    if off < 0x108000 ∨ 0x200000 ≤ off then none
    else
      let v := (off - 0x100000) / 0x10000 * 4 + (off % 0x10000 - 0x8000) / 0x1000
      let b := r.spec.base
      let d := off % 0x1000 - b
      let j := if r.spec.s2 = 0 then 0 else d / r.spec.s2
      if off % 0x10000 < 0x8000 ∨ off % 0x10000 ≥ 0xC000 then none
      else if j < r.spec.n2 ∧ b + j * r.spec.s2 = off % 0x1000 then some (v, j) else none
  else if off < r.spec.base then none
  else
    let d := off - r.spec.base
    let i := if r.spec.s1 = 0 then 0 else min (d / r.spec.s1) (r.spec.n1 - 1)
    let d' := d - i * r.spec.s1
    let j := if r.spec.s2 = 0 then 0 else d' / r.spec.s2
    if j < r.spec.n2 ∧ i < r.spec.n1 ∧ i * r.spec.s1 + j * r.spec.s2 = d then some (i, j) else none

/-- The first family of a list with a member at an offset. -/
def Reg.findIn (off : Nat) : List Reg → Option (Reg × Nat × Nat)
  | [] => none
  | r :: rs =>
    match r.memberAt off with
    | some (i, j) => some (r, i, j)
    | none => Reg.findIn off rs

/-- The register at a BAR0 offset, if a chapter lists one there (R326). -/
def Reg.ofOffset (off : Nat) : Option (Reg × Nat × Nat) := Reg.findIn off (Reg.inBlock (blockOf off))

/-- Reset value of member (i, j) of a family. The crossbar slots depend on their indexes: after reset channel n takes its voices at
priorities 0 to 3 (R15, R139). So does the MSI-X table: R282 gives it the format of the PCI Express Base Specification, in which every
vector is masked after reset (PRESUMED, log entry 12). -/
def Reg.resetOf (r : Reg) (i j : Nat) : Nat :=
  match r with
  | .CH_SLOT => if j < 4 then 0x8000 + (4 * (i % 4) + j) * 0x100 else 0
  | .MSIX_TAB => if i % 2 = 1 then 2 ^ 32 else 0
  | r => r.spec.reset

/-- What the register word at a BAR0 offset holds after cold reset. -/
def resetAt (off : Nat) : Word :=
  match Reg.findIn off (Reg.nonzeroIn (blockOf off)) with
  | some (r, i, j) => BitVec.ofNat 64 (r.resetOf i j)
  | none => 0#64

/-- A named field of a register family: bits hi..lo. -/
structure Fld where
  reg : Reg
  hi : Nat
  lo : Nat
  deriving DecidableEq, Repr

namespace F

def DEV_ID_VENDOR : Fld := ⟨.DEV_ID, 63, 48⟩
def DEV_ID_PART : Fld := ⟨.DEV_ID, 47, 32⟩
def DEV_ID_STEP_MAJOR : Fld := ⟨.DEV_ID, 31, 28⟩
def DEV_ID_STEP_MINOR : Fld := ⟨.DEV_ID, 27, 24⟩
def DEV_CAP_SRAM_BANKS : Fld := ⟨.DEV_CAP, 39, 32⟩
def DEV_CAP_CORES : Fld := ⟨.DEV_CAP, 31, 24⟩
def DEV_CAP_CHANNELS : Fld := ⟨.DEV_CAP, 23, 16⟩
def DEV_CAP_DRAM_CH : Fld := ⟨.DEV_CAP, 15, 12⟩
def DEV_CAP_QUADS : Fld := ⟨.DEV_CAP, 11, 8⟩
def GLB_STATUS_RSVD_WR : Fld := ⟨.GLB_STATUS, 3, 3⟩
def GLB_STATUS_SIZE_ERR : Fld := ⟨.GLB_STATUS, 2, 2⟩
def GLB_STATUS_HALF_DROP : Fld := ⟨.GLB_STATUS, 1, 1⟩
def GLB_ONCE_BOARD_ID : Fld := ⟨.GLB_ONCE, 63, 32⟩
def GLB_ONCE_FI_DIS : Fld := ⟨.GLB_ONCE, 1, 1⟩
def GLB_ONCE_P0_ONLY_PL0 : Fld := ⟨.GLB_ONCE, 0, 0⟩
def GLB_SCLVL_SC1 : Fld := ⟨.GLB_SCLVL, 3, 2⟩
def GLB_SCLVL_SC0 : Fld := ⟨.GLB_SCLVL, 1, 0⟩
def GLB_LOCK_LOCK : Fld := ⟨.GLB_LOCK, 0, 0⟩
def GLB_CFG_RSVD_REC : Fld := ⟨.GLB_CFG, 1, 1⟩
def GLB_CFG_PROT_EVT : Fld := ⟨.GLB_CFG, 0, 0⟩
def PROT_LAST_VALID : Fld := ⟨.PROT_LAST, 63, 63⟩
def PROT_LAST_CAUSE : Fld := ⟨.PROT_LAST, 62, 60⟩
def PROT_LAST_REQ : Fld := ⟨.PROT_LAST, 59, 57⟩
def PROT_LAST_LEVEL : Fld := ⟨.PROT_LAST, 56, 55⟩
def PROT_LAST_READ : Fld := ⟨.PROT_LAST, 54, 54⟩
def PROT_LAST_SPACE : Fld := ⟨.PROT_LAST, 53, 52⟩
def PROT_LAST_ADDR : Fld := ⟨.PROT_LAST, 36, 0⟩
def GLB_RSVD_LAST_VALID : Fld := ⟨.GLB_RSVD_LAST, 63, 63⟩
def GLB_RSVD_LAST_REQ : Fld := ⟨.GLB_RSVD_LAST, 59, 57⟩
def GLB_RSVD_LAST_OFFSET : Fld := ⟨.GLB_RSVD_LAST, 23, 0⟩
def GLB_TRB_COUNTERS : Fld := ⟨.GLB_TRB, 63, 0⟩
def GLB_CNT_CLR_ALL : Fld := ⟨.GLB_CNT_CLR, 63, 63⟩
def GLB_CNT_CLR_CLR : Fld := ⟨.GLB_CNT_CLR, 16, 0⟩
def PWR_REQ_GO : Fld := ⟨.PWR_REQ, 63, 63⟩
def PWR_REQ_DISCARD : Fld := ⟨.PWR_REQ, 8, 8⟩
def PWR_REQ_TARGET : Fld := ⟨.PWR_REQ, 2, 0⟩
def PWR_STATUS_RESULT : Fld := ⟨.PWR_STATUS, 39, 32⟩
def PWR_STATUS_RMEM_ERR : Fld := ⟨.PWR_STATUS, 13, 13⟩
def PWR_STATUS_STOPPED_WR : Fld := ⟨.PWR_STATUS, 12, 12⟩
def PWR_STATUS_GOV_TRIM : Fld := ⟨.PWR_STATUS, 11, 11⟩
def PWR_STATUS_HOST_TRIM : Fld := ⟨.PWR_STATUS, 10, 10⟩
def PWR_STATUS_BO_ACTIVE : Fld := ⟨.PWR_STATUS, 9, 9⟩
def PWR_STATUS_BO_WARN : Fld := ⟨.PWR_STATUS, 8, 8⟩
def PWR_STATUS_IN_PROGRESS : Fld := ⟨.PWR_STATUS, 3, 3⟩
def PWR_STATUS_STATE : Fld := ⟨.PWR_STATUS, 2, 0⟩
def PWR_REFUSER_DELAYS : Fld := ⟨.PWR_REFUSER, 47, 40⟩
def PWR_REFUSER_REASON : Fld := ⟨.PWR_REFUSER, 39, 32⟩
def PWR_REFUSER_DOMAIN : Fld := ⟨.PWR_REFUSER, 6, 0⟩
def PWR_DOM_ON0_ON : Fld := ⟨.PWR_DOM_ON0, 63, 0⟩
def PWR_DOM_ON1_ON : Fld := ⟨.PWR_DOM_ON1, 7, 0⟩
def PWR_DOM_STAT0_ON : Fld := ⟨.PWR_DOM_STAT0, 63, 0⟩
def PWR_DOM_STAT1_ON : Fld := ⟨.PWR_DOM_STAT1, 7, 0⟩
def REST_CFG_SAVE : Fld := ⟨.REST_CFG, 0, 0⟩
def REST_BANKS_BANKS : Fld := ⟨.REST_BANKS, 47, 0⟩
def PWR_WAKE_EN_EN : Fld := ⟨.PWR_WAKE_EN, 10, 0⟩
def PWR_ALARM_SEC_SEC : Fld := ⟨.PWR_ALARM_SEC, 47, 0⟩
def PWR_ALARM_FRAC_FRAC : Fld := ⟨.PWR_ALARM_FRAC, 47, 0⟩
def PWR_WAKE_REC_WAKES : Fld := ⟨.PWR_WAKE_REC, 63, 48⟩
def PWR_WAKE_REC_SRC : Fld := ⟨.PWR_WAKE_REC, 7, 0⟩
def PWR_WAKE_SEC_SEC : Fld := ⟨.PWR_WAKE_SEC, 47, 0⟩
def PWR_WAKE_FRAC_FRAC : Fld := ⟨.PWR_WAKE_FRAC, 47, 0⟩
def PWR_ACT_SEC_SEC : Fld := ⟨.PWR_ACT_SEC, 47, 0⟩
def PWR_ACT_FRAC_FRAC : Fld := ⟨.PWR_ACT_FRAC, 47, 0⟩
def PWR_WAKE_CFG_WAKE_RETRY : Fld := ⟨.PWR_WAKE_CFG, 18, 16⟩
def PWR_WAKE_CFG_PG_TMO : Fld := ⟨.PWR_WAKE_CFG, 15, 8⟩
def PWR_WAKE_CFG_OSC_TMO : Fld := ⟨.PWR_WAKE_CFG, 7, 0⟩
def PWR_FAULT_SPLL_RST : Fld := ⟨.PWR_FAULT, 23, 16⟩
def PWR_FAULT_WAKE : Fld := ⟨.PWR_FAULT, 15, 15⟩
def PWR_FAULT_WHAT : Fld := ⟨.PWR_FAULT, 7, 0⟩
def PWR_BO_CFG_PARK : Fld := ⟨.PWR_BO_CFG, 0, 0⟩
def PWR_RMEM_ADDR_WORD : Fld := ⟨.PWR_RMEM_ADDR, 17, 3⟩
def PWR_RMEM_DATA_DATA : Fld := ⟨.PWR_RMEM_DATA, 63, 0⟩
def PWR_LOCK_LOCK : Fld := ⟨.PWR_LOCK, 0, 0⟩
def BG_CFG_PWR_LIMIT_MW : Fld := ⟨.BG_CFG, 63, 48⟩
def BG_CFG_TJ_LIMIT : Fld := ⟨.BG_CFG, 47, 40⟩
def BG_CFG_RT_CAP : Fld := ⟨.BG_CFG, 39, 32⟩
def BG_CFG_THETA : Fld := ⟨.BG_CFG, 31, 16⟩
def BG_CFG_MARGIN : Fld := ⟨.BG_CFG, 15, 8⟩
def BG_CFG_TRIM_DIV : Fld := ⟨.BG_CFG, 7, 0⟩
def BG_STATUS_P_MEAS_MW : Fld := ⟨.BG_STATUS, 63, 48⟩
def BG_STATUS_HEADROOM : Fld := ⟨.BG_STATUS, 47, 32⟩
def BG_STATUS_T_MAX : Fld := ⟨.BG_STATUS, 31, 24⟩
def BG_STATUS_WAITING : Fld := ⟨.BG_STATUS, 15, 8⟩
def BG_STATUS_HW_GUARD : Fld := ⟨.BG_STATUS, 0, 0⟩
def BG_RESV_RT_MW : Fld := ⟨.BG_RESV, 63, 48⟩
def BG_RESV_STD_MW : Fld := ⟨.BG_RESV, 47, 32⟩
def BG_RESV_BG_MW : Fld := ⟨.BG_RESV, 31, 16⟩
def BG_COEF_K_CORE : Fld := ⟨.BG_COEF, 63, 48⟩
def BG_COEF_K_VR : Fld := ⟨.BG_COEF, 47, 32⟩
def BG_COEF_K_SR : Fld := ⟨.BG_COEF, 31, 16⟩
def BG_COEF_K_DR : Fld := ⟨.BG_COEF, 15, 0⟩
def BG_TEMP_T : Fld := ⟨.BG_TEMP, 15, 0⟩
def PWR_MON_P_UW : Fld := ⟨.PWR_MON, 31, 0⟩
def CLK_REF_CFG_EN_B : Fld := ⟨.CLK_REF_CFG, 41, 41⟩
def CLK_REF_CFG_EN_A : Fld := ⟨.CLK_REF_CFG, 40, 40⟩
def CLK_REF_CFG_HO_AVG : Fld := ⟨.CLK_REF_CFG, 35, 32⟩
def CLK_REF_CFG_PDIVB : Fld := ⟨.CLK_REF_CFG, 31, 24⟩
def CLK_REF_CFG_PDIVA : Fld := ⟨.CLK_REF_CFG, 23, 16⟩
def CLK_REF_CFG_BW : Fld := ⟨.CLK_REF_CFG, 10, 8⟩
def CLK_REF_CFG_REVERT : Fld := ⟨.CLK_REF_CFG, 4, 4⟩
def CLK_REF_CFG_PRIO : Fld := ⟨.CLK_REF_CFG, 3, 3⟩
def CLK_REF_CFG_MAN_SRC : Fld := ⟨.CLK_REF_CFG, 2, 2⟩
def CLK_REF_CFG_MODE : Fld := ⟨.CLK_REF_CFG, 1, 0⟩
def CLK_REF_STATUS_AUX_LOCKED : Fld := ⟨.CLK_REF_STATUS, 33, 32⟩
def CLK_REF_STATUS_SP_LOCKED : Fld := ⟨.CLK_REF_STATUS, 31, 28⟩
def CLK_REF_STATUS_DRAM_LOCK : Fld := ⟨.CLK_REF_STATUS, 25, 25⟩
def CLK_REF_STATUS_SYS_LOCK : Fld := ⟨.CLK_REF_STATUS, 24, 24⟩
def CLK_REF_STATUS_COASTED : Fld := ⟨.CLK_REF_STATUS, 19, 19⟩
def CLK_REF_STATUS_SWITCHED : Fld := ⟨.CLK_REF_STATUS, 18, 18⟩
def CLK_REF_STATUS_B_LOST : Fld := ⟨.CLK_REF_STATUS, 17, 17⟩
def CLK_REF_STATUS_A_LOST : Fld := ⟨.CLK_REF_STATUS, 16, 16⟩
def CLK_REF_STATUS_B_QUAL : Fld := ⟨.CLK_REF_STATUS, 11, 11⟩
def CLK_REF_STATUS_B_VALID : Fld := ⟨.CLK_REF_STATUS, 10, 10⟩
def CLK_REF_STATUS_A_QUAL : Fld := ⟨.CLK_REF_STATUS, 9, 9⟩
def CLK_REF_STATUS_A_VALID : Fld := ⟨.CLK_REF_STATUS, 8, 8⟩
def CLK_REF_STATUS_SRC_ACT : Fld := ⟨.CLK_REF_STATUS, 5, 4⟩
def CLK_REF_STATUS_STATE : Fld := ⟨.CLK_REF_STATUS, 2, 0⟩
def REF_FREQ_FREQ : Fld := ⟨.REF_FREQ, 47, 0⟩
def REF_MON_QUAL : Fld := ⟨.REF_MON, 23, 16⟩
def REF_MON_FWIN : Fld := ⟨.REF_MON, 15, 0⟩
def REF_LOCKDET_UL_CNT : Fld := ⟨.REF_LOCKDET, 39, 32⟩
def REF_LOCKDET_LK_CNT : Fld := ⟨.REF_LOCKDET, 31, 16⟩
def REF_LOCKDET_LK_WIN : Fld := ⟨.REF_LOCKDET, 7, 0⟩
def REF_MEAS_FOFF_A : Fld := ⟨.REF_MEAS, 63, 32⟩
def REF_MEAS_FOFF_B : Fld := ⟨.REF_MEAS, 31, 0⟩
def LOCKMON_SEL_AUX : Fld := ⟨.LOCKMON_SEL, 8, 7⟩
def LOCKMON_SEL_SP : Fld := ⟨.LOCKMON_SEL, 6, 3⟩
def LOCKMON_SEL_DRAM : Fld := ⟨.LOCKMON_SEL, 2, 2⟩
def LOCKMON_SEL_SYS : Fld := ⟨.LOCKMON_SEL, 1, 1⟩
def LOCKMON_SEL_REF : Fld := ⟨.LOCKMON_SEL, 0, 0⟩
def CLK_RELEASE_QUAD : Fld := ⟨.CLK_RELEASE, 3, 0⟩
def CLK_LOCK_LOCK : Fld := ⟨.CLK_LOCK, 0, 0⟩
def SP_CTL_RETUNE : Fld := ⟨.SP_CTL, 16, 16⟩
def SP_CTL_BMEAS_CAP : Fld := ⟨.SP_CTL, 13, 8⟩
def SP_CTL_BMEAS : Fld := ⟨.SP_CTL, 4, 4⟩
def SP_CTL_DITHER : Fld := ⟨.SP_CTL, 1, 1⟩
def SP_CTL_POLICY : Fld := ⟨.SP_CTL, 0, 0⟩
def SP_FREQ_NFRAC : Fld := ⟨.SP_FREQ, 63, 32⟩
def SP_FREQ_NINT : Fld := ⟨.SP_FREQ, 28, 24⟩
def SP_FREQ_DSEL : Fld := ⟨.SP_FREQ, 17, 16⟩
def SP_LOCKDET_UL_CNT : Fld := ⟨.SP_LOCKDET, 39, 32⟩
def SP_LOCKDET_LK_CNT : Fld := ⟨.SP_LOCKDET, 31, 16⟩
def SP_LOCKDET_LK_WIN : Fld := ⟨.SP_LOCKDET, 7, 0⟩
def SP_SEED_SEED : Fld := ⟨.SP_SEED, 23, 0⟩
def SP_STATUS_UNLK_CNT : Fld := ⟨.SP_STATUS, 63, 48⟩
def SP_STATUS_BMEAS_REJ : Fld := ⟨.SP_STATUS, 20, 20⟩
def SP_STATUS_FREQ_ERR : Fld := ⟨.SP_STATUS, 19, 19⟩
def SP_STATUS_LOST : Fld := ⟨.SP_STATUS, 18, 18⟩
def SP_STATUS_VT_RAIL : Fld := ⟨.SP_STATUS, 17, 17⟩
def SP_STATUS_NO_BAND : Fld := ⟨.SP_STATUS, 16, 16⟩
def SP_STATUS_BAND_ACT : Fld := ⟨.SP_STATUS, 13, 8⟩
def SP_STATUS_STATE : Fld := ⟨.SP_STATUS, 2, 0⟩
def SP_BMEAS_DONE : Fld := ⟨.SP_BMEAS, 63, 63⟩
def SP_BMEAS_FHI : Fld := ⟨.SP_BMEAS, 47, 24⟩
def SP_BMEAS_FLO : Fld := ⟨.SP_BMEAS, 23, 0⟩
def SP_FDAC_FDAC : Fld := ⟨.SP_FDAC, 50, 0⟩
def SP_BAND_VALID : Fld := ⟨.SP_BAND, 63, 63⟩
def SP_BAND_CAP : Fld := ⟨.SP_BAND, 61, 56⟩
def SP_BAND_FMAX : Fld := ⟨.SP_BAND, 47, 24⟩
def SP_BAND_FMIN : Fld := ⟨.SP_BAND, 23, 0⟩
def AUX_CTL_SEED : Fld := ⟨.AUX_CTL, 49, 26⟩
def AUX_CTL_NPTS : Fld := ⟨.AUX_CTL, 23, 20⟩
def AUX_CTL_ADIV : Fld := ⟨.AUX_CTL, 18, 16⟩
def AUX_CTL_ARM : Fld := ⟨.AUX_CTL, 9, 9⟩
def AUX_CTL_RETUNE : Fld := ⟨.AUX_CTL, 8, 8⟩
def AUX_CTL_RMODE : Fld := ⟨.AUX_CTL, 5, 4⟩
def AUX_CTL_DITHER : Fld := ⟨.AUX_CTL, 1, 1⟩
def AUX_CTL_EN : Fld := ⟨.AUX_CTL, 0, 0⟩
def AUX_FREQ_NFRAC : Fld := ⟨.AUX_FREQ, 63, 32⟩
def AUX_FREQ_NINT : Fld := ⟨.AUX_FREQ, 28, 24⟩
def AUX_STATUS_RAMP_LATE : Fld := ⟨.AUX_STATUS, 17, 17⟩
def AUX_STATUS_RAMP_ERR : Fld := ⟨.AUX_STATUS, 16, 16⟩
def AUX_STATUS_PT : Fld := ⟨.AUX_STATUS, 11, 8⟩
def AUX_STATUS_RAMP : Fld := ⟨.AUX_STATUS, 5, 4⟩
def AUX_STATUS_STATE : Fld := ⟨.AUX_STATUS, 1, 0⟩
def AUX_START_SEC_SEC : Fld := ⟨.AUX_START_SEC, 47, 0⟩
def AUX_START_FRAC_FRAC : Fld := ⟨.AUX_START_FRAC, 47, 0⟩
def AUX_PT_N_NFRAC : Fld := ⟨.AUX_PT_N, 63, 32⟩
def AUX_PT_N_NINT : Fld := ⟨.AUX_PT_N, 28, 24⟩
def AUX_PT_T_T : Fld := ⟨.AUX_PT_T, 31, 0⟩
def CO_CFG_ERR : Fld := ⟨.CO_CFG, 63, 63⟩
def CO_CFG_DIV_M1 : Fld := ⟨.CO_CFG, 27, 16⟩
def CO_CFG_SRC : Fld := ⟨.CO_CFG, 7, 4⟩
def CO_CFG_FMT : Fld := ⟨.CO_CFG, 3, 1⟩
def CO_CFG_EN : Fld := ⟨.CO_CFG, 0, 0⟩
def CO_DLY_DLY_F : Fld := ⟨.CO_DLY, 23, 16⟩
def CO_DLY_DLY_C : Fld := ⟨.CO_DLY, 9, 0⟩
def TM_NOW_SEC_SEC : Fld := ⟨.TM_NOW_SEC, 47, 0⟩
def TM_NOW_FRAC_FRAC : Fld := ⟨.TM_NOW_FRAC, 47, 0⟩
def TM_CMD_GO : Fld := ⟨.TM_CMD, 63, 63⟩
def TM_CMD_OP : Fld := ⟨.TM_CMD, 3, 0⟩
def TM_ARG_SEC_SEC : Fld := ⟨.TM_ARG_SEC, 47, 0⟩
def TM_ARG_FRAC_FRAC : Fld := ⟨.TM_ARG_FRAC, 47, 0⟩
def TM_STATUS_CMD_CODE : Fld := ⟨.TM_STATUS, 39, 32⟩
def TM_STATUS_REST_KEPT : Fld := ⟨.TM_STATUS, 8, 8⟩
def TM_STATUS_PPS_MISS : Fld := ⟨.TM_STATUS, 7, 7⟩
def TM_STATUS_PPS_VALID : Fld := ⟨.TM_STATUS, 6, 6⟩
def TM_STATUS_STEP_PEND : Fld := ⟨.TM_STATUS, 5, 5⟩
def TM_STATUS_SLEWING : Fld := ⟨.TM_STATUS, 4, 4⟩
def TM_STATUS_STEPPED : Fld := ⟨.TM_STATUS, 3, 3⟩
def TM_STATUS_CMD_ERR : Fld := ⟨.TM_STATUS, 2, 2⟩
def TM_STATUS_SET : Fld := ⟨.TM_STATUS, 0, 0⟩
def TM_UNC_DTIME_UNC : Fld := ⟨.TM_UNC, 47, 0⟩
def TM_HO_CFG_HO_DRIFT : Fld := ⟨.TM_HO_CFG, 63, 32⟩
def TM_HO_CFG_SLEW_RATE : Fld := ⟨.TM_HO_CFG, 31, 2⟩
def TM_HO_CFG_POLICY : Fld := ⟨.TM_HO_CFG, 1, 0⟩
def TM_HO_REMAIN_REMAIN : Fld := ⟨.TM_HO_REMAIN, 63, 0⟩
def TM_HO_BUILD_BUILD : Fld := ⟨.TM_HO_BUILD, 63, 0⟩
def TM_PPS_CFG_COMP : Fld := ⟨.TM_PPS_CFG, 47, 16⟩
def TM_PPS_CFG_WAKE_ALIGN : Fld := ⟨.TM_PPS_CFG, 2, 2⟩
def TM_PPS_CFG_EDGE : Fld := ⟨.TM_PPS_CFG, 1, 1⟩
def TM_PPS_CFG_EN : Fld := ⟨.TM_PPS_CFG, 0, 0⟩
def TM_PPS_SEC_ESEQ : Fld := ⟨.TM_PPS_SEC, 63, 48⟩
def TM_PPS_SEC_SEC : Fld := ⟨.TM_PPS_SEC, 47, 0⟩
def TM_PPS_FRAC_ESEQ : Fld := ⟨.TM_PPS_FRAC, 63, 48⟩
def TM_PPS_FRAC_FRAC : Fld := ⟨.TM_PPS_FRAC, 47, 0⟩
def TM_REST_CFG_REST_PPM : Fld := ⟨.TM_REST_CFG, 39, 32⟩
def TM_REST_CFG_REFA_CORR : Fld := ⟨.TM_REST_CFG, 0, 0⟩
def TM_LOCK_LOCK : Fld := ⟨.TM_LOCK, 0, 0⟩
def TM_RETLOG_A_POLICY : Fld := ⟨.TM_RETLOG_A, 63, 62⟩
def TM_RETLOG_A_SRC : Fld := ⟨.TM_RETLOG_A, 61, 60⟩
def TM_RETLOG_A_SEC : Fld := ⟨.TM_RETLOG_A, 47, 0⟩
def TM_RETLOG_B_ESEQ : Fld := ⟨.TM_RETLOG_B, 63, 48⟩
def TM_RETLOG_B_FRAC : Fld := ⟨.TM_RETLOG_B, 47, 0⟩
def TM_RETLOG_C_JUMP : Fld := ⟨.TM_RETLOG_C, 63, 0⟩
def PTP_CFG_DOMAIN : Fld := ⟨.PTP_CFG, 63, 56⟩
def PTP_CFG_PRIO1 : Fld := ⟨.PTP_CFG, 55, 48⟩
def PTP_CFG_PRIO2 : Fld := ⟨.PTP_CFG, 47, 40⟩
def PTP_CFG_SDOID : Fld := ⟨.PTP_CFG, 39, 28⟩
def PTP_CFG_LOG_SYNC : Fld := ⟨.PTP_CFG, 23, 20⟩
def PTP_CFG_LOG_ANN : Fld := ⟨.PTP_CFG, 19, 16⟩
def PTP_CFG_LOG_DREQ : Fld := ⟨.PTP_CFG, 15, 12⟩
def PTP_CFG_ANN_TMO : Fld := ⟨.PTP_CFG, 11, 8⟩
def PTP_CFG_TRACE : Fld := ⟨.PTP_CFG, 3, 3⟩
def PTP_CFG_ROLE : Fld := ⟨.PTP_CFG, 2, 1⟩
def PTP_CFG_EN : Fld := ⟨.PTP_CFG, 0, 0⟩
def PTP_STAT_CLASS : Fld := ⟨.PTP_STAT, 63, 56⟩
def PTP_STAT_ACC : Fld := ⟨.PTP_STAT, 55, 48⟩
def PTP_STAT_STEPS : Fld := ⟨.PTP_STAT, 47, 32⟩
def PTP_STAT_SERVO : Fld := ⟨.PTP_STAT, 5, 4⟩
def PTP_STAT_RX_PORT : Fld := ⟨.PTP_STAT, 2, 0⟩
def PTP_OFFSET_OFFSET : Fld := ⟨.PTP_OFFSET, 63, 0⟩
def PTP_MPD_MPD : Fld := ⟨.PTP_MPD, 63, 0⟩
def PTP_PORT_ASYM : Fld := ⟨.PTP_PORT, 63, 32⟩
def PTP_PORT_TRANSPORT : Fld := ⟨.PTP_PORT, 7, 6⟩
def PTP_PORT_L1SYNC : Fld := ⟨.PTP_PORT, 5, 5⟩
def PTP_PORT_ONESTEP : Fld := ⟨.PTP_PORT, 4, 4⟩
def PTP_PORT_TX_ONLY : Fld := ⟨.PTP_PORT, 1, 1⟩
def PTP_PORT_EN : Fld := ⟨.PTP_PORT, 0, 0⟩
def PTP_TSADJ_TX_FS : Fld := ⟨.PTP_TSADJ, 63, 32⟩
def PTP_TSADJ_RX_FS : Fld := ⟨.PTP_TSADJ, 31, 0⟩
def PTP_PSTAT_L1STATE : Fld := ⟨.PTP_PSTAT, 7, 4⟩
def PTP_PSTAT_STATE : Fld := ⟨.PTP_PSTAT, 3, 0⟩
def CD_CFG_PERIOD : Fld := ⟨.CD_CFG, 63, 32⟩
def CD_CFG_SPREAD_MAX : Fld := ⟨.CD_CFG, 31, 24⟩
def CD_CFG_NAVG : Fld := ⟨.CD_CFG, 23, 20⟩
def CD_CFG_METHOD : Fld := ⟨.CD_CFG, 17, 16⟩
def CD_CFG_STOP : Fld := ⟨.CD_CFG, 1, 1⟩
def CD_CFG_START : Fld := ⟨.CD_CFG, 0, 0⟩
def CD_LOOP_LOOP_FS : Fld := ⟨.CD_LOOP, 39, 0⟩
def CD_RES_DELAY_FS : Fld := ⟨.CD_RES, 63, 0⟩
def CD_STAT_NRES : Fld := ⟨.CD_STAT, 63, 48⟩
def CD_STAT_SPREAD : Fld := ⟨.CD_STAT, 47, 16⟩
def CD_STAT_FAIL : Fld := ⟨.CD_STAT, 3, 3⟩
def CD_STAT_SPREAD_REJ : Fld := ⟨.CD_STAT, 2, 2⟩
def CD_STAT_BUSY : Fld := ⟨.CD_STAT, 0, 0⟩
def CD_MAP_EN : Fld := ⟨.CD_MAP, 63, 63⟩
def CD_MAP_REJ : Fld := ⟨.CD_MAP, 62, 62⟩
def CD_MAP_PORT : Fld := ⟨.CD_MAP, 58, 56⟩
def CD_MAP_STEP_MAX : Fld := ⟨.CD_MAP, 47, 32⟩
def CD_MAP_SCALE : Fld := ⟨.CD_MAP, 31, 0⟩
def CD_TGT_TARGET_FS : Fld := ⟨.CD_TGT, 63, 0⟩
def TI_CFG_SKEW : Fld := ⟨.TI_CFG, 42, 32⟩
def TI_CFG_HOLDOFF : Fld := ⟨.TI_CFG, 31, 16⟩
def TI_CFG_THRESH : Fld := ⟨.TI_CFG, 15, 8⟩
def TI_CFG_GLITCH : Fld := ⟨.TI_CFG, 6, 4⟩
def TI_CFG_EDGE : Fld := ⟨.TI_CFG, 2, 1⟩
def TI_CFG_EN : Fld := ⟨.TI_CFG, 0, 0⟩
def TI_TS_SEC_ESEQ : Fld := ⟨.TI_TS_SEC, 63, 48⟩
def TI_TS_SEC_SEC : Fld := ⟨.TI_TS_SEC, 47, 0⟩
def TI_TS_FRAC_ESEQ : Fld := ⟨.TI_TS_FRAC, 63, 48⟩
def TI_TS_FRAC_FRAC : Fld := ⟨.TI_TS_FRAC, 47, 0⟩
def TI_CNT_HELD : Fld := ⟨.TI_CNT, 63, 48⟩
def TI_CNT_CNT_CLR : Fld := ⟨.TI_CNT, 0, 0⟩
def TO_CFG_WIDTH : Fld := ⟨.TO_CFG, 47, 40⟩
def TO_CFG_DELAY : Fld := ⟨.TO_CFG, 39, 32⟩
def TO_CFG_EC : Fld := ⟨.TO_CFG, 14, 8⟩
def TO_CFG_POL : Fld := ⟨.TO_CFG, 3, 3⟩
def TO_CFG_SRC_EVT : Fld := ⟨.TO_CFG, 2, 2⟩
def TO_CFG_SRC_TRIGO : Fld := ⟨.TO_CFG, 1, 1⟩
def TO_CFG_EN : Fld := ⟨.TO_CFG, 0, 0⟩
def TRIG_LOCK_LOCK : Fld := ⟨.TRIG_LOCK, 0, 0⟩
def EVT_FIRE_FIRE : Fld := ⟨.EVT_FIRE, 63, 0⟩
def EVF_STATUS_SRC_ERR : Fld := ⟨.EVF_STATUS, 3, 3⟩
def EVF_STATUS_REFR : Fld := ⟨.EVF_STATUS, 2, 2⟩
def EVF_STATUS_OVR_ANY : Fld := ⟨.EVF_STATUS, 1, 1⟩
def EVF_STATUS_LOOP_REJ : Fld := ⟨.EVF_STATUS, 0, 0⟩
def EVF_LOOP_LAST_OFFSET : Fld := ⟨.EVF_LOOP_LAST, 31, 16⟩
def EVF_LOOP_LAST_EC : Fld := ⟨.EVF_LOOP_LAST, 6, 0⟩
def EVF_CIN_SEL_INPUT : Fld := ⟨.EVF_CIN_SEL, 8, 0⟩
def EVF_CIN_CNT_COINCIDE : Fld := ⟨.EVF_CIN_CNT, 63, 48⟩
def EVF_CIN_CNT_OVERRUN : Fld := ⟨.EVF_CIN_CNT, 47, 32⟩
def EVF_CIN_CNT_CNT_CLR : Fld := ⟨.EVF_CIN_CNT, 0, 0⟩
def EVF_OVR_OVR : Fld := ⟨.EVF_OVR, 63, 0⟩
def EVF_OVR6_OVR : Fld := ⟨.EVF_OVR6, 31, 0⟩
def EVF_VTRB_VMASK : Fld := ⟨.EVF_VTRB, 63, 0⟩
def EVF_CHEV_CMASK : Fld := ⟨.EVF_CHEV, 63, 0⟩
def EVF_LOCK_LOCK : Fld := ⟨.EVF_LOCK, 0, 0⟩
def EVF_IRQ_SEL_SEL : Fld := ⟨.EVF_IRQ_SEL, 63, 0⟩
def EVF_WAKE_SEL_SEL : Fld := ⟨.EVF_WAKE_SEL, 63, 0⟩
def EVF_IRQ_PEND_PEND : Fld := ⟨.EVF_IRQ_PEND, 63, 0⟩
def EC_CTL_REFR_CNT : Fld := ⟨.EC_CTL, 63, 48⟩
def EC_CTL_CNT_CLR : Fld := ⟨.EC_CTL, 16, 16⟩
def EC_CTL_LK_FIRE : Fld := ⟨.EC_CTL, 3, 3⟩
def EC_CTL_LK_ROUTE : Fld := ⟨.EC_CTL, 2, 2⟩
def EC_CTL_LK_CORE : Fld := ⟨.EC_CTL, 1, 1⟩
def EC_CTL_LOOP_PERMIT : Fld := ⟨.EC_CTL, 0, 0⟩
def EVR_CFG_EC : Fld := ⟨.EVR_CFG, 15, 8⟩
def EVR_CFG_MODE : Fld := ⟨.EVR_CFG, 1, 0⟩
def EVR_PARAM_PARAM : Fld := ⟨.EVR_PARAM, 63, 0⟩
def EVR_START_SEC_SEC : Fld := ⟨.EVR_START_SEC, 47, 0⟩
def EVR_START_FRAC_FRAC : Fld := ⟨.EVR_START_FRAC, 47, 0⟩
def EVR_TS_SEC_ESEQ : Fld := ⟨.EVR_TS_SEC, 63, 48⟩
def EVR_TS_SEC_SEC : Fld := ⟨.EVR_TS_SEC, 47, 0⟩
def EVR_TS_FRAC_ESEQ : Fld := ⟨.EVR_TS_FRAC, 63, 48⟩
def EVR_TS_FRAC_FRAC : Fld := ⟨.EVR_TS_FRAC, 47, 0⟩
def CAL_CFG_AUTOSTORE : Fld := ⟨.CAL_CFG, 0, 0⟩
def CAL_STORE_STORE : Fld := ⟨.CAL_STORE, 63, 63⟩
def CAL_STORE_BUSY : Fld := ⟨.CAL_STORE, 33, 33⟩
def CAL_STORE_NEWEST : Fld := ⟨.CAL_STORE, 32, 32⟩
def CAL_STORE_EPOCH : Fld := ⟨.CAL_STORE, 31, 0⟩
def CAL_LOCK_LOCK : Fld := ⟨.CAL_LOCK, 0, 0⟩
def CAL_CTL_SEL : Fld := ⟨.CAL_CTL, 12, 12⟩
def CAL_CTL_LANES : Fld := ⟨.CAL_CTL, 11, 8⟩
def CAL_CTL_AUTO : Fld := ⟨.CAL_CTL, 4, 4⟩
def CAL_CTL_ABORT : Fld := ⟨.CAL_CTL, 3, 3⟩
def CAL_CTL_FLIP : Fld := ⟨.CAL_CTL, 2, 2⟩
def CAL_CTL_START : Fld := ⟨.CAL_CTL, 0, 0⟩
def CAL_STATUS_STEP : Fld := ⟨.CAL_STATUS, 39, 32⟩
def CAL_STATUS_SLICE : Fld := ⟨.CAL_STATUS, 21, 16⟩
def CAL_STATUS_RESULT : Fld := ⟨.CAL_STATUS, 11, 8⟩
def CAL_STATUS_WR_ERR : Fld := ⟨.CAL_STATUS, 6, 6⟩
def CAL_STATUS_DUE : Fld := ⟨.CAL_STATUS, 5, 5⟩
def CAL_STATUS_WAITING : Fld := ⟨.CAL_STATUS, 4, 4⟩
def CAL_STATUS_RUNNING : Fld := ⟨.CAL_STATUS, 3, 3⟩
def CAL_STATUS_B_VALID : Fld := ⟨.CAL_STATUS, 2, 2⟩
def CAL_STATUS_A_VALID : Fld := ⟨.CAL_STATUS, 1, 1⟩
def CAL_STATUS_ACTIVE : Fld := ⟨.CAL_STATUS, 0, 0⟩
def CAL_TEMP_T_LAST : Fld := ⟨.CAL_TEMP, 31, 16⟩
def CAL_TEMP_DELTA_T : Fld := ⟨.CAL_TEMP, 8, 0⟩
def CAL_CNT_CAL_COUNT : Fld := ⟨.CAL_CNT, 63, 48⟩
def CAL_CNT_CNT_CLR : Fld := ⟨.CAL_CNT, 0, 0⟩
def CAL_LAST_SEC_SEC : Fld := ⟨.CAL_LAST_SEC, 47, 0⟩
def CAL_LAST_FRAC_FRAC : Fld := ⟨.CAL_LAST_FRAC, 47, 0⟩
def CAL_B_MAIN_VALID : Fld := ⟨.CAL_B_MAIN, 63, 63⟩
def CAL_B_MAIN_SKEW : Fld := ⟨.CAL_B_MAIN, 47, 32⟩
def CAL_B_MAIN_GAIN : Fld := ⟨.CAL_B_MAIN, 31, 16⟩
def CAL_B_MAIN_OFFSET : Fld := ⟨.CAL_B_MAIN, 15, 0⟩
def CAL_B_MK_MKSKEW : Fld := ⟨.CAL_B_MK, 63, 0⟩
def CAL_B_SLICE_SLICE : Fld := ⟨.CAL_B_SLICE, 63, 0⟩
def MEM_CFG_HASH : Fld := ⟨.MEM_CFG, 4, 4⟩
def MEM_CFG_POP : Fld := ⟨.MEM_CFG, 1, 0⟩
def MEM_STATUS_FREQ_CODE : Fld := ⟨.MEM_STATUS, 19, 16⟩
def MEM_STATUS_FREQ_BUSY : Fld := ⟨.MEM_STATUS, 9, 9⟩
def MEM_STATUS_FREQ_ACT : Fld := ⟨.MEM_STATUS, 8, 8⟩
def MEM_STATUS_BAR_OOR : Fld := ⟨.MEM_STATUS, 3, 3⟩
def MEM_STATUS_CFG_ERR : Fld := ⟨.MEM_STATUS, 2, 2⟩
def MEM_STATUS_POOL_ERR : Fld := ⟨.MEM_STATUS, 1, 1⟩
def MEM_STATUS_FREQ_ERR : Fld := ⟨.MEM_STATUS, 0, 0⟩
def MEM_FREQ_GO : Fld := ⟨.MEM_FREQ, 63, 63⟩
def MEM_FREQ_REQ : Fld := ⟨.MEM_FREQ, 0, 0⟩
def MEM_TRAIN_GO : Fld := ⟨.MEM_TRAIN, 63, 63⟩
def MEM_TRAIN_CH : Fld := ⟨.MEM_TRAIN, 11, 8⟩
def MEM_TRAIN_SETPT : Fld := ⟨.MEM_TRAIN, 4, 4⟩
def MEM_TRAIN_KIND : Fld := ⟨.MEM_TRAIN, 0, 0⟩
def MEM_TRAIN_STAT_RUNS : Fld := ⟨.MEM_TRAIN_STAT, 63, 48⟩
def MEM_TRAIN_STAT_STEP : Fld := ⟨.MEM_TRAIN_STAT, 15, 12⟩
def MEM_TRAIN_STAT_CH : Fld := ⟨.MEM_TRAIN_STAT, 11, 8⟩
def MEM_TRAIN_STAT_ABORTED : Fld := ⟨.MEM_TRAIN_STAT, 3, 3⟩
def MEM_TRAIN_STAT_REFUSED : Fld := ⟨.MEM_TRAIN_STAT, 2, 2⟩
def MEM_TRAIN_STAT_FAIL : Fld := ⟨.MEM_TRAIN_STAT, 1, 1⟩
def MEM_TRAIN_STAT_RUNNING : Fld := ⟨.MEM_TRAIN_STAT, 0, 0⟩
def MEM_MAINT_RETRAIN_MS : Fld := ⟨.MEM_MAINT, 31, 16⟩
def MEM_MAINT_MAX_POSTPONE : Fld := ⟨.MEM_MAINT, 2, 0⟩
def MEM_SCRUB_DRAM_H : Fld := ⟨.MEM_SCRUB, 47, 32⟩
def MEM_SCRUB_SRAM_H : Fld := ⟨.MEM_SCRUB, 31, 16⟩
def MEM_SCRUB_DRAM_EN : Fld := ⟨.MEM_SCRUB, 1, 1⟩
def MEM_SCRUB_SRAM_EN : Fld := ⟨.MEM_SCRUB, 0, 0⟩
def MEM_POOL_DRAM_BASE4K : Fld := ⟨.MEM_POOL, 63, 32⟩
def MEM_POOL_SRAM_BASE4K : Fld := ⟨.MEM_POOL, 31, 0⟩
def MEM_BAR4_BASE_GIB : Fld := ⟨.MEM_BAR4, 6, 0⟩
def MEM_ECC_LOG_VALID : Fld := ⟨.MEM_ECC_LOG, 63, 63⟩
def MEM_ECC_LOG_KIND : Fld := ⟨.MEM_ECC_LOG, 62, 60⟩
def MEM_ECC_LOG_REQ : Fld := ⟨.MEM_ECC_LOG, 59, 56⟩
def MEM_ECC_LOG_ADDR : Fld := ⟨.MEM_ECC_LOG, 36, 0⟩
def MEM_ECC_CNT_SRAM_CE : Fld := ⟨.MEM_ECC_CNT, 63, 48⟩
def MEM_ECC_CNT_DRAM_CE : Fld := ⟨.MEM_ECC_CNT, 47, 32⟩
def MEM_ECC_CNT_AWC : Fld := ⟨.MEM_ECC_CNT, 31, 16⟩
def MEM_ECC_CNT_CNT_CLR : Fld := ⟨.MEM_ECC_CNT, 0, 0⟩
def MEM_SRAM_STAT_LATE_LINE : Fld := ⟨.MEM_SRAM_STAT, 63, 48⟩
def MEM_SRAM_STAT_LAST_V : Fld := ⟨.MEM_SRAM_STAT, 21, 16⟩
def MEM_SRAM_STAT_CNT_CLR : Fld := ⟨.MEM_SRAM_STAT, 0, 0⟩
def MEM_LOCK_LOCK : Fld := ⟨.MEM_LOCK, 0, 0⟩
def MEM_PORTQ_HINT : Fld := ⟨.MEM_PORTQ, 1, 0⟩
def MEM_PORT4_LAT_TGT : Fld := ⟨.MEM_PORT4, 63, 32⟩
def MEM_PORT4_HINT : Fld := ⟨.MEM_PORT4, 1, 0⟩
def MEM_PORT5_LAT_TGT : Fld := ⟨.MEM_PORT5, 63, 32⟩
def MEM_PORT5_HINT : Fld := ⟨.MEM_PORT5, 1, 0⟩
def MEM_PORT6_LAT_TGT : Fld := ⟨.MEM_PORT6, 63, 32⟩
def MEM_PORT6_HINT : Fld := ⟨.MEM_PORT6, 1, 0⟩
def MEM_PORT7_LAT_TGT : Fld := ⟨.MEM_PORT7, 63, 32⟩
def MEM_PORT7_HINT : Fld := ⟨.MEM_PORT7, 1, 0⟩
def DDR_STAT_PREEMPT : Fld := ⟨.DDR_STAT, 63, 48⟩
def DDR_STAT_DEBT_B : Fld := ⟨.DDR_STAT, 43, 40⟩
def DDR_STAT_DEBT_A : Fld := ⟨.DDR_STAT, 39, 36⟩
def DDR_STAT_CNT_CLR : Fld := ⟨.DDR_STAT, 16, 16⟩
def DDR_STAT_TRAINED : Fld := ⟨.DDR_STAT, 9, 8⟩
def DDR_STAT_STATE : Fld := ⟨.DDR_STAT, 2, 0⟩
def STM_CFG_UDP_PORT : Fld := ⟨.STM_CFG, 63, 48⟩
def STM_CFG_PKT64 : Fld := ⟨.STM_CFG, 39, 32⟩
def STM_CFG_CPLX : Fld := ⟨.STM_CFG, 28, 28⟩
def STM_CFG_POLICY : Fld := ⟨.STM_CFG, 27, 26⟩
def STM_CFG_SRC : Fld := ⟨.STM_CFG, 23, 20⟩
def STM_CFG_EN : Fld := ⟨.STM_CFG, 0, 0⟩
def STM_RING_NSLOT : Fld := ⟨.STM_RING, 63, 48⟩
def STM_RING_HANDLE : Fld := ⟨.STM_RING, 31, 0⟩
def STM_SLIP_MAX_SLIP : Fld := ⟨.STM_SLIP, 31, 0⟩
def STM_STAT_NEXT_SEQ : Fld := ⟨.STM_STAT, 63, 32⟩
def STM_STAT_STATE : Fld := ⟨.STM_STAT, 31, 30⟩
def STM_STAT_CFG_ERR : Fld := ⟨.STM_STAT, 2, 2⟩
def STM_STAT_SLIP_LIMIT : Fld := ⟨.STM_STAT, 1, 1⟩
def STM_STAT_BAD_PKT : Fld := ⟨.STM_STAT, 0, 0⟩
def STM_CNT_SHAV : Fld := ⟨.STM_CNT, 63, 32⟩
def STM_CNT_DROP : Fld := ⟨.STM_CNT, 31, 16⟩
def STM_CNT_GAPS : Fld := ⟨.STM_CNT, 15, 8⟩
def STM_CNT_CNT_CLR : Fld := ⟨.STM_CNT, 0, 0⟩
def REFILL_CTL_HWM : Fld := ⟨.REFILL_CTL, 10, 8⟩
def REFILL_CTL_LWM : Fld := ⟨.REFILL_CTL, 2, 0⟩
def REFILL_STAT_MISS_BLK : Fld := ⟨.REFILL_STAT, 63, 48⟩
def REFILL_STAT_UNDERRUN : Fld := ⟨.REFILL_STAT, 47, 32⟩
def REFILL_STAT_WITHDRAWN : Fld := ⟨.REFILL_STAT, 31, 16⟩
def REFILL_STAT_JT_NOSLOT : Fld := ⟨.REFILL_STAT, 12, 12⟩
def REFILL_STAT_URG : Fld := ⟨.REFILL_STAT, 11, 10⟩
def REFILL_STAT_SLOT : Fld := ⟨.REFILL_STAT, 9, 9⟩
def REFILL_STAT_CNT_CLR : Fld := ⟨.REFILL_STAT, 8, 8⟩
def REFILL_STAT_INFLIGHT : Fld := ⟨.REFILL_STAT, 7, 4⟩
def REFILL_STAT_FILL : Fld := ⟨.REFILL_STAT, 2, 0⟩
def BUF_CMD_GO : Fld := ⟨.BUF_CMD, 63, 63⟩
def BUF_CMD_OP : Fld := ⟨.BUF_CMD, 57, 56⟩
def BUF_CMD_REGION : Fld := ⟨.BUF_CMD, 33, 32⟩
def BUF_CMD_ARG : Fld := ⟨.BUF_CMD, 31, 0⟩
def BUF_RES_STATUS : Fld := ⟨.BUF_RES, 63, 56⟩
def BUF_RES_HANDLE : Fld := ⟨.BUF_RES, 31, 0⟩
def BUF_INFO_HOLDS : Fld := ⟨.BUF_INFO, 63, 48⟩
def BUF_INFO_REFS : Fld := ⟨.BUF_INFO, 47, 32⟩
def BUF_INFO_STATE : Fld := ⟨.BUF_INFO, 31, 30⟩
def BUF_INFO_SIZE4K : Fld := ⟨.BUF_INFO, 18, 0⟩
def BUF_ADDR_REGION : Fld := ⟨.BUF_ADDR, 63, 63⟩
def BUF_ADDR_ADDR : Fld := ⟨.BUF_ADDR, 36, 0⟩
def BUF_POOL_DRAM_FREE4K : Fld := ⟨.BUF_POOL, 63, 32⟩
def BUF_POOL_SRAM_FREE4K : Fld := ⟨.BUF_POOL, 31, 0⟩
def DRAM_BACKED_VOICES : Fld := ⟨.DRAM_BACKED, 63, 0⟩
def PRT_BIND0_SESSION : Fld := ⟨.PRT_BIND0, 63, 48⟩
def PRT_BIND0_LEVEL : Fld := ⟨.PRT_BIND0, 2, 1⟩
def PRT_BIND0_EN : Fld := ⟨.PRT_BIND0, 0, 0⟩
def PRT_BIND_SESSION : Fld := ⟨.PRT_BIND, 63, 48⟩
def PRT_BIND_PEER_UDP : Fld := ⟨.PRT_BIND, 47, 32⟩
def PRT_BIND_LEVEL : Fld := ⟨.PRT_BIND, 2, 1⟩
def PRT_BIND_EN : Fld := ⟨.PRT_BIND, 0, 0⟩
def PRT_SEQ_NEXT_HSN : Fld := ⟨.PRT_SEQ, 63, 32⟩
def PRT_SEQ_LAST_DSN : Fld := ⟨.PRT_SEQ, 31, 0⟩
def PRT_CFG_GAP_TMO : Fld := ⟨.PRT_CFG, 31, 16⟩
def PRT_CNT_DROP : Fld := ⟨.PRT_CNT, 63, 48⟩
def PRT_CNT_SEQGAP : Fld := ⟨.PRT_CNT, 47, 32⟩
def PRT_CNT_FOREIGN : Fld := ⟨.PRT_CNT, 31, 16⟩
def PRT_CNT_CNT_CLR : Fld := ⟨.PRT_CNT, 0, 0⟩
def PRT_FI_DROP_N : Fld := ⟨.PRT_FI, 63, 48⟩
def PRT_FI_CORR_N : Fld := ⟨.PRT_FI, 47, 32⟩
def PRT_FI_CORR_BIT : Fld := ⟨.PRT_FI, 31, 16⟩
def PRT_FI_REORD_W : Fld := ⟨.PRT_FI, 12, 8⟩
def PRT_FI_DIR : Fld := ⟨.PRT_FI, 3, 2⟩
def PRT_FI_STRM : Fld := ⟨.PRT_FI, 1, 1⟩
def PRT_FI_EN : Fld := ⟨.PRT_FI, 0, 0⟩
def PRT_FI_CNT_DROPPED : Fld := ⟨.PRT_FI_CNT, 63, 48⟩
def PRT_FI_CNT_CORRUPTED : Fld := ⟨.PRT_FI_CNT, 47, 32⟩
def PRT_FI_CNT_REORDERED : Fld := ⟨.PRT_FI_CNT, 31, 16⟩
def PRT_FI_CNT_CNT_CLR : Fld := ⟨.PRT_FI_CNT, 0, 0⟩
def LNK_JNL_ESEQ : Fld := ⟨.LNK_JNL, 31, 0⟩
def LNK_LOCK_LOCK : Fld := ⟨.LNK_LOCK, 0, 0⟩
def P0_CMDQ_BASE_ADDR : Fld := ⟨.P0_CMDQ_BASE, 63, 12⟩
def P0_RSPQ_BASE_ADDR : Fld := ⟨.P0_RSPQ_BASE, 63, 12⟩
def P0_QCFG_RSP_LOG2N : Fld := ⟨.P0_QCFG, 23, 20⟩
def P0_QCFG_RSP_EN : Fld := ⟨.P0_QCFG, 16, 16⟩
def P0_QCFG_CMD_LOG2N : Fld := ⟨.P0_QCFG, 7, 4⟩
def P0_QCFG_CMD_EN : Fld := ⟨.P0_QCFG, 0, 0⟩
def P0_CMD_IDX_HEAD : Fld := ⟨.P0_CMD_IDX, 47, 32⟩
def P0_CMD_IDX_TAIL : Fld := ⟨.P0_CMD_IDX, 15, 0⟩
def P0_RSP_IDX_TAIL : Fld := ⟨.P0_RSP_IDX, 47, 32⟩
def P0_RSP_IDX_HEAD : Fld := ⟨.P0_RSP_IDX, 15, 0⟩
def P0_IRQ_COAL_US : Fld := ⟨.P0_IRQ, 31, 16⟩
def P0_IRQ_COAL_N : Fld := ⟨.P0_IRQ, 15, 8⟩
def P0_IRQ_EN : Fld := ⟨.P0_IRQ, 7, 7⟩
def P0_IRQ_VEC : Fld := ⟨.P0_IRQ, 5, 0⟩
def P0_LINK_WIDTH : Fld := ⟨.P0_LINK, 15, 12⟩
def P0_LINK_SPEED : Fld := ⟨.P0_LINK, 11, 8⟩
def P0_LINK_RST_SEEN : Fld := ⟨.P0_LINK, 1, 1⟩
def P0_LINK_UP : Fld := ⟨.P0_LINK, 0, 0⟩
def ETH_CFG_MLP_PORT : Fld := ⟨.ETH_CFG, 63, 48⟩
def ETH_CFG_MTU : Fld := ⟨.ETH_CFG, 47, 32⟩
def ETH_CFG_VLAN_ID : Fld := ⟨.ETH_CFG, 31, 20⟩
def ETH_CFG_VLAN_EN : Fld := ⟨.ETH_CFG, 19, 19⟩
def ETH_CFG_FEC : Fld := ⟨.ETH_CFG, 18, 17⟩
def ETH_CFG_STRM_PEER_ONLY : Fld := ⟨.ETH_CFG, 7, 7⟩
def ETH_CFG_CD_RESP : Fld := ⟨.ETH_CFG, 6, 6⟩
def ETH_CFG_IP6_EN : Fld := ⟨.ETH_CFG, 5, 5⟩
def ETH_CFG_IP4_EN : Fld := ⟨.ETH_CFG, 4, 4⟩
def ETH_CFG_EN : Fld := ⟨.ETH_CFG, 0, 0⟩
def ETH_MAC_MAC : Fld := ⟨.ETH_MAC, 47, 0⟩
def ETH_IP4_PLEN : Fld := ⟨.ETH_IP4, 39, 32⟩
def ETH_IP4_ADDR : Fld := ⟨.ETH_IP4, 31, 0⟩
def ETH_IP6_HI_ADDR : Fld := ⟨.ETH_IP6_HI, 63, 0⟩
def ETH_IP6_LO_ADDR : Fld := ⟨.ETH_IP6_LO, 63, 0⟩
def ETH_STAT_FEC_UNC : Fld := ⟨.ETH_STAT, 63, 48⟩
def ETH_STAT_CNT_CLR : Fld := ⟨.ETH_STAT, 4, 4⟩
def ETH_STAT_MOD_ABS : Fld := ⟨.ETH_STAT, 3, 3⟩
def ETH_STAT_RX_LOS : Fld := ⟨.ETH_STAT, 2, 2⟩
def ETH_STAT_BLOCK_LOCK : Fld := ⟨.ETH_STAT, 1, 1⟩
def ETH_STAT_UP : Fld := ⟨.ETH_STAT, 0, 0⟩
def ETH_PEER_HI_ADDR : Fld := ⟨.ETH_PEER_HI, 63, 0⟩
def ETH_PEER_LO_ADDR : Fld := ⟨.ETH_PEER_LO, 63, 0⟩
def MSIX_TAB_ENTRY : Fld := ⟨.MSIX_TAB, 63, 0⟩
def MSIX_PBA_PEND : Fld := ⟨.MSIX_PBA, 63, 0⟩
def LNK_JWIN_JNL : Fld := ⟨.LNK_JWIN, 63, 0⟩
def CH_CTL_NCO_RESYNC : Fld := ⟨.CH_CTL, 1, 1⟩
def CH_CTL_EN : Fld := ⟨.CH_CTL, 0, 0⟩
def CH_STATUS_CFG_CODE : Fld := ⟨.CH_STATUS, 39, 32⟩
def CH_STATUS_NCO_LATE : Fld := ⟨.CH_STATUS, 9, 9⟩
def CH_STATUS_TRIM_STEP : Fld := ⟨.CH_STATUS, 8, 8⟩
def CH_STATUS_TRIM_CLAMP : Fld := ⟨.CH_STATUS, 7, 7⟩
def CH_STATUS_COVER_BRK : Fld := ⟨.CH_STATUS, 6, 6⟩
def CH_STATUS_DP_SAT : Fld := ⟨.CH_STATUS, 5, 5⟩
def CH_STATUS_COMP_SAT : Fld := ⟨.CH_STATUS, 4, 4⟩
def CH_STATUS_XB_ERR : Fld := ⟨.CH_STATUS, 3, 3⟩
def CH_STATUS_CFG_ERR : Fld := ⟨.CH_STATUS, 2, 2⟩
def CH_STATUS_RUN : Fld := ⟨.CH_STATUS, 0, 0⟩
def CH_CFG_RHO : Fld := ⟨.CH_CFG, 63, 32⟩
def CH_CFG_R : Fld := ⟨.CH_CFG, 31, 21⟩
def CH_CFG_DROOP : Fld := ⟨.CH_CFG, 7, 6⟩
def CH_CFG_NCO_EN : Fld := ⟨.CH_CFG, 5, 5⟩
def CH_CFG_CPLX : Fld := ⟨.CH_CFG, 4, 4⟩
def CH_CFG_RHO_BYP : Fld := ⟨.CH_CFG, 0, 0⟩
def CH_EPOCH_SEC_SEC : Fld := ⟨.CH_EPOCH_SEC, 47, 0⟩
def CH_EPOCH_FRAC_FRAC : Fld := ⟨.CH_EPOCH_FRAC, 47, 0⟩
def CH_GROUP_GID : Fld := ⟨.CH_GROUP, 3, 0⟩
def CH_COMP_GAIN : Fld := ⟨.CH_COMP, 15, 0⟩
def CH_SLOT_EN : Fld := ⟨.CH_SLOT, 15, 15⟩
def CH_SLOT_VQ : Fld := ⟨.CH_SLOT, 11, 8⟩
def CH_SLOT_OP : Fld := ⟨.CH_SLOT, 5, 4⟩
def CH_SLOT_GATE : Fld := ⟨.CH_SLOT, 1, 0⟩
def CH_NCO_FW_FW : Fld := ⟨.CH_NCO_FW, 47, 0⟩
def CH_NCO_PH_PHASE : Fld := ⟨.CH_NCO_PH, 31, 0⟩
def CH_NCO_EPOCH_SEC_SEC : Fld := ⟨.CH_NCO_EPOCH_SEC, 47, 0⟩
def CH_NCO_EPOCH_FRAC_FRAC : Fld := ⟨.CH_NCO_EPOCH_FRAC, 47, 0⟩
def CH_TRIM_AUTO_EN : Fld := ⟨.CH_TRIM, 63, 63⟩
def CH_TRIM_USER : Fld := ⟨.CH_TRIM, 30, 0⟩
def CH_TRIM_AUTO_AUTO : Fld := ⟨.CH_TRIM_AUTO, 30, 0⟩
def CH_TRIM_EFF_COARSE : Fld := ⟨.CH_TRIM_EFF, 29, 10⟩
def CH_TRIM_EFF_FRAC : Fld := ⟨.CH_TRIM_EFF, 9, 0⟩
def CH_LAT_TRIM_MAX : Fld := ⟨.CH_LAT, 63, 32⟩
def CH_LAT_LAT0_PS : Fld := ⟨.CH_LAT, 31, 0⟩
def CH_DPCNT_COMP_SAT : Fld := ⟨.CH_DPCNT, 63, 48⟩
def CH_DPCNT_DP_SAT : Fld := ⟨.CH_DPCNT, 47, 32⟩
def CH_DPCNT_COVER_BRK : Fld := ⟨.CH_DPCNT, 31, 16⟩
def CH_DPCNT_CNT_CLR : Fld := ⟨.CH_DPCNT, 0, 0⟩
def CH_LOCK_LOCK : Fld := ⟨.CH_LOCK, 0, 0⟩
def CH_DAC_CTL_MUTE : Fld := ⟨.CH_DAC_CTL, 0, 0⟩
def CH_DAC_CFG_CARRY_THR : Fld := ⟨.CH_DAC_CFG, 21, 16⟩
def CH_DAC_CFG_TERM : Fld := ⟨.CH_DAC_CFG, 8, 8⟩
def CH_DAC_CFG_UFL_POLICY : Fld := ⟨.CH_DAC_CFG, 4, 4⟩
def CH_DAC_CFG_MODE : Fld := ⟨.CH_DAC_CFG, 1, 0⟩
def CH_DAC_RANGE_RC_PEND : Fld := ⟨.CH_DAC_RANGE, 12, 12⟩
def CH_DAC_RANGE_RANGE_ACT : Fld := ⟨.CH_DAC_RANGE, 9, 8⟩
def CH_DAC_RANGE_RC_SLOT : Fld := ⟨.CH_DAC_RANGE, 6, 4⟩
def CH_DAC_RANGE_RANGE_NEXT : Fld := ⟨.CH_DAC_RANGE, 1, 0⟩
def CH_DAC_STATUS_CFG_ERR : Fld := ⟨.CH_DAC_STATUS, 11, 11⟩
def CH_DAC_STATUS_SC_FLAG : Fld := ⟨.CH_DAC_STATUS, 10, 10⟩
def CH_DAC_STATUS_SC_ACTIVE : Fld := ⟨.CH_DAC_STATUS, 9, 9⟩
def CH_DAC_STATUS_RANGE_BUSY : Fld := ⟨.CH_DAC_STATUS, 8, 8⟩
def CH_DAC_STATUS_OUT_STATE : Fld := ⟨.CH_DAC_STATUS, 3, 0⟩
def CH_DAC_CNT_CARRY_HOLD : Fld := ⟨.CH_DAC_CNT, 63, 48⟩
def CH_DAC_CNT_SC_EPIS : Fld := ⟨.CH_DAC_CNT, 47, 32⟩
def CH_DAC_CNT_RANGE_CHG : Fld := ⟨.CH_DAC_CNT, 31, 16⟩
def CH_DAC_CNT_CNT_CLR : Fld := ⟨.CH_DAC_CNT, 0, 0⟩
def CH_DAC_LOCK_LOCK : Fld := ⟨.CH_DAC_LOCK, 0, 0⟩
def MK_CFG_EFF : Fld := ⟨.MK_CFG, 63, 38⟩
def MK_CFG_INV : Fld := ⟨.MK_CFG, 17, 17⟩
def MK_CFG_PARK_FOLLOW : Fld := ⟨.MK_CFG, 16, 16⟩
def MK_CFG_DELAY : Fld := ⟨.MK_CFG, 14, 0⟩
def MK_STATUS_ACT_OVF : Fld := ⟨.MK_STATUS, 12, 12⟩
def MK_STATUS_CLAMP : Fld := ⟨.MK_STATUS, 11, 8⟩
def MK_STATUS_LEVEL : Fld := ⟨.MK_STATUS, 3, 0⟩
def MK_LOCK_LOCK : Fld := ⟨.MK_LOCK, 0, 0⟩
def VOICE_CTL_GM_EN : Fld := ⟨.VOICE_CTL, 63, 63⟩
def VOICE_CTL_GM_GRAIN : Fld := ⟨.VOICE_CTL, 58, 40⟩
def VOICE_CTL_GM_SEG : Fld := ⟨.VOICE_CTL, 31, 16⟩
def VOICE_CTL_HOLD : Fld := ⟨.VOICE_CTL, 0, 0⟩
def VOICE_STATUS_VOFF : Fld := ⟨.VOICE_STATUS, 63, 54⟩
def VOICE_STATUS_SEG : Fld := ⟨.VOICE_STATUS, 47, 32⟩
def VOICE_STATUS_ITEM : Fld := ⟨.VOICE_STATUS, 26, 24⟩
def VOICE_STATUS_MODE : Fld := ⟨.VOICE_STATUS, 22, 20⟩
def VOICE_STATUS_SEGTAB_ERR : Fld := ⟨.VOICE_STATUS, 3, 3⟩
def VOICE_STATUS_WAIT_LATE : Fld := ⟨.VOICE_STATUS, 2, 2⟩
def VOICE_STATUS_JUMP_MISS : Fld := ⟨.VOICE_STATUS, 1, 1⟩
def VOICE_STATUS_SEG_ERR : Fld := ⟨.VOICE_STATUS, 0, 0⟩
def VOICE_POS_SAMPLE : Fld := ⟨.VOICE_POS, 59, 32⟩
def VOICE_POS_GRAIN : Fld := ⟨.VOICE_POS, 18, 0⟩
def VOICE_KERF_SEC_SEC : Fld := ⟨.VOICE_KERF_SEC, 47, 0⟩
def VOICE_KERF_FRAC_FRAC : Fld := ⟨.VOICE_KERF_FRAC, 47, 0⟩
def VOICE_SEGTAB_COUNT_M1 : Fld := ⟨.VOICE_SEGTAB, 63, 48⟩
def VOICE_SEGTAB_BASE : Fld := ⟨.VOICE_SEGTAB, 26, 5⟩
def VOICE_SEGTAB_ACT_COUNT_M1 : Fld := ⟨.VOICE_SEGTAB_ACT, 63, 48⟩
def VOICE_SEGTAB_ACT_BASE : Fld := ⟨.VOICE_SEGTAB_ACT, 26, 5⟩
def VOICE_JT_STAT_PEND : Fld := ⟨.VOICE_JT_STAT, 47, 47⟩
def VOICE_JT_STAT_PEND_ENTRY : Fld := ⟨.VOICE_JT_STAT, 43, 40⟩
def VOICE_JT_STAT_ARMED : Fld := ⟨.VOICE_JT_STAT, 39, 39⟩
def VOICE_JT_STAT_ARM_MODE : Fld := ⟨.VOICE_JT_STAT, 38, 37⟩
def VOICE_JT_STAT_ARM_DISCARD : Fld := ⟨.VOICE_JT_STAT, 36, 36⟩
def VOICE_JT_STAT_ARM_EC : Fld := ⟨.VOICE_JT_STAT, 35, 28⟩
def VOICE_JT_STAT_ARM_ENTRY : Fld := ⟨.VOICE_JT_STAT, 19, 16⟩
def VOICE_JT_STAT_LOADED : Fld := ⟨.VOICE_JT_STAT, 15, 0⟩
def VOICE_TROUBLE_LATE_JUMP : Fld := ⟨.VOICE_TROUBLE, 63, 48⟩
def VOICE_TROUBLE_JUMP_MISS : Fld := ⟨.VOICE_TROUBLE, 47, 32⟩
def VOICE_TROUBLE_SEG_ERR_CNT : Fld := ⟨.VOICE_TROUBLE, 31, 16⟩
def VOICE_TROUBLE_CNT_CLR : Fld := ⟨.VOICE_TROUBLE, 0, 0⟩
def VOICE_LOCK_LOCK : Fld := ⟨.VOICE_LOCK, 0, 0⟩
def VOICE_JT_JT : Fld := ⟨.VOICE_JT, 63, 0⟩
def VOICE_Q_Q : Fld := ⟨.VOICE_Q, 63, 0⟩
def CORE_CTL_START_SRC : Fld := ⟨.CORE_CTL, 9, 8⟩
def CORE_CTL_FLUSH : Fld := ⟨.CORE_CTL, 7, 7⟩
def CORE_CTL_STEP : Fld := ⟨.CORE_CTL, 6, 6⟩
def CORE_CTL_RESET : Fld := ⟨.CORE_CTL, 5, 5⟩
def CORE_CTL_RESUME : Fld := ⟨.CORE_CTL, 4, 4⟩
def CORE_CTL_STOP : Fld := ⟨.CORE_CTL, 3, 3⟩
def CORE_CTL_START : Fld := ⟨.CORE_CTL, 2, 2⟩
def CORE_CTL_ARM : Fld := ⟨.CORE_CTL, 1, 1⟩
def CORE_STATUS_ARM_ERR : Fld := ⟨.CORE_STATUS, 23, 20⟩
def CORE_STATUS_SP : Fld := ⟨.CORE_STATUS, 19, 16⟩
def CORE_STATUS_THROTTLED : Fld := ⟨.CORE_STATUS, 15, 15⟩
def CORE_STATUS_DMEM_UE : Fld := ⟨.CORE_STATUS, 14, 14⟩
def CORE_STATUS_ADMIT_REFUSED : Fld := ⟨.CORE_STATUS, 13, 13⟩
def CORE_STATUS_CMD_IGNORED : Fld := ⟨.CORE_STATUS, 12, 12⟩
def CORE_STATUS_START_LATE : Fld := ⟨.CORE_STATUS, 11, 11⟩
def CORE_STATUS_START_MISS : Fld := ⟨.CORE_STATUS, 10, 10⟩
def CORE_STATUS_STARVED : Fld := ⟨.CORE_STATUS, 9, 9⟩
def CORE_STATUS_STATE : Fld := ⟨.CORE_STATUS, 3, 0⟩
def CORE_PC_PC : Fld := ⟨.CORE_PC, 12, 0⟩
def CORE_START_SEC_SEC : Fld := ⟨.CORE_START_SEC, 47, 0⟩
def CORE_START_FRAC_FRAC : Fld := ⟨.CORE_START_FRAC, 47, 0⟩
def CORE_START_EVT_EC : Fld := ⟨.CORE_START_EVT, 6, 0⟩
def CORE_FAULT_COUNT : Fld := ⟨.CORE_FAULT, 63, 48⟩
def CORE_FAULT_FPC : Fld := ⟨.CORE_FAULT, 28, 16⟩
def CORE_FAULT_CODE : Fld := ⟨.CORE_FAULT, 7, 0⟩
def CORE_QUEUE_CNT_CLR : Fld := ⟨.CORE_QUEUE, 32, 32⟩
def CORE_QUEUE_STARVE_CNT : Fld := ⟨.CORE_QUEUE, 31, 16⟩
def CORE_QUEUE_QLOW : Fld := ⟨.CORE_QUEUE, 13, 8⟩
def CORE_QUEUE_QFILL : Fld := ⟨.CORE_QUEUE, 5, 0⟩
def CORE_BUDGET_ADMIT_TMO : Fld := ⟨.CORE_BUDGET, 63, 48⟩
def CORE_BUDGET_THR_DIV : Fld := ⟨.CORE_BUDGET, 39, 32⟩
def CORE_BUDGET_RESV_MW : Fld := ⟨.CORE_BUDGET, 31, 16⟩
def CORE_BUDGET_ADMIT : Fld := ⟨.CORE_BUDGET, 10, 8⟩
def CORE_BUDGET_PHASE : Fld := ⟨.CORE_BUDGET, 7, 4⟩
def CORE_BUDGET_CLASS : Fld := ⟨.CORE_BUDGET, 1, 0⟩
def CORE_DMEM_ADDR_WORD : Fld := ⟨.CORE_DMEM_ADDR, 14, 3⟩
def CORE_DMEM_DATA_DATA : Fld := ⟨.CORE_DMEM_DATA, 63, 0⟩
def CORE_LOCK_LOCK : Fld := ⟨.CORE_LOCK, 0, 0⟩
def CORE_HDR_HDR : Fld := ⟨.CORE_HDR, 63, 0⟩
def CORE_GREG_G : Fld := ⟨.CORE_GREG, 63, 0⟩
def CORE_STACK_RET : Fld := ⟨.CORE_STACK, 13, 0⟩
def CORE_COST_COST : Fld := ⟨.CORE_COST, 63, 0⟩
def CORE_IMEM_WORD : Fld := ⟨.CORE_IMEM, 63, 0⟩

end F

end Sys2Proof.Machine
end

