-- ==== Sys2Proof/Machine/Store.lean ====
section
/-! DEFINITION. Sparse stores: lists of (key, value) pairs in one canonical form, the shape of every memory, of the
register file and of every numbered family of hidden state. A key that is not listed reads as the store's default. -/

namespace Sys2Proof.Machine

/-- The value of key k: the first listed one, else the default of k. -/
def sget {α : Type} (d : Nat → α) : List (Nat × α) → Nat → α
  | [], k => d k
  | (k', v) :: m, k => if k' = k then v else sget d m k

/-- The store without key k. -/
def serase {α : Type} : List (Nat × α) → Nat → List (Nat × α)
  | [], _ => []
  | (k', v) :: m, k => if k' = k then serase m k else (k', v) :: serase m k

/-- The store with (k, v) placed before the first greater key. -/
def sinsert {α : Type} : List (Nat × α) → Nat → α → List (Nat × α)
  | [], k, v => [(k, v)]
  | (k', v') :: m, k, v => if k < k' then (k, v) :: (k', v') :: m else (k', v') :: sinsert m k v

/-- A write: key k reads as v from now on. Writing the default removes the entry, so equal stores are equal data. -/
def sput {α : Type} [DecidableEq α] (d : Nat → α) (m : List (Nat × α)) (k : Nat) (v : α) : List (Nat × α) :=
  if v = d k then serase m k else sinsert (serase m k) k v

/-- Keys strictly rising. -/
def srising {α : Type} : List (Nat × α) → Bool
  | [] => true
  | [_] => true
  | (a, _) :: (b, w) :: m => decide (a < b) && srising ((b, w) :: m)

/-- No entry equal to what an unlisted key reads as. -/
def sproper {α : Type} [DecidableEq α] (d : Nat → α) : List (Nat × α) → Bool
  | [] => true
  | (k, v) :: m => decide (v ≠ d k) && sproper d m

/-- The canonical form: keys strictly rising and no entry at its default. -/
def swf {α : Type} [DecidableEq α] (d : Nat → α) (m : List (Nat × α)) : Bool := srising m && sproper d m

/-- f applied to 0, 1, … n − 1 in turn. -/
def forN {σ : Type} : Nat → (Nat → σ → σ) → σ → σ
  | 0, _, s => s
  | n + 1, f, s => f n (forN n f s)

/-- Whether p holds of some number below n. -/
def anyN : Nat → (Nat → Bool) → Bool
  | 0, _ => false
  | n + 1, p => anyN n p || p n

/-- The least number below n of which p holds. -/
def firstN (n : Nat) (p : Nat → Bool) : Option Nat := (List.range n).find? p

end Sys2Proof.Machine
end

