-- ==== Sys2Proof/Machine/State.lean ====
section
/-! DEFINITION. The state of the AYN9616 as plain data: every register of BAR0, the memories, the queue of waiting
commands, and block by block the state that the chapters give the device beside its registers. An unlisted register,
memory byte or numbered unit is at its reset value, so State.reset lists nothing. -/

namespace Sys2Proof.Machine

/-- EI0 or EI1 of a core (R75, R76): the channel it selects and its latch. -/
structure EventIn where
  sel : Option Nat := none
  latch : Bool := false
  deriving DecidableEq, Repr

/-- A descriptor of the queue (R97), with its operands resolved. -/
inductive Desc where
  | play (kerf seg : Nat)
  | loop (count len : Nat)
  | jump (mode : Nat) (discard : Bool) (ec entry : Nat)
  | waitTrig (line : Nat)
  | waitEvent (ec : Nat)
  | waitTime (t : Nat)
  | waitKerf (n : Nat)
  | setf (fw : Nat)
  | setp (add : Bool) (phase : Nat)
  | rampf (nsamp step : Nat)
  | mark (lane mode offset width : Nat)
  | trigo (line : Nat)
  | bufFree (handle : Nat)
  deriving DecidableEq, Repr

/-- A queue entry (R97, R376): its descriptor, the DTIME of its write, the status bits of LO[63:61], the passes a LOOP has
completed, whether it stays until its loop's last pass ends, whether it names a DRAM item (R113), the entry words read
at issue (R110), and how many kerfs lie before the one that frees it or, for a loop, at which it begins to run (R96). -/
structure QEntry where
  desc : Desc
  written : Nat
  committed : Bool := false
  inplay : Bool := false
  loopbody : Bool := false
  pass : Nat := 0
  kept : Bool := false
  dram : Bool := false
  words : List Word := []
  wave : Nat := 0
  deriving DecidableEq, Repr

/-- A running loop (R98): queue position of the LOOP, its COUNT and LEN, passes completed, next body position. -/
structure LoopRun where
  at_ : Nat
  count : Nat
  len : Nat
  pass : Nat
  pos : Nat
  deriving DecidableEq, Repr

/-- The kinds of item (R78). -/
inductive ItemKind where
  | play | target | wait | idle
  deriving DecidableEq, Repr

/-- What a fetch has read of SRAM and DRAM (R95): the listed bytes of the places it read, what an unlisted byte of DRAM stemmed
from then, and the words found marked uncorrectable. -/
structure Copy where
  sram : List Host.Cell := []
  dram : List Host.Cell := []
  gens : List (Nat × Nat) := []
  bad : List (Bool × Nat) := []
  deriving DecidableEq, Repr

/-- A DRAM grain that refill has come to (R109, R143): its fetch is in flight, it has arrived at DTIME t with data c, or it was covered
at its request and uses no slot of the line buffer. -/
inductive LineSlot where
  | flying
  | here (t : Nat) (c : Copy)
  | covered
  deriving DecidableEq, Repr

/-- An item of a voice (R78). Positions are counted in 1/1024 voice samples from the channel's epoch, so VOFF is the
position modulo 1024 (R80). seg and words: segment index and snapshot. kerf: the span. start: its kerf instant. first: its
first sample. len: L, 0 for an unbounded STRM item and for a WAIT hold. next: the next grain to begin. closed: the window
for its end has closed. cond: the WAIT's condition. seen: the reference time its condition was met with. refs: the handles
it references (R124). again: an idle grain after the first of an episode (R100). -/
structure Item where
  kind : ItemKind
  seg : Nat := 0
  words : List Word := []
  kerf : Nat := 0
  start : Int := 0
  first : Int := 0
  len : Nat := 512
  next : Nat := 0
  closed : Bool := false
  cond : Option Desc := none
  seen : Option Nat := none
  refs : List Nat := []
  again : Bool := false
  deriving DecidableEq, Repr

/-- What a window close took for a kerf (R94): zero-sample descriptors in queue order, then a PLAY with its snapshot or a
WAIT. failed: the snapshot failed, and an idle grain plays in its place (R85). closed: the window for the item after a
WAIT TIME had already passed when the WAIT was taken (R96). pass: the passes its loop has completed at that kerf (R97). kerf: that
kerf, when it is known. at_: the DTIME of its snapshot (R147), which was late (R249). segtab, range: the register commits for the kerf at
which a WAIT TIME ends whose window closed before it began (R95, R96). -/
structure Taken where
  acts : List Desc := []
  item : Desc
  words : List Word := []
  refs : List Nat := []
  failed : Bool := false
  closed : Bool := false
  pass : Option Nat := none
  kerf : Option Int := none
  at_ : Nat := 0
  late : Bool := false
  segtab : Option Word := none
  range : Option Nat := none
  deriving DecidableEq, Repr

/-- An armed jump (R102) with its arming instant in DTIME units. -/
structure Armed where
  mode : Nat
  discard : Bool
  ec : Nat
  entry : Nat
  armed : Nat
  deriving DecidableEq, Repr

/-- A pending jump (R103): its release instant in units of 2^-48 / 10^10 s, and where it lands when that is known.
follow: it lands at the end of the item after the one in play (LATE_JUMP). hold: it lands at the release of the WAIT in
play if that comes first. segtab, range: the register commits written before its release, which a landing that cuts an item
applies (R94). late: it was accepted in the horizon, and lands at an item's end whatever moves (R103). -/
structure Pending where
  mode : Nat
  discard : Bool
  ec : Nat
  entry : Nat
  rel : Nat
  land : Option Int := none
  follow : Bool := false
  hold : Bool := false
  segtab : List Word := []
  range : Option Nat := none
  late : Bool := false
  deriving DecidableEq, Repr

/-- A jump-table entry beside its register (R101): the snapshot taken, whether its preload is under way, the handles
it references, and the jump buffer with the target's first grain. -/
structure JtSt where
  words : List Word := []
  loading : Bool := false
  dram : Bool := false
  refs : List Nat := []
  data : Copy := {}
  deriving DecidableEq, Repr

/-- A channel grid (R133): the epoch, the DAC sample period num / den in DTIME units, and the voice sample period
vnum / vden, both exact. -/
structure Grid where
  epoch : Nat := 0
  num : Nat := 1
  den : Nat := 1
  vnum : Nat := 1
  vden : Nat := 1
  deriving DecidableEq, Repr

/-- A scheduled MARK action (R176): lane, mode, position on the grid it was scheduled on, which fixes it in DTIME, and width. -/
structure MarkAct where
  lane : Nat
  mode : Nat
  at_ : Int
  width : Nat
  grid : Grid := {}
  deriving DecidableEq, Repr

/-- A running pulse (R176): its lane, and its end on the grid of its action. -/
structure Pulse where
  lane : Nat
  at_ : Int
  grid : Grid := {}
  deriving DecidableEq, Repr

/-- A placement of a stream on a voice's timeline (R119): packet seq begins at voice sample begin_, and blocks of it are
played from voice sample first on. -/
structure Placement where
  seq : Nat
  begin_ : Int
  first : Int
  deriving DecidableEq, Repr

/-- A voice's place in its stream (R119 to R122): its placements, latest first; the voice sample of the next block to check;
the blocks checked, latest first, each with the byte address of its samples and what was read there, or none when missing; whether
the END packet has played; whether a gap is open, with the next SEQ expected when it began and whether its resuming packet has been
placed; and the first block of a RESUME, which needs no further check. -/
structure StreamPlay where
  placed : List Placement := []
  block : Option Int := none
  decided : List (Int × Option (Nat × Copy)) := []
  ended : Bool := false
  gap : Option Nat := none
  resumed : Bool := false
  sure : Option Int := none
  deriving DecidableEq, Repr

/-- A voice beside its registers (chapters 04, 05 and 08). drives: the channel it drives, when a slot write has moved it (none: the channel of
R15). join: the channel it will join and the boundary (R140). since: the start instant s of R81, while it has one. queue: the descriptor
queue; cur: how many entries from the head have been taken; loop: the running loop. item: the item in play. taken: what the last window close
took. kerfAt: the next kerf instant. carry: descriptors that act from the first sample of the next PLAY (R64). tail: those at the end of a
loop that has ended with no item behind it, which the next kerf reaches. starved: in an episode of R38. takesFrom: the DTIME at which its core
last left HALT and ARMED for a state that plays the queue (R43). segNew, segCommit: a VOICE_SEGTAB value written, and one that the next kerf
applies (R82, R95). range: a channel whose range change the next kerf commits (R166). armed, pending: jumps; jumpSeen: reference time of an
event the jump input took. jt: jump-table entries. fw, acc: the NCO; phases: the accumulator at the latest samples, latest first, which a TONE
off the grid is filtered from (R80); rampStep, rampLeft: a ramp, none left meaning until replaced (R69); setps: SETPs of the next sample.
level: the lanes' level bits; pulses: running pulses with their ends; acts: scheduled MARK actions (R175, R176). covered: grains of the item
found covered, coveredNext: grain 0 of the item that follows (R143); fetched: grains of the item whose fetch was issued, fetchedNext: that of
grain 0 of the item that follows. lines: what SRAM fetches have read, by items ahead and grain (R95). slots: DRAM grains next in play order
(R109). slotGone: the DTIME at which it last released its DRAM slot (R113). lastI, lastQ: the last sample of the previous item (R79); nowI,
nowQ: the sample that left the voice last. absent: missing grains of the item; late: the late lines of its latest grain (R249); broke: covered
grains counted as exposed (R144). misses: underrun episodes, latest first, as the DAC samples from which and up to which each governs the
channel (R115). pat: LMASK and lane bits of a PAT item (R91, R175). stream: its place in a stream. -/
structure VoiceSt where
  drives : Option (Option Nat) := none
  join : Option (Nat × Int) := none
  since : Option Int := none
  queue : List QEntry := []
  cur : Nat := 0
  loop : Option LoopRun := none
  item : Option Item := none
  taken : List Taken := []
  kerfAt : Option Int := none
  carry : List Desc := []
  tail : List Desc := []
  starved : Bool := false
  takesFrom : Nat := 0
  segNew : Option Word := none
  segCommit : Option Word := none
  range : Option Nat := none
  armed : Option Armed := none
  pending : Option Pending := none
  jumpSeen : Option Nat := none
  jt : List (Nat × JtSt) := []
  fw : Nat := 0
  acc : Nat := 0
  phases : List Nat := []
  ramping : Bool := false
  rampStep : Nat := 0
  rampLeft : Option Nat := none
  setps : List Desc := []
  level : Nat := 0
  pulses : List Pulse := []
  acts : List MarkAct := []
  covered : List Nat := []
  coveredNext : Bool := false
  fetched : Nat := 0
  fetchedNext : Bool := false
  lines : List (Nat × Nat × Copy) := []
  slots : List LineSlot := []
  slotGone : Option Nat := none
  lastI : Int := 0
  lastQ : Int := 0
  nowI : Int := 0
  nowQ : Int := 0
  absent : List Nat := []
  late : List LateLine := []
  broke : List Nat := []
  misses : List (Int × Option Int) := []
  pat : Nat × Nat := (0, 0)
  stream : StreamPlay := {}
  deriving DecidableEq, Repr

/-- What a ring slot holds of a packet (R117, R118): SEQ, flags, PTIME, and the DTIME of its first header word. -/
structure Packet where
  seq : Nat
  start : Bool
  stop : Bool
  ptime : Nat
  nsamp : Nat
  arrived : Nat
  deriving DecidableEq, Repr

/-- A stream binding beside its registers: the packets in its ring, whether it takes only a START packet (ABORT), and its slip
(R121). -/
structure BindingSt where
  packets : List Packet := []
  onlyStart : Bool := false
  slip : Int := 0
  deriving DecidableEq, Repr

/-- Life of a buffer-table entry (R123, R125). -/
inductive Life where
  | free | live | retiring
  deriving DecidableEq, Repr

/-- A buffer-table entry (R123 to R125): generation, region (true for DRAM), first 4 KiB page, size in pages, host holds,
program holds by core, BUF.FREE descriptors not reached, references, and the voice whose next kerf retires it. gone: the DTIME at
which a free entry retired, with the space still named that it gave up then. -/
structure BufferSt where
  gen : Nat := 1
  life : Life := .free
  dram : Bool := false
  page : Nat := 0
  pages : Nat := 0
  host : Nat := 0
  progs : List Nat := []
  descs : Nat := 0
  refs : Nat := 0
  after : Option Nat := none
  gone : Option Nat := none
  deriving DecidableEq, Repr

/-- A write to a run-time field that its boundary has not yet applied (R135): bits hi..lo of the register word at addr act
with the value old until grid boundary number boundary. -/
structure Held where
  addr : Nat
  hi : Nat
  lo : Nat
  old : Nat
  boundary : Int
  deriving DecidableEq, Repr

/-- An NCO reset that waits (R138): the first DAC sample at or after its instant, whether the run-time boundary took the
place of CH_NCO_EPOCH, the DTIME that CH_NCO_EPOCH held at the write, and the channel whose NCO_RESYNC asked for it. -/
structure NcoReset where
  at_ : Int
  late : Bool
  want : Nat := 0
  by_ : Nat := 0
  deriving DecidableEq, Repr

/-- The run-time settings the datapath acts on, from DAC sample from_ on (R135, R151 to R154, R168 to R170): coarse and frac are the
effective trim, and skew the part of it that pads the converter (R160). bare: no calibration bank is valid (R317). -/
structure DacSet where
  from_ : Int
  mute : Bool := false
  ufl : Nat := 0
  carry : Nat := 0
  mode : Nat := 0
  droop : Nat := 0
  fw : Nat := 0
  phase : Nat := 0
  coarse : Nat := 0
  frac : Nat := 0
  skew : Int := 0
  bare : Bool := false
  deriving DecidableEq, Repr

/-- A DAC sample that has left the coarse buffer (R153): its number, how often it is played again after this time, and its word. -/
structure DacSlot where
  index : Int
  wait : Nat
  word : Int
  deriving DecidableEq, Repr

/-- A channel and its converter beside their registers (chapters 06 and 07).
grid: the grid of the running channel. out: that of the samples at the converter, which a start or a retune puts in the place of the
grid they left on. start and stop: the boundaries of a start or stop that waits (R134). again: a write
of EN = 1 that waits for a stop. held: run-time writes that wait. nco: the 48-bit accumulator at DAC sample nextNco, the next to reach
the NCO stage; ncoReset: a reset that waits; ncoZero: the DAC sample at which a reset made zeroes the accumulator.
sums: composed samples (R141) that the interpolator still holds or waits for, with their voice samples. nextVoice and nextDac: the next
voice sample of the grid, and the next DAC sample to be presented. coarse: the coarse delay in force at the coarse buffer's read point;
again_: plays left of the sample there; line: DAC samples that have left the coarse buffer, latest first, ahead of them not presented yet
(R153). sets: settings with the DAC samples at which they begin,
latest first. stopDac: the DAC sample at which a stopped channel's output parks (R165). shown: a sample has reached the Burr
Guard since the start (R28, precedence 1). bias: the DAC array's bias has settled; biasFrom: the DTIME at which its domain switched on
(R164, R165). unlocked: parked under precedence 2
with restart telling that the voices take their first kerf anew (R210). brown: parked under precedence
3; brownClear: the DTIME at which the warning ended. cond: the condition that governed the last sample shown, as OUT_STATE
codes it. code: the code presented last, and prev the one before it; carried: the last sample was a carry hold (R170); kept: c_last of
an underrun, with ufl the samples of it already shown (R169). rangeAt: the DAC sample at which a committed range change starts (R167);
rangeFrom and rangeTo: the first DAC sample of a tRANGE and the first after it. legP, legN: the current limits engaged, each since a
DTIME (R171); released: the DTIME at which the last limit disengaged while SC_ACTIVE. lanes: by marker lane, the transitions on their way
to its pins, latest first, each with its DTIME there and the level after it (R177, R178). -/
structure ChanSt where
  grid : Grid := {}
  out : Grid := {}
  start : Option Int := none
  stop : Option Int := none
  again : Bool := false
  held : List Held := []
  nco : Nat := 0
  ncoReset : Option NcoReset := none
  ncoZero : Option Int := none
  nextNco : Int := 0
  sums : List (Int × Int × Int) := []
  nextVoice : Int := 0
  nextDac : Int := 0
  coarse : Nat := 0
  again_ : Nat := 0
  line : List DacSlot := []
  ahead : Nat := 0
  sets : List DacSet := []
  stopDac : Option Int := none
  shown : Bool := false
  bias : Bool := false
  biasFrom : Nat := 0
  unlocked : Bool := false
  restart : Bool := false
  brown : Bool := false
  brownClear : Nat := 0
  cond : Nat := 1
  code : Int := 0
  prev : Int := 0
  carried : Bool := false
  kept : Option Int := none
  ufl : Nat := 0
  rangeAt : Option Int := none
  rangeFrom : Int := 0
  rangeTo : Option Int := none
  legP : Option Nat := none
  legN : Option Nat := none
  released : Nat := 0
  lanes : List (Nat × List (Int × Bool)) := []
  deriving DecidableEq, Repr

/-- An RT reservation (R46): power in mW, DRAM bandwidth in MB/s, and whether a phase makes the voice DRAM-backed. -/
structure Resv where
  mw : Nat
  dramBw : Nat
  dramv : Bool
  deriving DecidableEq, Repr

/-- A core beside its registers (chapters 02 and 03). pc: the program counter, 8,192 after the last instruction of a full
text, where CORE_PC shows its 13 bits. ei0, ei1: its event inputs. dtrd: the latch of R60. blocked: a buffer
instruction has not completed (R72), with stopLater a STOP that waits for it. stalled: the descriptor of an emission in
QSTALL. gd: the destination of the EVT.WAIT or BUDGET that waits, with phase the phase asked. deadline: the DTIME at which
an EVT.WAIT expires. since: the DTIME at which an admission wait began, with fromStart telling whether it came from a start
(R44). resv: the RT reservation held since an ARM. -/
structure CoreSt where
  pc : Nat := 0
  ei0 : EventIn := {}
  ei1 : EventIn := {}
  dtrd : Nat := 0
  blocked : Bool := false
  stopLater : Bool := false
  stalled : Option QEntry := none
  gd : Nat := 0
  phase : Nat := 0
  deadline : Option Nat := none
  since : Nat := 0
  fromStart : Bool := false
  resv : Option Resv := none
  deriving DecidableEq, Repr

/-- A TRIG_OUT line beside its register (R184, R185): pulses due, as the exact instants num / den in DTIME units that rise before
DELAY; the DTIMEs of the latest TO_CFG writes with the words they replaced, latest first; and the
fall of the pulse that is high, in steps of the 9.6 GHz grid. -/
structure TrigOutSt where
  due : List (Int × Int) := []
  old : List (Nat × Word) := []
  fall : Option Nat := none
  deriving DecidableEq, Repr

/-- A TRIG_IN line beside its registers (R181, R183): the writes of TI_CFG that have not taken effect, oldest first, each with its
DTIME and the word it replaced, and the timestamp of the last accepted edge. -/
structure TrigInSt where
  writes : List (Nat × Word) := []
  last : Option Nat := none
  deriving DecidableEq, Repr

/-- What fires: a producer source of R191, or an event channel fired directly by EVT.FIRE or EVT_FIRE (R193). -/
inductive Producer where
  | source (n : Nat)
  | channel (c : Nat)
  deriving DecidableEq, Repr

/-- A firing that its channels have not passed yet, with its reference time in DTIME units (R190, R192). -/
structure Fired where
  who : Producer
  time : Nat
  deriving DecidableEq, Repr

/-- An event that channel chan has passed, on its way to consumer inputs; reached lists those it has reached (R195). -/
structure Flight where
  chan : Nat
  time : Nat
  reached : List Nat
  deriving DecidableEq, Repr

/-- A write to a producer field or selection that has not taken effect yet: bits hi..lo of the register word at BAR0
offset addr still act with the value old (R196). -/
structure Unsettled where
  addr : Nat
  hi : Nat
  lo : Nat
  old : Nat
  deriving DecidableEq, Repr

/-- The fabric's view of one consumer input (R195): the reference time that opened its window, and its two counts. -/
structure InputSt where
  window : Option Nat := none
  coincide : Nat := 0
  overrun : Nat := 0
  deriving DecidableEq, Repr

/-- A relay unit (R197): the output held in DELAY, the count and the outputs due in DIVIDE, the next instant in TIMER. -/
structure RelaySt where
  held : Option Nat := none
  count : Nat := 0
  due : List Nat := []
  next : Option Nat := none
  deriving DecidableEq, Repr

/-- The event fabric beside its registers (chapter 09). refr holds, per channel, the reference time of the event whose
refractory period may still run (R200). -/
structure FabricSt where
  fired : List Fired := []
  flight : List Flight := []
  unsettled : List Unsettled := []
  inputs : List (Nat × InputSt) := []
  refr : List (Nat × Option Nat) := []
  relays : List (Nat × RelaySt) := []
  deriving DecidableEq, Repr

/-- A Spindle PLL beside its registers: the SP_FREQ word last applied (R210), whether the acquisition under way follows a
loss of lock (R217), whether it must begin at BAND (R213), whether a band measurement runs (R216), the DTIME from which
the 2 µs of R217 count, and the dither settings taken at the last ALIGN (R211). stuck: no band was found, and only a RETUNE
or a measurement moves it on (R215). acq: the DTIME at which the acquisition under way began (R212). -/
structure SpindleSt where
  applied : Word := 0
  acq : Nat := 0
  relock : Bool := false
  rail : Bool := false
  stuck : Bool := false
  measuring : Bool := false
  since : Nat := 0
  dither : Bool := false
  seed : Nat := 0
  deriving DecidableEq, Repr

/-- An auxiliary synthesizer beside its registers: the word and ADIV in force (R221), the ramp's start instant, the
start of the segment under way, the point it came from, and whether PINGPONG runs in reverse (R222). held: its CLKOUT pairs
are held at the inactive level until LOCKED (R221). acq: the DTIME at which its acquisition began (R212). phase: the output phase at
DTIME phaseAt, in 2^-80 of a VCO cycle, whole cycles dropped (R222). -/
structure AuxSt where
  acq : Nat := 0
  phase : Nat := 0
  phaseAt : Nat := 0
  word : Nat := 0
  adiv : Nat := 0
  start : Nat := 0
  segStart : Nat := 0
  from_ : Nat := 0
  reverse : Bool := false
  held : Bool := false
  deriving DecidableEq, Repr

/-- A CLKOUT pair beside its registers: whether its divider runs, started at a DTIME, and the delays in force (R224). -/
structure ClkoutSt where
  running : Bool := false
  start : Nat := 0
  dlyC : Nat := 0
  dlyF : Nat := 0
  deriving DecidableEq, Repr

/-- A reference input beside its registers (R205): edges arrive on it; the latest gate found its frequency outside the window; and the
DTIME from which it has stayed valid. -/
structure RefIn where
  edges : Bool := false
  fault : Bool := false
  since : Nat := 0
  deriving DecidableEq, Repr

/-- Clock synthesis beside its registers (chapter 10). everLocked: the Reference PLL was LOCKED since power-on (R206); lockedAt: the DTIME
at which it last became LOCKED, with acq the one at which it began to compare with its source (R212); held: the span of DTIME whose mean
frequency it holds in COAST (R208); switching: in COAST a write has named a qualified input, so that the next lock is no return (R207,
R235). -/
structure ClockSt where
  refs : List (Nat × RefIn) := []
  lockedAt : Nat := 0
  acq : Nat := 0
  held : Option (Nat × Nat) := none
  switching : Bool := false
  spindles : List (Nat × SpindleSt) := []
  aux : List (Nat × AuxSt) := []
  clkouts : List (Nat × ClkoutSt) := []
  everLocked : Bool := false
  deriving DecidableEq, Repr

/-- A time command waiting for a PPS_IN edge (R230): ALIGN_PPS or SET_AT_PPS with its argument, and the DTIME of its
write. -/
structure PpsWait where
  align : Bool
  arg : Nat
  written : Nat
  deriving DecidableEq, Repr

/-- A two-step Sync whose Follow_Up has not come (R238): its port, sequenceId, and receive timestamp less correction. -/
structure TwoStep where
  port : Nat
  seq : Nat
  t2 : Int
  deriving DecidableEq, Repr

/-- The PTP messages a port sends (R238, R241). -/
inductive PtpKind where
  | sync | followUp | delayReq | delayResp | announce | managed | refused
  deriving DecidableEq, Repr

/-- A PTP message that a port has sent: its kind, sequenceId, the DTIME it carries (a transmit or receive timestamp), and for an
Announce clockClass, clockAccuracy and the time properties: timeTraceable and frequencyTraceable, and currentUtcOffset, leap59, leap61
and timeSource in the bytes of timePropertiesDS. -/
structure PtpFrame where
  port : Nat
  kind : PtpKind
  seq : Nat
  time : Int := 0
  cls : Nat := 0
  acc : Nat := 0
  traceable : Bool := false
  props : List Byte := []
  deriving DecidableEq, Repr

/-- The clock a port follows: the port, and what its Announce ranks by, most significant first. -/
structure PtpParent where
  port : Nat
  rank : List Nat
  deriving DecidableEq, Repr

/-- The time service's hidden state (R238 to R241): consecutive Syncs inside 1 ns and outside 1 µs, whether the offset that a step removes has
come, the two-step Sync waiting, origin and receive time of the latest Sync less correction, the Delay_Req sent and not answered with its
transmit timestamp, the parent with the DTIME of its latest Announce, sequence numbers of sent messages and the DTIME of the latest by port
and kind, stored datasets by managementId, and the frames sent. -/
structure PtpSt where
  good : Nat := 0
  bad : Nat := 0
  begun : Bool := false
  waiting : Option TwoStep := none
  t1 : Int := 0
  t2 : Int := 0
  reqSeq : Nat := 0
  reqTime : Option Int := none
  parent : Option PtpParent := none
  annAt : Nat := 0
  sentAt : List (Nat × Nat) := []
  seqs : List (Nat × Nat) := []
  datasets : List (Nat × List Byte) := []
  sent : List PtpFrame := []
  deriving DecidableEq, Repr

/-- A cable-delay measurement (R242): repeating; exchanges sent and completed; the sum and the extremes of the exchange values in DTIME
units; the transmit timestamps of exchanges under way; and whether one failed. start: the DTIME at which the latest measurement began;
next: the earliest DTIME of its next exchange. -/
structure CableSt where
  start : Nat := 0
  next : Nat := 0
  repeating : Bool := false
  begun : Nat := 0
  done : Nat := 0
  sum : Int := 0
  least : Int := 0
  most : Int := 0
  outs : List Nat := []
  failed : Bool := false
  deriving DecidableEq, Repr

/-- Device time beside its registers (chapter 11). dtime and residue are the counter of R227; nextSecond is the next TAI second to fire
(R231); the latches of R229 lie one per requester code; ppsLast is the last PPS_IN timestamp in DTIME units and ppsEdge the DTIME of its edge,
which moves with a step (R232); restFreq: REFA_FREQ as REST was entered and restRes the residue of the REF_A count there, with measured
telling that the Rest domain has measured its oscillator (R234); uncSince is the DTIME at which TM_UNC was last brought up to date (R233) and
slewSince the one for TM_HO_REMAIN (R236); returns counts the returns of R235; refA: edges arrive on REF_A as the Rest domain sees them
(R234). -/
structure TimeSt where
  dtime : DTime := 0
  residue : Nat := 0
  nextSecond : Nat := 1
  latches : List (Nat × Word) := []
  ppsLast : Option Nat := none
  ppsEdge : Nat := 0
  restRes : Nat := 0
  restFreq : Nat := 0
  measured : Bool := false
  ppsWait : Option PpsWait := none
  uncSince : Nat := 0
  slewSince : Nat := 0
  returns : Nat := 0
  refA : Bool := false
  ptp : PtpSt := {}
  cables : List (Nat × CableSt) := []
  deriving DecidableEq, Repr


/-- A training run (R263): FULL or PERIODIC, its channels, and the set-point (true for 4800 MT/s). -/
structure TrainRun where
  full : Bool
  chans : List Nat
  slow : Bool
  deriving DecidableEq, Repr

/-- A BAR4 access that waits for the DRAM PLL (R360): the bytes be of the word at an offset, and what the word meets. -/
structure HeldBar where
  write : Bool
  at_ : Nat
  be : BitVec 8
  data : Word
  ecc : Ecc
  deriving DecidableEq, Repr

/-- The memory system beside its registers (chapter 12). run: the training run under way, or with STEP at 0 waiting for admission; waits: runs
that wait for it or for their set-point. change: the set-point a change in progress goes to, with hold telling that it waits for a training
step to end. asked: a run that a change discarded and that starts anew after it (R264). debts: refresh debt by 4c + 2 × sub-channel + rank.
logAt: the DTIME of the error that MEM_ECC_LOG holds (R252). filled: channels zero-filled since their domain switched on. unreset: channels on
which a FULL run has begun since VDDQ was applied (R369). pllLost: the DTIME at which the DRAM PLL lost lock, and held: the BAR4 accesses that
came since, oldest first. losses counts the times the contents of DRAM became undefined, and gens holds, by channel, the one that the bytes of
the channel stem from that nothing has written since, 0 for the zero fill (R360). scrubbed: the lines of SRAM and the bursts of DRAM that the
present scrub passes have read, and passes: the DTIME at which the latest pass over SRAM (false) and DRAM began (R253). -/
structure MemSt where
  run : Option TrainRun := none
  waits : List TrainRun := []
  change : Option Bool := none
  hold : Bool := false
  asked : Option TrainRun := none
  debts : List (Nat × Nat) := []
  filled : List Nat := []
  unreset : List Nat := []
  pllLost : Option Nat := none
  held : List HeldBar := []
  logAt : Option Nat := none
  losses : Nat := 0
  gens : List (Nat × Nat) := []
  scrubbed : List (Bool × Nat) := []
  passes : List (Bool × Nat) := []
  deriving DecidableEq, Repr

/-- A stream packet (R117): the UDP port it was sent to on PORT1 to PORT4, its four header words and its payload. -/
structure StreamMsg where
  udp : BitVec 16 := 0
  h0 : Word
  h1 : Word
  h2 : Word
  h3 : Word
  payload : List Word
  deriving DecidableEq, Repr

/-- The commands of MLP (R275) with their payloads. e: what a read of memory finds on the way. -/
inductive MlpOp where
  | ping
  | openSession
  | journalRead (first count : BitVec 32)
  | noteRead (first count : BitVec 32)
  | regRead (off : BitVec 64) (count : BitVec 32) (e : Ecc)
  | regWrite (off : BitVec 64) (count : BitVec 32) (vals : List Word) (e : Ecc)
  | memRead (region addr len : BitVec 64) (e : Ecc)
  | memWrite (region addr len : BitVec 64) (vals : List Word)
  | imageLoad (core : Byte) (arm : Bool) (image : List Word)
  | noteCfg (mask : BitVec 32)
  | dsGet (id : BitVec 16)
  | dsSet (id : BitVec 16) (data : List Byte)
  deriving DecidableEq, Repr

/-- An MLP command as a port takes it. -/
structure MlpMsg where
  head : MlpHead
  op : MlpOp
  deriving DecidableEq, Repr

/-- A received frame on its way through the injector (R283): an MLP command, a stream packet, or a
message that R272 discards, of a length in bytes. -/
inductive RxFrame where
  | mlp (m : MlpMsg)
  | stream (m : StreamMsg)
  | bad (len : Nat)
  deriving DecidableEq, Repr

/-- A response or notification (R272, R276, R281); corrupt: injection has inverted one of its bits. -/
structure MlpOut where
  note : Bool
  code : Nat
  hsn : Nat := 0
  dsn : Nat := 0
  status : Nat := 0
  session : Nat := 0
  oob : Bool := false
  replay : Bool := false
  payload : List Byte := []
  corrupt : Bool := false
  deriving DecidableEq, Repr

/-- What a port has sent beside PTP: MLP messages, acknowledgements of STREAM entries (corrupt as above), CDX frames with their t1, t2 and t3,
and answers to ARP, Neighbour Discovery and echo requests. -/
inductive Sent where
  | mlp (m : MlpOut)
  | streamAck (corrupt : Bool)
  | cdx (t1 t2 t3 : BitVec 64)
  | arp
  | neighbour
  | echo
  deriving DecidableEq, Repr

/-- An IMAGE_LOAD that waits for jump-table entries (R275): its HSN, core, session, journal entry, the DTIME at which it gives up, and
whether its response is no longer delivered (R268). -/
structure ImageWait where
  hsn : Nat
  core : Nat
  session : Nat
  eseq : Nat
  until_ : Nat
  mute : Bool := false
  deriving DecidableEq, Repr

/-- A journal entry (R280). -/
structure JEntry where
  eseq : Nat
  hsn : Nat
  opcode : Nat
  port : Nat
  session : Nat
  done : Bool := false
  replayed : Bool := false
  dsn : Nat := 0
  status : Nat := 0
  time : Nat := 0
  deriving DecidableEq, Repr

/-- A port beside its registers (chapter 13). bind: the PRT_BIND word in force while a change waits (R271). opened: a session is open. held:
commands held (R277), with gap the DTIME at which the gap timer started. exec: the command in execution. ready: frames received and not yet
treated. rxCount, txCount: frames offered to the injector; rxGroup, txGroup: reorder groups, each with the DTIME of its first frame (R283).
mask: notification kinds; notes: the last 64 notifications, latest first; waiting: those not yet sent, oldest first (R281). sent: frames sent;
unsent: those for a response ring that is full (R273). coal: response entries written since the ring last requested its vector, and coalAt the
DTIME of the first (R282). -/
structure PortSt where
  bind : Option Word := none
  opened : Bool := false
  held : List MlpMsg := []
  gap : Option Nat := none
  exec : Option ImageWait := none
  ready : List RxFrame := []
  rxCount : Nat := 0
  txCount : Nat := 0
  rxGroup : List RxFrame := []
  rxAt : Nat := 0
  txGroup : List Sent := []
  txAt : Nat := 0
  mask : Nat := 0
  notes : List MlpOut := []
  waiting : List MlpOut := []
  sent : List Sent := []
  unsent : List Sent := []
  coal : Nat := 0
  coalAt : Option Nat := none
  deriving DecidableEq, Repr

/-- What PORT0's configuration space holds beside its identity (R267), at its reset values: Max_Payload_Size and Max_Read_Request_Size in
bytes, MSI-X enabled and masked as a whole, ECRC generation and checking, and D3hot (PRESUMED from PCI Express Base 5.0, log entry
50). -/
structure PcieCfg where
  mps : Nat := 128
  mrrs : Nat := 512
  msixOn : Bool := false
  msixMask : Bool := false
  ecrcGen : Bool := false
  ecrcCheck : Bool := false
  d3hot : Bool := false
  deriving DecidableEq, Repr

/-- The link's shared state: the journal, latest first, with the number of entries written since cold reset (R280), the MSI-X
messages sent, by vector (R282), the host address and PHASE of each response-ring entry written (R273), whether PERST_N is low and
PORT0 trains its link (R353), and PORT0's configuration space (R267). -/
structure LinkSt where
  journal : List JEntry := []
  written : Nat := 0
  msi : List (Nat × Nat) := []
  entries : List (Nat × Bool) := []
  perstLow : Bool := false
  training : Bool := false
  cfg : PcieCfg := {}
  deriving DecidableEq, Repr

/-- An admission request of the BG queue (R305), and a hardware task once it runs; train k is a FULL training run of k channels. -/
inductive BgTask where
  | core (k : Nat)
  | cal (n : Nat)
  | scrub
  | train (k : Nat)
  deriving DecidableEq, Repr

/-- The Budget Governor beside its registers (R302, R305, R307): both queues in arrival order, the tasks that run, the costs
admitted lately with their instants, and the dividers and GOV_TRIM that the hardware guard found. level: how the last evaluation found
H, 0 from 0 up to MARGIN, 1 below 0, 2 at or above MARGIN; due: the instant from which the dividers may double or halve, H staying so
(R306). -/
structure GovSt where
  std : List Nat := []
  bg : List BgTask := []
  tasks : List BgTask := []
  recent : List (Nat × Nat) := []
  heldDivs : List Nat := []
  heldTrim : Bool := false
  level : Nat := 0
  due : Nat := 0
  deriving DecidableEq, Repr

/-- Where the device stands in its power-up, wake and REST sequences (R298, R299, R348). supplies n: the n-th supply of the
order of R287 is awaited. -/
inductive Stage where
  | unreleased | crystal | porst | supplies (n : Nat) | oscillator | domains | up | retry | rest | held
  deriving DecidableEq, Repr

/-- An entry handshake under way (R291, R292): the target (2 DOZE, 3 REST, or 4 for one domain asked off), the domains not
yet asked, those stopped, latest first, the DELAYs the present domain has answered, and whether a domain asked off has refused (R288). -/
structure Handshake where
  target : Nat
  left : List Nat
  stopped : List Nat := []
  delays : Nat := 0
  refused : Bool := false
  deriving DecidableEq, Repr

/-- The instructions of the JTAG port (R372): those that IEEE 1149.1 makes mandatory, IDCODE, and CHIP_RESET. A TAP holds IDCODE after its own
reset, as that standard has it (PRESUMED, log entry 83). -/
inductive Jtag where
  | idcode | bypass | sample | preload | extest | chipReset
  deriving DecidableEq, Repr

/-- Power beside its registers (chapter 14). entry: the handshake under way. lines: PWR_EN lines that are high, latest first; mine: those
switched on in the present attempt. fails: failed attempts of the present wake. first: the attempt is a power-up, with the save list not
applied. since: the DTIME from which the stage's time limit counts; osc: the fast oscillator was started, at a DTIME, with oscReady once it
has reported. saved: the save list in Rest memory, by register offset; saves: how often Rest memory has been written by an entry; words: Rest
memory by word; rmemPoison: its words marked uncorrectable. good: PG inputs that are high (R287, R364). woke: the sampling edge of the wake
source on record (R297). under: VDD_CORE reached its reset level at a DTIME, with the words of the Rest domain's registers before that reset
and whether the WONCE fields were spent (R364). jtag: the instruction in the TAP (R372). kept: domains at RETAIN in DOZE. fills: SRAM banks
whose zero fill has not completed. window: the DTIME at which the entry window of R296 ends. wakeNote: a WAKE notification waits for SC1.
tripped: a thermal trip since the last ACTIVE. crystalBad: the crystal was not ready in time. coreLow, porstLow: VDD_CORE or PORST_N holds the
device in reset. lowRest, lowCore: a brown-out warning of VDD_REST or VDD_CORE is in force. -/
structure PowerSt where
  stage : Stage := .unreleased
  entry : Option Handshake := none
  lines : List Nat := []
  mine : List Nat := []
  fails : Nat := 0
  first : Bool := false
  since : Nat := 0
  osc : Option Nat := none
  oscReady : Bool := false
  saved : Option (List (Nat × Word)) := none
  saves : Nat := 0
  words : List (Nat × Word) := []
  rmemPoison : List Nat := []
  good : List Nat := []
  woke : Option Nat := none
  under : Option (Nat × List (Nat × Word) × Bool) := none
  jtag : Jtag := .idcode
  kept : List Nat := []
  fills : List Nat := []
  window : Nat := 0
  wakeNote : Bool := false
  tripped : Bool := false
  crystalBad : Bool := false
  coreLow : Bool := false
  porstLow : Bool := false
  lowRest : Bool := false
  lowCore : Bool := false
  gov : GovSt := {}
  deriving DecidableEq, Repr

/-- The Service Cores and their loader (R355 to R359): whether the firmware runs, BOOTSEL as sampled, the source last used (1 SRAM, 2 flash)
with used telling the source of the image that ran last, the instants of halts, whether an image is being loaded, with again telling that it
follows a halt or a wake, and whether the loader is in STOPPED or waits after a halt or a wake. asleep: the firmware ran when DOZE was
entered. The mailbox itself lies in waveform SRAM (R356). -/
structure BootSt where
  running : Bool := false
  bootsel : Nat := 0
  source : Nat := 0
  halts : List Nat := []
  loading : Bool := false
  again : Bool := false
  stopped : Bool := false
  waiting : Bool := false
  used : Nat := 0
  asleep : Bool := false
  deriving DecidableEq, Repr

/-- A bank of calibration results (R310, R317): CAL_B_MAIN, CAL_B_MK (lanes), the eight slice words, and the F_DAC of its skews in SP_FDAC
format (R312). -/
structure CalBank where
  main : Word := 0
  lanes : Word := 0
  slices : List Word := [0, 0, 0, 0, 0, 0, 0, 0]
  fdac : Nat := 0
  deriving DecidableEq, Repr

/-- Calibration of a channel beside its registers (R312 to R319): both banks; the boundary that a completed run's flip waits for; whether a
condition of R314 arose during the run; the temperature at the end of step 5; whether a restored record awaits its rescaling (R324); the slice
in whose place the spare stands (R172), with back telling that it is to be exchanged back as soon as R172 permits; and when a run was last cut
short (R316). -/
structure CalSt where
  a : CalBank := {}
  b : CalBank := {}
  flip : Option Int := none
  again : Bool := false
  temp : Nat := 0
  rescale : Bool := false
  spare : Option Nat := none
  back : Bool := false
  cutAt : Option Nat := none
  deriving DecidableEq, Repr

/-- Register access beside the registers (chapter 16), by requester: the high-word shadow, a register offset with the bits (R328), and
the held low word, likewise (R329). got: what the requester's latest read returned. once: the fields of GLB_ONCE are spent (R339).
table: the DTIME of the latest write of the protection table, with the table before the writes of its core cycle (R336). locks: by core,
the DTIME of the latest write of CORE_LOCK with its LOCK before the writes of that core cycle (R338). refusedAt: the
DTIME of the refused access that PROT_LAST holds (R342). poisoned: the completion of the latest BAR2 or BAR4 read had its EP bit set, and
aer: AER has recorded one (R361). -/
structure BusSt where
  reads : List (Nat × Option (Nat × Half)) := []
  writes : List (Nat × Option (Nat × Half)) := []
  got : List (Nat × Word) := []
  once : Bool := false
  table : Option (Nat × List Word) := none
  locks : List (Nat × Option (Nat × Bool)) := []
  refusedAt : Option Nat := none
  poisoned : Bool := false
  aer : Bool := false
  deriving DecidableEq, Repr

/-- Why a step stops with a fault. No rule of the spec stops the block as a whole: refused accesses, core faults and
failed checks are all effects on registers. So no meaning answers with it; it is kept because the interface asks for the
type (safe: nothing can be proved from a stop that never comes). -/
inductive Fault where
  | none_stated
  deriving DecidableEq, Repr

/-- Why a command has no meaning. notModelled names a command of the table whose meaning is not written (safe: the run
stops there). Raised by Machine/Dispatch.lean only. -/
inductive Refusal where
  | notModelled (mnemonic : String)
  deriving DecidableEq, Repr

/-- The machine. regs holds the register words of BAR0 by offset; pending holds the commands that wait, first in, first
out; calStoreAgain: a store was requested while another ran (R322).
choice counts the values drawn from Config.freeValue and is the model's own. -/
structure State where
  pending : List Instr := []
  regs : List (Nat × Word) := []
  fabric : FabricSt := {}
  chans : List (Nat × ChanSt) := []
  voices : List (Nat × VoiceSt) := []
  cores : List (Nat × CoreSt) := []
  dmem : List (Nat × Word) := []
  bindings : List (Nat × BindingSt) := []
  buffers : List (Nat × BufferSt) := []
  trigOuts : List (Nat × TrigOutSt) := []
  trigIns : List (Nat × TrigInSt) := []
  sram : List Host.Cell := []
  dram : List Host.Cell := []
  poison : List (Bool × Nat) := []
  cals : List (Nat × CalSt) := []
  calStoreAgain : Bool := false
  mem : MemSt := {}
  ports : List (Nat × PortSt) := []
  link : LinkSt := {}
  bus : BusSt := {}
  clock : ClockSt := {}
  time : TimeSt := {}
  power : PowerSt := {}
  boot : BootSt := {}
  choice : Nat := 0
  deriving DecidableEq, Repr

/-- The machine right after reset: every register at its reset value, every memory and queue empty. -/
def State.reset : State := {}

end Sys2Proof.Machine
end

