-- ==== Sys2Proof/Machine/Ops.lean ====
section
/-! DEFINITION. The named operations every chapter uses: register words and fields, counters and flags, numbered hidden
state, device time, free values, the channel grid, and firing an event. -/

namespace Sys2Proof.Machine

/-- What a command answers. -/
abbrev Res := Host.Outcome State Fault Refusal

/-! ### Register words and fields -/

/-- The register word at a BAR0 offset, as the device holds it. -/
def State.word (s : State) (off : Nat) : Word := sget resetAt s.regs off

/-- The word of member (i, j) of a register family. -/
def State.rw (s : State) (r : Reg) (i : Nat := 0) (j : Nat := 0) : Word := s.word (r.addr i j)

/-- Put a word at a BAR0 offset. -/
def State.setWord (s : State) (off : Nat) (w : Word) : State := { s with regs := sput resetAt s.regs off w }

/-- Put a word into member (i, j) of a register family. -/
def State.setRw (s : State) (r : Reg) (w : Word) (i : Nat := 0) (j : Nat := 0) : State := s.setWord (r.addr i j) w

/-- Bits hi..lo of a number (R7). -/
def bits (n hi lo : Nat) : Nat := n / 2 ^ lo % 2 ^ (hi + 1 - lo)

/-- n with bits hi..lo replaced by v. -/
def setBits (n hi lo v : Nat) : Nat := n - bits n hi lo * 2 ^ lo + v % 2 ^ (hi + 1 - lo) * 2 ^ lo

/-- Bit b of a number. -/
def bit (n b : Nat) : Bool := n / 2 ^ b % 2 == 1

/-- n read as a w-bit two's complement number. -/
def signed (w n : Nat) : Int := if n % 2 ^ w < 2 ^ (w - 1) then ↑(n % 2 ^ w) else ↑(n % 2 ^ w) - 2 ^ w

/-- The low w bits of an integer. -/
def wrap (w : Nat) (z : Int) : Nat := (z % 2 ^ w).toNat

/-- Field x of member (i, j). -/
def State.f (s : State) (x : Fld) (i : Nat := 0) (j : Nat := 0) : Nat := bits (s.rw x.reg i j).toNat x.hi x.lo

/-- Put v into field x of member (i, j), and leave the register's other fields. -/
def State.setF (s : State) (x : Fld) (v : Nat) (i : Nat := 0) (j : Nat := 0) : State :=
  s.setRw x.reg (BitVec.ofNat 64 (setBits (s.rw x.reg i j).toNat x.hi x.lo v)) i j

/-- Whether field x of member (i, j) is not 0. -/
def State.on (s : State) (x : Fld) (i : Nat := 0) (j : Nat := 0) : Bool := s.f x i j != 0

/-- Set a flag. -/
def State.flag (s : State) (x : Fld) (i : Nat := 0) (j : Nat := 0) : State := s.setF x 1 i j

/-- Clear a flag or a field. -/
def State.clr (s : State) (x : Fld) (i : Nat := 0) (j : Nat := 0) : State := s.setF x 0 i j

/-- Write a truth value into a one-bit field. -/
def State.setB (s : State) (x : Fld) (b : Bool) (i : Nat := 0) (j : Nat := 0) : State := s.setF x b.toNat i j

/-- Add k to a counter that saturates at all ones. -/
def State.bumpBy (s : State) (x : Fld) (k : Nat) (i : Nat := 0) (j : Nat := 0) : State :=
  s.setF x (min (s.f x i j + k) (2 ^ (x.hi + 1 - x.lo) - 1)) i j

/-- Add 1 to a counter that saturates at all ones. -/
def State.bump (s : State) (x : Fld) (i : Nat := 0) (j : Nat := 0) : State := s.bumpBy x 1 i j

/-- Add 1 to a counter that wraps. -/
def State.tick (s : State) (x : Fld) (i : Nat := 0) (j : Nat := 0) : State := s.setF x (s.f x i j + 1) i j

/-- The global trouble counters (R344), by clear bit. -/
inductive Trouble where
  | underrun | lateJump | coverSkip | coincide | overrun | refreshPreempt | eccCe | eccUe
  | spindleUnlock | refReturn | brownout | wakeFail | protViolation | linkDrop | linkSeqgap | calAbort | shavings
  deriving DecidableEq, Repr

/-- Clear bit of a counter; counter k lies in GLB_TRB⌊k/4⌋, the first of each register uppermost (R344). -/
def Trouble.num : Trouble → Nat
  | .underrun => 0 | .lateJump => 1 | .coverSkip => 2 | .coincide => 3 | .overrun => 4 | .refreshPreempt => 5
  | .eccCe => 6 | .eccUe => 7 | .spindleUnlock => 8 | .refReturn => 9 | .brownout => 10 | .wakeFail => 11
  | .protViolation => 12 | .linkDrop => 13 | .linkSeqgap => 14 | .calAbort => 15 | .shavings => 16

/-- The 16-bit field of global counter k inside GLB_TRB⌊k/4⌋ (R344). -/
def troubleFld (k : Nat) : Fld := ⟨.GLB_TRB, 63 - k % 4 * 16, 48 - k % 4 * 16⟩

/-- Count one happening of a global trouble counter, saturating at 0xFFFF (R343, R344). -/
def State.trouble (s : State) (t : Trouble) : State := s.bump (troubleFld t.num) (t.num / 4)

/-- Count k happenings of a global trouble counter. -/
def State.troubleBy (s : State) (t : Trouble) (k : Nat) : State := s.bumpBy (troubleFld t.num) k (t.num / 4)

/-! ### Free values -/

/-- The free value drawn next. -/
def State.free (s : State) : Word := Config.freeValue s.choice

/-- The state after the next free value was drawn. -/
def State.drawn (s : State) : State := { s with choice := s.choice + 1 }

/-! ### Device time -/

/-- Units of DTIME in one second (R11). -/
def second : Nat := 2 ^ 48

/-- DTIME as a number of units of 2^-48 s (R227). -/
def State.now (s : State) : Nat := s.time.dtime.toNat

/-- The core cycle that holds DTIME t: the 1.2 GHz core clock is taken to count from DTIME 0 (DEDUCED, log entry 74). -/
def coreCycleOf (t : Nat) : Nat := t * 1200000000 / second

/-- Whether DTIME t lies in the present core cycle. -/
def State.thisCycle (s : State) (t : Option Nat) : Bool :=
  match t with
  | some t => coreCycleOf t == coreCycleOf s.now
  | none => false

/-- One rising edge of the Reference PLL output (R227). -/
def TimeSt.cycle (t : TimeSt) : TimeSt :=
  let r := t.residue + 576710656
  if r < 2400000000 then { t with dtime := t.dtime + 117281, residue := r }
  else { t with dtime := t.dtime + 117282, residue := r - 2400000000 }

/-- Events whose bound for reaching every consumer input has passed (R192: reference time plus 6.5 ns) leave the fabric. -/
def dropLate (now : Nat) (l : List Flight) : List Flight :=
  l.filter (fun e => now * 2000000000 ≤ e.time * 2000000000 + 13 * second)

/-- OFF (R289): VDD_REST is absent. -/
def State.off (s : State) : Bool := s.power.stage == .unreleased
def State.resting (s : State) : Bool := s.f F.PWR_STATUS_STATE == 3

/-- DTIME and the residue as one number, in units of 2^-48 s / (2.4 × 10^9): every cycle of the Reference PLL output adds 2^48 (R227). -/
def TimeSt.count (t : TimeSt) : Nat := t.dtime.toNat * 2400000000 + t.residue

/-- The count at the first edge of the Reference PLL output at or after DTIME t, which has not passed. -/
def TimeSt.edgeAt (x : TimeSt) (t : Nat) : Nat :=
  x.count + (t * 2400000000 - x.count + (second - 1)) / second * second

/-- DTIME and residue of a count. -/
def TimeSt.atCount (x : TimeSt) (n : Nat) : TimeSt :=
  { x with dtime := BitVec.ofNat 96 (n / 2400000000), residue := n % 2400000000 }

/-- DTIME counts on to a scheduled happening at t: to the first edge of the Reference PLL output at or after t, or in REST, which counts on
the Rest clock, to t itself (R227, R234). It stays where it is when t has passed. -/
def State.reach (s : State) (t : Nat) : State :=
  if s.now < t then
    let x := if s.off || s.resting then { s.time with dtime := BitVec.ofNat 96 t } else s.time.atCount (s.time.edgeAt t)
    { s with time := x, fabric := { s.fabric with flight := dropLate x.dtime.toNat s.fabric.flight } }
  else s

/-- Whether DTIME reached t in an earlier cycle of the Reference PLL output than the present one (R227). -/
def State.past (s : State) (t : Nat) : Bool := decide (t * 2400000000 + second ≤ s.time.count)

/-- The DTIME in a SEC and FRAC register pair (R11). -/
def State.at (s : State) (sec frac : Fld) (i : Nat := 0) (j : Nat := 0) : Nat := s.f sec i j * second + s.f frac i j

/-- Record a DTIME in a SEC and FRAC register pair. -/
def State.putTime (s : State) (sec frac : Fld) (t : Nat) (i : Nat := 0) (j : Nat := 0) : State :=
  (s.setF sec (t / second) i j).setF frac (t % second) i j

/-! ### Rational instants -/

/-- The integer nearest to num / den, a half going up. -/
def roundDiv (num den : Int) : Int := (2 * num + den) / (2 * den)

/-- The integer nearest to num / den, a half going away from zero. -/
def roundAway (num den : Int) : Int :=
  if 0 ≤ num then (2 * num + den) / (2 * den) else -((2 * -num + den) / (2 * den))

/-- The least integer not below num / den. -/
def ceilDiv (num den : Int) : Int := -((-num) / den)

/-! ### Device state -/

/-- PWR_STATUS.STATE codes (R309): the three states software can read, and 3 for REST (DESIGN CHOICE, log entry 7: no
read sees it). -/
def State.active (s : State) : Bool := s.f F.PWR_STATUS_STATE < 2
def State.dozing (s : State) : Bool := s.f F.PWR_STATUS_STATE == 2

/-! ### Firing events -/

/-- Whether a producer source fires in the present device state: the States column of R191. -/
def State.mayFire (s : State) (src : Nat) : Bool :=
  if 635 ≤ src then false
  else if src == 622 || src == 625 || src == 626 || src == 634 then true
  else if 616 ≤ src && src ≤ 621 then s.active || s.dozing
  else s.active

/-- A producer source fires with a reference time (R190, R191). -/
def State.fire (s : State) (src t : Nat) : State :=
  if s.mayFire src then { s with fabric := { s.fabric with fired := s.fabric.fired ++ [⟨.source src, t⟩] } } else s

/-- A producer source fires with the detection edge as its reference time. -/
def State.fireNow (s : State) (src : Nat) : State := s.fire src s.now

/-- A channel is fired directly, by EVT.FIRE or EVT_FIRE (R193). -/
def State.fireChannel (s : State) (c t : Nat) : State :=
  if s.active then { s with fabric := { s.fabric with fired := s.fabric.fired ++ [⟨.channel c, t⟩] } } else s

/-- A shared producer of voice v drives source 9v + 8 while bit b of its VTRB mask is set (R191). -/
def State.fireVtrb (s : State) (v b t : Nat) : State :=
  if bit (s.f F.EVF_VTRB_VMASK (v / 8)) (8 * (v % 8) + b) then s.fire (9 * v + 8) t else s

/-- A shared producer of channel n drives source 592 + n while bit b of its CHEV mask is set (R191). -/
def State.fireChev (s : State) (n b t : Nat) : State :=
  if bit (s.f F.EVF_CHEV_CMASK (n / 8)) (8 * (n % 8) + b) then s.fire (592 + n) t else s

/-! ### Numbered hidden state -/

def State.core (s : State) (k : Nat) : CoreSt := sget (fun _ => {}) s.cores k
def State.modCore (s : State) (k : Nat) (g : CoreSt → CoreSt) : State :=
  { s with cores := sput (fun _ => {}) s.cores k (g (s.core k)) }
def State.sp (s : State) (q : Nat) : SpindleSt := sget (fun _ => {}) s.clock.spindles q
def State.modSp (s : State) (q : Nat) (g : SpindleSt → SpindleSt) : State :=
  { s with clock := { s.clock with spindles := sput (fun _ => {}) s.clock.spindles q (g (s.sp q)) } }
def State.refIn (s : State) (x : Nat) : RefIn := sget (fun _ => {}) s.clock.refs x
def State.modRefIn (s : State) (x : Nat) (g : RefIn → RefIn) : State :=
  { s with clock := { s.clock with refs := sput (fun _ => {}) s.clock.refs x (g (s.refIn x)) } }
def State.aux (s : State) (i : Nat) : AuxSt := sget (fun _ => {}) s.clock.aux i
def State.modAux (s : State) (i : Nat) (g : AuxSt → AuxSt) : State :=
  { s with clock := { s.clock with aux := sput (fun _ => {}) s.clock.aux i (g (s.aux i)) } }
def State.clkout (s : State) (j : Nat) : ClkoutSt := sget (fun _ => {}) s.clock.clkouts j
def State.modClkout (s : State) (j : Nat) (g : ClkoutSt → ClkoutSt) : State :=
  { s with clock := { s.clock with clkouts := sput (fun _ => {}) s.clock.clkouts j (g (s.clkout j)) } }
def State.relay (s : State) (r : Nat) : RelaySt := sget (fun _ => {}) s.fabric.relays r
def State.modRelay (s : State) (r : Nat) (g : RelaySt → RelaySt) : State :=
  { s with fabric := { s.fabric with relays := sput (fun _ => {}) s.fabric.relays r (g (s.relay r)) } }
def State.input (s : State) (i : Nat) : InputSt := sget (fun _ => {}) s.fabric.inputs i
def State.modInput (s : State) (i : Nat) (g : InputSt → InputSt) : State :=
  { s with fabric := { s.fabric with inputs := sput (fun _ => {}) s.fabric.inputs i (g (s.input i)) } }
def State.cable (s : State) (p : Nat) : CableSt := sget (fun _ => {}) s.time.cables p
def State.modCable (s : State) (p : Nat) (g : CableSt → CableSt) : State :=
  { s with time := { s.time with cables := sput (fun _ => {}) s.time.cables p (g (s.cable p)) } }

end Sys2Proof.Machine
end

