-- ==== Sys2Proof/Machine/Fabric.lean ====
section
/-! DEFINITION. The event fabric (chapter 09): producer fields, passing, the loop guard, relay units and their writes. -/

namespace Sys2Proof.Machine

/-! ### Fields in force (R196) -/

/-- Bits hi..lo of the register word at addr as the fabric acts on them: the old value until a change has taken effect. -/
def State.eff (s : State) (addr hi lo : Nat) : Nat :=
  match s.fabric.unsettled.find? (fun e => e.addr == addr && e.hi == hi && e.lo == lo) with
  | some e => e.old
  | none => bits (s.word addr).toNat hi lo

/-- A changed field keeps acting with its old value until ROUTING_APPLY; a field that is already waiting keeps the value
it acts with. -/
def State.unsettle (s : State) (addr hi lo new : Nat) : State :=
  let old := bits (s.word addr).toNat hi lo
  if old = new ∨ s.fabric.unsettled.any (fun e => e.addr == addr && e.hi == hi && e.lo == lo) then s
  else { s with fabric := { s.fabric with unsettled := s.fabric.unsettled ++ [⟨addr, hi, lo, old⟩] } }

/-- Which fields of a register settle separately under R196: the producer fields of EC_SRC, the selections of EVF_IRQ_SEL
and EVF_WAKE_SEL, EVR_CFG.EC, TO_CFG.EC and CORE_START_EVT.EC. -/
def routeFields : Reg → List (Nat × Nat)
  | .EC_SRC_A | .EC_SRC_B => [(15, 0), (31, 16), (47, 32), (63, 48)]
  | .EVF_IRQ_SEL | .EVF_WAKE_SEL =>
    [(7, 0), (15, 8), (23, 16), (31, 24), (39, 32), (47, 40), (55, 48), (63, 56)]
  | .EVR_CFG => [(15, 8)]
  | .TO_CFG => [(14, 8)]
  | .CORE_START_EVT => [(6, 0)]
  | _ => []

/-- Store a register word whose routing fields settle later (R196). -/
def State.setRouted (s : State) (r : Reg) (w : Word) (i j : Nat) : State :=
  ((routeFields r).foldl (fun t p => t.unsettle (r.addr i j) p.1 p.2 (bits w.toNat p.1 p.2)) s).setRw r w i j

/-! ### Producer fields -/

/-- Producer field j (0–7) of channel c in force: EN in bit 15, SRC in bits 9..0 (R190). -/
def State.producer (s : State) (c j : Nat) : Nat :=
  s.eff ((if j < 4 then Reg.EC_SRC_A else .EC_SRC_B).addr c 0) (16 * (j % 4) + 15) (16 * (j % 4))

/-- Whether channel c lists source n, enabled, in force (R190). -/
def State.lists (s : State) (c n : Nat) : Bool :=
  anyN 8 fun j => bit (s.producer c j) 15 && s.producer c j % 1024 == n

/-- Whether channel c lists source n in the registers, which is what the loop guard reads (R199). -/
def State.listsWritten (s : State) (c n : Nat) : Bool :=
  anyN 8 fun j =>
    let w := (s.rw (if j < 4 then .EC_SRC_A else .EC_SRC_B) c).toNat / 2 ^ (16 * (j % 4))
    bit w 15 && w % 1024 == n

/-! ### Passing (R190, R200) -/

/-- The refractory period of R200 is 8.0 ns to 9.0 ns: inside 8.0 ns it holds, past 9.0 ns it is over, and between the
two the drawn bit decides. -/
def refractoryHolds (last t : Nat) (free : Bool) : Bool :=
  let d := t - last
  if d * 1000000000 < 8 * second then true
  else if d * 1000000000 < 9 * second then free else false

/-- Channel c meets a firing with reference time t: it passes the event, or suppresses it in its refractory period. -/
def State.meet (s : State) (c t : Nat) : State :=
  let last := sget (fun _ => none) s.fabric.refr c
  let held := s.on F.EC_CTL_LOOP_PERMIT c &&
    (match last with | some l => refractoryHolds l t (bit s.free.toNat 0) | none => false)
  if held then (s.drawn.bump F.EC_CTL_REFR_CNT c).flag F.EVF_STATUS_REFR
  else { s with choice := s.choice + 1, fabric := { s.fabric with
    flight := s.fabric.flight ++ [⟨c, t, []⟩],
    refr := sput (fun _ => none) s.fabric.refr c (some t) } }

/-- The firing e reaches every channel that lists it; a source listed twice in one channel passes once (R190). -/
def State.pass (s : State) (e : Fired) : State :=
  match e.who with
  | .channel c => s.meet c e.time
  | .source n => forN 128 (fun c t => if s.lists c n then t.meet c e.time else t) s

/-! ### The loop guard (R199) -/

/-- Relay r takes part in the graph: its MODE is not OFF and it selects a channel. -/
def State.relayEdge (s : State) (r : Nat) : Bool :=
  s.on F.EVR_CFG_MODE r && !bit (s.f F.EVR_CFG_EC r) 7

/-- Relay r' can follow relay r on a path: the output of r is enabled in the channel r' selects. -/
def State.follows (s : State) (r r' : Nat) : Bool :=
  s.relayEdge r && s.relayEdge r' && s.listsWritten (s.f F.EVR_CFG_EC r') (608 + r)

/-- The relays reached from a set in n further steps, by channels without LOOP_PERMIT only. -/
def State.spread (s : State) : Nat → List Nat → List Nat
  | 0, l => l
  | n + 1, l =>
    s.spread n (l ++ (List.range 8).filter fun r' =>
      !s.on F.EC_CTL_LOOP_PERMIT (s.f F.EVR_CFG_EC r') && !l.contains r' && l.any fun r => s.follows r r')

/-- Whether relay r lies on a loop no channel of which permits loops. -/
def State.onLoop (s : State) (r : Nat) : Bool :=
  let succ := (List.range 8).filter fun r' => !s.on F.EC_CTL_LOOP_PERMIT (s.f F.EVR_CFG_EC r') && s.follows r r'
  (s.spread 8 succ).contains r && !s.on F.EC_CTL_LOOP_PERMIT (s.f F.EVR_CFG_EC r)

/-- The lowest-numbered channel on an unpermitted loop, when the registers hold one. Of several such loops it is the lowest over all
(DESIGN CHOICE, log entry 72). -/
def State.loopAt (s : State) : Option Nat :=
  ((List.range 8).filter s.onLoop).foldl
    (fun m r => match m with
      | none => some (s.f F.EVR_CFG_EC r)
      | some c => some (min c (s.f F.EVR_CFG_EC r))) none

/-- Apply a write to a guarded register unless it would close a loop: then no field changes, LOOP_REJ sets and
EVF_LOOP_LAST records the block offset and the channel (R199). The flag tells whether the write was applied. -/
def State.guarded (s : State) (r : Reg) (w : Word) (i : Nat) : Bool × State :=
  let cand := s.setRouted r w i 0
  match cand.loopAt with
  | none => (true, cand)
  | some c =>
    (false, ((s.flag F.EVF_STATUS_LOOP_REJ).setF F.EVF_LOOP_LAST_OFFSET (r.addr i 0 % 0x10000)).setF
      F.EVF_LOOP_LAST_EC c)

/-! ### Relay units (R197, R198) -/

/-- PARAM of relay r as a time, at least 2,814,750 units (R197). -/
def State.relayPeriod (s : State) (r : Nat) : Nat := max (s.f F.EVR_PARAM_PARAM r) 2814750

/-- The first instant START + k × PARAM at or after t. -/
def nextInstant (start period t : Nat) : Nat :=
  if t ≤ start then start else start + (t - start + period - 1) / period * period

/-- 100 ns in DTIME units, rounded up. -/
def ns100 : Nat := (100 * second + 999999999) / 1000000000

/-- Restart a TIMER: the next output is the first instant that lies 100 ns or more ahead (R197). -/
def State.restartTimer (s : State) (r : Nat) : State :=
  s.modRelay r fun x =>
    { x with next := some (nextInstant (s.at F.EVR_START_SEC_SEC F.EVR_START_FRAC_FRAC r) (s.relayPeriod r) (s.now + ns100)) }

/-- TIMER instants that a step of DTIME passes over are not produced (R197, R231). -/
def State.skipTimers (s : State) : State :=
  forN 8 (fun r t => match (s.relay r).next with
    | some n => if n < s.now then
        t.modRelay r fun x =>
          { x with next := some (nextInstant (s.at F.EVR_START_SEC_SEC F.EVR_START_FRAC_FRAC r) (s.relayPeriod r) s.now) }
      else t
    | none => t) s

/-- Entry to DOZE or REST drops what DELAY units hold; the outputs due in DIVIDE are events already taken (R198). -/
def State.dropRelays (s : State) : State :=
  forN 8 (fun r t => t.modRelay r fun x => { x with held := none }) s

/-- After a wake every TIMER resumes at its first instant 100 ns or more ahead (R198). -/
def State.resumeTimers (s : State) : State :=
  forN 8 (fun r t => if s.f F.EVR_CFG_MODE r = 3 then t.restartTimer r else t) s

/-- EVR_TS records a reference time and counts it (R197). -/
def State.stampRelay (s : State) (r t : Nat) : State :=
  ((s.putTime F.EVR_TS_SEC_SEC F.EVR_TS_FRAC_FRAC t r).tick F.EVR_TS_SEC_ESEQ r).tick F.EVR_TS_FRAC_ESEQ r

/-- Relay r takes an event with reference time t (R197). -/
def State.relayTake (s : State) (r t : Nat) : State :=
  if s.f F.EVR_CFG_MODE r = 1 then
    (s.stampRelay r t).modRelay r fun x => { x with held := some (t + s.relayPeriod r) }
  else if s.f F.EVR_CFG_MODE r = 2 then
    let n := s.f F.EVR_PARAM_PARAM r % 2 ^ 16 + 1
    let c := (s.relay r).count + 1
    (s.stampRelay r t).modRelay r fun x =>
      if n ≤ c then { x with count := 0, due := x.due ++ [t + 2814750] } else { x with count := c }
  else s

/-- A passing write of EVR_CFG, EVR_PARAM or EVR_START acts on the unit (R197): OFF and a restart drop outputs not yet produced. oldMode is
MODE before the write. -/
def State.afterRelayWrite (s : State) (r : Nat) (reg : Reg) (oldMode : Nat) : State :=
  let mode := s.f F.EVR_CFG_MODE r
  match reg with
  | .EVR_CFG =>
    let t := s.modRelay r fun x =>
      { x with held := none, count := 0, due := if mode = 0 ∨ mode = 3 then [] else x.due, next := if mode = 3 then x.next else none }
    if mode = 3 ∧ oldMode ≠ 3 then t.restartTimer r else t
  | .EVR_PARAM =>
    let t := if mode = 2 then s.modRelay r fun x => { x with count := 0 } else s
    if mode = 3 then t.restartTimer r else t
  | _ => if mode = 3 then s.restartTimer r else s

/-! ### Software firing (R193) -/

/-- Every channel whose bit is set in a value written to EVT_FIREi fires with one reference time. -/
def State.fireBits (s : State) (i val : Nat) : State :=
  forN 64 (fun b t => if bit val b then t.fireChannel (64 * i + b) s.now else t) s

/-! ### Counts of one input (R195) -/

/-- EVF_CIN_CNT as it reads: the counts of the input EVF_CIN_SEL names. -/
def State.cinCount (s : State) : Nat :=
  let i := s.f F.EVF_CIN_SEL_INPUT
  if i < 416 then (s.input i).coincide * 2 ^ 48 + (s.input i).overrun * 2 ^ 32 else 0

/-- Set the overrun flag of an input (R195). -/
def State.flagOverrun (s : State) (i : Nat) : State :=
  if i < 384 then s.flag ⟨.EVF_OVR, i % 64, i % 64⟩ (i / 64) else s.flag ⟨.EVF_OVR6, i % 64, i % 64⟩

/-! ### Meanings -/

/-- EVENT_PASS (R190): the n-th firing that waits reaches its channels. The fabric is self-timed, so the sender of the
command chooses which one passes next. -/
def execEventPass (n : Nat) (s : State) : Res :=
  match s.fabric.fired[n]? with
  | some e => .next (State.pass { s with fabric := { s.fabric with fired := s.fabric.fired.eraseIdx n } } e)
  | none => .next s

/-- The consumer input that a selection field belongs to (R194). -/
def inputOf (addr lo : Nat) : Option Nat :=
  match Reg.ofOffset addr with
  | some (.CORE_START_EVT, k, _) => some (256 + k)
  | some (.TO_CFG, m, _) => some (320 + m)
  | some (.EVF_IRQ_SEL, i, _) => some (336 + 8 * i + lo / 8)
  | some (.EVF_WAKE_SEL, _, _) => some (400 + lo / 8)
  | some (.EVR_CFG, r, _) => some (408 + r)
  | _ => none

/-- ROUTING_APPLY (R196): the n-th change that waits takes effect; the next event at an input whose selection changes opens a new
window (R195). -/
def execRoutingApply (n : Nat) (s : State) : Res :=
  match s.fabric.unsettled[n]? with
  | none => .next s
  | some e =>
    let t : State := { s with fabric := { s.fabric with unsettled := s.fabric.unsettled.eraseIdx n } }
    match inputOf e.addr e.lo with
    | some i => .next (t.modInput i fun x => { x with window := none })
    | none => .next t

/-- RELAY_DELAY_OUTPUT (R197): the event relay r holds in DELAY comes out. -/
def execRelayDelayOutput (r : Fin 8) (s : State) : Res :=
  match (s.relay r).held with
  | some t => .next (((s.reach t).modRelay r fun x => { x with held := none }).fire (608 + r) t)
  | none => .next s

/-- RELAY_DIVIDE_OUTPUT (R197): the oldest output due of relay r in DIVIDE fires. -/
def execRelayDivideOutput (r : Fin 8) (s : State) : Res :=
  match (s.relay r).due with
  | t :: ts => .next (((s.reach t).modRelay r fun x => { x with due := ts }).fire (608 + r) t)
  | [] => .next s

/-- RELAY_TIMER_OUTPUT (R197): relay r in TIMER produces the output of its next instant. -/
def execRelayTimerOutput (r : Fin 8) (s : State) : Res :=
  match (s.relay r).next with
  | some t =>
    if s.active then
      .next ((((s.reach t).stampRelay r t).modRelay r fun x => { x with next := some (t + s.relayPeriod r) }).fire (608 + r) t)
    else .next s
  | none => .next s

end Sys2Proof.Machine
end

