-- ==== Sys2Proof/Machine/Grid.lean ====
section
/-! DEFINITION. The sample rates and the channel grid (R16, R133, R209), and the fixed latency of a channel (R149, R155, R156,
R160). All instants are exact rationals of DTIME units, rounded only where the device reports or compares them. -/

namespace Sys2Proof.Machine

def State.chan (s : State) (n : Nat) : ChanSt := sget (fun _ => {}) s.chans n
def State.modChan (s : State) (n : Nat) (g : ChanSt → ChanSt) : State :=
  { s with chans := sput (fun _ => {}) s.chans n (g (s.chan n)) }

/-! ### Spindle frequency words (R209) -/

/-- N in units of 2^-32 from a frequency word. -/
def nWord (w : Nat) : Nat := bits w 28 24 * 2 ^ 32 + bits w 63 32

/-- D from a SP_FREQ word. -/
def dWord (w : Nat) : Nat := 2 ^ bits w 17 16

/-- Whether a SP_FREQ word meets R209: 16 ≤ N ≤ 22, and F_DAC = 1.2 GHz × N / D at most 24.0 GS/s. -/
def freqLegal (w : Nat) : Bool :=
  decide (16 * 2 ^ 32 ≤ nWord w) && decide (nWord w ≤ 22 * 2 ^ 32) && decide (nWord w ≤ 20 * dWord w * 2 ^ 32)

/-- F_DAC in units of 2^-16 Hz, truncated (SP_FDAC, R209). -/
def fdacReport (w : Nat) : Nat := 1200000000 * nWord w * 2 ^ 16 / (dWord w * 2 ^ 32)

/-- The SP_FREQ word whose F_DAC a quad has: the one last applied, or while the Spindle domain is OFF the staged one
(R132). -/
def State.quadFreq (s : State) (q : Nat) : Nat :=
  if s.f F.SP_STATUS_STATE q = 0 then (s.rw .SP_FREQ q).toNat else (s.sp q).applied.toNat

/-! ### The grid (R133) -/

/-- ρ × 2^32 of a channel: RHO, or 2^32 while the resampler is bypassed (R150). -/
def State.rho (s : State) (n : Nat) : Nat := if s.on F.CH_CFG_RHO_BYP n then 2 ^ 32 else s.f F.CH_CFG_RHO n

/-- The grid that channel n's registers and its quad's F_DAC give: DAC period 2^48 / F_DAC, voice period R / ρ times that. -/
def State.gridOf (s : State) (n : Nat) : Grid :=
  let w := s.quadFreq (n / 4)
  let num := 2 ^ 80 * dWord w
  let den := 1200000000 * nWord w
  { epoch := s.at F.CH_EPOCH_SEC_SEC F.CH_EPOCH_FRAC_FRAC n, num := num, den := den,
    vnum := num * s.f F.CH_CFG_R n * 2 ^ 32, vden := den * s.rho n }

/-- DTIME of voice sample m, to the nearest unit. -/
def Grid.voiceAt (g : Grid) (m : Int) : Int := g.epoch + roundDiv (m * g.vnum) g.vden

/-- DTIME of the instant p / 1024 voice samples after the epoch, to the nearest unit. -/
def Grid.placeAt (g : Grid) (p : Int) : Int := g.epoch + roundDiv (p * g.vnum) (1024 * g.vden)

/-- DTIME of DAC sample n, to the nearest unit. -/
def Grid.dacAt (g : Grid) (n : Int) : Int := g.epoch + roundDiv (n * g.num) g.den

/-- The first grid boundary (voice sample 512 k, by k) at or after an instant plus w voice samples. -/
def Grid.boundaryAfter (g : Grid) (t : Nat) (w : Nat) : Int :=
  ceilDiv (((t : Int) - g.epoch) * g.vden + w * g.vnum) (512 * g.vnum)

/-- A DTIME as an exact instant: numerator and denominator. -/
def exactly (t : Nat) : Int × Int := (t, 1)

/-- The first grid boundary at or after an exact instant. -/
def Grid.boundaryFrom (g : Grid) (t : Int × Int) : Int := ceilDiv ((t.1 - g.epoch * t.2) * g.vden) (512 * g.vnum * t.2)

/-- The first grid boundary at least 2 µs after an exact instant. -/
def Grid.boundary2us (g : Grid) (t : Int × Int) : Int :=
  ceilDiv (((t.1 - g.epoch * t.2) * 500000 + second * t.2) * g.vden) (512 * 500000 * g.vnum * t.2)

/-- The run-time boundary of a write at an instant: the first at least 64 voice samples later (R135). -/
def Grid.runtime (g : Grid) (t : Nat) : Int := g.boundaryAfter t 64

/-- Whether DTIME t lies strictly before position p (R94). -/
def Grid.before (g : Grid) (t : Nat) (p : Int) : Bool :=
  decide (((t : Int) - g.epoch) * 1024 * g.vden < p * g.vnum)

/-- The nearest 1/1024 voice sample to a DTIME, a tie going to the later one. -/
def Grid.place (g : Grid) (t : Int) : Int := roundDiv ((t - g.epoch) * 1024 * g.vden) g.vnum

/-- The kerf that ends a WAIT TIME for DTIME t whose own kerf instant is k: T, or k when T has passed (R99, R100). -/
def Grid.waitKerf (g : Grid) (t : Nat) (k : Int) : Int := max k (g.place t)

/-- The first voice sample at or after a DTIME. -/
def Grid.voiceFrom (g : Grid) (t : Int) : Int := ceilDiv ((t - g.epoch) * g.vden) g.vnum

/-- The first DAC sample at or after a DTIME. -/
def Grid.dacFrom (g : Grid) (t : Int) : Int := ceilDiv ((t - g.epoch) * g.den) g.num

/-- The first DAC sample at or after an exact instant. -/
def Grid.dacFromExact (g : Grid) (t : Int × Int) : Int := ceilDiv ((t.1 - g.epoch * t.2) * g.den) (g.num * t.2)

/-- The instant of DAC sample n, exactly, as numerator and denominator. -/
def Grid.exactDac (g : Grid) (n : Int) : Int × Int := (g.epoch * g.den + n * g.num, g.den)

/-- The first DAC sample at or after position p / 1024 of the voice timeline. -/
def Grid.dacOfPlace (g : Grid) (p : Int) : Int := ceilDiv (p * g.vnum * g.den) (1024 * g.vden * g.num)

/-! ### Latency (R149, R155, R156) -/

/-- m of R149: the smallest number, at most 6, with R / 2^m at most 16. -/
def halfBands (r : Nat) : Nat := ((List.range 7).find? fun m => r ≤ 16 * 2 ^ m).getD 6

/-- Whether an interpolation factor is legal (R149). -/
def rLegal (r : Nat) : Bool :=
  decide (1 ≤ r) && decide (r ≤ 1024) && r % 2 ^ halfBands r == 0 && decide (r / 2 ^ halfBands r ≤ 16)

/-- Stage A latency in samples at its input rate, by factor RA (R155). -/
def stageA (ra : Nat) : Nat :=
  if ra ≤ 1 then 0 else if ra = 2 then 12 else if ra = 3 then 14 else if ra ≤ 8 then 16 else 18

/-- Latency of R155 with zero trim, in ps, as numerator and denominator. With T the DAC sample and τ = T / ρ, the table adds
up to 2.50 ns + 92 T + (L_A R + 16 × 2^m) τ for RA > 1 + 20 (2^m − 1) τ, and 8 T + 4 τ more for the resampler. The
fast-path set takes 24.80 ns (R156). -/
def State.latency (s : State) (n : Nat) : Nat × Nat :=
  let w := s.quadFreq (n / 4)
  let r := s.f F.CH_CFG_R n
  let byp := s.on F.CH_CFG_RHO_BYP n
  let m := halfBands r
  let ra := r / 2 ^ m
  let a := 92 + (if byp then 0 else 8)
  let b := (if 1 < ra then stageA ra * r + 16 * 2 ^ m else 0) + 20 * (2 ^ m - 1) + (if byp then 0 else 4)
  if byp ∧ (r = 4 ∨ r = 8) ∧ 10 * dWord w * 2 ^ 32 ≤ nWord w then (24800, 1)
  else
    let den := 3 * nWord w * s.rho n
    (2500 * den + 2500 * dWord w * 2 ^ 32 * (a * s.rho n + b * 2 ^ 32), den)

/-- CH_LAT.LAT0_PS: the latency with zero trim, in ps, rounded to nearest, a half up (DESIGN CHOICE, log entry 82: R155 states no
rounding). -/
def State.lat0 (s : State) (n : Nat) : Nat :=
  (roundDiv (s.latency n).1 (s.latency n).2).toNat

/-- CH_LAT.TRIM_MAX: the largest trim, in 1/1024 DAC sample, that keeps the latency at 960 ns or less (R152). -/
def State.trimMax (s : State) (n : Nat) : Nat :=
  let w := s.quadFreq (n / 4)
  let (a, b) := s.latency n
  (960000 * b - a) * 3 * nWord w * 1024 / (b * 2500 * dWord w * 2 ^ 32)

/-- A femtosecond delay, and a trim less skew in 1/1024 sample of grid g after it, in DTIME units, as numerator and denominator. -/
def Grid.delay (g : Grid) (fs trim : Int) : Int × Int :=
  (fs * second * 1024 * g.den + trim * g.num * 10 ^ 15, 10 ^ 15 * 1024 * g.den)

/-- The fixed part of D_CH and D_MK in fs: 1.70 ns, the reported LAT0_PS, and 2.50 ns (R160, R178). -/
def State.fixedDelay (s : State) (n : Nat) : Int := (4200 + s.lat0 n) * 1000

/-- D_CH with the trim applied and the calibrated skew. -/
def State.exactDelay (s : State) (n : Nat) (skew : Int) : Int × Int :=
  (s.chan n).grid.delay (s.fixedDelay n) (s.f F.CH_TRIM_EFF_COARSE n * 1024 + s.f F.CH_TRIM_EFF_FRAC n - skew)

/-- D_CH to the nearest DTIME unit. -/
def State.outputDelay (s : State) (n : Nat) (skew : Int) : Int :=
  roundDiv (s.exactDelay n skew).1 (s.exactDelay n skew).2

/-- The instant of position p / 1024 voice samples after the epoch, exactly, as numerator and denominator. -/
def Grid.exactPlace (g : Grid) (p : Int) : Int × Int := (g.epoch * (1024 * g.vden) + p * g.vnum, 1024 * g.vden)

end Sys2Proof.Machine
end

