-- ==== Sys2Proof/Machine/Bytes.lean ====
section
/-! DEFINITION. Waveform SRAM and DRAM as bytes (R7, R245, R250): one canonical store each, read and written in little-endian
words. A byte nothing has written reads 0: the fill of a switched-on bank group (R246) and of a trained channel (R263). Only after the
DRAM PLL has lost the contents of DRAM (R360) do they stem from Config.lostByte. -/

namespace Sys2Proof.Machine

/-- Size of waveform SRAM in bytes: 96 MiB (R245). -/
def sramBytes : Nat := 96 * 2 ^ 20

/-- Fitted DRAM in bytes by MEM_CFG.POP: none, 64 GiB, 128 GiB, 128 GiB (R254). -/
def State.dramBytes (s : State) : Nat :=
  match s.f F.MEM_CFG_POP with
  | 0 => 0
  | 1 => 2 ^ 36
  | _ => 2 ^ 37

/-- What an unlisted byte of SRAM reads as. -/
def zeroByte : Nat → Byte := fun _ => 0#8

/-- DRAM channel of a byte address: bits [10:9] (R255). -/
def dramChannel (a : Nat) : Nat := bits a 10 9

/-- What an unlisted byte of DRAM reads as: 0, or the byte that a loss left on its channel. -/
def dramDefaultOf (gens : List (Nat × Nat)) (a : Nat) : Byte :=
  let g := sget (fun _ => 0) gens (dramChannel a)
  if g = 0 then 0#8 else Config.lostByte g a

def MemSt.dramDefault (m : MemSt) (a : Nat) : Byte := dramDefaultOf m.gens a

/-- One byte of SRAM. -/
def State.sramByte (s : State) (a : Nat) : Byte := sget zeroByte s.sram a
/-- One byte of DRAM. -/
def State.dramByte (s : State) (a : Nat) : Byte := sget s.mem.dramDefault s.dram a

/-- One byte of a region: DRAM when d. -/
def State.byte (s : State) (d : Bool) (a : Nat) : Byte := if d then s.dramByte a else s.sramByte a

/-- Write one byte of a region. -/
def State.setByte (s : State) (d : Bool) (a : Nat) (b : Byte) : State :=
  if d then { s with dram := sput s.mem.dramDefault s.dram a b } else { s with sram := sput zeroByte s.sram a b }

/-- n bytes from address a as a little-endian number. -/
def State.readLE (s : State) (d : Bool) (a : Nat) : Nat → Nat
  | 0 => 0
  | n + 1 => s.readLE d a n + (s.byte d (a + n)).toNat * 2 ^ (8 * n)

/-- Write the low n bytes of v at address a, little-endian. -/
def State.writeLE (s : State) (d : Bool) (a v : Nat) : Nat → State
  | 0 => s
  | n + 1 => (s.writeLE d a v n).setByte d (a + n) (BitVec.ofNat 8 (v / 2 ^ (8 * n)))

/-- The 64-bit word at byte address a. -/
def State.readWord (s : State) (d : Bool) (a : Nat) : Word := BitVec.ofNat 64 (s.readLE d a 8)

/-- Write the 64-bit word at byte address a; a full-word write gives it fresh check bits, which ends a poison mark (R251). -/
def State.writeWord (s : State) (d : Bool) (a : Nat) (w : Word) : State :=
  let t := s.writeLE d a w.toNat 8
  { t with poison := t.poison.filter (fun p => !(p.1 == d && p.2 == a / 8 * 8)) }

/-- Whether the word that holds byte address a is marked uncorrectable (R251, R252). -/
def State.poisoned (s : State) (d : Bool) (a : Nat) : Bool := s.poison.contains (d, a / 8 * 8)

/-! ### What a fetch has read (R95) -/

/-- A place that a fetch reads: DRAM or SRAM, the first byte, and how many. -/
abbrev Span := Bool × Nat × Nat

/-- Whether byte address a of a region lies in one of the places. -/
def inSpans (ps : List Span) (d : Bool) (a : Nat) : Bool :=
  ps.any fun p => p.1 == d && decide (p.2.1 ≤ a) && decide (a < p.2.1 + p.2.2)

/-- What a fetch of some places reads now. -/
def State.copyOf (s : State) (ps : List Span) : Copy :=
  { sram := s.sram.filter fun c => inSpans ps false c.1
    dram := s.dram.filter fun c => inSpans ps true c.1
    gens := if ps.any (·.1) then s.mem.gens else []
    bad := s.poison.filter fun p => inSpans ps p.1 p.2 || inSpans ps p.1 (p.2 + 7) }

/-- One byte as the fetch read it. -/
def Copy.byte (c : Copy) (d : Bool) (a : Nat) : Byte :=
  if d then sget (dramDefaultOf c.gens) c.dram a else sget zeroByte c.sram a

/-- n bytes from address a as the fetch read them, as a little-endian number. -/
def Copy.readLE (c : Copy) (d : Bool) (a : Nat) : Nat → Nat
  | 0 => 0
  | n + 1 => c.readLE d a n + (c.byte d (a + n)).toNat * 2 ^ (8 * n)

/-- Cells of a, and those of b in the lines of 64 bytes for which late holds. -/
def mixCells (d : Nat → Byte) (a b : List Host.Cell) (late : Nat → Bool) : List Host.Cell :=
  (b.filter fun c => late (c.1 / 64)).foldl (fun m c => sput d m c.1 c.2) (a.filter fun c => !late (c.1 / 64))

/-- Copy a with the lines for which late holds as in the later copy b. -/
def Copy.mix (a b : Copy) (late : Nat → Bool) : Copy :=
  { sram := mixCells zeroByte a.sram b.sram late
    dram := mixCells (dramDefaultOf b.gens) a.dram b.dram late
    gens := b.gens
    bad := a.bad ++ b.bad.filter fun p => late (p.2 / 64) }

/-- Whether the fetch found the word that holds byte address a marked uncorrectable. -/
def Copy.poisoned (c : Copy) (d : Bool) (a : Nat) : Bool := c.bad.contains (d, a / 8 * 8)

/-! ### Memory errors (R20, R250 to R252) -/

/-- What a read of a marked word finds; only DRAM words carry an address-and-write check (R250). -/
def foundEcc (dram marked : Bool) (e : Ecc) : Ecc :=
  match e with
  | .awc => if dram then .awc else .uncorrected
  | e => if marked then .uncorrected else e

/-- Whether an error at byte address addr is logged: the log is free, or holds an error of this core cycle at a higher address
(R252). -/
def State.logsError (s : State) (addr : Nat) : Bool :=
  !s.on F.MEM_ECC_LOG_VALID || (s.thisCycle s.mem.logAt && decide (addr < s.f F.MEM_ECC_LOG_ADDR))

/-- The CRC-8 of R250, x^8 + x^2 + x + 1 from 0x00, over the low n bits of v, the highest first. -/
def crc8 : Nat → Nat → BitVec 8
  | _, 0 => 0
  | v, n + 1 =>
    let c := crc8 (v / 2) n
    if c.getLsbD 7 != bit v 0 then (c <<< 1) ^^^ 0x07#8 else c <<< 1

/-- The address-and-write check of the word w at byte address a of DRAM: the 64 data bits, then bits [36:3] of the address, each from its
highest bit on (DESIGN CHOICE, log entry 73). -/
def dramAwc (a : Nat) (w : Word) : BitVec 8 := crc8 (w.toNat * 2 ^ 34 + bits a 36 3) 98

/-- The check byte that the word at byte address a carries: SECDED of its data, or one that always decodes as uncorrected (R250, R251). -/
def State.checkByte (s : State) (d : Bool) (a : Nat) : BitVec 8 :=
  if s.poisoned d a then Config.poisonByte (s.readWord d (a / 8 * 8)) else Config.secded (s.readWord d (a / 8 * 8))

/-- An uncorrected error is counted and fires source 624, and goes to the log with its kind, requester and address (R252, R361). -/
def State.logError (s : State) (kind req addr : Nat) : State :=
  let t := (s.trouble .eccUe).fireNow 624
  if s.logsError addr then
    let u := (((t.setF F.MEM_ECC_LOG_KIND kind).setF F.MEM_ECC_LOG_REQ req).setF F.MEM_ECC_LOG_ADDR addr).flag F.MEM_ECC_LOG_VALID
    { u with mem := { u.mem with logAt := some s.now } }
  else t

/-- What a read of waveform SRAM (dram false) or DRAM meets, at byte address addr for requester req. KIND is 1 SRAM, 2 DRAM
SECDED, 3 DRAM AWC whatever SECDED found (R250), 4 a poisoned word (R252, table of MEM_ECC_LOG). -/
def State.eccEvent (s : State) (e : Ecc) (dram marked : Bool) (req addr : Nat) : State :=
  match foundEcc dram marked e with
  | .clean => s
  | .corrected => (s.trouble .eccCe).bump (if dram then F.MEM_ECC_CNT_DRAM_CE else F.MEM_ECC_CNT_SRAM_CE)
  | .uncorrected => s.logError (if marked then 4 else if dram then 2 else 1) req addr
  | .awc => (s.logError 3 req addr).bump F.MEM_ECC_CNT_AWC

/-- What a read of a core's own memories meets (R34, R361): no kind of the log names them, so KIND and REQ are free. -/
def State.coreEcc (s : State) (e : Ecc) (addr : Nat) : State :=
  match e with
  | .clean => s
  | .corrected => s.trouble .eccCe
  | _ => s.drawn.logError (s.free.toNat % 8) (s.free.toNat / 8 % 16) addr

end Sys2Proof.Machine
end

