-- ==== Sys2Proof/Machine/Buffers.lean ====
section
/-! DEFINITION. Buffers and their lifetime (R72, R73, R123 to R130): the buffer table, allocation, holds, references and
retirement, and the host's buffer commands. -/

namespace Sys2Proof.Machine

def State.buffer (s : State) (i : Nat) : BufferSt := sget (fun _ => {}) s.buffers i
def State.modBuffer (s : State) (i : Nat) (g : BufferSt → BufferSt) : State :=
  { s with buffers := sput (fun _ => {}) s.buffers i (g (s.buffer i)) }

/-- The handle of a table entry: GEN, REGION, INDEX (R123). -/
def handleOf (i : Nat) (b : BufferSt) : Nat := b.gen * 2 ^ 24 + b.dram.toNat * 2 ^ 23 + i

/-- Table index of a handle. -/
def indexOf (h : Nat) : Nat := h % 2 ^ 14

/-- A handle is live while GEN and REGION are the entry's, the reserved bits are 0, and the entry is LIVE or RETIRING
(R123). -/
def State.liveHandle (s : State) (h : Nat) : Bool :=
  let b := s.buffer (indexOf h)
  decide (h < 2 ^ 32) && handleOf (indexOf h) b == h && b.life != .free

/-- Byte address of a buffer's first byte. -/
def State.bufferBase (s : State) (h : Nat) : Nat := (s.buffer (indexOf h)).page * 4096

/-- Size of a buffer in bytes. -/
def State.bufferSize (s : State) (h : Nat) : Nat := (s.buffer (indexOf h)).pages * 4096

/-! ### Allocation (R123, R246) -/

/-- First page the allocator may use in a region (R246). -/
def State.poolBase (s : State) (d : Bool) : Nat := if d then s.f F.MEM_POOL_DRAM_BASE4K else s.f F.MEM_POOL_SRAM_BASE4K

/-- Pages of a region. -/
def State.poolEnd (s : State) (d : Bool) : Nat := (if d then s.dramBytes else sramBytes) / 4096

/-- The buffers of a region. -/
def State.inRegion (s : State) (d : Bool) : List BufferSt :=
  (s.buffers.map (·.2)).filter fun b => b.life != .free && b.dram == d

/-- The entries whose space an allocation must avoid: the buffers, and those that retired in this core cycle (R125). -/
def State.occupied (s : State) (d : Bool) : List BufferSt :=
  (s.buffers.map (·.2)).filter fun b => (b.life != .free || s.thisCycle b.gone) && b.dram == d

/-- Whether n pages from page p are free and inside the pool. -/
def State.fits (s : State) (d : Bool) (p n : Nat) : Bool :=
  decide (s.poolBase d ≤ p) && decide (p + n ≤ s.poolEnd d) &&
    (s.occupied d).all fun b => decide (p + n ≤ b.page) || decide (b.page + b.pages ≤ p)

/-- The lowest page at which n pages fit: the pool base or the end of a buffer. -/
def State.firstFit (s : State) (d : Bool) (n : Nat) : Option Nat :=
  (((s.poolBase d :: (s.occupied d).map fun b => b.page + b.pages).filter fun p => s.fits d p n).foldl
    (fun m p => match m with | none => some p | some q => some (min p q)) none)

/-- Where n pages go: the spec does not define the placement, so a drawn page is taken when it fits, and otherwise the
lowest that does (R123). -/
def State.placement (s : State) (d : Bool) (n : Nat) : Option Nat :=
  let p := s.poolBase d + s.free.toNat % 2 ^ 32
  if s.fits d p n then some p else s.firstFit d n

/-- Whether a new buffer may take table entry i: it is free, and did not retire in this core cycle (R123, R125). -/
def State.entryFree (s : State) (i : Nat) : Bool := (s.buffer i).life == .free && !s.thisCycle (s.buffer i).gone

/-- The table entry a new buffer takes: a drawn one when it is free, and otherwise the first free one (R123). -/
def State.entryFor (s : State) : Option Nat :=
  let i := (Config.freeValue (s.choice + 1)).toNat % 16384
  if s.entryFree i then some i else firstN 16384 s.entryFree

/-- Pages of a region that no buffer holds (BUF_POOL, R129). -/
def State.freePages (s : State) (d : Bool) : Nat :=
  s.poolEnd d - s.poolBase d - ((s.inRegion d).map (·.pages)).sum

/-- Allocate n pages in a region for a holder; the answer is the new handle, or none for NO_SPACE (R123). The free values
drawn for the placement and the entry are used up either way. The contents of new space are undefined (R72): the model leaves the
bytes that memory holds there (DESIGN CHOICE, log entry 72). -/
def State.allocIn (s : State) (d : Bool) (n : Nat) (hold : BufferSt → BufferSt) : Option (Nat × State) :=
  match s.placement d n, s.entryFor with
  | some p, some i =>
    let b := hold { s.buffer i with life := .live, dram := d, page := p, pages := n, gone := none }
    some (handleOf i b, s.drawn.drawn.modBuffer i fun _ => b)
  | _, _ => none

/-- ALLOC in region 0 SRAM, 1 DRAM, or 2 SRAM or else DRAM (R72). -/
def State.alloc (s : State) (region n : Nat) (hold : BufferSt → BufferSt) : Option (Nat × State) :=
  if region = 0 then s.allocIn false n hold
  else if region = 1 then s.allocIn true n hold
  else match s.allocIn false n hold with
    | some r => some r
    | none => s.allocIn true n hold

/-! ### Holds, references and retirement (R124, R125) -/

/-- Whether nothing keeps the buffer any more (R124). -/
def BufferSt.idle (b : BufferSt) : Bool := b.host == 0 && b.progs.isEmpty && b.descs == 0 && b.refs == 0

/-- The entry retires at DTIME t: its memory is free again and GEN advances, from 255 to 1 (R125). -/
def BufferSt.retire (b : BufferSt) (t : Nat) : BufferSt :=
  { gen := if b.gen = 255 then 1 else b.gen + 1, dram := b.dram, page := b.page, pages := b.pages, gone := some t }

/-- A hold or reference of buffer i has ended. When it was the last, the buffer retires at once (last is none), or becomes
RETIRING until the next kerf on the timeline of the voice that held it (R125). -/
def State.settle (s : State) (i : Nat) (last : Option Nat) : State :=
  if (s.buffer i).life = .live ∧ (s.buffer i).idle then
    match last with
    | none => s.modBuffer i (·.retire s.now)
    | some v => s.modBuffer i fun b => { b with life := .retiring, after := some v }
  else s

/-- A reference to a handle begins (R124). It keeps a RETIRING buffer, which is LIVE again. -/
def State.addRef (s : State) (h : Nat) : State :=
  s.modBuffer (indexOf h) fun b => { b with refs := b.refs + 1, life := .live, after := none }

/-- A reference to a handle ends on voice v's timeline. -/
def State.dropRef (s : State) (v : Option Nat) (h : Nat) : State :=
  (s.modBuffer (indexOf h) fun b => { b with refs := b.refs - 1 }).settle (indexOf h) v

/-- References to several handles begin. -/
def State.addRefs (s : State) (hs : List Nat) : State := hs.foldl State.addRef s

/-- References to several handles end. -/
def State.dropRefs (s : State) (v : Option Nat) (hs : List Nat) : State := hs.foldl (fun t h => t.dropRef v h) s

/-- A BUF.FREE descriptor drops the hold it carries (R125, R126). -/
def State.dropDesc (s : State) (h : Nat) : State :=
  (s.modBuffer (indexOf h) fun b => { b with descs := b.descs - 1 }).settle (indexOf h) none

/-- At a kerf of voice v, or a boundary that counts as one, the buffers that wait for it retire (R125). -/
def State.retireAt (s : State) (v : Nat) : State :=
  s.buffers.foldl (fun t p => if p.2.life = .retiring ∧ p.2.after = some v then t.modBuffer p.1 (·.retire s.now) else t) s

/-- Handles core k holds, counted with multiplicity (R72). -/
def State.heldCount (s : State) (k : Nat) : Nat := ((s.buffers.map fun p => p.2.progs.count k)).sum

/-- Whether core k holds a handle. -/
def State.holds (s : State) (k h : Nat) : Bool := s.liveHandle h && (s.buffer (indexOf h)).progs.contains k

/-- Core k gives up its hold of a handle to a BUF.FREE descriptor (R125). -/
def State.moveHold (s : State) (k h : Nat) : State :=
  s.modBuffer (indexOf h) fun b => { b with progs := b.progs.erase k, descs := b.descs + 1 }

/-- A handle gains a program hold. A RETIRING buffer that gains a hold is LIVE again. -/
def State.holdBy (s : State) (k h : Nat) : State :=
  s.modBuffer (indexOf h) fun b => { b with progs := k :: b.progs, life := .live, after := none }

/-! ### Host commands (R130) -/

/-- A passing write of BUF_CMD with GO = 1 runs its command, with the result in BUF_RES (R130, R73). GO reads 0 again when
the result is valid, which in this model is at once. -/
def State.bufCommand (s : State) : State :=
  let op := s.f F.BUF_CMD_OP
  let region := s.f F.BUF_CMD_REGION
  let arg := s.f F.BUF_CMD_ARG
  let answer (t : State) (status h : Nat) : State :=
    ((t.setF F.BUF_RES_STATUS status).setF F.BUF_RES_HANDLE h).clr F.BUF_CMD_GO
  match op with
  | 0 =>
    if region = 3 then answer s 8 0
    else if arg = 0 ∨ 262144 < arg then answer s 4 0
    else match s.alloc region arg (fun b => { b with host := 1 }) with
      | some (h, t) => answer t 0 h
      | none => answer s.drawn.drawn 1 0
  | 1 =>
    if s.liveHandle arg ∧ 0 < (s.buffer (indexOf arg)).host then
      answer ((s.modBuffer (indexOf arg) fun b => { b with host := b.host - 1 }).settle (indexOf arg) none) 0 arg
    else answer s 6 arg
  | 2 =>
    if s.liveHandle arg then
      answer (s.modBuffer (indexOf arg) fun b => { b with host := b.host + 1, life := .live, after := none }) 0 arg
    else answer s 3 arg
  | _ =>
    let b := s.buffer (indexOf arg)
    if s.liveHandle arg then
      let t := (((s.setF F.BUF_INFO_HOLDS (b.host + b.progs.length + b.descs)).setF F.BUF_INFO_REFS b.refs).setF
        F.BUF_INFO_STATE (if b.life = .live then 1 else 2)).setF F.BUF_INFO_SIZE4K b.pages
      answer ((t.setF F.BUF_ADDR_REGION b.dram.toNat).setF F.BUF_ADDR_ADDR (b.page * 4096)) 0 arg
    else answer ((s.setRw .BUF_INFO 0).setRw .BUF_ADDR 0) 0 arg

end Sys2Proof.Machine
end

