-- ==== Sys2Proof/Machine/Marker.lean ====
section
/-! DEFINITION. Marker lanes, TRIG_IN and TRIG_OUT (chapter 08): lane levels, edge conditioning, pulse placement. -/

namespace Sys2Proof.Machine

def State.voice (s : State) (v : Nat) : VoiceSt := sget (fun _ => {}) s.voices v
def State.modVoice (s : State) (v : Nat) (g : VoiceSt → VoiceSt) : State :=
  { s with voices := sput (fun _ => {}) s.voices v (g (s.voice v)) }
def State.trigOut (s : State) (m : Nat) : TrigOutSt := sget (fun _ => {}) s.trigOuts m
def State.modTrigOut (s : State) (m : Nat) (g : TrigOutSt → TrigOutSt) : State :=
  { s with trigOuts := sput (fun _ => {}) s.trigOuts m (g (s.trigOut m)) }
def State.trigIn (s : State) (n : Nat) : TrigInSt := sget (fun _ => {}) s.trigIns n
def State.modTrigIn (s : State) (n : Nat) (g : TrigInSt → TrigInSt) : State :=
  { s with trigIns := sput (fun _ => {}) s.trigIns n (g (s.trigIn n)) }

/-- The channel voice v drives: the one of R15 until a slot write moves it (R139, R140). -/
def State.voiceChan (s : State) (v : Nat) : Option Nat :=
  match (s.voice v).drives with
  | none => some (v / 4)
  | some c => c

/-- Voices that drive channel n; they belong to its quad (R15). -/
def State.voicesOf (s : State) (n : Nat) : List Nat :=
  (List.range 16).filterMap fun i => if s.voiceChan (16 * (n / 4) + i) = some n then some (16 * (n / 4) + i) else none

/-! ### TRIG_OUT (R184, R185) -/

/-- The step of the 9.6 GHz grid nearest to num / den DTIME units, a tie going later. -/
def trigStep (num den : Int) : Nat := (roundDiv (num * 9600000000) (second * den)).toNat

/-- DTIME of a step of the 9.6 GHz grid. -/
def stepTime (k : Nat) : Nat := (roundDiv (k * second) 9600000000).toNat

/-- Rise and fall of the pulse of instant p under TO_CFG word w: DELAY steps later, for WIDTH + 1 times four steps (R184, R185). -/
def pulseUnder (w : Word) (p : Int × Int) : Nat × Nat :=
  let rise := trigStep p.1 p.2 + bits w.toNat F.TO_CFG_DELAY.hi F.TO_CFG_DELAY.lo
  (rise, rise + 4 * (bits w.toNat F.TO_CFG_WIDTH.hi F.TO_CFG_WIDTH.lo + 1))

/-- The pulse of instant p: under word w when its rise then falls at least 100 ns after the write that gave w, and otherwise under
the words before it (R185). -/
def pulseOf (w : Word) (p : Int × Int) : List (Nat × Word) → Nat × Nat
  | [] => pulseUnder w p
  | (t, old) :: more =>
    let q := pulseUnder w p
    if t * 10000000 + second ≤ stepTime q.1 * 10000000 then q else pulseOf old p more

/-- Rise and fall of the pulse of instant p on line m. -/
def State.pulse (s : State) (m : Nat) (p : Int × Int) : Nat × Nat := pulseOf (s.rw .TO_CFG m) p (s.trigOut m).old

/-- A write of TO_CFG: the word it replaces still shapes the pulses that rise within 100 ns (R185). -/
def State.writeToCfg (s : State) (m : Nat) (w : Word) : State :=
  (s.modTrigOut m fun x =>
    { x with old := (s.now, s.rw .TO_CFG m) :: x.old.filter fun p =>
        decide (s.now * 10000000 < p.1 * 10000000 + second) }).setRouted .TO_CFG w m 0

/-- A pulse of line m is due whose instant before DELAY is p, num / den DTIME units. -/
def State.trigPulse (s : State) (m : Nat) (p : Int × Int) : State := s.modTrigOut m fun x => { x with due := x.due ++ [p] }

/-- The sum of two exact instants. -/
def addExact (a b : Int × Int) : Int × Int := (a.1 * b.2 + b.1 * a.2, a.2 * b.2)

/-- A TRIGO takes effect at a PLAY's first sample, at position p of channel n: its pulse rises D_CH later (R184). -/
def State.trigoAt (s : State) (m n : Nat) (p : Int) (skew : Int) : State :=
  if s.on F.TO_CFG_EN m && s.on F.TO_CFG_SRC_TRIGO m then
    s.trigPulse m (addExact ((s.chan n).grid.exactPlace p) (s.exactDelay n skew))
  else s

/-- An event pulse rises at the reference time plus 10.0 ns (R184). -/
def State.trigEvent (s : State) (m ref : Nat) : State :=
  if s.on F.TO_CFG_EN m && s.on F.TO_CFG_SRC_EVT m then s.trigPulse m (ref * 100000000 + second, 100000000) else s

/-- The pulse due on line m that rises first, with its instant. -/
def State.firstPulse (s : State) (m : Nat) : Option ((Int × Int) × Nat × Nat) :=
  (s.trigOut m).due.foldl (fun x p => match x with
    | none => some (p, s.pulse m p)
    | some q => if (s.pulse m p).1 < q.2.1 then some (p, s.pulse m p) else some q) none

/-- A pulse rises, or extends the one that is high (R185). -/
def TrigOutSt.rise (x : TrigOutSt) (p : Int × Int) (fall : Nat) : TrigOutSt :=
  { x with due := x.due.erase p, fall := some (match x.fall with | none => fall | some f => max f fall) }

/-- TRIG_OUT_PULSE (R184): the earliest pulse due on line m rises. -/
def execTrigOutPulse (m : Fin 16) (s : State) : Res :=
  match s.firstPulse m with
  | some (p, rise, fall) => .next ((s.reach (stepTime rise)).modTrigOut m fun x => x.rise p fall)
  | none => .next s

/-- TRIG_OUT_PULSE_END (R185): the pulse of line m falls; one that rises no later than the fall extends it instead. -/
def execTrigOutPulseEnd (m : Fin 16) (s : State) : Res :=
  match (s.trigOut m).fall with
  | none => .next s
  | some f =>
    match s.firstPulse m with
    | some (p, rise, fall) =>
      if rise ≤ f then .next (s.modTrigOut m fun x => x.rise p fall)
      else .next ((s.reach (stepTime f)).modTrigOut m fun x => { x with fall := none })
    | none => .next ((s.reach (stepTime f)).modTrigOut m fun x => { x with fall := none })

/-- Level at the pins of TRIG_OUT m (R185): high while a pulse runs, inverted by POL, inactive while EN is 0. -/
def State.trigOutPin (s : State) (m : Nat) : Bool :=
  (s.on F.TO_CFG_EN m && (s.trigOut m).fall.isSome) != s.on F.TO_CFG_POL m

/-! ### TRIG_IN (R181 to R183) -/

/-- Writes of TI_CFG that may still wait at DTIME t: those made less than 100 ns before (R183). -/
def TrigInSt.waiting (x : TrigInSt) (t : Nat) : List (Nat × Word) :=
  x.writes.filter fun p => decide (t * 10000000 < p.1 * 10000000 + second)

/-- The TI_CFG word that conditions line n at DTIME t: what the oldest waiting write replaced, else the register (R183). -/
def State.tiCfg (s : State) (n t : Nat) : Nat :=
  match (s.trigIn n).waiting t with
  | p :: _ => p.2.toNat
  | [] => (s.rw .TI_CFG n).toNat

/-- A write to TI_CFG: the old setting acts until TI_CFG_APPLY, and no longer than 100 ns (R183). -/
def State.writeTiCfg (s : State) (n : Nat) (w : Word) : State :=
  (s.modTrigIn n fun x => { x with writes := x.waiting s.now ++ [(s.now, s.rw .TI_CFG n)] }).setRw .TI_CFG w n

/-- TI_CFG_APPLY (R183): the oldest waiting write to TI_CFGn takes effect. -/
def execTiCfgApply (n : Fin 16) (s : State) : Res := .next (s.modTrigIn n fun x => { x with writes := (x.waiting s.now).drop 1 })

/-- Whether EN, EDGE and GLITCH accept an edge; held is how many whole 125 ps the new level holds (R181). -/
def tiSelects (cfg : Nat) (rising : Bool) (held : Nat) : Bool :=
  bit cfg 0 && (match bits cfg 2 1 with | 0 => rising | 1 => !rising | 2 => true | _ => false) &&
    decide (bits cfg 6 4 ≤ held)

/-- Whether HOLDOFF or the 2.5 ns spacing ignores an edge at t after an accepted edge at last (R181). -/
def tiIgnored (cfg last t : Nat) : Bool :=
  decide ((t - last) * 1000000000 < bits cfg 31 16 * second) || decide ((t - last) * 10000000000 < 25 * second)

/-- A voice holding a WAIT for a TRIG_IN line takes the first edge at or after its kerf instant (R99). -/
def State.offerWaits (s : State) (ts : Nat) (want : Desc → Bool) : State :=
  forN 64 (fun v t =>
    match (s.voice v).item with
    | some it =>
      match it.kind, it.cond, it.seen, s.voiceChan v with
      | .wait, some d, none, some n =>
        if want d ∧ (s.chan n).grid.placeAt it.start ≤ ts then
          t.modVoice v fun x => { x with item := some { it with seen := some ts } }
        else t
      | _, _, _, _ => t
    | none => t) s

/-- TRIG_IN_EDGE (R181, R182): an edge crosses line n's threshold at DTIME t. An accepted edge is timestamped less SKEW,
recorded, fires TRIGIN and meets the WAIT TRIGs of its line; one that only spacing ignores is counted. -/
def execTrigInEdge (n : Fin 16) (t : Nat) (rising : Bool) (held : Nat) (s : State) : Res :=
  let s := s.reach t
  let cfg := s.tiCfg n t
  if ¬ s.active ∨ ¬ tiSelects cfg rising held then .next s
  else if (match (s.trigIn n).last with | some l => tiIgnored cfg l t | none => false) then
    .next (s.bump F.TI_CNT_HELD n)
  else
    let ts := wrap 96 (t - signed 11 (bits cfg 42 32) * 256)
    let s := s.modTrigIn n fun x => { x with last := some t }
    let s := ((s.putTime F.TI_TS_SEC_SEC F.TI_TS_FRAC_FRAC ts n).tick F.TI_TS_SEC_ESEQ n).tick F.TI_TS_FRAC_ESEQ n
    .next ((s.fire (576 + n) ts).offerWaits ts fun d => d == .waitTrig n)

/-! ### Marker lanes (R175, R176) -/

/-- A voice's own value on a lane. -/
def VoiceSt.lane (x : VoiceSt) (l : Nat) : Bool := bit x.level l || x.pulses.any fun p => p.lane == l

/-- The exact instants of an action and of a pulse's end. -/
def MarkAct.time (a : MarkAct) : Int × Int := a.grid.exactPlace a.at_
def Pulse.time (p : Pulse) : Int × Int := p.grid.exactPlace p.at_

/-- Whether one exact instant lies before another. -/
def sooner (a b : Int × Int) : Bool := decide (a.1 * b.2 < b.1 * a.2)

/-- A MARK action acts on its voice's lane state (R176). -/
def VoiceSt.mark (x : VoiceSt) (a : MarkAct) : VoiceSt :=
  match a.mode with
  | 0 => { x with level := setBits x.level a.lane a.lane 1 }
  | 1 => { x with level := setBits x.level a.lane a.lane 0, pulses := x.pulses.filter fun p => p.lane != a.lane }
  | 2 => { x with pulses := x.pulses ++ [⟨a.lane, a.at_ + a.width * 1024, a.grid⟩] }
  | _ => { x with level := setBits x.level a.lane a.lane (1 - bits x.level a.lane a.lane) }

/-- Whether a descriptor is a MARK. -/
def Desc.isMark : Desc → Bool
  | .mark _ _ _ _ => true
  | _ => false

/-- The voice's marker state clears and its actions drop, those scheduled and those reached that wait for a PLAY (R176). -/
def VoiceSt.clearMarks (x : VoiceSt) : VoiceSt :=
  { x with level := 0, pulses := [], acts := [], carry := x.carry.filter (!·.isMark), tail := x.tail.filter (!·.isMark) }

/-- The earliest scheduled action, the first in queue order among equals (R70). -/
def VoiceSt.firstMark (x : VoiceSt) : Option MarkAct :=
  x.acts.foldl (fun m a => match m with
    | none => some a
    | some b => if sooner a.time b.time then some a else some b) none

/-- The earliest end of a running pulse. -/
def VoiceSt.firstEnd (x : VoiceSt) : Option Pulse :=
  x.pulses.foldl (fun m a => match m with
    | none => some a
    | some b => if sooner a.time b.time then some a else some b) none

/-- How many actions of the voice wait: those with their places, and those that the voice has reached before a WAIT (R64, R176). -/
def VoiceSt.waitingMarks (x : VoiceSt) : Nat := x.acts.length + x.carry.countP (·.isMark)

/-- The voice reaches a MARK, which g puts among those that wait; the seventeenth is dropped and sets ACT_OVF of channel n (R176). -/
def State.holdMark (s : State) (v n : Nat) (g : VoiceSt → VoiceSt) : State :=
  if 16 ≤ (s.voice v).waitingMarks then s.flag F.MK_STATUS_ACT_OVF n else s.modVoice v g

/-! ### Lane delay (R178) -/

/-- EFF of lane l of channel n before clamping: the trim less SKEW in 1/32 DAC sample, DELAY in force, and the lane's
marker skew (R178). -/
def State.laneSum (s : State) (delay skew mk : Int) (n : Nat) : Int :=
  roundDiv (s.f F.CH_TRIM_EFF_COARSE n * 1024 + s.f F.CH_TRIM_EFF_FRAC n - skew) 32 + delay + mk

/-- The largest EFF with D_MK at most 990 ns, LAT0 as reported (R178). -/
def State.laneMax (s : State) (n : Nat) : Int :=
  let w := s.quadFreq (n / 4)
  ((985800 : Int) - s.lat0 n) * 3 * nWord w * 32 / (2500 * dWord w * 2 ^ 32)

/-- Recompute MK_CFG.EFF of a lane, setting CLAMP when a limit acts (R178). -/
def State.setLane (s : State) (n l : Nat) (delay skew mk : Int) : State :=
  let e := s.laneSum delay skew mk n
  let m := s.laneMax n
  if e < 0 then (s.setF F.MK_CFG_EFF 0 n l).setF F.MK_STATUS_CLAMP (setBits (s.f F.MK_STATUS_CLAMP n) l l 1) n
  else if m < e then (s.setF F.MK_CFG_EFF m.toNat n l).setF F.MK_STATUS_CLAMP (setBits (s.f F.MK_STATUS_CLAMP n) l l 1) n
  else s.setF F.MK_CFG_EFF e.toNat n l

/-! ### Lane values and their way to the pins (R175, R177, R178) -/

/-- The voice of channel n whose PAT item has lane l (R175). -/
def State.laneOwner (s : State) (n l : Nat) : Option Nat := (s.voicesOf n).find? fun v => bit (s.voice v).pat.1 l

/-- Value of lane l of channel n (R175): the pattern bit of a PAT item that has the lane, and otherwise the OR of its voices. -/
def State.laneValue (s : State) (n l : Nat) : Bool :=
  match s.laneOwner n l with
  | some v => bit (s.voice v).pat.2 l
  | none => (s.voicesOf n).any fun v => (s.voice v).lane l

/-- Where a lane transition of an exact instant is placed: 1/32 DAC samples from the epoch, ties later. -/
def Grid.laneStep (g : Grid) (t : Int × Int) : Int := roundDiv ((t.1 - g.epoch * t.2) * g.den * 32) (t.2 * g.num)

/-- The lag of lane l's driver, in fs, at the temperature of the quad's sensor (R311). -/
def State.laneLag (s : State) (n l : Nat) : Nat := Config.laneLag n l (s.f F.BG_TEMP_T (n / 4)) % 30001

/-- By how much the converter's own delay falls short of 2.50 ns, in fs, likewise (R311). -/
def State.converterLack (s : State) (n : Nat) : Nat := Config.converterLack n (s.f F.BG_TEMP_T (n / 4)) % 60001

/-- D_MK of lane l of channel n with the lag of its driver, in DTIME units, to the nearest (R178, R311). -/
def State.laneDelay (s : State) (n l : Nat) : Int :=
  let q := (s.chan n).grid.delay (s.fixedDelay n + s.laneLag n l) (s.f F.MK_CFG_EFF n l * 32)
  roundDiv q.1 q.2

/-- When a transition of an exact instant reaches the pins of lane l of channel n. -/
def State.laneEdge (s : State) (n l : Nat) (t : Int × Int) : Int :=
  let g := (s.chan n).grid
  g.epoch + roundDiv (g.laneStep t * g.num) (32 * g.den) + s.laneDelay n l

/-- Transitions on their way to a lane's pins. -/
def ChanSt.lane (c : ChanSt) (l : Nat) : List (Int × Bool) := sget (fun _ => []) c.lanes l

/-- Level b reaches the pins of lane l of channel n at DTIME t, but not before what is already on its way; transitions that later ones
have superseded at the pins are forgotten. -/
def State.sendLane (s : State) (n l : Nat) (t : Int) (b : Bool) : State :=
  s.modChan n fun c =>
    let q := c.lane l
    let u := match q with | p :: _ => max p.1 t | [] => t
    let old := q.takeWhile (fun p => decide ((s.now : Int) < p.1)) ++ (q.dropWhile fun p => decide ((s.now : Int) < p.1)).take 1
    { c with lanes := sput (fun _ => []) c.lanes l ((u, b) :: old) }

/-- Lane l of channel n sends the transition, if there is one, that belongs to exact instant t. -/
def State.sendChange (s : State) (n l : Nat) (t : Int × Int) : State :=
  let b := s.laneValue n l
  if (match (s.chan n).lane l with | q :: _ => q.2 | [] => false) = b then s else s.sendLane n l (s.laneEdge n l t) b

/-- The lanes of channel n send their transitions of exact instant t. -/
def State.sendLanesAt (s : State) (n : Nat) (t : Int × Int) : State := forN 4 (fun l u => u.sendChange n l t) s

/-- The lanes of channel n send their transitions at position p of its grid; a PAT item's lie at its own VOFF (R177). -/
def State.sendLanes (s : State) (n : Nat) (p : Int) : State :=
  forN 4 (fun l t =>
    let voff := match t.laneOwner n l with
      | some v => (match (t.voice v).item with | some it => if p % 1024 = 0 then it.first % 1024 else 0 | none => 0)
      | none => 0
    t.sendChange n l ((t.chan n).grid.exactPlace (p + voff))) s

/-- The lanes of channel n hold their values at position p, where EFF may change: with a shorter delay the transitions that would pass
them drop, and with a longer one the value repeats (R178). -/
def State.holdLanes (s : State) (n : Nat) (p : Int) : State :=
  forN 4 (fun l t => t.sendLane n l (t.laneEdge n l ((t.chan n).grid.exactPlace p)) (t.laneValue n l)) s

/-- An exact instant to the nearest DTIME unit. -/
def nearestTime (t : Int × Int) : Nat := (roundDiv t.1 t.2).toNat

/-- MARK_ACTION (R176): the earliest scheduled action of voice v reaches its sample. -/
def execMarkAction (v : Fin 64) (s : State) : Res :=
  match (s.voice v).firstMark, s.voiceChan v with
  | some a, some n =>
    .next (((s.reach (nearestTime a.time)).modVoice v fun x => ({ x with acts := x.acts.erase a }).mark a).sendLanesAt n a.time)
  | _, _ => .next s

/-- MARK_PULSE_END (R176): the running pulse of voice v that ends first ends. -/
def execMarkPulseEnd (v : Fin 64) (s : State) : Res :=
  match (s.voice v).firstEnd, s.voiceChan v with
  | some p, some n =>
    .next (((s.reach (nearestTime p.time)).modVoice v fun x => { x with pulses := x.pulses.erase p }).sendLanesAt n p.time)
  | _, _ => .next s

/-! ### Calibrated skew (R160, R178, R317) -/

def State.cal (s : State) (n : Nat) : CalSt := sget (fun _ => {}) s.cals n
def State.modCal (s : State) (n : Nat) (g : CalSt → CalSt) : State :=
  { s with cals := sput (fun _ => {}) s.cals n (g (s.cal n)) }

/-- The bank that CAL_STATUS.ACTIVE names. -/
def State.calBank (s : State) (n : Nat) : CalBank := if s.on F.CAL_STATUS_ACTIVE n then (s.cal n).b else (s.cal n).a

/-- Whether a bank is valid: bit 63 of its MAIN word. -/
def CalBank.valid (b : CalBank) : Bool := bit b.main.toNat 63

/-- SKEW in force in 1/1024 DAC sample: that of the active bank, 0 while it is not valid. -/
def State.skew (s : State) (n : Nat) : Int := if (s.calBank n).valid then bits (s.calBank n).main.toNat 47 32 else 0

/-- MKSKEW of lane l in force, in 1/32 DAC sample. -/
def State.mkSkew (s : State) (n l : Nat) : Int :=
  if (s.calBank n).valid then signed 16 (bits (s.calBank n).lanes.toNat (16 * l + 15) (16 * l)) else 0

end Sys2Proof.Machine
end

