-- ==== Sys2Proof/Machine/Segment.lean ====
section
/-! DEFINITION. Segment-table entries (R82 to R91): their fields, the checks at issue and at the snapshot, and DRAM slots
(R18, R113). -/

namespace Sys2Proof.Machine

/-! ### Slots of a channel (R135, R139) -/

/-- Bits hi..lo of the register word at addr as the channel acts on them: the value before a run-time write until its boundary
(R135). -/
def State.inForce (s : State) (n addr hi lo : Nat) : Nat :=
  match (s.chan n).held.find? fun h => h.addr == addr && decide (h.lo ≤ lo) && decide (hi ≤ h.hi) with
  | some h => bits (h.old * 2 ^ h.lo) hi lo
  | none => bits (s.word addr).toNat hi lo

/-- Slot p of channel n in force: bit 15 EN, 11..8 VQ, 5..4 OP, 1..0 GATE. -/
def State.slotInForce (s : State) (n p : Nat) : Nat := s.inForce n (Reg.CH_SLOT.addr n p) 15 0

/-- The slot in force of channel n that names voice v. -/
def State.slotOf (s : State) (n v : Nat) : Option Nat :=
  firstN 8 fun p => bit (s.slotInForce n p) 15 && 16 * (n / 4) + bits (s.slotInForce n p) 11 8 == v

/-- Grid of the channel voice v drives. -/
def State.voiceGrid (s : State) (v : Nat) : Grid :=
  match s.voiceChan v with
  | some n => (s.chan n).grid
  | none => {}

/-! ### Entry fields (R83, R84) -/

/-- Word i of a snapshot. -/
def wordOf (ws : List Word) (i : Nat) : Nat := (ws.getD i 0).toNat

def segValid (w0 : Nat) : Bool := bit w0 63
/-- 0 SEG, 1 STRM, 2 MOD, 3 TONE, 4 TICK, 5 PAT (R83). -/
def segMode (w0 : Nat) : Nat := bits w0 62 60
def segMem (w0 : Nat) : Bool := bit w0 59
def segCplx (w0 : Nat) : Bool := bit w0 58
def segRot (w0 : Nat) : Bool := bit w0 57
def segLen (w0 : Nat) : Nat := bits w0 55 32 * 64
/-- S of a MOD entry: 2, 4, 8 or 16 (R84). -/
def envSub (w0 : Nat) : Nat := 2 * 2 ^ bits w0 1 0
/-- Bytes of one sample. -/
def sampleBytes (w0 : Nat) : Nat := if segCplx w0 then 4 else 2

/-- Whether HANDLE and ADDR64 of a word lie in DRAM: the handle's REGION, or MEM for a raw address (R65, R84). -/
def wordInDram (w0 w : Nat) : Bool := if bits w 63 32 = 0 then segMem w0 else bit (bits w 63 32) 23

/-- Byte address a word's HANDLE and ADDR64 name. -/
def State.wordAddr (s : State) (w : Nat) : Nat :=
  if bits w 63 32 = 0 then bits w 31 0 * 64 else s.bufferBase (bits w 63 32) + bits w 31 0 * 64

/-- Whether an entry's item is DRAM-backed, judged from its words (R65). -/
def State.entryInDram (s : State) (ws : List Word) : Bool :=
  match segMode (wordOf ws 0) with
  | 0 => wordInDram (wordOf ws 0) (wordOf ws 1)
  | 1 => bit (s.f F.STM_RING_HANDLE (bits (wordOf ws 0) 5 0)) 23
  | 2 => wordInDram (wordOf ws 0) (wordOf ws 1) || wordInDram (wordOf ws 0) (wordOf ws 2)
  | _ => false

/-- Byte address of entry seg in the table in force of voice v (R82). -/
def State.entryAddr (s : State) (v seg : Nat) : Nat := s.f F.VOICE_SEGTAB_ACT_BASE v * 32 + seg * 32

/-- COUNT of the table in force. -/
def State.entryCount (s : State) (v : Nat) : Nat := s.f F.VOICE_SEGTAB_ACT_COUNT_M1 v + 1

/-- The four words of entry seg. -/
def State.readEntry (s : State) (v seg : Nat) : List Word :=
  let a := s.entryAddr v seg
  [s.readWord false a, s.readWord false (a + 8), s.readWord false (a + 16), s.readWord false (a + 24)]

/-- Whether the memory that holds an entry has an uncorrectable word (R361). -/
def State.entryPoisoned (s : State) (v seg : Nat) : Bool :=
  let a := s.entryAddr v seg
  s.poisoned false a || s.poisoned false (a + 8) || s.poisoned false (a + 16) || s.poisoned false (a + 24)

/-! ### Checks (R85 to R91) -/

/-- Reserved bits of word 0, by mode (R83, R84): bit 56, ROT outside SEG, STRM and MOD, and the bits of P0 no field names. -/
def reservedOf (mode : Nat) : List (Nat × Nat) :=
  match mode with
  | 0 => [(56, 56), (31, 0)]
  | 1 => [(56, 56), (31, 6)]
  | 2 => [(56, 56), (31, 2)]
  | 3 => [(57, 56), (31, 16)]
  | 4 => [(57, 56)]
  | _ => [(57, 56), (31, 5)]

/-- The checks of word 0 that R85 makes at issue and repeats at the snapshot. -/
def issueChecks (count seg w0 : Nat) : Bool :=
  let m := segMode w0
  let l := bits w0 55 32
  decide (seg < count) && segValid w0 && decide (m ≤ 5) &&
    (decide (8 ≤ l ∧ l ≤ 4194304) || (m == 1 && l == 0)) && (reservedOf m).all fun p => bits w0 p.1 p.2 == 0

/-- Fields of words 1 to 3 that R84 does not name for the mode, all of which must be 0. -/
def unnamedOf (mode : Nat) (ratio : Bool) : List (Nat × Nat × Nat) :=
  match mode with
  | 0 => [(2, 63, 0), (3, 63, 0)]
  | 1 => [(1, 63, 0), (2, 63, 0), (3, 63, 0)]
  | 2 => [(3, 63, 0)]
  | 3 => [(1, 63, 0), (2, 63, 0), (3, 63, 0)]
  | 4 => if ratio then [(2, 62, 48), (3, 63, 48)] else [(2, 62, 0), (3, 63, 32)]
  | _ => []

/-- The handle of a word is live, or 0. -/
def State.handleOk (s : State) (w : Nat) : Bool := bits w 63 32 == 0 || s.liveHandle (bits w 63 32)

/-- n bytes from a word's place lie wholly within its buffer or its region (R85). -/
def State.spanOk (s : State) (w0 w n : Nat) : Bool :=
  let h := bits w 63 32
  if h = 0 then decide (bits w 31 0 * 64 + n ≤ if segMem w0 then s.dramBytes else sramBytes)
  else decide (bits w 31 0 * 64 + n ≤ s.bufferSize h)

/-- DTIME of edge k of a TICK LIST at byte address a (R90). -/
def State.edgeTime (s : State) (a k : Nat) : Nat := s.readLE false (a + 16 * k + 4) 12

/-- Level after edge k of a TICK LIST. -/
def State.edgeLevel (s : State) (a k : Nat) : Int := signed 16 (s.readLE false (a + 16 * k + 2) 2)

/-- The first n edges lie in rising DTIME order (R90). -/
def State.edgesRise (s : State) (a : Nat) : Nat → Bool
  | 0 => true
  | 1 => true
  | n + 2 => s.edgesRise a (n + 1) && decide (s.edgeTime a n < s.edgeTime a (n + 1))

/-- The checks R86 to R91 add for each mode, and that the data lie within their store (R85). -/
def State.modeChecks (s : State) (g : Grid) (ws : List Word) : Bool :=
  let w0 := wordOf ws 0
  let w1 := wordOf ws 1
  let w2 := wordOf ws 2
  let w3 := wordOf ws 3
  let l := segLen w0
  match segMode w0 with
  | 0 => s.handleOk w1 && s.spanOk w0 w1 (l * sampleBytes w0)
  | 1 => true
  | 2 => s.handleOk w1 && s.handleOk w2 && s.spanOk w0 w1 (l * sampleBytes w0) &&
      s.spanOk w0 w2 (l / envSub w0 * 4)
  | 3 => decide (bits w0 15 0 < 0x8000)
  | 4 =>
    if bit w2 63 then
      let num := bits w1 63 32
      let den := bits w1 31 0
      decide (num ≠ 0 ∧ den ≠ 0 ∧ num ≤ den) && decide (8 * g.vnum * den ≤ num * second * g.vden) &&
        decide (bits w3 47 0 * den < num * second)
    else
      s.handleOk w1 && !wordInDram w0 w1 && s.spanOk w0 w1 (bits w3 31 0 * 16) && s.edgesRise (s.wordAddr w1) (bits w3 31 0)
  | _ => s.handleOk w1 && !wordInDram w0 w1 && s.spanOk w0 w1 l

/-- The handles an entry's item references (R124). -/
def entryRefs (ws : List Word) : List Nat :=
  let hs := match segMode (wordOf ws 0) with
    | 2 => [bits (wordOf ws 1) 63 32, bits (wordOf ws 2) 63 32]
    | 0 => [bits (wordOf ws 1) 63 32]
    | 4 => if bit (wordOf ws 2) 63 then [] else [bits (wordOf ws 1) 63 32]
    | 5 => [bits (wordOf ws 1) 63 32]
    | _ => []
  hs.filter (· != 0)

/-! ### Grains (R93, R95) -/

/-- Grains of an item of length len (R93). -/
def grains (len : Nat) : Nat := (len + 511) / 512

/-- Samples of grain j of an item (R93). -/
def grainLen (len j : Nat) : Nat := if len = 0 then 512 else min 512 (len - 512 * j)

/-- The places grain j of an item of length len reads (R84, R95): its samples; for MOD also the envelope points that cover it; for a
TICK LIST the whole list. A stream is read block by block. -/
def State.grainSpans (s : State) (ws : List Word) (len j : Nat) : List Span :=
  let w0 := wordOf ws 0
  let w1 := wordOf ws 1
  let n := grainLen len j
  let samples : Span := (wordInDram w0 w1, s.wordAddr w1 + 512 * j * sampleBytes w0, n * sampleBytes w0)
  match segMode w0 with
  | 0 => [samples]
  | 2 => [samples, (wordInDram w0 (wordOf ws 2), s.wordAddr (wordOf ws 2) + 512 * j / envSub w0 * 4, (n / envSub w0 + 1) * 4)]
  | 4 => if bit (wordOf ws 2) 63 then [] else [(false, s.wordAddr w1, bits (wordOf ws 3) 31 0 * 16)]
  | 5 => [(false, s.wordAddr w1 + 512 * j, n)]
  | _ => []

/-- What the fetch of grain j of the item in play has read. -/
def VoiceSt.lineOf (x : VoiceSt) (j : Nat) : Option Copy := (x.lines.find? fun p => p.1 == 0 && p.2.1 == j).map (·.2.2)

/-! ### DRAM slots (R18, R113) -/

/-- Whether voice v holds a DRAM slot, or released it in this core cycle (R113). -/
def State.slotSeen (s : State) (v : Nat) : Bool := bit (s.f F.DRAM_BACKED_VOICES) v || s.thisCycle (s.voice v).slotGone

/-- DRAM slots that a slot check of another voice sees held. -/
def State.slotCount (s : State) (v : Nat) : Nat := ((List.range 64).filter fun u => u != v && s.slotSeen u).length

/-- Voice v holds a DRAM slot. -/
def State.hasSlot (s : State) (v : Nat) : Bool := bit (s.f F.DRAM_BACKED_VOICES) v

/-- Whether voice v holds a slot or can take one of the 16 (R18). -/
def State.canSlot (s : State) (v : Nat) : Bool := s.hasSlot v || decide (s.slotCount v < 16)

/-- Voice v takes a DRAM slot. -/
def State.takeSlot (s : State) (v : Nat) : State :=
  (s.setF F.DRAM_BACKED_VOICES (setBits (s.f F.DRAM_BACKED_VOICES) v v 1)).flag F.REFILL_STAT_SLOT v

/-- Whether an item in play, a queued descriptor, the one its core waits in QSTALL to emit (R36), or a jump-table entry of
voice v, loaded or being loaded, names DRAM (R113, R114). -/
def State.needsSlot (s : State) (v : Nat) : Bool :=
  let x := s.voice v
  (match x.item with | some it => (it.kind == .play || it.kind == .target) && s.entryInDram it.words | none => false) ||
    x.queue.any (·.dram) || (s.core v).stalled.any (·.dram) || x.taken.any (fun t => s.entryInDram t.words) ||
    anyN 16 fun e => (sget (fun _ => {}) x.jt e).dram

/-- Voice v releases its slot when nothing needs it any more (R113). -/
def State.freeSlot (s : State) (v : Nat) : State :=
  if s.hasSlot v ∧ ¬ s.needsSlot v then
    ((s.setF F.DRAM_BACKED_VOICES (setBits (s.f F.DRAM_BACKED_VOICES) v v 0)).clr F.REFILL_STAT_SLOT v).modVoice v fun x =>
      { x with slotGone := some s.now }
  else s

/-! ### The snapshot (R85, R95, R147) -/

/-- Samples of an item with first sample at position p overlap those of another item (R147). -/
def overlaps (p q : Int) (lp lq : Nat) : Bool := decide (p < q + lq * 1024) && decide (q < p + lp * 1024)

/-- Whether PAT item words ws share a lane with LMASK m (R147). -/
def sharesLane (ws : List Word) (m : Nat) : Bool := segMode (wordOf ws 0) == 5 && (wordOf ws 0 &&& m &&& 15) != 0

/-- Whether what a window close of voice u took is a PAT item that shares a lane with LMASK m and overlaps samples
first … first + len (R147). -/
def takenClash (m : Nat) (first : Int) (len : Nat) (t : Taken) : Bool :=
  !t.failed && sharesLane t.words m &&
    (match t.kerf, t.item with
      | some k, .play h _ => overlaps first (k + h * 1024) len (segLen (wordOf t.words 0))
      | _, _ => false)

/-- Whether a snapshot at DTIME t for voice u takes precedence over one at the same instant for voice v: the higher-numbered slot
fails (R147). -/
def State.slotBelow (s : State) (n u v : Nat) : Bool :=
  match s.slotOf n u, s.slotOf n v with
  | some p, some q => decide (p < q)
  | _, _ => true

/-- Whether another voice of channel n holds a PAT item that shares a lane with LMASK m, overlaps samples first … first + len, and was
snapshotted before DTIME at_, or at it in a lower-numbered slot (R147). -/
def State.patClash (s : State) (n v m at_ : Nat) (first : Int) (len : Nat) : Bool :=
  (s.voicesOf n).any fun u => u != v &&
    ((match (s.voice u).item with
      | some it => (it.kind == .play || it.kind == .target) && sharesLane it.words m && overlaps first it.first len it.len
      | none => false) ||
    (s.voice u).taken.any fun t => takenClash m first len t && (t.at_ != at_ || s.slotBelow n u v))

/-- The snapshots at DTIME at_ that the PAT item of voice v on channel n, in a lower-numbered slot, makes fail (R147). -/
def State.failClashes (s : State) (n v m at_ : Nat) (first : Int) (len : Nat) : State :=
  (s.voicesOf n).foldl (fun t u =>
    if u ≠ v ∧ (s.voice u).taken.any (fun k => takenClash m first len k && k.at_ == at_ && !s.slotBelow n u v) then
      (((t.modVoice u fun x => { x with
          taken := x.taken.map fun k => if takenClash m first len k then { k with failed := true, words := [], refs := [] } else k
          }).dropRefs (some u) (((s.voice u).taken.filter (takenClash m first len)).map (·.refs)).flatten).flag F.VOICE_STATUS_SEG_ERR u).bump
        F.VOICE_TROUBLE_SEG_ERR_CNT u
    else t) s

/-- The checks of a snapshot of entry seg for voice v on channel n, without the PAT rule (R85, R127). -/
def State.snapshotOk (s : State) (v n seg : Nat) (ws : List Word) (e : Ecc) : Bool :=
  !e.bad && !s.entryPoisoned v seg && issueChecks (s.entryCount v) seg (wordOf ws 0) &&
    ((unnamedOf (segMode (wordOf ws 0)) (bit (wordOf ws 2) 63)).all fun p => bits (wordOf ws p.1) p.2.1 p.2.2 == 0) &&
    s.modeChecks (s.chan n).grid ws && (!s.entryInDram ws || s.hasSlot v)

end Sys2Proof.Machine
end

