-- ==== Sys2Proof/Machine/Queue.lean ====
section
/-! DEFINITION. The descriptor queue (R36, R38, R39, R63 to R68, R94, R97, R98, R376): appending, taking at a window close,
committing, freeing and dropping. -/

namespace Sys2Proof.Machine

/-- PLAY and WAIT produce samples or hold the voice; every other descriptor takes no samples (R64). -/
def Desc.isItem : Desc → Bool
  | .play _ _ | .waitTrig _ | .waitEvent _ | .waitTime _ | .waitKerf _ => true
  | _ => false

/-- The descriptors a LOOP body may hold (R66). -/
def Desc.inBody : Desc → Bool
  | .play _ _ | .waitTrig _ | .waitEvent _ | .waitTime _ | .waitKerf _ | .setf _ | .setp _ _ | .rampf _ _
  | .mark _ _ _ _ | .trigo _ => true
  | _ => false

/-- TYPE, HI and LO fields of a descriptor (R97). -/
def Desc.hi : Desc → Nat
  | .play k g => 0x40 * 2 ^ 56 + k * 2 ^ 32 + g
  | .loop c l => 0x41 * 2 ^ 56 + c * 2 ^ 8 + l
  | .jump m d e n => 0x42 * 2 ^ 56 + m * 2 ^ 54 + d.toNat * 2 ^ 53 + e * 2 ^ 8 + n
  | .waitTrig l => 0x43 * 2 ^ 56 + l
  | .waitEvent c => 0x43 * 2 ^ 56 + 1 * 2 ^ 53 + c
  | .waitTime t => 0x43 * 2 ^ 56 + 2 * 2 ^ 53 + t / second
  | .waitKerf n => 0x43 * 2 ^ 56 + 3 * 2 ^ 53 + n
  | .setf _ => 0x48 * 2 ^ 56
  | .setp a p => 0x49 * 2 ^ 56 + a.toNat * 2 ^ 55 + p
  | .rampf n _ => 0x4A * 2 ^ 56 + n
  | .mark l m o w => 0x50 * 2 ^ 56 + l * 2 ^ 54 + m * 2 ^ 52 + o * 2 ^ 20 + w
  | .trigo l => 0x51 * 2 ^ 56 + l * 2 ^ 52
  | .bufFree h => 0x59 * 2 ^ 56 + h

def Desc.lo : Desc → Nat
  | .waitTime t => t % second
  | .setf f => f
  | .rampf _ st => st
  | _ => 0

/-- The two words of a queue slot as VOICE_Q reads them (R97): HI, then LO with COMMITTED, INPLAY, LOOPBODY and PASS. -/
def QEntry.word (q : QEntry) (hi : Bool) : Word :=
  if hi then BitVec.ofNat 64 q.desc.hi
  else BitVec.ofNat 64 (q.desc.lo + q.pass % 2 ^ 24 + q.committed.toNat * 2 ^ 63 + q.inplay.toNat * 2 ^ 62 +
    q.loopbody.toNat * 2 ^ 61)

/-- Whether position i of a queue lies in the body of some LOOP ahead of it (R97 LOOPBODY, R66). -/
def inSomeBody (q : List QEntry) (i : Nat) : Bool :=
  anyN i fun j => match q[j]? with
    | some { desc := .loop _ l, .. } => decide (i ≤ j + l)
    | _ => false

/-- How many descriptors of the last LOOP's body have still to be emitted (R66). -/
def VoiceSt.openBody (x : VoiceSt) : Nat :=
  ((List.range x.queue.length).map fun j => match x.queue[j]? with
    | some { desc := .loop _ l, .. } => j + 1 + l - x.queue.length
    | _ => 0).foldl max 0

/-- Append a descriptor at DTIME t. One that joins the body of a loop already committed is committed with it (R98), and INPLAY once the
loop runs (R376). -/
def VoiceSt.append (x : VoiceSt) (d : Desc) (t : Nat) (dram : Bool) (ws : List Word) : VoiceSt :=
  let i := x.queue.length
  let head := match x.loop with
    | some l => if l.at_ < i ∧ i ≤ l.at_ + l.len then x.queue[l.at_]? else none
    | none => none
  { x with queue := x.queue ++ [{ desc := d, written := t, committed := head.isSome, inplay := head.any (·.inplay),
                                  loopbody := inSomeBody x.queue i, kept := head.isSome, dram := dram, words := ws,
                                  wave := (head.map (·.wave)).getD 0 }] }

/-- Change the entries from position i on, n of them. -/
def mapRange (q : List QEntry) (i n : Nat) (g : QEntry → QEntry) : List QEntry :=
  q.take i ++ (q.drop i |>.take n).map g ++ q.drop (i + n)

/-! ### Taking (R94, R98) -/

/-- What taking found: zero-sample descriptors, then an item when the queue holds one, with the entry words read at its
issue and the passes its loop has completed when it begins. -/
structure Take where
  acts : List Desc
  item : Option Desc
  voice : VoiceSt
  issue : List Word := []
  pass : Option Nat := none
  deriving DecidableEq, Repr

/-- Take from the cursor on, entries for which ok holds only, for the kerf with w others before it. When no item is found, only the
running loop, whose last pass has ended, stays taken, and the zero-sample descriptors at the end of its body wait in tail. -/
def takeFrom (w : Nat) : Nat → (QEntry → Bool) → VoiceSt → List Desc → VoiceSt → Take
  | 0, _, _, _, back => ⟨[], none, back, [], none⟩
  | fuel + 1, ok, x, acts, back =>
    match x.loop with
    | some l =>
      if l.pos < l.len then
        match x.queue[l.at_ + 1 + l.pos]? with
        | some q =>
          if ok q then
            let x' := { x with loop := some { l with pos := l.pos + 1 } }
            if q.desc.isItem then ⟨acts, some q.desc, x', q.words, some l.pass⟩ else takeFrom w fuel ok x' (acts ++ [q.desc]) back
          else ⟨[], none, back, [], none⟩
        | none => ⟨[], none, back, [], none⟩
      else if l.pass + 1 < l.count then
        takeFrom w fuel ok { x with loop := some { l with pass := l.pass + 1, pos := 0 } } acts back
      else
        let x' := { x with loop := none, cur := l.at_ + 1 + l.len,
                           queue := mapRange x.queue l.at_ (l.len + 1) fun q => { q with kept := false, wave := w } }
        takeFrom w fuel ok x' acts (if back.loop.isSome then { x' with tail := x.tail ++ acts } else back)
    | none =>
      match x.queue[x.cur]? with
      | some q =>
        if ok q then
          match q.desc with
          | .loop c l =>
            let x' := { x with loop := some ⟨x.cur, c, l, 0, 0⟩,
                               queue := mapRange x.queue x.cur (l + 1) fun q =>
                                 { q with committed := true, kept := true, wave := w } }
            takeFrom w fuel ok x' acts back
          | d =>
            let x' := { x with cur := x.cur + 1,
                               queue := mapRange x.queue x.cur 1 fun q => { q with committed := true, wave := w } }
            if d.isItem then ⟨acts, some d, x', q.words, none⟩ else takeFrom w fuel ok x' (acts ++ [d]) back
        else ⟨[], none, back, [], none⟩
      | none => ⟨[], none, back, [], none⟩

/-- Steps enough to take from any queue: every pass of every loop once. -/
def VoiceSt.takeFuel (x : VoiceSt) : Nat :=
  (x.queue.map fun q => match q.desc with | .loop c l => c * (l + 2) + 2 | _ => 2).sum + 4

/-- Take the zero-sample descriptors before the next item, and that item, for the kerf with w others before it (R94). -/
def VoiceSt.take (x : VoiceSt) (w : Nat) (ok : QEntry → Bool) : Take := takeFrom w x.takeFuel ok x [] x

/-- Whether voice v plays descriptors of its queue that are not committed: in HALT and ARMED, and while its core is off or in INIT, it does
not (R43). -/
def State.playsQueue (s : State) (v : Nat) : Bool := decide (3 < s.f F.CORE_STATUS_STATE v)

/-! ### Freeing and dropping (R376) -/

/-- Descriptors in the queue: CORE_QUEUE.QFILL (R376). -/
def State.qfill (s : State) (v : Nat) : Nat := (s.voice v).queue.length

/-- QUEUE_LOW fires when the fill falls from QLOW to QLOW − 1 (R39). -/
def State.queueLow (s : State) (v before : Nat) : State :=
  let q := s.f F.CORE_QUEUE_QLOW v
  if q ≠ 0 ∧ q ≤ before ∧ s.qfill v < q then s.fireNow (9 * v + 5) else s

/-- Whether the next kerf frees an entry: taken for it, and not kept for a running loop. -/
def freed (q : QEntry) : Bool := q.committed && !q.kept && q.wave == 0

/-- Keep the entries that keep says, moving the cursor and the running loop with the entries they name. -/
def VoiceSt.keepOnly (x : VoiceSt) (keep : QEntry → Bool) : VoiceSt :=
  let gone := fun (i : Nat) => ((x.queue.take i).filter fun q => !keep q).length
  { x with queue := x.queue.filter keep, cur := x.cur - gone x.cur,
           loop := x.loop.map fun l => { l with at_ := l.at_ - gone l.at_ } }

/-- An entry after a kerf: a loop taken for it runs (R376), and what was taken for a later kerf comes one nearer. -/
def QEntry.pastKerf (q : QEntry) : QEntry :=
  { q with inplay := q.inplay || (q.kept && q.wave == 0), wave := q.wave - 1 }

/-- The head of the queue, when it is the loop that runs, shows the passes completed (R97). -/
def showPass (pass : Option Nat) : List QEntry → List QEntry
  | q :: r => (match q.desc, pass with
    | .loop _ _, some p => if q.inplay then { q with pass := p } else q
    | _, _ => q) :: r
  | [] => []

/-- The entries of the item that begins are freed (R376); a loop that runs shows INPLAY and its passes. -/
def State.freeTaken (s : State) (v : Nat) (pass : Option Nat) : State :=
  let n := s.qfill v
  (s.modVoice v fun x =>
    let y := x.keepOnly fun q => !freed q
    { y with queue := showPass pass (y.queue.map QEntry.pastKerf) }).queueLow v n

/-- The pass that ends when the item in play is cut or followed by a jump target: the one that the item taken next would have ended, or with
none taken the running loop's, when its body holds no further item (R97). -/
def VoiceSt.passEnds (x : VoiceSt) : Option Nat :=
  match x.taken, x.loop with
  | k :: _, _ => k.pass
  | [], some l =>
    if (((x.queue.drop (l.at_ + 1)).take l.len).drop l.pos).any (·.desc.isItem) then none else some (l.pass + 1)
  | [], none => none

/-- Handles of the BUF.FREE descriptors among entries that leave the queue (R126). -/
def freesOf (q : List QEntry) : List Nat := q.filterMap fun e => match e.desc with | .bufFree h => some h | _ => none

/-- Drop the queued descriptors for which gone holds; the holds BUF.FREE descriptors carry end at that instant (R126). -/
def State.dropQueue (s : State) (v : Nat) (gone : QEntry → Bool) : State :=
  let n := s.qfill v
  let hs := freesOf ((s.voice v).queue.filter gone)
  ((hs.foldl (fun t h => t.dropDesc h) (s.modVoice v fun x => x.keepOnly fun q => !gone q))).queueLow v n

/-! ### DRAM look-ahead (R109, R110) -/

/-- A DRAM grain that lies ahead of a voice: the entry words of its item, its number, and its first sample where that is known. -/
structure Ahead where
  words : List Word
  grain : Nat
  at_ : Option Int
  deriving DecidableEq, Repr

/-- The DRAM grains of an item of length len from grain from_ on, no more than the line buffer holds. -/
def aheadOf (ws : List Word) (len from_ : Nat) (first : Option Int) : List Ahead :=
  (List.range (if len = 0 then 8 else min 8 (grains len - from_))).map fun i =>
    ⟨ws, from_ + i, first.map fun (p : Int) => p + 512 * 1024 * (from_ + i : Nat)⟩

/-- The body of a loop as often as it has passes, and past the eighth an instant unknown; that many passes fill the line buffer when they
hold DRAM grains, and otherwise lie more than four grain periods long (R111). -/
def repeated (body : List QEntry) (n : Nat) : List (Option QEntry) :=
  (List.replicate (min n 8) (body.map some)).flatten ++ (if 8 < n then [none] else [])

/-- A queue in play order. -/
def playOrder : Nat → List QEntry → List (Option QEntry)
  | 0, _ => []
  | _ + 1, [] => []
  | fuel + 1, q :: r =>
    match q.desc with
    | .loop c l => repeated (r.take l) c ++ playOrder fuel (r.drop l)
    | _ => some q :: playOrder fuel r

/-- The descriptors that voice v has not taken, in play order: the rest of the running loop, then the rest of the queue. -/
def VoiceSt.order (x : VoiceSt) : List (Option QEntry) :=
  match x.loop with
  | some l =>
    let body := (x.queue.drop (l.at_ + 1)).take l.len
    (body.drop l.pos).map some ++ repeated body (l.count - 1 - l.pass) ++
      playOrder x.queue.length (x.queue.drop (l.at_ + 1 + l.len))
  | none => playOrder x.queue.length (x.queue.drop x.cur)

/-- The DRAM grains of descriptors in play order, the first of which takes its place at kerf k. A WAIT on anything but time leaves the
instants after it unknown. -/
def walkAhead (g : Grid) : List (Option QEntry) → Option Int → List Ahead
  | [], _ => []
  | none :: r, _ => walkAhead g r none
  | some q :: r, k =>
    match q.desc with
    | .play h _ =>
      let len := segLen (wordOf q.words 0)
      let first := k.map fun (p : Int) => p + h * 1024
      (if q.dram then aheadOf q.words len 0 first else []) ++
        walkAhead g r (if len = 0 then none else first.map fun (p : Int) => p + len * 1024)
    | .waitTime t => walkAhead g r (k.map (g.waitKerf t))
    | .waitTrig _ | .waitEvent _ | .waitKerf _ => walkAhead g r none
    | _ => walkAhead g r k

/-- What a window close took, as a descriptor: an idle grain stands for an item whose snapshot failed. -/
def State.asEntry (s : State) (t : Taken) : QEntry :=
  if t.failed then { desc := .play 0 0, written := 0, words := [BitVec.ofNat 64 (8 * 2 ^ 32)] }
  else { desc := t.item, written := 0, words := t.words, dram := s.entryInDram t.words }

/-- DRAM grains still to begin of the item in play. -/
def State.dramNow (s : State) (v : Nat) : List Ahead :=
  match (s.voice v).item with
  | some it => if (it.kind == .play || it.kind == .target) && s.entryInDram it.words then
      aheadOf it.words it.len it.next (some it.first) else []
  | none => []

/-- The DRAM grains that lie ahead of voice v in play order, as many as the line buffer can hold: of the item in play, of the items taken,
and of the queue, with every pass of a loop (R110). -/
def State.dramAhead (s : State) (v : Nat) : List Ahead :=
  let x := s.voice v
  let rest := if x.taken.any (fun t => s.entryInDram t.words) || x.queue.any (·.dram) then
      walkAhead (s.voiceGrid v) (x.taken.map (fun t => some (s.asEntry t)) ++ x.order) x.kerfAt
    else []
  (s.dramNow v ++ rest).take 8

/-- Whether an entry's region, handle, address or length differs from what was read at issue (R110). -/
def State.entryMoved (s : State) (issue ws : List Word) : Bool :=
  s.entryInDram issue != s.entryInDram ws || segLen (wordOf issue 0) != segLen (wordOf ws 0) ||
    wordOf issue 1 != wordOf ws 1 || (segMode (wordOf ws 0) == 2 && wordOf issue 2 != wordOf ws 2)

/-- The grains fetched beyond the item in play are discarded, and refill restarts from grain 0 of the next (R110). -/
def State.refetch (s : State) (v : Nat) : State :=
  s.modVoice v fun x => { x with slots := x.slots.take (s.dramNow v).length }

/-- Grains present in the line buffer and not begun: FILL (R109). -/
def VoiceSt.fill (x : VoiceSt) : Nat := (x.slots.filter fun l => match l with | .here _ _ => true | _ => false).length

/-- Grain fetches in flight: INFLIGHT (R109). -/
def VoiceSt.inflight (x : VoiceSt) : Nat := x.slots.count .flying

/-- Urgency of the request of voice v for the i-th DRAM grain ahead, a (R111). -/
def State.requestUrgency (s : State) (v i : Nat) (a : Ahead) : Nat :=
  let x := s.voice v
  if x.fill ≤ 1 ∨ i = 0 then 3
  else if x.fill < s.f F.REFILL_CTL_LWM v then 2
  else if (match a.at_ with
    | some p => !(s.voiceGrid v).before s.now (p - 4 * 512 * 1024)
    | none => false) then 1
  else 0

/-- Urgency of the most urgent request in flight of voice v: a grain's (R111), or 1 of a jump-table preload (R114). -/
def State.urgency (s : State) (v : Nat) : Nat :=
  let x := s.voice v
  let pre := anyN 16 fun e => (sget (fun _ => {}) x.jt e).loading && (sget (fun _ => {}) x.jt e).dram
  ((x.slots.zip (s.dramAhead v)).zipIdx.map fun p => if p.1.1 = .flying then s.requestUrgency v p.2 p.1.2 else 0).foldl max
    (if pre then 1 else 0)

/-- FILL, INFLIGHT and URG as REFILL_STAT reads them. -/
def State.showRefill (s : State) (v : Nat) : State :=
  let x := s.voice v
  ((s.setF F.REFILL_STAT_FILL x.fill v).setF F.REFILL_STAT_INFLIGHT x.inflight v).setF
    F.REFILL_STAT_URG (s.urgency v) v

/-- The line buffer gives up what lies beyond the play order, as after descriptors were dropped (R110), and shows what is left. -/
def State.trimSlots (s : State) (v : Nat) : State :=
  (s.modVoice v fun x => { x with slots := x.slots.take (s.dramAhead v).length }).showRefill v

/-! ### Cover (R142, R143) -/

/-- The PLAY that follows the item in play, when a window has taken it with a good snapshot and its kerf is known: its entry and its first
sample. -/
def State.nextPlay (s : State) (v : Nat) : Option (List Word × Int) :=
  match (s.voice v).taken.dropWhile fun t => match t.item with | .waitTime _ => true | _ => false with
  | t :: _ => match t.failed, t.item, t.kerf with
    | false, .play h _, some k => some (t.words, k + h * 1024)
    | _, _, _ => none
  | [] => none

/-- The run of voice samples of an item of length len that begins at position first, with no end when len is 0. -/
def runOf (first : Int) (len : Nat) : Int × Option Int := (first / 1024, if len = 0 then none else some (first / 1024 + len))

/-- The grid samples on which a REPLACE voice u's ITEM gate is known open: its item in play and the item its window took
(R142, R143), as runs of voice samples, none for an open end. -/
def State.openRuns (s : State) (u : Nat) : List (Int × Option Int) :=
  (match (s.voice u).item with
    | some it => if it.kind = .play ∨ it.kind = .target then [runOf it.first it.len] else []
    | none => []) ++
  (match s.nextPlay u with
    | some (ws, f) => [runOf f (segLen (wordOf ws 0))]
    | none => [])

/-- Whether runs cover the voice samples from a up to b, one run or two that join. -/
def coversRun (rs : List (Int × Option Int)) (a b : Int) : Bool :=
  rs.any fun r => decide (r.1 ≤ a) && (match r.2 with
    | none => true
    | some e => decide (b ≤ e) || rs.any fun q => decide (q.1 ≤ e) && decide (a < e) &&
        (match q.2 with | none => true | some f => decide (b ≤ f)))

/-- Whether slot p of channel n changes at a boundary no later than voice sample b. -/
def State.slotChanges (s : State) (n p : Nat) (b : Int) : Bool :=
  (s.chan n).held.any fun h => h.addr == Reg.CH_SLOT.addr n p && decide (h.boundary * 512 < b)

/-- Whether voice v on channel n is covered on the voice samples from a up to b (R143). -/
def State.coveredRun (s : State) (v n : Nat) (a b : Int) : Bool :=
  match s.slotOf n v with
  | none => false
  | some p => anyN p fun q =>
      let w := s.slotInForce n q
      let u := 16 * (n / 4) + bits w 11 8
      bit w 15 && bits w 5 4 == 1 && s.voiceChan u == some n &&
        (if bits w 1 0 = 1 then !s.slotChanges n q b
        else (s.voice u).armed.isNone && (s.voice u).pending.isNone && coversRun (s.openRuns u) a b)

/-! ### Refill (R109, R110, R143) -/

/-- Requests for the DRAM grains listed, in play order, while FILL plus those in flight is below HWM. A grain that is covered at its
request is skipped and counted; the test looks no further than the eighth grain (DESIGN CHOICE, log
entry 33). -/
def State.request (v : Nat) : List Ahead → State → State
  | [], s => s
  | a :: r, s =>
    let x := s.voice v
    if x.fill + x.inflight < s.f F.REFILL_CTL_HWM v then
      if (match s.voiceChan v, a.at_ with
          | some n, some p => s.coveredRun v n (p / 1024) (p / 1024 + grainLen (segLen (wordOf a.words 0)) a.grain)
          | _, _ => false) then
        State.request v r ((s.trouble .coverSkip).modVoice v fun x => { x with slots := x.slots ++ [.covered] })
      else State.request v r (s.modVoice v fun x => { x with slots := x.slots ++ [.flying] })
    else s

/-- The refill engine issues grain fetches for the DRAM grains that lie ahead (R109, R110). -/
def State.refill (s : State) (v : Nat) : State :=
  (State.request v ((s.dramAhead v).drop (s.voice v).slots.length) s).showRefill v

end Sys2Proof.Machine
end

