-- ==== Sys2Proof/Machine/Governor.lean ====
section
/-! DEFINITION. The Budget Governor (R302 to R307): the image header and cost table it reads, phase costs, reservations,
headroom, and the admission queues. -/

namespace Sys2Proof.Machine

/-- Change the Governor's own state. -/
def State.modGov (s : State) (g : GovSt → GovSt) : State := { s with power := { s.power with gov := g s.power.gov } }

/-! ### Header and cost table (R41, R42) -/

/-- Bits hi..lo of header word i of core k. -/
def State.hdr (s : State) (k i hi lo : Nat) : Nat := bits (s.rw .CORE_HDR k i).toNat hi lo

/-- CLASS: 0 RT, 1 STD, 2 BG. -/
def State.hdrClass (s : State) (k : Nat) : Nat := s.hdr k 1 1 0
def State.hdrDramv (s : State) (k : Nat) : Bool := s.hdr k 1 2 2 == 1
def State.hdrEntry (s : State) (k : Nat) : Nat := s.hdr k 1 63 32
def State.textLen (s : State) (k : Nat) : Nat := s.hdr k 2 63 32
def State.dataLen (s : State) (k : Nat) : Nat := s.hdr k 3 63 32
def State.costCount (s : State) (k : Nat) : Nat := s.hdr k 4 47 32

/-- Bits hi..lo of word i of cost-table entry p. -/
def State.costBits (s : State) (k p i hi lo : Nat) : Nat := bits (s.rw .CORE_COST k (4 * p + i)).toNat hi lo
/-- DRAM_BW of phase p, in MB/s. -/
def State.phaseDram (s : State) (k p : Nat) : Nat := s.costBits k p 1 63 32
/-- DRAMV of phase p. -/
def State.phaseDramv (s : State) (k p : Nat) : Bool := s.costBits k p 2 7 0 != 0

/-- Cost of phase p in mW, rounded up (R303). -/
def State.phaseCost (s : State) (k p : Nat) : Nat :=
  let core := s.f F.BG_COEF_K_CORE * s.costBits k p 0 15 0
  let rest := s.f F.BG_COEF_K_VR * s.costBits k p 0 63 32 + s.f F.BG_COEF_K_SR * s.costBits k p 1 31 0 +
    s.f F.BG_COEF_K_DR * s.phaseDram k p
  (core * 1000 + rest * 65536 + 65535999) / 65536000

/-- The largest value of a function over the phases of core k. -/
def State.phaseMax (s : State) (k : Nat) (g : Nat → Nat) : Nat := ((List.range (s.costCount k)).map g).foldl max 0

/-! ### Reservations (R46, R304) -/

/-- SC1 runs the Governor (R307). -/
def State.governs (s : State) : Bool := s.boot.running

/-- Σ RESV_MW of the cores of a list. -/
def State.sumResv (s : State) (l : List Nat) : Nat := (l.map fun k => s.f F.CORE_BUDGET_RESV_MW k).sum

/-- Sustained DRAM throughput of the set-point in force, in MB/s (R19). -/
def State.sustained (s : State) : Nat := if s.f F.MEM_STATUS_FREQ_ACT = 0 then 150000 else 112500

/-- What an ARM of RT core k reserves: the largest cost and the largest DRAM bandwidth of its phases, and a DRAM slot if one names it
(R46). -/
def State.resvOf (s : State) (k : Nat) : Resv :=
  ⟨s.phaseMax k (s.phaseCost k), s.phaseMax k (s.phaseDram k), anyN (s.costCount k) fun p => s.phaseDramv k p⟩

/-- The RT reservations held, by core. -/
def State.reserved (s : State) : List (Nat × Resv) :=
  (List.range 64).filterMap fun k => (s.core k).resv.map fun r => (k, r)

/-- Whether the reservation of RT core k fits beside those that the other cores hold (R304). -/
def State.rtFits (s : State) (k : Nat) : Bool :=
  let rt := s.reserved.filter (·.1 != k) ++ [(k, s.resvOf k)]
  decide ((rt.map (·.2.mw)).sum * 100 ≤ s.f F.BG_CFG_RT_CAP * s.f F.BG_CFG_PWR_LIMIT_MW) &&
    decide ((rt.map (·.2.dramBw)).sum ≤ s.sustained) &&
    decide (((List.range 64).filter fun v => bit (s.f F.DRAM_BACKED_VOICES) v || rt.any fun p => p.1 == v && p.2.dramv).length ≤ 16)

/-- Record what a core holds: ADMIT and RESV_MW. -/
def State.setAdmit (s : State) (k how mw : Nat) : State :=
  (s.setF F.CORE_BUDGET_ADMIT how k).setF F.CORE_BUDGET_RESV_MW mw k

/-- A request leaves its queue, the admission held before it standing. -/
def State.withdraw (s : State) (k : Nat) : State :=
  s.modGov fun g => { g with std := g.std.erase k, bg := g.bg.erase (.core k) }

/-- An admission of core k ends, and its request leaves its queue; an RT reservation that it holds stays (R44, R46). -/
def State.unadmit (s : State) (k : Nat) : State :=
  match (s.core k).resv with
  | some r => (s.setAdmit k 1 r.mw).withdraw k
  | none => (s.setAdmit k 0 0).withdraw k

/-- A reservation or an admission of core k is released, and its request leaves its queue. -/
def State.release (s : State) (k : Nat) : State :=
  ((s.setAdmit k 0 0).withdraw k).modCore k fun c => { c with resv := none }

/-! ### Headroom (R302) -/

/-- 10 ms in DTIME units. -/
def ms10 : Nat := second / 100

/-- The hottest sensor, in 1/16 °C. -/
def State.hottest (s : State) : Int :=
  ((List.range 8).map fun i => signed 16 (s.f F.BG_TEMP_T i)).foldl max (-32768)

/-- T_MAX as it reads, in whole °C rounded up. -/
def State.tMax (s : State) : Int := ceilDiv s.hottest 16

/-- H in mW (R302); a fraction of a milliwatt of H_T is dropped. -/
def State.headroom (s : State) : Int :=
  let unused := (s.reserved.map fun p => (p.2.mw - s.phaseCost p.1 (s.f F.CORE_BUDGET_PHASE p.1) : Int)).sum
  let lately := ((s.power.gov.recent.filter fun p => decide (s.now ≤ p.1 + ms10)).map (·.2)).sum
  let hp : Int := (s.f F.BG_CFG_PWR_LIMIT_MW : Int) - s.f F.BG_STATUS_P_MEAS_MW - unused - lately
  if s.f F.BG_CFG_THETA = 0 then hp
  else min hp ((16 * s.f F.BG_CFG_TJ_LIMIT - s.hottest) * 1000000 / (16 * s.f F.BG_CFG_THETA))

/-- MARGIN in mW. -/
def State.margin (s : State) : Int := s.f F.BG_CFG_MARGIN * 10

/-- H as BG_STATUS reports it: 16 bits, signed, saturating. -/
def satHeadroom (h : Int) : Nat := wrap 16 (max (-32767) (min 32767 h))

/-- An evaluation finds H below 0, from 0 up to MARGIN, or above; the 1 ms or the 100 ms of R306 count from the first such one in a
row. -/
def State.levelH (s : State) : State :=
  let now := if s.headroom < 0 then 1 else if s.margin ≤ s.headroom then 2 else 0
  if s.power.gov.level = now then s
  else s.modGov fun g => { g with level := now, due := s.now + if now = 1 then second / 1000 else second / 10 }

/-- The model evaluated over the power and the temperatures last reported (R302). -/
def State.weigh (s : State) : State :=
  let t := s.setF F.BG_STATUS_T_MAX (wrap 8 (max (-128) (min 127 s.tMax)))
  (t.setF F.BG_STATUS_HEADROOM (satHeadroom t.headroom)).levelH

/-- The evaluation at an admission request, while SC1 runs (R302, R307): at its arrival, and when it is granted (the second DEDUCED, log
entry 82). -/
def State.weighRequest (s : State) : State := if s.governs then s.weigh else s

/-! ### Throttling (R50, R306) -/

/-- A core that TRIM throttles: of class STD or BG. -/
def State.throttleable (s : State) (k : Nat) : Bool := s.f F.CORE_BUDGET_CLASS k == 1 || s.f F.CORE_BUDGET_CLASS k == 2

/-- Core k runs with divider d; THROTTLED tells one above 1. -/
def State.setDiv (s : State) (k d : Nat) : State :=
  (s.setF F.CORE_BUDGET_THR_DIV d k).setB F.CORE_STATUS_THROTTLED (decide (1 < d)) k

/-- The divider for an STD or BG core that arms now: outside TRIM 1, and in TRIM that of the slowest other such core, at least what a
hardware guard or a host TRIM sets (DEDUCED, log entry 73). -/
def State.divNow (s : State) (k : Nat) : Nat :=
  if s.f F.PWR_STATUS_STATE ≠ 1 then 1
  else (((List.range 64).filter fun u => u != k && s.throttleable u).map fun u => s.f F.CORE_BUDGET_THR_DIV u).foldl max
    (if s.on F.BG_STATUS_HW_GUARD then 255 else if s.on F.PWR_STATUS_HOST_TRIM then s.f F.BG_CFG_TRIM_DIV else 1)

/-- A core that arms takes the divider of its class; an RT core is never throttled (R50). -/
def State.armDiv (s : State) (k : Nat) : State := s.setDiv k (if s.throttleable k then s.divNow k else 1)

/-! ### Admission (R305) -/

/-- Whether any request may be granted now (R305, R307). -/
def State.admits (s : State) : Bool :=
  s.governs && !s.on F.PWR_STATUS_GOV_TRIM && !s.on F.PWR_STATUS_HOST_TRIM && !s.on F.PWR_STATUS_BO_ACTIVE

/-- The phase a waiting core asks for: the one BUDGET names, else the current one (R48, R49). -/
def State.askedPhase (s : State) (k : Nat) : Nat :=
  if s.f F.CORE_STATUS_STATE k = 8 then (s.core k).phase else s.f F.CORE_BUDGET_PHASE k

/-- Cost of a request in mW (R303, R305). -/
def State.taskCost (s : State) : BgTask → Nat
  | .core k => s.phaseCost k (s.askedPhase k)
  | .cal _ => 150
  | .scrub => 60
  | .train k => 400 * k

/-- Whether core k heads its queue and its request fits. -/
def State.grantable (s : State) (k : Nat) : Bool :=
  let g := s.power.gov
  s.admits &&
    (if g.std.head? = some k then decide ((s.taskCost (.core k) : Int) ≤ s.headroom - s.margin)
     else g.std.isEmpty && g.bg.head? == some (.core k) && decide ((s.taskCost (.core k) : Int) ≤ s.headroom - 2 * s.margin))

/-- Whether a hardware task heads the BG queue and fits. -/
def State.taskGrantable (s : State) (t : BgTask) : Bool :=
  let g := s.power.gov
  s.admits && g.std.isEmpty && g.bg.head? == some t && decide ((s.taskCost t : Int) ≤ s.headroom - 2 * s.margin)

/-- A cost is admitted now: it counts in H for 10 ms. -/
def State.admitCost (s : State) (mw : Nat) : State :=
  s.modGov fun g => { g with recent := (g.recent.filter fun p => decide (s.now ≤ p.1 + ms10)) ++ [(s.now, mw)] }

/-- A request joins its queue once, and the model is evaluated. -/
def State.enqueue (s : State) (k : Nat) : State :=
  (s.modGov fun g =>
    if s.f F.CORE_BUDGET_CLASS k = 2 then { g with bg := if g.bg.contains (.core k) then g.bg else g.bg ++ [.core k] }
    else { g with std := if g.std.contains k then g.std else g.std ++ [k] }).weighRequest

/-- A hardware task joins the BG queue once, and the model is evaluated. -/
def State.enqueueTask (s : State) (t : BgTask) : State :=
  (s.modGov fun g => { g with bg := if g.bg.contains t then g.bg else g.bg ++ [t] }).weighRequest

/-- A hardware task is admitted. -/
def State.startTask (s : State) (t : BgTask) : State :=
  (s.weighRequest.admitCost (s.taskCost t)).modGov fun g => { g with bg := g.bg.erase t, tasks := g.tasks ++ [t] }

/-- A hardware task ends. -/
def State.endTask (s : State) (t : BgTask) : State :=
  s.modGov fun g => { g with tasks := g.tasks.erase t, bg := g.bg.erase t }

/-! ### What BG_RESV reads (R309) -/

/-- Whether core k holds an STD or BG admission: ADMIT tells, and in BWAIT, where ADMIT tells of the request, it holds that of its
current phase (R49). -/
def State.holdsAdmission (s : State) (k : Nat) : Bool :=
  s.f F.CORE_BUDGET_ADMIT k == 2 || s.f F.CORE_BUDGET_ADMIT k == 3 && s.f F.CORE_STATUS_STATE k == 8

/-- Σ RESV_MW of the admitted programs of class c. -/
def State.admittedMw (s : State) (c : Nat) : Nat :=
  s.sumResv ((List.range 64).filter fun k => s.holdsAdmission k && s.f F.CORE_BUDGET_CLASS k == c)

/-- BG_RESV as it reads. -/
def State.bgResv (s : State) : Nat :=
  let rt := (s.reserved.map (·.2.mw)).sum
  let std := s.admittedMw 1
  let bg := s.admittedMw 2 +
    (s.power.gov.tasks.map s.taskCost).sum
  min rt 65535 * 2 ^ 48 + min std 65535 * 2 ^ 32 + min bg 65535 * 2 ^ 16

/-- Requests that wait: BG_STATUS.WAITING. -/
def State.waitingCount (s : State) : Nat := s.power.gov.std.length + s.power.gov.bg.length

end Sys2Proof.Machine
end

