-- ==== Sys2Proof/Machine/Ring.lean ====
section
/-! DEFINITION. Stream bindings and their rings (R116 to R122): packets, slots, placement on a voice's timeline, and enabling a
binding. Positions here are whole voice samples from the channel's epoch. -/

namespace Sys2Proof.Machine

def State.binding (s : State) (b : Nat) : BindingSt := sget (fun _ => {}) s.bindings b
def State.modBinding (s : State) (b : Nat) (g : BindingSt → BindingSt) : State :=
  { s with bindings := sput (fun _ => {}) s.bindings b (g (s.binding b)) }

/-! ### The ring (R116 to R118) -/

/-- NSAMP of a binding: PKT64 × 64. -/
def State.stmSamples (s : State) (b : Nat) : Nat := s.f F.STM_CFG_PKT64 b * 64

/-- Bytes of one sample of a binding. -/
def State.stmBytes (s : State) (b : Nat) : Nat := if s.on F.STM_CFG_CPLX b then 4 else 2

/-- Bytes of a slot: header and payload rounded up to 64 (R118). -/
def State.slotBytes (s : State) (b : Nat) : Nat := (32 + s.stmSamples b * s.stmBytes b + 63) / 64 * 64

/-- Whether the ring lies in DRAM. -/
def State.ringDram (s : State) (b : Nat) : Bool := bit (s.f F.STM_RING_HANDLE b) 23

/-- Byte address of the slot of SEQ q (R118). -/
def State.slotAddr (s : State) (b q : Nat) : Nat :=
  s.bufferBase (s.f F.STM_RING_HANDLE b) + q % max 1 (s.f F.STM_RING_NSLOT b) * s.slotBytes b

/-- Voice samples by which a block's check instant precedes the block (R119). -/
def State.stmLead (s : State) (b : Nat) : Nat := if s.ringDram b then 1024 else 256

/-- SEQ a minus SEQ b, modulo 2^32, as a signed number. -/
def seqDiff (a b : Nat) : Int := signed 32 (a + 2 ^ 32 - b % 2 ^ 32)

/-- The packet of SEQ q that the ring holds. -/
def State.packet (s : State) (b q : Nat) : Option Packet := (s.binding b).packets.find? fun p => p.seq == q % 2 ^ 32

/-- The packet that occupies the slot of SEQ q. -/
def State.slotHolder (s : State) (b q : Nat) : Option Packet :=
  let n := max 1 (s.f F.STM_RING_NSLOT b)
  (s.binding b).packets.find? fun p => p.seq % n == q % n

/-! ### Enabling (R116, R127, R270) -/

/-- Whether one packet fits a datagram of port p (R270). -/
def State.fitsDatagram (s : State) (p len : Nat) : Bool :=
  (!s.on F.ETH_CFG_IP4_EN (p - 1) || decide (len + 28 ≤ s.f F.ETH_CFG_MTU (p - 1))) &&
    (!s.on F.ETH_CFG_IP6_EN (p - 1) || decide (len + 48 ≤ s.f F.ETH_CFG_MTU (p - 1)))

/-- Whether source, PKT64, ring handle and ring size of binding b are legal. -/
def State.stmLegal (s : State) (b : Nat) : Bool :=
  let src := s.f F.STM_CFG_SRC b
  let pk := s.f F.STM_CFG_PKT64 b
  let h := s.f F.STM_RING_HANDLE b
  let n := s.f F.STM_RING_NSLOT b
  decide (1 ≤ src ∧ src ≤ 6) && decide (1 ≤ pk ∧ pk ≤ 64) && s.f F.STM_CFG_POLICY b != 3 && s.liveHandle h &&
    decide (2 ≤ n ∧ n ≤ 4096) && decide (n * s.slotBytes b ≤ s.bufferSize h) &&
    (if 2 ≤ src ∧ src ≤ 5 then
      s.on F.STM_CFG_UDP_PORT b && s.fitsDatagram (src - 1) (32 + s.stmSamples b * s.stmBytes b)
    else true)

/-- A passing write of 1 to STM_CFG.EN in a disabled binding, the other fields already stored: it is enabled with an empty
ring, or the enable is ignored with CFG_ERR (R116, R127). The ring is referenced while enabled (R124). -/
def State.enableStream (s : State) (b : Nat) : State :=
  if s.stmLegal b then
    ((s.flag F.STM_CFG_EN b).modBinding b fun _ => {}).addRef (s.f F.STM_RING_HANDLE b)
  else s.flag F.STM_STAT_CFG_ERR b

/-- A passing write of 0 to STM_CFG.EN in an enabled binding: its reference ends at once (R124, R125). -/
def State.disableStream (s : State) (b : Nat) : State := (s.clr F.STM_CFG_EN b).dropRef none (s.f F.STM_RING_HANDLE b)

/-! ### Placement (R119, R120) -/

/-- The binding an item plays. -/
def Item.binding (it : Item) : Option Nat :=
  if (it.kind = .play ∨ it.kind = .target) ∧ segMode (wordOf it.words 0) = 1 then some (bits (wordOf it.words 0) 5 0) else none

/-- The voice sample nearest to PTIME, a tie going later (R119). -/
def Grid.ptime (g : Grid) (t : Nat) : Int := roundDiv (((t : Int) - g.epoch) * g.vden) g.vnum

/-- How many leading blocks of a packet that begins at voice sample p are checked at or before DTIME a. -/
def Grid.pastBlocks (g : Grid) (lead : Nat) (p : Int) (a : Nat) : Int :=
  max 0 (ceilDiv (((a : Int) - g.epoch) * g.vden / g.vnum + 1 + lead - p) 64)

/-- Samples of a packet that begins at p whose check instants have passed at its arrival, from voice sample lo on. -/
def Grid.pastSamples (g : Grid) (lead : Nat) (p lo : Int) (n a : Nat) : Nat :=
  (min (p + n) (p + 64 * g.pastBlocks lead p a) - max p lo).toNat

/-- Discarded samples are counted (R120). -/
def State.shave (s : State) (b n : Nat) : State := (s.bumpBy F.STM_CNT_SHAV n b).troubleBy .shavings n

def State.modStream (s : State) (v : Nat) (g : StreamPlay → StreamPlay) : State :=
  s.modVoice v fun x => { x with stream := g x.stream }

/-- A placement joins a voice's stream: its first block that can still be checked is the next to check, if that is earlier. -/
def StreamPlay.push (x : StreamPlay) (pl : Placement) : StreamPlay :=
  { x with placed := pl :: x.placed, ended := false,
           block := some (match x.block with | some b => min b pl.first | none => pl.first) }

/-- Packet pk is placed by its PTIME in item it of voice v on grid g (R119, R120). A START packet ends the binding's slip (R122). -/
def State.placeByTime (s : State) (v b : Nat) (g : Grid) (it : Item) (pk : Packet) : State :=
  let lo := it.first / 1024
  let lead := s.stmLead b
  let p := g.ptime pk.ptime
  let first := max (p + 64 * g.pastBlocks lead p pk.arrived) (p + 64 * ((lo - p) / 64))
  let s := s.shave b (g.pastSamples lead p lo pk.nsamp pk.arrived)
  let s := if pk.start then s.modBinding b fun y => { y with slip := 0 } else s
  ((s.modStream v fun x => x.push ⟨pk.seq, p, first⟩).setF F.STM_STAT_NEXT_SEQ (pk.seq + 1) b).setF F.STM_STAT_STATE 2 b

/-- The packets of a ring that can still play in an item from voice sample lo on, by SEQ order of arrival. -/
def State.playable (s : State) (b : Nat) (g : Grid) (lo : Int) : List Packet :=
  (s.binding b).packets.filter fun p =>
    let at_ := g.ptime p.ptime
    decide (lo < at_ + p.nsamp) && decide (64 * g.pastBlocks (s.stmLead b) at_ p.arrived < p.nsamp)

/-- A STRM item begins in WAITSYNC, and what the ring already holds for it is placed: the lowest SEQ by its PTIME, and every
START packet (R120). -/
def State.openStream (s : State) (v : Nat) (g : Grid) (it : Item) : State :=
  match it.binding with
  | none => s
  | some b =>
    let s := (s.modStream v fun _ => {}).setF F.STM_STAT_STATE 1 b
    let ps := s.playable b g (it.first / 1024)
    match ps.foldl (fun m p => match m with
        | none => some p
        | some q => if seqDiff p.seq q.seq < 0 then some p else some q) none with
    | none => s
    | some p => (ps.filter fun q => q.start && decide (0 < seqDiff q.seq p.seq)).foldl
        (fun t q => t.placeByTime v b g it q) (s.placeByTime v b g it p)

/-- A voice's STRM item ends: its binding reads CLOSED when no other voice plays it. -/
def State.closeStream (s : State) (v : Nat) : State :=
  match (s.voice v).item with
  | some it =>
    match it.binding with
    | some b =>
      if anyN 64 fun u => u != v && (match (s.voice u).item with | some i => i.binding == some b | none => false) then s
      else s.clr F.STM_STAT_STATE b
    | none => s
  | none => s

end Sys2Proof.Machine
end

