-- ==== Sys2Proof/Machine/Voice.lean ====
section
/-! DEFINITION. Voices (chapter 04): items, window closes, kerfs, grains, waits and jumps. Positions are counted in 1/1024
voice samples from the channel's epoch (R80). -/

namespace Sys2Proof.Machine

/-! ### Where things lie -/

/-- End of an item (R78); none for a WAIT hold and for an unbounded STRM item. -/
def Item.stop (it : Item) : Option Int :=
  if it.kind = .wait ∨ it.len = 0 then none else some (it.first + it.len * 1024)

/-- Where the window for an item's end closes (R94, R96): the first sample of its final grain; for a WAIT TIME, 512 samples
before T; none where a release decides. -/
def Item.closes (g : Grid) (it : Item) : Option Int :=
  match it.kind, it.cond with
  | .wait, some (.waitTime t) => some (g.place t - 512 * 1024)
  | .wait, _ => none
  | _, _ => if it.len = 0 then none else some (it.first + 512 * 1024 * (grains it.len - 1 : Nat))

/-- The kerf that ends an item, where it is known before any release (R78, R99). -/
def Item.nextKerf (g : Grid) (it : Item) : Option Int :=
  match it.kind, it.cond with
  | .wait, some (.waitTime t) => some (g.waitKerf t it.start)
  | _, _ => it.stop

/-- The kerf instants of what a window close took, the first of which begins at k. -/
def rekerf (g : Grid) : Option Int → List Taken → List Taken
  | _, [] => []
  | k, t :: r => { t with kerf := k } :: rekerf g (match t.item with | .waitTime u => k.map (g.waitKerf u) | _ => none) r

/-- Voice v's next kerf falls at position k. -/
def State.setKerf (s : State) (v : Nat) (k : Int) : State :=
  s.modVoice v fun x => { x with kerfAt := some k, taken := rekerf (s.voiceGrid v) (some k) x.taken }

/-- Position of the instant ref plus tenths / 10 ns, rounded to the nearest 1/1024 sample, a tie going later (R80, R99). -/
def Grid.placeRef (g : Grid) (ref tenths : Nat) : Int :=
  roundDiv (((((ref : Int) - g.epoch) * 10000000000) + tenths * second) * 1024 * g.vden) (10000000000 * g.vnum)

/-- Whether voice v drives a running channel (R81). -/
def State.voiceRuns (s : State) (v : Nat) : Bool :=
  match s.voiceChan v with
  | some n => s.on F.CH_STATUS_RUN n
  | none => false

/-- DTIME of a position on voice v's timeline. -/
def State.posTime (s : State) (v : Nat) (p : Int) : Nat := ((s.voiceGrid v).placeAt p).toNat

/-- ITEM code of an item in play (R108). -/
def itemCode : ItemKind → Nat
  | .play => 1 | .wait => 2 | .idle => 3 | .target => 4

/-- Show the item in play in VOICE_STATUS (R108). The release of a WAIT sets VOFF (R80). MODE keeps its last value during a WAIT hold and an
idle grain, and MODE, SEG and VOFF keep theirs while there is no item (DESIGN CHOICE, log entry 72). -/
def State.showVoice (s : State) (v : Nat) : State :=
  match (s.voice v).item with
  | none => s.setF F.VOICE_STATUS_ITEM 0 v
  | some it =>
    let at_ := if it.kind = .wait then (s.voice v).kerfAt.getD it.first else it.first
    let t := (s.setF F.VOICE_STATUS_ITEM (itemCode it.kind) v).setF F.VOICE_STATUS_VOFF (at_ % 1024).toNat v
    if it.kind = .play ∨ it.kind = .target then
      (t.setF F.VOICE_STATUS_SEG it.seg v).setF F.VOICE_STATUS_MODE (segMode (wordOf it.words 0)) v
    else t.setF F.VOICE_STATUS_SEG 0xFFFF v

/-! ### The first sample of an item (R64, R69, R70, R71, R107) -/

/-- A carried descriptor acts from the first sample, at position p, of a PLAY of voice v on channel n; a MARK was scheduled
at that PLAY's kerf. -/
def State.actAt (s : State) (v n : Nat) (p : Int) (d : Desc) : State :=
  match d with
  | .setf f => s.modVoice v fun x => { x with fw := f, ramping := false }
  | .setp _ _ => s.modVoice v fun x => { x with setps := x.setps ++ [d] }
  | .trigo l => s.trigoAt l n p (s.skew n)
  | _ => s

/-- RAMPFs act after every SETF of the same sample, a later one replacing an earlier (R69 step 2). -/
def State.rampAt (s : State) (v : Nat) (d : Desc) : State :=
  match d with
  | .rampf k st => s.modVoice v fun x =>
      { x with ramping := true, rampStep := st, rampLeft := if k = 0 then none else some k }
  | _ => s

/-- The first sample of a PLAY or a jump target: SEGSTART fires, a target fires JUMPED, and for a PLAY the carried
descriptors act (R64, R107). -/
def State.firstSample (s : State) (v n : Nat) (it : Item) : State :=
  let t := (s.chan n).grid.placeAt it.first
  let s := s.fire (9 * v) t.toNat
  if it.kind = .target then s.fire (9 * v + 2) t.toNat
  else
    let acts := (s.voice v).carry
    let s := acts.foldl (fun u d => u.actAt v n it.first d) s
    (acts.foldl (fun u d => u.rampAt v d) s).modVoice v fun x => { x with carry := [] }

/-- GMATCH fires when the voice begins grain GM_GRAIN of an item whose segment index is GM_SEG, 0xFFFF matching any (R107). -/
def State.gmatch (s : State) (v : Nat) (it : Item) (j : Nat) (t : Nat) : State :=
  if s.on F.VOICE_CTL_GM_EN v && s.f F.VOICE_CTL_GM_GRAIN v == j &&
      (s.f F.VOICE_CTL_GM_SEG v == it.seg || s.f F.VOICE_CTL_GM_SEG v == 0xFFFF) then s.fire (9 * v + 1) t else s

/-! ### Grains (R93, R112, R115, R144, R249) -/

/-- Missing samples of voice v from position p on, n of them. The first missing sample of an episode counts UNDERRUN and fires, and the
channel's underrun condition begins at its DAC sample (R115). A run that goes on without a present sample between is one
episode, in which only the missing blocks count. A run counts n / 64 blocks and its remainder none (DESIGN CHOICE, log entry 72). -/
def State.missSamples (s : State) (v : Nat) (p : Int) (n : Nat) : State :=
  let s := s.bumpBy F.REFILL_STAT_MISS_BLK (n / 64) v
  let d := (s.voiceGrid v).dacOfPlace p
  let fresh (u : State) : State :=
    (((u.bump F.REFILL_STAT_UNDERRUN v).trouble .underrun).fire (9 * v + 3) (s.posTime v p)).modVoice v fun y =>
      { y with misses := (d, none) :: y.misses }
  match (s.voice v).misses with
  | (_, none) :: _ => s
  | (a, some b) :: more => if b = d then s.modVoice v fun y => { y with misses := (a, none) :: more } else fresh s
  | [] => fresh s

/-- The next present sample, which DAC sample d shows first, ends an episode (R115). -/
def State.presentSamples (s : State) (v : Nat) (d : Int) : State :=
  match (s.voice v).misses with
  | (a, none) :: more => s.modVoice v fun y => { y with misses := (a, some d) :: more }
  | _ => s

/-- The same for samples that are present from position p on. -/
def State.presentAt (s : State) (v : Nat) (p : Int) : State := s.presentSamples v ((s.voiceGrid v).dacOfPlace p)

/-- The data of grain j of the item in play are c. -/
def State.keepLine (s : State) (v j : Nat) (c : Copy) : State :=
  s.modVoice v fun x => { x with lines := (0, j, c) :: x.lines.filter fun p => p.1 != 0 || (p.2.1 != j && decide (j ≤ p.2.1 + 1)) }

/-- What the fetch of grain j of the item in play has read: each line at the first or the last instant that R95 allows, at which memory holds
what first and copyOf say (DESIGN CHOICE, log entry 72: R95 leaves a write between the two open). -/
def State.settleLine (s : State) (v j : Nat) (spans : List Span) (first : Option Copy) : State :=
  let last := s.copyOf spans
  match first with
  | some c => if c = last then s.keepLine v j c else s.drawn.keepLine v j (c.mix last (Config.readLate s.choice))
  | none => s.keepLine v j last

/-- Whether grain j of the item in play comes from the jump buffer: a jump target's first grain was read by its preload, and plays as it was
read (R101, R104). -/
def VoiceSt.preloaded (x : VoiceSt) (j : Nat) : Bool := j == 0 && x.item.any fun it => it.kind == .target

/-- Late lines are counted; the samples due before they arrive are known from then on (R249). -/
def State.lateLines (s : State) (v : Nat) (late : List LateLine) : State :=
  if late.isEmpty then s
  else ((s.bumpBy F.MEM_SRAM_STAT_LATE_LINE late.length).setF F.MEM_SRAM_STAT_LAST_V v).modVoice v fun x => { x with late := late }

/-- A grain of a DRAM item that is due and absent is missing; a request for it is withdrawn (R112). -/
def State.missGrain (s : State) (v j len : Nat) (p : Int) : State :=
  (s.modVoice v fun y => { y with absent := j :: y.absent }).missSamples v p len

/-- A grain of a DRAM item begins: it plays when it arrived in an earlier core cycle than its first sample, and is otherwise missing
(R112). One that was covered at its request stays so (R143). Refill then goes on (R109). -/
def State.dramGrain (s : State) (v j len : Nat) (p : Int) (spans : List Span) : State :=
  let due := coreCycleOf (s.posTime v p)
  let drop (u : State) : State := u.modVoice v fun y => { y with slots := y.slots.drop 1 }
  match (s.voice v).slots with
  | .covered :: _ => ((drop s).modVoice v fun y => { y with covered := j :: y.covered }).refill v
  | .here t0 c :: _ =>
    if (s.voice v).preloaded j then (((drop s).keepLine v j c).presentAt v p).refill v
    else if coreCycleOf t0 < due then (((drop s).settleLine v j spans (some c)).presentAt v p).refill v
    else (((drop s).bump F.REFILL_STAT_WITHDRAWN v).missGrain v j len p).refill v
  | .flying :: _ => (((drop s).bump F.REFILL_STAT_WITHDRAWN v).missGrain v j len p).refill v
  | [] => (s.missGrain v j len p).refill v

/-- The data of grain j of item it are due, at DTIME t: a covered grain needs none, a stream comes block by block, a DRAM grain meets its
deadline, and SRAM lines are read, those that are late being counted (R93, R112, R143, R249). -/
def State.grainData (s : State) (v n j : Nat) (it : Item) (late : List LateLine) : State :=
  let ws := it.words
  let p := it.first + 512 * 1024 * j
  let spans := s.grainSpans ws it.len j
  if segMode (wordOf ws 0) = 1 then
    let s := if j = 0 then s.openStream v (s.chan n).grid it else s
    if s.entryInDram ws then (s.modVoice v fun x =>
      { x with slots := x.slots.drop 1, covered := if x.slots.head? = some .covered then j :: x.covered else x.covered }).refill v
    else if (s.voice v).covered.contains j then s else s.lateLines v late
  else if s.entryInDram ws then (s.dramGrain v j (grainLen it.len j) p spans).lateLines v (if spans.any (!·.1) then late else [])
  else if (s.voice v).covered.contains j ∧ segMode (wordOf ws 0) ≠ 5 then s
  else
    let s := s.presentAt v p
    if spans.isEmpty then s
    else if (s.voice v).preloaded j then s.lateLines v late
    else (s.settleLine v j spans ((s.voice v).lineOf j)).lateLines v late

/-- The grain that begins next begins (R93): the first sample's producers for grain 0, GMATCH, and its data. late: the lines of it that
arrive late. -/
def State.beginGrain (s : State) (v n : Nat) (late : List LateLine) : State :=
  match (s.voice v).item with
  | none => s
  | some it =>
    let j := it.next
    let p := it.first + 512 * 1024 * j
    let t := ((s.chan n).grid.placeAt p).toNat
    let s := s.reach t
    let s := s.modVoice v fun x => { x with item := some { it with next := j + 1 }, late := [] }
    if it.kind = .wait ∨ it.kind = .idle then s
    else
      let s := if j = 0 then s.firstSample v n it else s
      ((s.gmatch v it j t).setF F.VOICE_POS_GRAIN j v).grainData v n j it late

/-! ### Window closes (R94 to R96, R100, R106) -/

/-- A snapshot at position p of an item that a window close took and that begins at kerf (R85, R95), with the rule of PAT items
(R147). late: a line of the entry arrives late (R249). -/
def State.snapshot (s : State) (v n : Nat) (k : Take) (d : Desc) (kerf : Option Int) (p : Int) (e : Ecc) (late : Bool) :
    Taken × State :=
  let t : Taken := { acts := k.acts, item := d, pass := k.pass, kerf := kerf, at_ := s.posTime v p, late := late }
  match d with
  | .play h seg =>
    let ws := s.readEntry v seg
    let m := if segMode (wordOf ws 0) = 5 then bits (wordOf ws 0) 3 0 else 0
    let len := segLen (wordOf ws 0)
    let first := kerf.map fun (k : Int) => k + h * 1024
    let clash := m != 0 && first.any fun f => s.patClash n v m t.at_ f len
    let s := s.eccEvent e false (s.entryPoisoned v seg) 0 (s.entryAddr v seg)
    let s := if late then (s.bump F.MEM_SRAM_STAT_LATE_LINE).setF F.MEM_SRAM_STAT_LAST_V v else s
    if s.snapshotOk v n seg ws e && !clash then
      let s := match first with
        | some f => if m = 0 then s else s.failClashes n v m t.at_ f len
        | none => s
      ({ t with words := ws, refs := entryRefs ws }, s.addRefs (entryRefs ws))
    else ({ t with failed := true }, (s.flag F.VOICE_STATUS_SEG_ERR v).bump F.VOICE_TROUBLE_SEG_ERR_CNT v)
  | _ => (t, s)

/-- The channel whose range change waits for a kerf of voice v: its RC_SLOT names the voice (R166). -/
def State.rangeWaits (s : State) (v : Nat) : Option Nat :=
  match s.voiceChan v with
  | some n =>
    let p := s.f F.CH_DAC_RANGE_RC_SLOT n
    if s.on F.CH_DAC_RANGE_RC_PEND n && s.on F.CH_CTL_EN n && !s.on F.CH_DAC_CTL_MUTE n &&
        bit (s.slotInForce n p) 15 && 16 * (n / 4) + bits (s.slotInForce n p) 11 8 == v then some n else none
  | none => none

/-- The range change that a window closing now commits, one committed before included. -/
def State.rangeCommit (s : State) (v : Nat) : Option Nat :=
  match s.rangeWaits v with
  | some n => some n
  | none => (s.voice v).range

/-- Register commits written before the window closes take effect at its kerf (R95): VOICE_SEGTAB, and a range change. -/
def State.commitRegs (s : State) (v : Nat) : State :=
  let r := s.rangeCommit v
  s.modVoice v fun x =>
    { x with segCommit := (match x.segNew with | some w => some w | none => x.segCommit), segNew := none, range := r }

/-- The snapshot of an item just taken. Grains fetched for it are discarded when its entry has moved since its emission, or when the snapshot
fails (R110). -/
def State.snapshotTaken (s : State) (v n : Nat) (k : Take) (d : Desc) (kerf : Option Int) (p : Int) (e : Ecc) (late : Bool) :
    Taken × State :=
  let (t, s) := s.snapshot v n k d kerf p e late
  match d with
  | .play _ _ => (t, if t.failed || s.entryMoved k.issue t.words then s.refetch v else s)
  | _ => (t, s)

/-- Whether a window of voice v on channel n that closes at position p takes a queue entry: it was written strictly before p, and it is
committed already or the core is in a state in which its voice plays the queue (R43, R94). -/
def State.takes (s : State) (v n : Nat) (p : Int) (q : QEntry) : Bool :=
  (s.chan n).grid.before q.written p &&
    (q.committed || (s.playsQueue v && (s.chan n).grid.before (s.voice v).takesFrom p))

/-- Take for a kerf, at the window that closes at position p, the entries before the next item and that item, with its snapshot (R94, R95).
A WAIT TIME whose own window has passed is taken together with the item after it (R96), which may be such a WAIT again. w: the items taken
before it that have still to begin; kerf: where it begins; idle: the idle grain whose place a WAIT TIME takes (R100). -/
def State.takeItems (v n : Nat) (p : Int) (e : Ecc) (late : Bool) : Nat → Nat → Option Int → Option Int → State → State
  | 0, _, _, _, s => s
  | fuel + 1, w, idle, kerf, s =>
    let g := (s.chan n).grid
    let k := (s.voice v).take w (s.takes v n p)
    let s := s.modVoice v fun _ => k.voice
    match k.item with
    | none => s
    | some d =>
      let kerf := match d, idle with | .waitTime _, some a => some a | _, _ => kerf
      let (t, s) := s.snapshotTaken v n k d kerf p e late
      match d with
      | .waitTime u =>
        if g.place u - 512 * 1024 ≤ p then
          State.takeItems v n p e late fuel (w + 1) none (kerf.map (g.waitKerf u))
            (s.modVoice v fun x => { x with taken := x.taken ++ [{ t with closed := true }] })
        else s.modVoice v fun x => { x with taken := x.taken ++ [t] }
      | _ => s.modVoice v fun x => { x with taken := x.taken ++ [t] }

/-- Take for the kerf at position kerf, at the window that closes at position p. -/
def State.takeAt (s : State) (v n : Nat) (p : Int) (idle kerf : Option Int) (e : Ecc) (late : Bool) : State :=
  State.takeItems v n p e late (s.voice v).takeFuel 0 idle kerf s

/-- The WAIT TIME that begins at the next kerf and whose own window closes before it begins: where it closes, and the kerf that ends it
(R96). -/
def State.earlyClose (s : State) (v n : Nat) : Option (Int × Int) :=
  let g := (s.chan n).grid
  match (s.voice v).taken.getLast? with
  | some k => match k.item, k.kerf with
    | .waitTime u, some q => if !k.closed && decide (g.place u - 512 * 1024 < q) then some (g.place u - 512 * 1024, g.waitKerf u q) else none
    | _, _ => none
  | none => none

/-- The window for the end of that WAIT TIME closes at position p: the item after it is taken, and the register commits written since the last
close are for the WAIT's end (R95, R96). -/
def State.closeEarly (s : State) (v n : Nat) (p q : Int) (e : Ecc) (late : Bool) : State :=
  let x := s.voice v
  let r := s.rangeWaits v
  let s := s.modVoice v fun y =>
    { y with taken := y.taken.dropLast ++ y.taken.getLast?.toList.map fun k => { k with closed := true, segtab := x.segNew, range := r }
             segNew := none }
  (State.takeItems v n p e late (s.voice v).takeFuel x.taken.length none (some q) s).refill v

/-- What a WAIT that begins at position p has seen already: a WAIT KERF, the latest kerf of the voice it names, when that
lies at or after its own kerf instant (R68, R99). -/
def State.waitSees (s : State) (v : Nat) (d : Desc) (p : Int) : Option Nat :=
  match d with
  | .waitKerf n =>
    let k := s.at F.VOICE_KERF_SEC_SEC F.VOICE_KERF_FRAC_FRAC (16 * (v / 16) + n)
    if (s.voice (16 * (v / 16) + n)).item.isSome ∧ s.posTime v p ≤ k then some k else none
  | _ => none

/-- The WAIT hold k begins at position p (R78, R99, R100). A WAIT TIME knows its kerf: T, or p when T has passed; the hold of
any other ends where its release puts it. VOICE_POS counts from its beginning (R108). -/
def State.beginWait (s : State) (v : Nat) (k : Taken) (p : Int) : State :=
  let seen := s.waitSees v k.item p
  (((s.setF F.VOICE_POS_SAMPLE 0 v).setF F.VOICE_POS_GRAIN 0 v).modVoice v fun x =>
    { x with item := some { kind := .wait, start := p, first := p, len := 0, cond := some k.item, closed := k.closed, seen := seen },
             segCommit := (match k.segtab with | some w => some w | none => x.segCommit)
             range := (match k.range with | some r => some r | none => x.range)
             kerfAt := none, covered := [], absent := [], pat := (0, 0) }).modInput (192 + v) fun i => { i with window := none }

/-- An idle grain that begins at position p (R38). again: it follows another of the same episode. -/
def idleAt (p : Int) (again : Bool := false) : Item :=
  { kind := .idle, start := p, first := p, len := 512, next := 1, again := again }

/-- A jump pending at the end of idle grain it, whose place a WAIT takes, lands at the WAIT's end instead (R103). -/
def Pending.afterWait (j : Pending) (it : Item) : Pending :=
  if j.mode ≠ 2 ∧ j.land = it.stop then { j with land := none, hold := true } else j

/-- Arm or disarm as a JUMP descriptor reached at a kerf says (R67, R102). An event of the channel that was armed and is armed again, whose
release instant is not before this one, is the new jump's. -/
def State.armJump (s : State) (v t : Nat) (m : Nat) (dis : Bool) (ec en : Nat) : State :=
  if m = 3 then
    ((s.modVoice v fun x => { x with armed := none, jumpSeen := none }).modInput (128 + v) fun i => { i with window := none }).clr
      F.VOICE_JT_STAT_ARMED v
  else
    let x := s.voice v
    let keep := !bit ec 7 && x.armed.any (·.ec == ec) && x.jumpSeen.any fun r => decide (t * 2000000000 ≤ r * 2000000000 + 13 * second)
    let s := (s.modVoice v fun x =>
      { x with armed := some ⟨m, dis, ec, en, t⟩, jumpSeen := if keep then x.jumpSeen else none }).modInput (128 + v) fun i =>
        if keep then i else { i with window := none }
    ((((s.flag F.VOICE_JT_STAT_ARMED v).setF F.VOICE_JT_STAT_ARM_MODE m v).setF F.VOICE_JT_STAT_ARM_DISCARD dis.toNat v).setF
      F.VOICE_JT_STAT_ARM_EC ec v).setF F.VOICE_JT_STAT_ARM_ENTRY en v

/-- A zero-sample descriptor reached at a kerf, at DTIME t: JUMP and BUF.FREE act there, the others from the first sample of
the next PLAY (R64). A buffer whose last hold ends so retires at this kerf (R125). A MARK is among the voice's 16 actions from here on
(R176). -/
def State.reachDesc (s : State) (v t : Nat) (d : Desc) : State :=
  match d with
  | .jump m dis ec en => s.armJump v t m dis ec en
  | .bufFree h => s.dropDesc h
  | .mark l m o w =>
    let hold := fun (x : VoiceSt) => { x with carry := x.carry ++ [Desc.mark l m o w] }
    (match s.voiceChan v with
     | some n => s.holdMark v n hold
     | none => s.modVoice v hold)
  | d => s.modVoice v fun x => { x with carry := x.carry ++ [d] }

/-- The zero-sample descriptors that a kerf at DTIME t reaches: those of a loop that has ended, and those taken for the kerf. -/
def State.reachAll (s : State) (v t : Nat) (acts : List Desc) : State :=
  ((s.voice v).tail ++ acts).foldl (fun u d => u.reachDesc v t d) (s.modVoice v fun x => { x with tail := [] })

/-- The MARKs among the carried descriptors get their places at the kerf of the PLAY that they wait for, from its first sample p on, and are
fixed in DTIME from then on (R176). -/
def State.scheduleMarks (s : State) (v n : Nat) (p : Int) : State :=
  (s.voice v).carry.foldl (fun u d => match d with
    | .mark l m o w => u.modVoice v fun x => { x with acts := x.acts ++ [⟨l, m, p + o * 1024, w, (s.chan n).grid⟩] }
    | _ => u.modVoice v fun x => { x with carry := x.carry ++ [d] }) (s.modVoice v fun x => { x with carry := [] })

/-- The zero-sample descriptors, entries and passes of what was taken for a kerf at DTIME t are done with. -/
def State.reachTaken (s : State) (v t : Nat) (k : Taken) (more : List Taken) : State :=
  ((s.reachAll v t k.acts).modVoice v fun x => { x with taken := more, starved := false }).freeTaken v k.pass

/-- The window for the end of the item in play closes at position p (R94). A WAIT TIME that is committed at the close of a later idle grain
of an episode takes that grain's place, and that instant is its kerf (R100). late: the lines of the entry arrive late. -/
def State.closeItem (s : State) (v n : Nat) (it : Item) (p : Int) (e : Ecc) (late : Bool) : State :=
  let kerf := match (s.voice v).kerfAt with
    | some k => some k
    | none => it.nextKerf (s.chan n).grid
  let s := s.modVoice v fun x => { x with item := some { it with closed := true } }
  let s := if (s.voice v).taken.isEmpty then s.takeAt v n p (if it.again then some it.start else none) kerf e late else s
  let s := (s.commitRegs v).refill v
  match it.again, (s.voice v).taken with
  | true, k :: more =>
    match k.item with
    | .waitTime _ =>
      let s := s.modVoice v fun x => { x with pending := x.pending.map (·.afterWait it) }
      (s.reachTaken v (s.posTime v it.start) k more).beginWait v k it.start
    | _ => s
  | _, _ => s

/-- The first kerf of a voice without an item (R81): the first grid boundary at or after s whose window finds a descriptor.
Its window closes 512 samples before it. -/
def State.firstKerf (s : State) (v n : Nat) (since : Int) : Option Int :=
  let g := (s.chan n).grid
  let k := (s.voice v).take 0 fun q => q.committed || s.playsQueue v
  match k.item with
  | none => none
  | some _ =>
    let used := (s.voice v).queue.take (match k.voice.loop with | some l => l.at_ + 1 + l.pos | none => k.voice.cur)
    let last := (used.map (·.written)).foldl max (s.voice v).takesFrom
    let b := (((last : Int) - g.epoch) * g.vden) / (512 * g.vnum) + 2
    some (max since (b * 512 * 1024))

/-- WINDOW_CLOSE (R94, R96): the window of voice v that closes next closes. The voice takes and commits the next descriptors and
snapshots the item's entry; e is what the snapshot meets. The window of a WAIT TIME that has still to begin may be the next. -/
def execWindowClose (v : Fin 64) (e : SnapshotRead) (s : State) : Res :=
  match s.voiceChan v with
  | none => .next s
  | some n =>
    if ¬ s.on F.CH_STATUS_RUN n then .next s
    else match (s.voice v).item, (s.voice v).since with
    | some it, _ =>
      if it.closed then (match s.earlyClose v n with
        | some (p, q) => .next (((s.reach (s.posTime v p)).closeEarly v n p q e.ecc e.late).showVoice v)
        | none => .next s)
      else match it.closes (s.chan n).grid with
        | some p => .next (((s.reach (s.posTime v p)).closeItem v n it p e.ecc e.late).showVoice v)
        | none => .next s
    | none, some since =>
      if (s.voice v).kerfAt.isSome then (match s.earlyClose v n with
        | some (p, q) => .next (((s.reach (s.posTime v p)).closeEarly v n p q e.ecc e.late).showVoice v)
        | none => .next s)
      else if ¬ (s.voice v).taken.isEmpty then .next ((s.setKerf v since).refill v)
      else match s.firstKerf v n since with
        | some b =>
          let s := (s.reach (s.posTime v (b - 512 * 1024))).setKerf v b
          .next (((s.takeAt v n (b - 512 * 1024) none (some b) e.ecc e.late).commitRegs v).refill v |>.showVoice v)
        | none => .next s
    | none, none => .next s

/-! ### Kerfs (R38, R64, R78, R95, R106) -/

/-- Whether a range change of channel n is under way, or due, at DTIME t at the voice (R167): its tRANGE ends at the pins later
than t. -/
def State.rangeRuns (s : State) (n t : Nat) : Bool :=
  let c := s.chan n
  c.rangeAt.isSome || (match c.rangeTo with
    | some e => decide ((t : Int) ≤ c.out.dacAt e + s.outputDelay n (s.skew n))
    | none => false)

/-- Register commits take effect at position p (R95): segment table w, and a range change of channel r, which reaches the
pins D_CH later (R167). -/
def State.regsAt (s : State) (v : Nat) (p : Int) (w : Option Word) (r : Option Nat) : State :=
  let s := match w with
    | some w => s.setRw .VOICE_SEGTAB_ACT w v
    | none => s
  match r with
  | some n =>
    if ¬ s.on F.CH_DAC_RANGE_RC_PEND n ∨ ¬ s.on F.CH_CTL_EN n ∨ s.rangeRuns n (s.posTime v p) then s
    else s.modChan n fun c => { c with rangeAt := some (c.grid.dacOfPlace p) }
  | none => s

/-- The register commits of a kerf at position p: those its window committed (R95). -/
def State.applyRegs (s : State) (v : Nat) (p : Int) : State :=
  let x := s.voice v
  (s.modVoice v fun y => { y with segCommit := none, range := none }).regsAt v p x.segCommit x.range

/-- The register commits of a landing at position p that cuts an item: those written before the jump's release, its window.
Later ones stay for the next kerf (R94). -/
def State.applyCut (s : State) (v : Nat) (p : Int) (j : Pending) : State :=
  let left (w : Option Word) : Option Word := if w.any (j.segtab.contains ·) then none else w
  (s.modVoice v fun y =>
    { y with segNew := left y.segNew, segCommit := left y.segCommit,
             taken := y.taken.map fun k => { k with segtab := left k.segtab },
             range := if y.range = j.range then none else y.range }).regsAt v p j.segtab.getLast? j.range

/-- The item in play ends: its references end on this timeline, and its last sample is kept for HOLD = LAST (R79, R124). -/
def State.endItem (s : State) (v : Nat) : State :=
  match (s.voice v).item with
  | some it =>
    ((s.closeStream v).modVoice v fun x =>
      { x with
        item := none, covered := [], absent := [], late := [], pat := (0, 0)
        lines := x.lines.filter (·.1 != 0)
        lastI := if it.kind = .wait then x.lastI else x.nowI
        lastQ := if it.kind = .wait then x.lastQ else x.nowQ }).dropRefs (some v) it.refs
  | none => s

/-- Begin an item with its span and length; its kerf is its end. VOICE_POS reads 0 until its first sample (R108). -/
def State.beginItem (s : State) (v : Nat) (it : Item) : State :=
  ((s.setF F.VOICE_POS_SAMPLE 0 v).setF F.VOICE_POS_GRAIN 0 v).modVoice v fun x =>
    { x with
      item := some it, kerfAt := it.stop
      covered := if x.coveredNext then [0] else []
      coveredNext := false
      fetched := if x.fetchedNext then 1 else 0
      fetchedNext := false
      absent := [], late := [], broke := [], pat := (0, 0), stream := {}
      lines := (x.lines.filter fun b => b.1 != 0).map fun b => (b.1 - 1, b.2) }

/-- A pending jump that waits for the item after the one it was released in lands at that item's end (R103). -/
def State.followJump (s : State) (v : Nat) : State :=
  match (s.voice v).pending with
  | some j =>
    if j.follow then s.modVoice v fun x =>
      { x with pending := some { j with follow := false, land := x.kerfAt, hold := x.kerfAt.isNone } }
    else s
  | none => s

/-- What a kerf at position p begins: the item taken, an idle grain in the place of one whose snapshot failed, or, with
nothing committed, the idle grain of a starved voice (R38, R85). -/
def State.beginNext (s : State) (v n : Nat) (p : Int) (late : List LateLine) : State :=
  let t := s.posTime v p
  match (s.voice v).taken with
  | [] =>
    let again := (s.voice v).starved
    let s := if again then s
      else ((s.flag F.CORE_STATUS_STARVED v).bump F.CORE_QUEUE_STARVE_CNT v).fire (9 * v + 4) t
    ((((s.reachAll v t []).freeTaken v none).modVoice v fun x => { x with starved := true })).beginItem v (idleAt p again)
  | k :: more =>
    let s := s.reachTaken v t k more
    match k.item with
    | .play h seg =>
      if k.failed then (s.fireVtrb v 2 t).beginItem v (idleAt p)
      else
        let it : Item := { kind := .play, seg := seg, words := k.words, kerf := h, start := p, first := p + h * 1024,
                           len := segLen (wordOf k.words 0), refs := k.refs }
        let s := (s.beginItem v it).scheduleMarks v n it.first
        if h = 0 then s.beginGrain v n late else s
    | _ => s.beginWait v k p

/-- A voice of the quad that waits for voice v's kerf takes its instant (R68, R99). -/
def State.offerKerf (s : State) (v t : Nat) : State :=
  forN 16 (fun i u =>
    let w := 16 * (v / 16) + i
    match (u.voice w).item with
    | some it =>
      if it.kind = .wait ∧ it.cond = some (.waitKerf (v % 16)) ∧ it.seen = none ∧ u.posTime w it.start ≤ t then
        u.modVoice w fun x => { x with item := some { it with seen := some t } }
      else u
    | none => u) s

/-- The kerf at position p of voice v on channel n, in the order of R78 and R106. late: the late lines of a first grain that begins
here. -/
def State.kerf (s : State) (v n : Nat) (p : Int) (late : List LateLine) : State :=
  let t := s.posTime v p
  let s := ((s.reach t).putTime F.VOICE_KERF_SEC_SEC F.VOICE_KERF_FRAC_FRAC t v).applyRegs v p
  let s := ((s.endItem v).presentAt v p).retireAt v
  let s := s.beginNext v n p late
  ((((s.followJump v).offerKerf v t).freeSlot v).refill v |>.showVoice v).sendLanes n p

/-- The windows that close before the next kerf close, at the latest there, with snapshots that meet no memory error: the one for the end of
the item in play, and that of a WAIT TIME which begins at the kerf. -/
def State.closeLate (s : State) (v n : Nat) : State :=
  let s := match (s.voice v).item with
    | some it =>
      if it.closed then s
      else (match it.closes (s.chan n).grid with
        | some c => s.closeItem v n it c .clean false
        | none => s)
    | none => s
  match (s.voice v).kerfAt, s.earlyClose v n with
  | some _, some (p, q) => s.closeEarly v n p q .clean false
  | _, _ => s

/-! ### Waits (R99, R100) -/

/-- Release of a WAIT hold at position p of its next kerf: the window of the item that follows closes at the release instant
rel unless it has closed (R96), and a pending jump that waits for the release lands there, abandoning the WAIT (R103, R106). e: what the
window's snapshot meets. -/
def State.releaseWait (s : State) (v n : Nat) (it : Item) (rel : Nat) (p : Int) (e : SnapshotRead) : State :=
  let g := (s.chan n).grid
  let s := s.reach rel
  let s := s.setKerf v p
  let s := match it.closed with
    | true => s
    | false => s.closeItem v n it (match it.cond with
        | some (.waitTime t) => g.place t - 512 * 1024
        | _ => g.place rel) e.ecc e.late
  match (s.voice v).pending with
  | some j =>
    if j.hold then
      let q := g.place rel
      let l := match j.land with | some b => min b q | none => p
      s.modVoice v fun x => { x with pending := some { j with hold := false, land := some l } }
    else s
  | none => s

/-- WAIT_RELEASE (R99): the condition of the WAIT voice v holds is met and the next kerf is placed. A WAIT TIME whose T lies
before its kerf instant releases there and is late (R100). -/
def execWaitRelease (v : Fin 64) (e : SnapshotRead) (s : State) : Res :=
  match s.voiceChan v, (s.voice v).item with
  | some n, some it =>
    let g := (s.chan n).grid
    if it.kind ≠ .wait ∨ (s.voice v).kerfAt.isSome then .next s
    else match it.cond, it.seen with
      | some (.waitTime t), _ =>
        if g.before t it.start then
          let k := s.posTime v it.start
          .next ((((s.flag F.VOICE_STATUS_WAIT_LATE v).fireVtrb v 3 k).releaseWait v n it k it.start e).showVoice v)
        else .next ((s.releaseWait v n it t (g.place t) e).showVoice v)
      | some (.waitKerf _), some t => .next ((s.releaseWait v n it t (g.place t) e).showVoice v)
      | some _, some r =>
        .next ((s.releaseWait v n it (r + (13 * second) / 2000000000) (g.placeRef r 90) e).showVoice v)
      | _, _ => .next s
  | _, _ => .next s

end Sys2Proof.Machine
end

