-- ==== Sys2Proof/Machine/Jump.lean ====
section
/-! DEFINITION. Jumps and the jump table (R101 to R106, R113, R114), and how a voice is cut loose from its timeline when its
channel stops, is retuned or is left (R134, R140, R210). -/

namespace Sys2Proof.Machine

/-! ### Landing (R103) -/

/-- Whether position b lies more than w samples after the release instant rel, counted on the voice timeline. -/
def Grid.clear (g : Grid) (b : Int) (rel w : Nat) : Bool :=
  decide (((rel : Int) - g.epoch * 10000000000) * 1024 * g.vden + w * 1024 * g.vnum * 10000000000 <
    b * g.vnum * 10000000000)

/-- Position of the release instant plus 2.5 ns, to the nearest 1/1024 sample, a tie going later (R80, R103). -/
def Grid.immediate (g : Grid) (rel : Nat) : Int :=
  roundDiv (((rel : Int) + 25 * second - g.epoch * 10000000000) * 1024 * g.vden) (10000000000 * g.vnum)

/-- The first of start + 512 samples × j, j = 1, 2, …, that lies more than 96 samples after rel. -/
def Grid.grainAfter (g : Grid) (start : Int) (rel : Nat) : Int :=
  let d := ((rel : Int) - g.epoch * 10000000000) * 1024 * g.vden + 96 * 1024 * g.vnum * 10000000000 -
    start * g.vnum * 10000000000
  let j := d / (512 * 1024 * g.vnum * 10000000000) + 1
  start + 512 * 1024 * max 1 j

/-- Where a SEGMENT (mode 0) or GRAIN (mode 1) jump released at rel lands in item it (R103); none inside the horizon. -/
def Item.landing (g : Grid) (it : Item) (mode rel : Nat) : Option Int :=
  let last := match it.stop with
    | some e => if g.clear e rel 96 then some e else none
    | none => none
  if mode = 1 then
    let b := if g.clear it.first rel 0 && g.clear it.first rel 96 then it.first else g.grainAfter it.first rel
    match it.stop with
    | some e => if b < e then some b else last
    | none => some b
  else last

/-- A jump was released in the horizon at rel (R103). The reference time of LATE_JUMP is the release instant in whole DTIME units, rounded
down (DESIGN CHOICE, log entry 82: R191 states no rounding). -/
def State.lateJump (s : State) (v rel : Nat) : State :=
  ((s.bump F.VOICE_TROUBLE_LATE_JUMP v).trouble .lateJump).fireVtrb v 0 (rel / 10000000000)

/-- A jump is accepted with release instant rel (R102, R103). One released between a WAIT's release and the kerf that follows lands at
that kerf (DESIGN CHOICE, log entry 72). It moves from armed to pending and its landing is placed, or it
meets the jump horizon and counts LATE_JUMP. -/
def State.acceptJump (s : State) (v : Nat) (a : Armed) (rel : Nat) : State :=
  let g := s.voiceGrid v
  let base : Pending := { mode := a.mode, discard := a.discard, ec := a.ec, entry := a.entry, rel := rel,
                          segtab := (s.voice v).segCommit.toList ++ (s.voice v).taken.filterMap (·.segtab) ++ (s.voice v).segNew.toList,
                          range := s.rangeCommit v }
  let s := ((s.clr F.VOICE_JT_STAT_ARMED v).flag F.VOICE_JT_STAT_PEND v).setF F.VOICE_JT_STAT_PEND_ENTRY a.entry v
  let put (t : State) (p : Pending) : State := t.modVoice v fun x => { x with armed := none, jumpSeen := none, pending := some p }
  if a.mode = 2 then put s { base with land := some (g.immediate rel) }
  else match (s.voice v).item with
    | none => put s base
    | some it =>
      if it.kind = .wait then
        put s { base with land := some (match (s.voice v).kerfAt with
            | some k => min k (g.grainAfter it.start rel)
            | none => g.grainAfter it.start rel), hold := (s.voice v).kerfAt.isNone }
      else match it.landing g a.mode rel with
        | some b => put s { base with land := some b }
        | none =>
          if it.len = 0 then put s base
          else put (s.lateJump v rel) { base with follow := true, late := true }

/-- A jump armed with EC = NONE is accepted at t when no jump is pending (R102). -/
def State.acceptNone (s : State) (v t : Nat) : State :=
  match (s.voice v).armed, (s.voice v).pending with
  | some a, none => if bit a.ec 7 then s.acceptJump v a (t * 10000000000) else s
  | _, _ => s

/-- JUMP_ACCEPT (R102): the event the jump input took, or the arming instant of a NONE jump, moves voice v's jump from armed
to pending. -/
def execJumpAccept (v : Fin 64) (s : State) : Res :=
  match (s.voice v).armed, (s.voice v).pending with
  | some a, none =>
    if bit a.ec 7 then .next (s.acceptNone v a.armed)
    else match (s.voice v).jumpSeen with
      | some r => .next ((s.reach (r + 13 * second / 2000000000)).acceptJump v a (r * 10000000000 + 65 * second))
      | none => .next s
  | _, _ => .next s

/-! ### Landing (R104, R105) -/

def State.jtEntry (s : State) (v n : Nat) : JtSt := sget (fun _ => {}) (s.voice v).jt n
def State.modJt (s : State) (v n : Nat) (g : JtSt → JtSt) : State :=
  s.modVoice v fun x => { x with jt := sput (fun _ => {}) x.jt n (g (sget (fun _ => {}) x.jt n)) }

/-- The pending jump clears (R103 to R105). -/
def State.clearPending (s : State) (v : Nat) : State :=
  (s.modVoice v fun x => { x with pending := none }).clr F.VOICE_JT_STAT_PEND v

/-- A taken jump with DISCARD = 1 drops every queued descriptor not yet in play and ends the loop (R67, R98, R126). -/
def State.discardQueue (s : State) (v : Nat) : State :=
  let rs := ((s.voice v).taken.map (·.refs)).flatten
  ((s.modVoice v fun x =>
    { x with taken := [], tail := [], loop := none
             segNew := match x.segNew with | some w => some w | none => (x.taken.filterMap (·.segtab)).getLast? }).dropQueue v
      fun _ => true).dropRefs (some v) rs
    |>.modVoice v fun x => { x with cur := 0 }

/-- The register commits of a landing at position p (R94, R95): at the end of the item in play those its window committed,
and anywhere else those the jump's release did. -/
def State.landRegs (s : State) (v : Nat) (j : Pending) (p : Int) : State :=
  if (s.voice v).kerfAt = some p then
    match (s.voice v).item with
    | some it => if it.closed then s.applyRegs v p else (s.commitRegs v).applyRegs v p
    | none => s.applyRegs v p
  else s.applyCut v p j

/-- A jump with entry en lands at position p and is taken (R104, R106, R114). With DISCARD = 0 the pass of a loop whose last item ends here is
completed (R97). -/
def State.takeJump (s : State) (v n : Nat) (j : Pending) (p : Int) : State :=
  let t := s.posTime v p
  let s := (s.putTime F.VOICE_KERF_SEC_SEC F.VOICE_KERF_FRAC_FRAC t v).landRegs v j p
  let ended := (s.voice v).passEnds
  let s := ((s.endItem v).presentAt v p).modVoice v fun x => { x with kerfAt := none, starved := false }
  let s := (if j.discard then s.discardQueue v else s.modVoice v fun x => { x with queue := showPass ended x.queue }).retireAt v
  let e := s.jtEntry v j.entry
  let h := if j.mode = 2 then 0 else bits (s.rw .VOICE_JT v j.entry).toNat 47 32
  let it : Item := { kind := .target, seg := bits (s.rw .VOICE_JT v j.entry).toNat 15 0, words := e.words, kerf := h,
                     start := p, first := p + h * 1024, len := segLen (wordOf e.words 0), refs := e.refs }
  let s := s.modVoice v fun x => { x with coveredNext := false, fetchedNext := false, lines := [] }
  let s := ((s.addRefs e.refs).beginItem v it).modVoice v fun x =>
    { x with slots := if e.dram then [.here 0 e.data] else [], lines := if e.dram then [] else [(0, 0, e.data)], fetched := 1,
             taken := rekerf (s.voiceGrid v) it.stop x.taken }
  let s := if h = 0 then s.beginGrain v n [] else s
  (((((s.clearPending v).offerKerf v t).freeSlot v).refill v).showVoice v).sendLanes n p

/-- The pending jump j lands at position p. A target that is not LOADED makes it a miss, and the voice goes on (R105). -/
def State.landJump (s : State) (v n : Nat) (j : Pending) (p : Int) : State :=
  let t := s.posTime v p
  let s := s.reach t
  if bit (s.f F.VOICE_JT_STAT_LOADED v) j.entry then (s.takeJump v n j p).acceptNone v t
  else ((((s.clearPending v).flag F.VOICE_STATUS_JUMP_MISS v).bump F.VOICE_TROUBLE_JUMP_MISS v).fireVtrb v 1 t).acceptNone v t

/-- JUMP_LAND (R103 to R105): voice v's pending jump lands. -/
def execJumpLand (v : Fin 64) (s : State) : Res :=
  match s.voiceChan v, (s.voice v).pending with
  | some n, some j =>
    match j.land with
    | some p => .next (s.landJump v n j p)
    | none => .next s
  | _, _ => .next s

/-- A pending jump that lands at position p or before lands first (R106); the answer says whether it was taken. -/
def State.landBy (s : State) (v n : Nat) (p : Int) : Bool × State :=
  match (s.voice v).pending with
  | some j =>
    match j.land with
    | some q => if q ≤ p then (bit (s.f F.VOICE_JT_STAT_LOADED v) j.entry, s.landJump v n j q) else (false, s)
    | none => (false, s)
  | none => (false, s)

/-- KERF (R78): a voice reaches its next kerf instant. A window that closes no later and has not been closed closes first,
its snapshot meeting no memory error, and a jump that lands here takes the kerf's place (R106). -/
def execKerf (v : KerfRun) (s : State) : Res :=
  let late := v.late
  let v := v.voice
  match s.voiceChan v with
  | none => .next s
  | some n =>
    match (s.voice v).kerfAt with
    | none => .next s
    | some _ =>
      let s := s.closeLate v n
      -- a WAIT TIME taken at the close of an idle grain has replaced it: then no kerf falls here
      match (s.voice v).kerfAt with
      | some q =>
        let (taken, s) := s.landBy v n q
        .next (if taken then s else s.kerf v n q late)
      | none => .next (s.showVoice v)

/-- GRAIN_START (R93): the next grain of the item voice v plays begins. late: the lines of it that arrive late (R249). A jump that lands
no later lands first (R106). -/
def execGrainStart (v : Fin 64) (late : List LateLine) (s : State) : Res :=
  match s.voiceChan v, (s.voice v).item with
  | some n, some it =>
    if it.kind = .wait ∨ it.kind = .idle ∨ (it.len ≠ 0 ∧ grains it.len ≤ it.next) then .next s
    else
      let (taken, s) := s.landBy v n (it.first + 512 * 1024 * it.next)
      .next (if taken then s else s.beginGrain v n late)
  | _, _ => .next s

/-! ### The jump table (R101, R113, R114, R127) -/

/-- LOADED of entry n of voice v. -/
def State.setLoaded (s : State) (v n : Nat) (b : Bool) : State :=
  s.setF F.VOICE_JT_STAT_LOADED (setBits (s.f F.VOICE_JT_STAT_LOADED v) n n b.toNat) v

/-- A passing write of VOICE_JTn: LOADED clears and the entry's references end; a VALID entry is snapshotted and checked, and
its preload starts, which for a DRAM target needs a slot (R101, R114). The checks use the rates of the channel that the voice drives, and of
channel v / 4 when it drives none (DESIGN CHOICE, log entry 82: the spec does not say). -/
def State.writeJt (s : State) (v n : Nat) (w : Word) (ecc : Ecc) : State :=
  let old := (s.jtEntry v n).refs
  let s := ((s.setRw .VOICE_JT w v n).setLoaded v n false).modJt v n fun _ => {}
  let s := ((s.dropRefs (some v) old).freeSlot v).showRefill v
  if ¬ bit w.toNat 63 then s
  else
    let seg := bits w.toNat 15 0
    let ws := s.readEntry v seg
    let s := s.eccEvent ecc false (s.entryPoisoned v seg) 0 (s.entryAddr v seg)
    let d := s.entryInDram ws
    let fits := s.canSlot v
    if d ∧ ¬ fits then s.flag F.REFILL_STAT_JT_NOSLOT v
    else
      let t := if d then s.takeSlot v else s
      if t.snapshotOk v (match s.voiceChan v with | some c => c | none => v / 4) seg ws ecc then
        ((t.addRefs (entryRefs ws)).modJt v n fun _ => { words := ws, loading := true, dram := d, refs := entryRefs ws }).showRefill v
      else ((t.flag F.VOICE_STATUS_SEG_ERR v).bump F.VOICE_TROUBLE_SEG_ERR_CNT v).freeSlot v |>.showRefill v

/-- Byte address at which the samples of a jump target begin. -/
def State.jtAddr (s : State) (e : JtSt) : Nat :=
  match segMode (wordOf e.words 0) with
  | 1 => s.bufferBase (s.f F.STM_RING_HANDLE (bits (wordOf e.words 0) 5 0))
  | _ => s.wordAddr (wordOf e.words 1)

/-- JT_PRELOAD_DONE (R101, R114): the first grain of entry n's target is in the jump buffer and LOADED sets; an uncorrectable
word leaves the entry unloaded (R361). -/
def State.jtPreloaded (s : State) (v n : Nat) (ecc : Ecc) : State :=
  let e := s.jtEntry v n
  if ¬ e.loading ∨ (e.dram ∧ s.mem.pllLost.isSome) then s
  else
    let spans := s.grainSpans e.words (segLen (wordOf e.words 0)) 0
    let c := s.copyOf spans
    let at_ := match c.bad with | p :: _ => p.2 | [] => s.jtAddr e
    let s := s.eccEvent ecc e.dram (!c.bad.isEmpty) 0 at_
    if (foundEcc e.dram (!c.bad.isEmpty) ecc).bad then (((s.modJt v n fun _ => {}).dropRefs (some v) e.refs).freeSlot v).showRefill v
    else ((s.modJt v n fun x => { x with loading := false, data := c }).setLoaded v n true).showRefill v

/-! ### The segment table (R82) -/

/-- A passing write of VOICE_SEGTAB: one that would reach past 96 MiB is ignored and sets SEGTAB_ERR; any other waits for a
kerf (R82, R95). While the voice has no item and no kerf it acts at once, in the place of one that waits (DESIGN CHOICE, log entry 72: R82
names only a kerf). -/
def State.writeSegtab (s : State) (v : Nat) (w : Word) : State :=
  if bits w.toNat 26 5 * 32 + (bits w.toNat 63 48 + 1) * 32 ≤ sramBytes then
    let s := s.setRw .VOICE_SEGTAB w v
    if (s.voice v).item.isNone ∧ (s.voice v).kerfAt.isNone then
      (s.setRw .VOICE_SEGTAB_ACT w v).modVoice v fun x => { x with segNew := none, segCommit := none }
    else s.modVoice v fun x => { x with segNew := some w }
  else s.flag F.VOICE_STATUS_SEGTAB_ERR v

/-! ### Cutting a voice loose (R102, R124, R134, R140, R210) -/

/-- At a boundary where its channel stops, is retuned or is left, voice v abandons its item and its jumps and keeps its
queue; the boundary counts as a kerf for the buffers it held (R125). Refill goes on with what the queue will play next (R109). -/
def State.abandon (s : State) (v : Nat) : State :=
  let s := ((s.endItem v).presentSamples v ((s.voiceGrid v).dacFrom s.now)).retireAt v
  let s := (s.clearPending v).clr F.VOICE_JT_STAT_ARMED v
  (((s.modVoice v fun x =>
    { x with
      kerfAt := none, since := none, armed := none, jumpSeen := none, starved := false, slots := [], lines := []
      coveredNext := false, fetchedNext := false, stream := {}, pat := (0, 0) }).freeSlot v).refill v).showVoice v

/-- Voice v gets a start instant at position p of its channel's grid (R81). -/
def State.startVoice (s : State) (v : Nat) (p : Int) : State :=
  s.modVoice v fun x => { x with since := some p }

end Sys2Proof.Machine
end

