-- ==== Sys2Proof/Machine/CalBase.lean ====
section
/-! DEFINITION. What calibration, the power controller and the channels share: domains (R286), and cutting a calibration run short
(R315, R316). -/

namespace Sys2Proof.Machine

/-- Whether domain d is powered and running (PWR_DOM_STAT). -/
def State.dom (s : State) (d : Nat) : Bool :=
  if d < 64 then bit (s.f F.PWR_DOM_STAT0_ON) d else bit (s.f F.PWR_DOM_STAT1_ON) (d - 64)

/-- Report domain d as on or off. -/
def State.setDom (s : State) (d : Nat) (on : Bool) : State :=
  if d < 64 then s.setF F.PWR_DOM_STAT0_ON (setBits (s.f F.PWR_DOM_STAT0_ON) d d on.toNat)
  else s.setF F.PWR_DOM_STAT1_ON (setBits (s.f F.PWR_DOM_STAT1_ON) (d - 64) (d - 64) on.toNat)

/-- PWR_DOM_ON of domain d. -/
def State.domAsked (s : State) (d : Nat) : Bool :=
  if d < 64 then bit (s.f F.PWR_DOM_ON0_ON) d else bit (s.f F.PWR_DOM_ON1_ON) (d - 64)

/-- Put PWR_DOM_ON of domain d. -/
def State.setDomAsked (s : State) (d : Nat) (on : Bool) : State :=
  if d < 64 then s.setF F.PWR_DOM_ON0_ON (setBits (s.f F.PWR_DOM_ON0_ON) d d on.toNat)
  else s.setF F.PWR_DOM_ON1_ON (setBits (s.f F.PWR_DOM_ON1_ON) (d - 64) (d - 64) on.toNat)

/-- A_VALID and B_VALID follow the banks. -/
def State.showBanks (s : State) (n : Nat) : State :=
  (s.setB F.CAL_STATUS_A_VALID (s.cal n).a.valid n).setB F.CAL_STATUS_B_VALID (s.cal n).b.valid n

/-- Change the bank that is not active. -/
def State.modInactive (s : State) (n : Nat) (g : CalBank → CalBank) : State :=
  (s.modCal n fun c => if s.on F.CAL_STATUS_ACTIVE n then { c with a := g c.a } else { c with b := g c.b }).showBanks n

/-- A waiting request for admission of channel n's run is withdrawn (R315). -/
def State.calWithdraw (s : State) (n : Nat) : State :=
  if s.on F.CAL_STATUS_WAITING n then (s.clr F.CAL_STATUS_WAITING n).endTask (.cal n) else s

/-- Whether domain d has been stopped by the entry handshake under way, and holds its state until the handshake ends (R291). -/
def State.frozen (s : State) (d : Nat) : Bool := s.power.entry.any fun h => h.stopped.contains d

/-- Whether every condition of R315 holds for channel n. -/
def State.calReady (s : State) (n : Nat) : Bool :=
  s.on F.CAL_STATUS_DUE n && !s.on F.CAL_STATUS_RUNNING n && s.dom (32 + n) && !s.frozen (32 + n) && (s.chan n).bias &&
    s.f F.SP_STATUS_STATE (n / 4) == 4 && !s.on F.CH_DAC_STATUS_RANGE_BUSY n && !s.on F.PWR_STATUS_BO_ACTIVE &&
    !anyN 4 fun i => 4 * (n / 4) + i != n && s.on F.CAL_STATUS_RUNNING (4 * (n / 4) + i)

/-- Requests for calibration runs are made or withdrawn as the conditions stand (R315). -/
def State.calRequests (s : State) : State :=
  forN 16 (fun n t =>
    if t.calReady n then
      (if t.on F.CAL_STATUS_WAITING n then t else (t.flag F.CAL_STATUS_WAITING n).enqueueTask (.cal n))
    else t.calWithdraw n) s

/-- The run in progress on channel n ends with a cause of R316. The spare goes back during tRANGE, and otherwise as soon as R172 permits. -/
def State.calAbort (s : State) (n cause : Nat) : State :=
  let t := (((s.clr F.CAL_STATUS_RUNNING n).clr F.CAL_STATUS_STEP n).clr F.CAL_STATUS_SLICE n).setF F.CAL_STATUS_RESULT cause n
  let t := (((t.modInactive n fun _ => {}).trouble .calAbort).fireNow 631).endTask (.cal n)
  (t.flag F.CAL_STATUS_DUE n).modCal n fun c =>
    { c with flip := none, again := false, cutAt := some s.now, spare := if cause = 4 then none else c.spare,
             back := cause != 4 && c.spare.isSome }

/-- A cause of R316 arises on channel n: a run in progress is cut short, of two causes in one core cycle RESULT holds the lower, and requests
follow the conditions of R315. -/
def State.calCut (s : State) (n cause : Nat) : State :=
  (if s.on F.CAL_STATUS_RUNNING n then s.calAbort n cause
   else if s.thisCycle (s.cal n).cutAt ∧ cause < s.f F.CAL_STATUS_RESULT n then s.setF F.CAL_STATUS_RESULT cause n
   else s).calRequests

/-- A condition of R314 arises on channel n: DUE sets, at completion when a run is in progress. -/
def State.calDue (s : State) (n : Nat) : State :=
  if s.on F.CAL_STATUS_RUNNING n then s.modCal n fun c => { c with again := true } else (s.flag F.CAL_STATUS_DUE n).calRequests

/-- SKEW and MKSKEW of a bank for F_DAC new, in SP_FDAC format: round(value × new / old), ties away from zero (R312), kept within
their fields. -/
def CalBank.rescale (b : CalBank) (new : Nat) : CalBank :=
  if b.fdac = 0 ∨ b.fdac = new then b
  else
    let skew : Nat := min 65535 (roundAway (bits b.main.toNat 47 32 * new) b.fdac).toNat
    let lane := fun (l : Nat) =>
      wrap 16 (max (-32768) (min 32767 (roundAway (signed 16 (bits b.lanes.toNat (16 * l + 15) (16 * l)) * new) b.fdac)))
    { b with main := BitVec.ofNat 64 (setBits b.main.toNat 47 32 skew),
             lanes := BitVec.ofNat 64 (lane 0 + lane 1 * 2 ^ 16 + lane 2 * 2 ^ 32 + lane 3 * 2 ^ 48), fdac := new }

/-- The quad's F_DAC, in SP_FDAC format, has become new: both banks of channel n are rescaled, and with AUTO a run is due (R312,
R314). -/
def State.calRescale (s : State) (n new : Nat) : State :=
  let c := s.cal n
  if c.a.rescale new = c.a ∧ c.b.rescale new = c.b then s
  else
    let t := s.modCal n fun c => { c with a := c.a.rescale new, b := c.b.rescale new }
    if t.on F.CAL_CTL_AUTO n then t.calDue n else t

end Sys2Proof.Machine
end

