-- ==== Sys2Proof/Machine/Stream.lean ====
section
/-! DEFINITION. Playing streams and fetching grains (R109 to R122, R143): packets as they arrive, block checks and gaps, refill
arrivals, and the cover test of a grain's fetch. -/

namespace Sys2Proof.Machine

/-! ### Packets (R117, R118, R120 to R122) -/

/-- SEQ of a packet. -/
def StreamMsg.seq (p : StreamMsg) : Nat := bits p.h0.toNat 63 32
/-- PTIME as a DTIME: FRAC at 0x10, SEC at 0x16. -/
def StreamMsg.ptime (p : StreamMsg) : Nat :=
  (bits p.h2.toNat 63 48 + bits p.h3.toNat 31 0 * 65536) * second + bits p.h2.toNat 47 0

/-- Whether binding b takes the packet (R118): header, NSAMP, CPLX and reserved fields are right and its slot holds no later
SEQ; after ABORT only START is taken (R121). -/
def State.takesPacket (s : State) (b : Nat) (p : StreamMsg) : Bool :=
  let flags := bits p.h0.toNat 31 24
  bits p.h0.toNat 15 0 == 0x4D53 && bits p.h0.toNat 23 16 == b && s.on F.STM_CFG_EN b &&
    bits p.h1.toNat 15 0 == s.stmSamples b && bit flags 2 == s.on F.STM_CFG_CPLX b &&
    bits flags 7 3 == 0 && bits p.h1.toNat 63 16 == 0 && bits p.h3.toNat 63 32 == 0 &&
    (match s.slotHolder b p.seq with | some o => decide (seqDiff o.seq p.seq ≤ 0) | none => true) &&
    (!(s.binding b).onlyStart || bit flags 0)

/-- A dropped packet is counted and marked (R118). -/
def State.dropPacket (s : State) (b : Nat) : State := (s.bump F.STM_CNT_DROP b).flag F.STM_STAT_BAD_PKT b

/-- Write words from byte address a on. -/
def State.writeWords (s : State) (d : Bool) (a : Nat) : List Word → State
  | [] => s
  | w :: ws => (s.writeWord d a w).writeWords d (a + 8) ws

/-- The packet is written to its slot, payload first and first header word last (R118), and the ring holds it. A slot takes the samples
that NSAMP names. -/
def State.storePacket (s : State) (b : Nat) (p : StreamMsg) : State :=
  let a := s.slotAddr b p.seq
  let d := s.ringDram b
  let n := max 1 (s.f F.STM_RING_NSLOT b)
  let body := p.payload.take (s.stmSamples b * s.stmBytes b / 8)
  let s := (((s.writeWords d (a + 32) body).writeWord d (a + 24) p.h3).writeWord d (a + 16) p.h2).writeWord d (a + 8) p.h1
  let s := s.writeWord d a p.h0
  let pk : Packet := { seq := p.seq, start := bit p.h0.toNat 24, stop := bit p.h0.toNat 25, ptime := p.ptime,
                       nsamp := s.stmSamples b, arrived := s.now }
  s.modBinding b fun x => { x with packets := (x.packets.filter fun q => q.seq % n != p.seq % n) ++ [pk], onlyStart := false }

/-- The slip limit of R122 in voice samples. -/
def State.slipLimit (s : State) (b : Nat) : Nat :=
  let ring := (s.f F.STM_RING_NSLOT b - 2) * s.stmSamples b
  if s.f F.STM_SLIP_MAX_SLIP b = 0 then ring else min ring (s.f F.STM_SLIP_MAX_SLIP b)

/-- The first block of the voice's timeline, from the next one to check on, that is checked at or after DTIME a (R121). -/
def Grid.resumeBlock (g : Grid) (block : Int) (lead a : Nat) : Int :=
  block + 64 * max 0 (ceilDiv (ceilDiv (((a : Int) - g.epoch) * g.vden) g.vnum + lead - block) 64)

/-- A RESUME placement of packet pk (R121), or RESYNC_TIME in its place when the slip would pass its limit (R122). was: the binding's slip as the
packet arrived, from which every voice that it resumes counts, so that a gap grows the slip once (R146). -/
def State.resumePacket (s : State) (v b : Nat) (g : Grid) (it : Item) (pk : Packet) (was : Int) : State :=
  let x := (s.voice v).stream
  let p := g.resumeBlock (x.block.getD (it.first / 1024)) (s.stmLead b) pk.arrived
  let slip := was + (p - g.ptime pk.ptime)
  if (s.slipLimit b : Int) < slip then
    ((s.flag F.STM_STAT_SLIP_LIMIT b).modBinding b fun y => { y with slip := 0 }).placeByTime v b g it pk
  else
    (((s.modBinding b fun y => { y with slip := slip }).modStream v fun y =>
      { (y.push ⟨pk.seq, p, p⟩) with sure := some p }).setF F.STM_STAT_NEXT_SEQ (pk.seq + 1) b).setF F.STM_STAT_STATE 2 b

/-- A packet that follows a placement by count: its samples already checked are discarded (R119, R120). -/
def State.followPacket (s : State) (b : Nat) (g : Grid) (it : Item) (pl : Placement) (pk : Packet) : State :=
  let p := pl.begin_ + seqDiff pk.seq pl.seq * pk.nsamp
  (s.shave b (g.pastSamples (s.stmLead b) p (it.first / 1024) pk.nsamp pk.arrived)).setF F.STM_STAT_NEXT_SEQ (pk.seq + 1) b

/-- Packet pk reaches voice v, which plays item it of binding b with slip was (R120, R121). -/
def State.offerPacket (s : State) (v b : Nat) (g : Grid) (it : Item) (pk : Packet) (was : Int) : State :=
  let x := (s.voice v).stream
  match x.placed with
  | [] => s.placeByTime v b g it pk
  | pl :: _ =>
    if pk.start then (s.placeByTime v b g it pk).modStream v fun y => { y with resumed := true }
    else if x.ended then s
    else match x.gap with
      | some q =>
        let p := pl.begin_ + seqDiff pk.seq pl.seq * pk.nsamp
        if x.resumed then (if 0 ≤ seqDiff pk.seq pl.seq then s.followPacket b g it pl pk else s)
        else if pk.seq = q ∧ 64 * g.pastBlocks (s.stmLead b) p pk.arrived < pk.nsamp then
          (s.followPacket b g it pl pk).modStream v fun y =>
            { (y.push ⟨pk.seq, p, p + 64 * g.pastBlocks (s.stmLead b) p pk.arrived⟩) with resumed := true }
        else if seqDiff pk.seq q < 0 then s
        else
          let t := if s.f F.STM_CFG_POLICY b = 1 then s.resumePacket v b g it pk was else s.placeByTime v b g it pk
          t.modStream v fun y => { y with resumed := true }
      | none => if 0 ≤ seqDiff pk.seq pl.seq then s.followPacket b g it pl pk else s

/-- Every voice that plays the binding meets the packet. -/
def State.offerAll (s : State) (b : Nat) (pk : Packet) : State :=
  forN 64 (fun v t =>
    match (s.voice v).item, s.voiceChan v with
    | some it, some n => if it.binding = some b ∧ it.next ≠ 0 then t.offerPacket v b (s.chan n).grid it pk (s.binding b).slip else t
    | _, _ => t) s

/-- A packet arrives for binding b (R118). On a RING source the writer has put it into its slot already, and a wrong one is not
counted; otherwise the receive engine writes it. -/
def State.streamRx (s : State) (b : Nat) (ring : Bool) (p : StreamMsg) : State :=
  if s.takesPacket b p then
    let t := s.storePacket b p
    match t.packet b p.seq with
    | some pk => t.offerAll b pk
    | none => t
  else if ring then s else s.dropPacket b

/-- Whether binding b has port p as its source, at the UDP port that the packet was sent to (R116). -/
def State.streamPort (s : State) (p udp b : Nat) : Bool :=
  s.f F.STM_CFG_SRC b == p + 1 && (p == 0 || s.f F.STM_CFG_UDP_PORT b == udp)

/-- The binding at which a stream packet of port p is taken or dropped: the one it names; and when that one has not this source, on
PORT0 still that one, and on PORT1 to PORT4 the first enabled one at its UDP port. A number that no binding has is dropped at the first
enabled binding of the same source (DESIGN CHOICE, log entry 82: R118 counts the drop and does not say where). -/
def State.streamBinding (s : State) (p : Nat) (m : StreamMsg) : Option Nat :=
  let b := bits m.h0.toNat 23 16
  if b < 64 ∧ (p = 0 ∨ s.streamPort p m.udp.toNat b) then some b
  else firstN 64 fun i => s.on F.STM_CFG_EN i && s.streamPort p m.udp.toNat i

/-- What a RING source finds in the slot of SEQ q: its header and no payload to write. -/
def State.slotPacket (s : State) (b q : Nat) : StreamMsg :=
  let a := s.slotAddr b q
  let d := s.ringDram b
  ⟨0, s.readWord d a, s.readWord d (a + 8), s.readWord d (a + 16), s.readWord d (a + 24), []⟩

/-- A RING writer has completed the slot of SEQ q of binding b. e: what its header meets; an uncorrectable header leaves the packet absent,
and it is counted (R20, R361). -/
def State.ringRx (s : State) (b q : Nat) (e : Ecc) : State :=
  let a := s.slotAddr b q
  let d := s.ringDram b
  let marked := s.poisoned d a || s.poisoned d (a + 8) || s.poisoned d (a + 16) || s.poisoned d (a + 24)
  let s := s.eccEvent e d marked (if d then 1 else 0) a
  if (foundEcc d marked e).bad then s.dropPacket b else s.streamRx b true (s.slotPacket b q)

/-! ### Block checks (R119 to R121) -/

/-- The placement that block pos belongs to, and the first block of the placements after it. -/
def StreamPlay.placement (x : StreamPlay) (pos : Int) : Option Placement := x.placed.find? fun p => decide (p.first ≤ pos)
def StreamPlay.nextFirst (x : StreamPlay) (pos : Int) : Option Int :=
  (x.placed.filter fun p => decide (pos < p.first)).foldl (fun m p => match m with
    | none => some p.first
    | some q => some (min q p.first)) none

/-- End of the block at pos: 64 samples on, or where a later placement begins. -/
def StreamPlay.blockEnd (x : StreamPlay) (pos : Int) : Int :=
  match x.nextFirst pos with
  | some q => min (pos + 64) q
  | none => pos + 64

/-- The check moves on to block pos' and forgets what is no longer needed. -/
def StreamPlay.advance (x : StreamPlay) (pos pos' : Int) (what : Option (Nat × Copy)) : StreamPlay :=
  { x with block := some pos', decided := (pos, what) :: x.decided.take 40,
           placed := x.placed.takeWhile (fun p => decide (pos' < p.first)) ++
             ((x.placed.dropWhile fun p => decide (pos' < p.first)).take 1) }

/-- The samples from voice sample a to b of voice v's stream are missing. -/
def State.missStream (s : State) (v : Nat) (a b : Int) : State :=
  s.missSamples v (a * 1024) (b - a).toNat

/-- A jump pending in a stream item whose end moves to that of it lands anew (R103). One accepted in the horizon of the item before lands at
this item's end, wherever that is. -/
def State.relandJump (s : State) (v : Nat) (it : Item) : State :=
  match (s.voice v).pending with
  | some j =>
    if j.mode = 2 ∨ j.follow then s
    else if j.late then s.modVoice v fun x => { x with pending := some { j with land := x.kerfAt } }
    else match it.landing (s.voiceGrid v) j.mode j.rel with
      | some l => s.modVoice v fun x => { x with pending := some { j with land := some l } }
      | none => (s.lateJump v j.rel).modVoice v fun x => { x with pending := some { j with land := none, follow := true, late := true } }
  | none => s

/-- Under ABORT the gap that begins with block pos ends the item: its end is the first grain boundary after the block, the
window for that kerf closes at the block's check instant, and the binding takes a START packet next (R121). Grains fetched beyond that end
are given up (R110). e: what the window's snapshot meets. -/
def State.abortStream (s : State) (v n b : Nat) (it : Item) (pos : Int) (e : SnapshotRead) : State :=
  let p := pos * 1024
  let k := ceilDiv (p + 64 * 1024 - it.first) (512 * 1024)
  let len := if it.len = 0 then (k * 512).toNat else min it.len (k * 512).toNat
  let it' : Item := { it with len := len }
  let check := p - s.stmLead b * 1024
  let s := (((s.modVoice v fun x => { x with item := some it' }).setKerf v (it.first + len * 1024)).refetch v).refill v
  let s := (s.missStream v pos (it.first / 1024 + len)).relandJump v it'
  let s := ((s.fireVtrb v 4 (s.posTime v check)).modBinding b fun x => { x with onlyStart := true }).modStream v fun x =>
    { x with ended := true, block := none, decided := (pos, none) :: x.decided }
  if it.closed then s else s.closeItem v n it' check e.ecc e.late

/-- Whether another voice that plays binding b is in the gap that begins with packet seq. -/
def State.gapShared (s : State) (v b seq : Nat) : Bool :=
  anyN 64 fun u => u != v && (s.voice u).stream.gap == some seq && (s.voice u).item.any fun it => it.binding == some b

/-- A missing block (R120, R121). A gap counts once for its binding. -/
def State.missBlock (s : State) (v n b : Nat) (it : Item) (pos : Int) (seq : Nat) (e : SnapshotRead) : State :=
  let x := (s.voice v).stream
  let s := if x.gap.isSome ∨ s.gapShared v b seq then s else (s.bump F.STM_CNT_GAPS b).setF F.STM_STAT_STATE 3 b
  if x.gap.isNone ∧ s.f F.STM_CFG_POLICY b = 2 then s.abortStream v n b it pos e
  else
    let stop := x.blockEnd pos
    (s.missStream v pos stop).modStream v fun y =>
      { (y.advance pos stop none) with
        gap := some (y.gap.getD seq), resumed := y.resumed && y.placed.head?.any fun p => decide (pos < p.first) }

/-- What a fetch of some places reads, when the word at addr meets e; a word found uncorrectable contributes zero (R361). -/
def State.fetchSpans (s : State) (spans : List Span) (e : Ecc) (dram : Bool) (addr : Nat) : Copy × State :=
  let c := s.copyOf spans
  let t := s.eccEvent e dram (s.poisoned dram addr) (if dram then 1 else 0) addr
  (if (foundEcc dram (s.poisoned dram addr) e).bad then { c with bad := (dram, addr / 8 * 8) :: c.bad } else c, t)

/-- A block that is present plays, with the data read at its check, where the word at found meets e (R20, R361); a gap ends with it (R119,
R120). -/
def State.playBlock (s : State) (v b : Nat) (pos : Int) (addr : Nat) (last : Bool) (e : Ecc) (found : Nat) : State :=
  let stop := (s.voice v).stream.blockEnd pos
  let after := (s.voice v).stream.nextFirst pos
  let (data, s) := s.fetchSpans [(s.ringDram b, addr, 64 * s.stmBytes b)] e (s.ringDram b) found
  let s := (s.presentAt v (pos * 1024)).setF F.STM_STAT_STATE 2 b
  s.modStream v fun y =>
    let z := { (y.advance pos stop (some (addr, data))) with gap := none, resumed := false }
    if last then { z with ended := after.isNone, block := after } else z

/-- Whether the grain of the stream item in play that holds voice sample pos is covered: found so at its fetch, or at the refill request of a
DRAM ring, which may lie before the checks of its blocks (R143). -/
def State.blockCovered (s : State) (v : Nat) (it : Item) (pos : Int) : Bool :=
  let x := s.voice v
  let j := ((pos - it.first / 1024) / 512).toNat
  x.covered.contains j ||
    (s.entryInDram it.words && decide (it.next ≤ j) && x.slots[j - it.next]? == some .covered)

/-- The next block of voice v's stream is checked at its instant. -/
def State.checkBlock (s : State) (v n b : Nat) (it : Item) (pos : Int) (r : BlockRead) : State :=
  let g := (s.chan n).grid
  let lead := s.stmLead b
  let s := s.reach (g.voiceAt (pos - lead)).toNat
  let x := (s.voice v).stream
  let e := r.snap
  if s.blockCovered v it pos then
    s.modStream v fun y => y.advance pos (y.blockEnd pos) none
  else match x.placement pos with
    | none => s.missBlock v n b it pos 0 e
    | some pl =>
      let k := pos - pl.begin_
      let seq := wrap 32 (pl.seq + k / max 1 (s.stmSamples b))
      match s.packet b seq with
      | some pk =>
        if g.before pk.arrived ((pos - lead) * 1024) ∨ x.sure = some pos then
          let off := (k % max 1 (s.stmSamples b)).toNat
          s.playBlock v b pos (s.slotAddr b seq + 32 + off * s.stmBytes b) (pk.stop && decide (pk.nsamp ≤ off + 64)) r.ecc r.addr.toNat
        else s.missBlock v n b it pos seq e
      | none => s.missBlock v n b it pos seq e

/-- STREAM_BLOCK_CHECK (R119): the check instant of voice v's next stream block arrives. e says what the block's samples meet and what the
entry does that an ABORT's window snapshots. -/
def execStreamBlockCheck (v : Fin 64) (e : BlockRead) (s : State) : Res :=
  match (s.voice v).item, s.voiceChan v with
  | some it, some n =>
    match it.binding, (s.voice v).stream.block with
    | some b, some pos =>
      if it.len ≠ 0 ∧ it.first / 1024 + it.len ≤ pos then .next s else .next (s.checkBlock v n b it pos e)
    | _, _ => .next s
  | _, _ => .next s

/-! ### Fetches (R109, R110, R112, R143) -/

/-- REFILL_GRAIN_ARRIVE (R109): the oldest grain in flight of voice v is wholly in its line buffer. e is what the word at addr
of it meets. None arrives while the DRAM PLL is unlocked (R360). -/
def execRefillGrainArrive (v : Fin 64) (e : Ecc) (addr : BitVec 37) (s : State) : Res :=
  let x := s.voice v
  let i := x.slots.findIdx (· == .flying)
  if s.mem.pllLost.isSome then .next s
  else match x.slots[i]?, (s.dramAhead v)[i]? with
  | some _, some a =>
    let (c, t) := s.fetchSpans (s.grainSpans a.words (segLen (wordOf a.words 0)) a.grain) e true addr.toNat
    .next ((t.modVoice v fun y => { y with slots := y.slots.set i (.here s.now c) }).refill v)
  | _, _ => .next s

/-- One grain's fetch from SRAM is issued: a covered grain is skipped and counted once, and any other fetches (R143); a covered PAT voice
still reads its lanes. What lies in DRAM comes through refill. ahead: 1 for grain 0 of the item that follows. waits: a late snapshot holds
the fetch back, and the grain's lines are read later (R249). -/
def State.issueGrain (s : State) (v n : Nat) (ws : List Word) (first : Int) (len j ahead : Nat) (e : Ecc) (addr : Nat) (waits : Bool) :
    State :=
  let a := first / 1024 + 512 * j
  let spans := s.grainSpans ws len j
  let read (t : State) : State :=
    if spans.isEmpty || waits then t
    else
      let (c, t) := t.fetchSpans spans e false addr
      t.modVoice v fun x => { x with lines := (ahead, j, c) :: x.lines }
  if s.entryInDram ws then s
  else if s.coveredRun v n a (a + grainLen len j) then
    let t := (s.trouble .coverSkip).modVoice v fun x =>
      if ahead = 0 then { x with covered := j :: x.covered } else { x with coveredNext := true }
    if segMode (wordOf ws 0) = 5 ∧ bits (wordOf ws 0) 3 0 ≠ 0 then read t else t
  else read s

/-- GRAIN_FETCH_ISSUE (R143): the next grain of voice v that starts within 512 samples is fetched, or skipped when it is
covered. e is what the word at addr meets. -/
def execGrainFetchIssue (v : Fin 64) (e : Ecc) (addr : BitVec 37) (s : State) : Res :=
  let x := s.voice v
  match s.voiceChan v with
  | none => .next s
  | some n =>
    let next : Res := match s.nextPlay v with
      | some (ws, f) =>
        if x.fetchedNext then .next s
        else .next ((s.issueGrain v n ws f (segLen (wordOf ws 0)) 0 1 e addr.toNat (x.taken.any fun k => k.words == ws && k.late)).modVoice v fun y =>
          { y with fetchedNext := true })
      | none => .next s
    match x.item with
    | some it =>
      if (it.kind = .play ∨ it.kind = .target) ∧ (it.len = 0 ∨ x.fetched < grains it.len) ∧ x.fetched ≤ it.next then
        .next ((s.issueGrain v n it.words it.first it.len x.fetched 0 e addr.toNat false).modVoice v fun y =>
          { y with fetched := x.fetched + 1 })
      else next
    | none => next

end Sys2Proof.Machine
end

