-- ==== Sys2Proof/Machine/Channel.lean ====
section
/-! DEFINITION. Channels (chapter 06) and what commands do to their converters (chapter 07): configuration checks, starting,
stopping and retuning, run-time writes, slots and moving voices, NCO resets, trim and lane delay, range changes, mute, current
limiting, and leaving park. -/

namespace Sys2Proof.Machine

/-! ### Configuration checks (R16, R131, R132, R137, R149, R155) -/

/-- Whether channels n and m may share a coherent group (R137). -/
def State.sameGrid (s : State) (n m : Nat) : Bool :=
  let e := fun (x : Fld) => s.f x n == s.f x m
  e F.CH_EPOCH_SEC_SEC && e F.CH_EPOCH_FRAC_FRAC && e F.CH_CFG_CPLX && e F.CH_CFG_R && e F.CH_CFG_RHO_BYP &&
    (s.on F.CH_CFG_RHO_BYP n || e F.CH_CFG_RHO) &&
    nWord (s.quadFreq (n / 4)) * dWord (s.quadFreq (m / 4)) == nWord (s.quadFreq (m / 4)) * dWord (s.quadFreq (n / 4))

/-- CFG_CODE of the first check of R132 that fails, FDAC first, or 0. -/
def State.chanCode (s : State) (n : Nat) : Nat :=
  let w := s.quadFreq (n / 4)
  let r := s.f F.CH_CFG_R n
  let lim := if s.on F.CH_CFG_CPLX n then 3 else 6
  let (a, b) := s.latency n
  if ¬ freqLegal w then 8
  else if ¬ rLegal r then 1
  else if ¬ (s.on F.CH_CFG_RHO_BYP n ∨ 0x80000000 ≤ s.f F.CH_CFG_RHO n) then 2
  else if 10 * lim * 2 ^ 64 * dWord w * r < 12 * s.rho n * nWord w then 3
  else if s.on F.CH_CFG_NCO_EN n ∧ ¬ s.on F.CH_CFG_CPLX n then 4
  else if 960000 * b < a then 5
  else if s.on F.CH_GROUP_GID n ∧ anyN 16 (fun m => m != n && s.on F.CH_CTL_EN m &&
      s.f F.CH_GROUP_GID m == s.f F.CH_GROUP_GID n && !s.sameGrid n m) then 6
  else 0

/-- CH_LAT for the present configuration (R152, R155). -/
def State.showLat (s : State) (n : Nat) : State :=
  (s.setF F.CH_LAT_LAT0_PS (s.lat0 n) n).setF F.CH_LAT_TRIM_MAX (s.trimMax n) n

/-! ### Trim and lane delay (R152, R153, R178) -/

/-- The sum of R152: user trim, automatic trim while enabled, and skew, as the run-time boundary has them in force. -/
def State.trimSum (s : State) (n : Nat) : Int :=
  signed 31 (s.inForce n (Reg.CH_TRIM.addr n 0) 30 0) +
    (if s.inForce n (Reg.CH_TRIM.addr n 0) 63 63 = 1 then signed 31 (s.inForce n (Reg.CH_TRIM_AUTO.addr n 0) 30 0) else 0) + s.skew n

/-- Recompute MK_CFG.EFF of the lanes of channel n (R178). -/
def State.retrimLanes (s : State) (n : Nat) : State :=
  forN 4 (fun l t => t.setLane n l (t.inForce n (Reg.MK_CFG.addr n l) 14 0) (t.skew n) (t.mkSkew n l)) s

/-- Recompute the effective trim (R152, R153). -/
def State.retrim (s : State) (n : Nat) : State :=
  let z := s.trimSum n
  let m := s.trimMax n
  let v := if z < 0 then 0 else min z.toNat m
  let s := if z < 0 ∨ (m : Int) < z then (s.flag F.CH_STATUS_TRIM_CLAMP n).fireChev n 2 s.now else s
  let s := if s.on F.CH_STATUS_RUN n ∧ v / 1024 ≠ s.f F.CH_TRIM_EFF_COARSE n then s.flag F.CH_STATUS_TRIM_STEP n else s
  ((s.setF F.CH_TRIM_EFF_COARSE (v / 1024) n).setF F.CH_TRIM_EFF_FRAC (v % 1024) n).retrimLanes n

/-! ### Settings at the converter (R135, R151, R154, R162, R168 to R170) -/

/-- The settings in force of channel n, from DAC sample d on. -/
def State.dacSet (s : State) (n : Nat) (d : Int) : DacSet :=
  let g := fun (r : Reg) (hi lo : Nat) => s.inForce n (r.addr n 0) hi lo
  { from_ := d, mute := g .CH_DAC_CTL 0 0 = 1, ufl := g .CH_DAC_CFG 4 4, carry := g .CH_DAC_CFG 21 16, mode := g .CH_DAC_CFG 1 0,
    droop := g .CH_CFG 7 6, fw := g .CH_NCO_FW 47 0, phase := g .CH_NCO_PH 31 0, coarse := s.f F.CH_TRIM_EFF_COARSE n,
    frac := s.f F.CH_TRIM_EFF_FRAC n, skew := s.skew n, bare := !(s.calBank n).valid }

/-- New settings take effect from DAC sample d on. -/
def State.pushSet (s : State) (n : Nat) (d : Int) : State :=
  s.modChan n fun c => { c with sets := s.dacSet n d :: c.sets }

/-- Settings in force at DAC sample d. -/
def ChanSt.setAt (c : ChanSt) (d : Int) : DacSet := (c.sets.find? fun x => decide (x.from_ ≤ d)).getD { from_ := d }

/-- The effective trim and the lane delays follow, and while the channel runs they take effect with position p of its grid (R152, R153,
R178). -/
def State.retrimFrom (s : State) (n : Nat) (p : Int) : State :=
  if s.on F.CH_STATUS_RUN n then ((s.holdLanes n p).retrim n).pushSet n ((s.chan n).grid.dacOfPlace p) else s.retrim n

/-- The trim follows at once. -/
def State.retrimNow (s : State) (n : Nat) : State := s.retrimFrom n ((s.chan n).grid.place s.now)

/-! ### The NCO (R138, R151) -/

/-- What the frequency words in force from DAC sample a up to b add to the accumulator. -/
def fwSum (a b : Int) : List DacSet → Int
  | [] => 0
  | x :: r => max 0 (b - max a x.from_) * signed 48 x.fw + fwSum a (min b x.from_) r

/-- The accumulator runs on to DAC sample b, through a reset on the way. -/
def ChanSt.ncoTo (c : ChanSt) (b : Int) : ChanSt :=
  match c.ncoZero with
  | some z =>
    if c.nextNco ≤ z ∧ z < b then { c with nco := wrap 48 (fwSum z b c.sets), nextNco := b, ncoZero := none }
    else { c with nco := wrap 48 (c.nco + fwSum c.nextNco b c.sets), nextNco := b }
  | none => { c with nco := wrap 48 (c.nco + fwSum c.nextNco b c.sets), nextNco := b }

/-! ### Moving voices (R139, R140) -/

/-- The slot of a quad that names voice v as written, when one does: channel and slot. -/
def State.slotNaming (s : State) (v : Nat) : Option (Nat × Nat) :=
  ((List.range 4).flatMap fun c => (List.range 8).map fun p => (4 * (v / 16) + c, p)).find? fun q =>
    s.on F.CH_SLOT_EN q.1 q.2 && s.f F.CH_SLOT_VQ q.1 q.2 == v % 16

/-- Whether slot word w names voice v of its quad. -/
def slotNames (v w : Nat) : Bool := bit w 15 && bits w 11 8 == v % 16

/-- Of writes to one slot that wait, each with the value it replaces, and the value written last: the boundary of the one from which on the
slot names voice v, when that one waits. A later write that names v too moves nothing (R140). -/
def namedFrom (v last : Nat) : (acc : Option Int) → List Held → Option Int
  | acc, [] => acc
  | acc, h :: r =>
    let after := match r with | k :: _ => k.old | [] => last
    namedFrom v last (if slotNames v after then (if slotNames v h.old then acc else some h.boundary) else none) r

/-- The run-time boundary from which on slot p of channel n names voice v, when it waits. -/
def State.slotBoundary (s : State) (n p v : Nat) : Option Int :=
  namedFrom v (s.rw .CH_SLOT n p).toNat none ((s.chan n).held.filter fun h => h.addr == Reg.CH_SLOT.addr n p)

/-- A voice without a channel looks for the one a slot names, from exact instant t on: it joins a running channel at its boundary, and one
that does not run at once (R140). -/
def State.seekJoin (s : State) (v : Nat) (t : Int × Int) : State :=
  match s.slotNaming v with
  | none => s.modVoice v fun x => { x with join := none }
  | some (c, p) =>
    if s.on F.CH_CTL_EN c then
      let g := (s.chan c).grid
      let k := g.boundaryFrom t
      s.modVoice v fun x => { x with join := some (c, match s.slotBoundary c p v with | some b => max b k | none => k) }
    else s.modVoice v fun x => { x with drives := some (some c), join := none }

/-- Voice v leaves its channel at exact instant t: its item is abandoned, its marks clear, and it drives no channel (R140, R176). -/
def State.leaveChannel (s : State) (v : Nat) (t : Int × Int) : State :=
  ((s.abandon v).modVoice v fun x => { x.clearMarks with drives := some none, join := none }).seekJoin v t

/-- Whether some slot of channel n in force names voice v. -/
def State.slotHas (s : State) (n v : Nat) : Bool :=
  anyN 8 fun p => bit (s.slotInForce n p) 15 && 16 * (n / 4) + bits (s.slotInForce n p) 11 8 == v

/-- The voices that no slot in force names any more leave channel n at exact instant t (R140). -/
def State.leavers (s : State) (n : Nat) (t : Int × Int) : State :=
  (s.voicesOf n).foldl (fun u v => if s.slotHas n v then u else u.leaveChannel v t) s

/-- VOICE_JOIN (R140): voice v reaches the boundary at which it joins its new channel. -/
def execVoiceJoin (v : Fin 64) (s : State) : Res :=
  match (s.voice v).join with
  | some (n, k) =>
    let s := s.reach ((s.chan n).grid.voiceAt (512 * k)).toNat
    if s.slotNaming v = none ∨ (s.slotNaming v).map (·.1) ≠ some n then .next (s.seekJoin v ((s.chan n).grid.exactPlace (512 * k * 1024)))
    else
      let t := s.modVoice v fun x => { x with drives := some (some n), join := none }
      .next (if s.on F.CH_STATUS_RUN n then t.startVoice v (512 * k * 1024) else t)
  | none => .next s

/-! ### Run-time writes (R135) -/

/-- Bits hi..lo of a register word of channel n are about to be written with a run-time value: while EN = 1 the old value acts
until the run-time boundary. -/
def State.defer (s : State) (n addr hi lo new : Nat) : State :=
  let old := bits (s.word addr).toNat hi lo
  if ¬ s.on F.CH_CTL_EN n ∨ old = new then s
  else
    let b := (s.chan n).grid.runtime s.now
    if (s.chan n).held.any fun h => h.addr == addr && h.hi == hi && h.lo == lo && h.boundary == b then s
    else s.modChan n fun c => { c with held := c.held ++ [⟨addr, hi, lo, old, b⟩] }

/-- DTIME at which DAC sample d of channel n appears at the pins, with the trim in force for it (R160). With no valid bank the converter takes
its own delay (R317). -/
def State.pinTime (s : State) (n : Nat) (d : Int) : Nat :=
  let c := s.chan n
  let x := c.setAt d
  let q := c.out.delay (s.fixedDelay n - (if x.bare then s.converterLack n else 0)) (x.coarse * 1024 + x.frac - x.skew)
  (c.out.dacAt d + roundDiv q.1 q.2).toNat

/-- The marker of a range change that waits for a run-time boundary while muted (R166). -/
def State.rangeMark (s : State) (n : Nat) : State :=
  let c := s.chan n
  let addr := Reg.CH_DAC_RANGE.addr n 0
  let end_ := match c.rangeTo with
    | some e => s.pinTime n e
    | none => 0
  let b := max (c.grid.runtime s.now) (c.grid.boundaryAfter end_ 0)
  if c.held.any fun h => h.addr == addr then s
  else s.modChan n fun c => { c with held := c.held ++ [⟨addr, 12, 12, 0, b⟩] }

/-- The other bank becomes active (R318). -/
def State.applyFlip (s : State) (n : Nat) : State :=
  (s.setB F.CAL_STATUS_ACTIVE (!s.on F.CAL_STATUS_ACTIVE n) n).modCal n fun c => { c with flip := none }

/-- Whether a host flip of channel n waits, for boundary k when one is named: its marker stands among the held writes. -/
def State.flipHeld (s : State) (n : Nat) (k : Option Int) : Bool :=
  (s.chan n).held.any fun h => h.addr == Reg.CAL_CTL.addr n 0 && (match k with | some b => h.boundary == b | none => true)

/-- What takes effect at position p when run-time writes of channel n no longer wait: voices leave, the trim and the lane delays follow,
and new settings reach the converter with the DAC sample of p. -/
def State.settleChannel (s : State) (n : Nat) (p : Int) : State :=
  (s.leavers n ((s.chan n).grid.exactPlace p)).retrimFrom n p

/-- A passing write of bits hi..lo of a run-time register of channel n has been stored: while EN = 0 it acts at once, in the place of one
that waits (R135). -/
def State.actNow (s : State) (n addr hi lo : Nat) : State :=
  if s.on F.CH_CTL_EN n then s
  else
    let t := s.modChan n fun c => { c with held := c.held.filter fun h => !(h.addr == addr && h.hi == hi && h.lo == lo) }
    if t.on F.CH_STATUS_RUN n then t.settleChannel n ((t.chan n).grid.place t.now) else (t.leavers n (exactly t.now)).retrim n

/-- The earliest run-time boundary that waits on channel n. -/
def State.nextBoundary (s : State) (n : Nat) : Option Int :=
  (s.chan n).held.foldl (fun m h => match m with | none => some h.boundary | some b => some (min b h.boundary)) none

/-- RUNTIME_BOUNDARY (R135): the writes to channel n that wait for its next run-time boundary take effect. -/
def execRuntimeBoundary (n : Fin 16) (s : State) : Res :=
  match s.nextBoundary n with
  | none => .next s
  | some k =>
    let g := (s.chan n).grid
    let d := g.dacOfPlace (512 * k * 1024)
    let s := s.reach (g.voiceAt (512 * k)).toNat
    let range := (s.chan n).held.any fun h => h.addr == Reg.CH_DAC_RANGE.addr n 0 && h.boundary == k
    let flip := s.flipHeld n (some k)
    let s := s.modChan n fun c => { c with held := c.held.filter fun h => h.boundary != k }
    let s := if flip then s.applyFlip n else s
    let s := if range ∧ s.on F.CH_DAC_RANGE_RC_PEND n then s.modChan n fun c => { c with rangeAt := some d } else s
    .next (s.settleChannel n (512 * k * 1024))

/-! ### Enabling and starting (R132, R134) -/

/-- The phase of the NCO at DAC sample d, had it run since the epoch at the present frequency word (R138). -/
def State.ncoAt (s : State) (n : Nat) (d : Int) : Nat := wrap 48 (signed 48 (s.inForce n (Reg.CH_NCO_FW.addr n 0) 47 0) * d)

/-- The check of a write of EN = 1 that counts from exact instant t, and the start it schedules (R132, R134). -/
def State.enableCheck (s : State) (n : Nat) (t : Int × Int) : State :=
  let c := s.chanCode n
  let s := s.setF F.CH_STATUS_CFG_CODE c n
  if c ≠ 0 then s.flag F.CH_STATUS_CFG_ERR n
  else
    let g := s.gridOf n
    let s := (((s.flag F.CH_CTL_EN n).calCut n 6).showLat n).retrim n
    s.modChan n fun x => { x with grid := g, start := some (max 0 (g.boundary2us t)) }

/-- CH_ENABLE (R132): a passing write of EN = 1 in a channel whose EN is 0. One that still stops is enabled when it has. -/
def State.enableChannel (s : State) (n : Nat) : State :=
  if (s.chan n).stop.isSome then s.modChan n fun c => { c with again := true } else s.enableCheck n (exactly s.now)

/-- The first grid boundary after an instant. -/
def Grid.boundaryPast (g : Grid) (t : Nat) : Int := ((t : Int) - g.epoch) * g.vden / (512 * g.vnum) + 1

/-- NCO_RESYNC of a channel reads 1 until every reset that its write asked for is done (R138). -/
def State.showResync (s : State) : State :=
  forN 16 (fun w t =>
    if anyN 16 fun m => (t.chan m).ncoReset.any fun r => r.by_ == w then t else t.clr F.CH_CTL_NCO_RESYNC w) s

/-- The requests for a range change of channel n that voices have committed are void: another has taken their place, or none waits
(R166). -/
def State.dropRange (s : State) (n : Nat) : State :=
  (forN 64 (fun v t =>
    let x := t.voice v
    if x.range = some n ∨ x.pending.any (·.range == some n) then
      t.modVoice v fun x => { x with range := if x.range = some n then none else x.range,
                                     pending := x.pending.map fun j => if j.range = some n then { j with range := none } else j }
    else t) s).modChan n fun c =>
      { c with rangeAt := none, held := c.held.filter fun h => h.addr != Reg.CH_DAC_RANGE.addr n 0 }

/-- Nothing of channel n waits any more, from position p of its grid on: run-time writes act at once, a pending range applies, no spare stands
in (R313), and its output parks from the DAC sample of p on (R134, R165, R166). -/
def State.rest (s : State) (n : Nat) (p : Int) : State :=
  let s := (if s.on F.CH_DAC_RANGE_RC_PEND n then
      (s.setF F.CH_DAC_RANGE_RANGE_ACT (s.f F.CH_DAC_RANGE_RANGE_NEXT n) n).clr F.CH_DAC_RANGE_RC_PEND n
    else s).dropRange n
  let flip := s.flipHeld n none
  let at_ := (s.chan n).grid.exactPlace p
  let s := (s.modChan n fun c =>
    { c with held := [], start := none, stop := none, ncoReset := none, ncoZero := none,
             rangeTo := if s.on F.CH_DAC_STATUS_RANGE_BUSY n then c.rangeTo else none,
             stopDac := some (if c.restart then c.nextDac else c.grid.dacOfPlace p), restart := false }).showResync
  let s := if flip then s.applyFlip n else s
  ((s.leavers n at_).retrim n).modCal n fun c => { c with spare := none, back := false }

/-- The voices of channel n abandon their items and lose their marks (R134, R176). -/
def State.cutVoices (s : State) (n : Nat) : State :=
  (s.voicesOf n).foldl (fun t v => (t.abandon v).modVoice v fun x => x.clearMarks) s

/-- Channel n stops at grid boundary k (R134). -/
def State.stopChannel (s : State) (n : Nat) (k : Int) : State := ((s.cutVoices n).clr F.CH_STATUS_RUN n).rest n (512 * k * 1024)

/-- CH_DISABLE (R134): a passing write of EN = 0 in a channel whose EN is 1. A range change that has not started waits for the stop (R166). A
channel that has not started has nothing to stop, and its output stays where it is (R165). -/
def State.disableChannel (s : State) (n : Nat) : State :=
  let s := (s.clr F.CH_CTL_EN n).calCut n 6
  if s.on F.CH_STATUS_RUN n then (s.dropRange n).modChan n fun c => { c with stop := some (c.grid.boundaryPast s.now) }
  else
    let parked := (s.chan n).stopDac
    (s.rest n ((s.chan n).grid.place s.now)).modChan n fun c => { c with stopDac := parked }

/-- The converter goes over to grid g, on which a tRANGE in progress keeps its instants, DTIME having stepped by delta (R167, R231). -/
def ChanSt.ontoGrid (c : ChanSt) (g : Grid) (delta : Int) : ChanSt :=
  let move := fun d =>
    let t := c.out.exactDac d
    g.dacFromExact (t.1 + delta * t.2, t.2)
  if c.out = g ∧ delta = 0 then c
  else { c with out := g, rangeAt := c.rangeAt.map move, rangeFrom := move c.rangeFrom, rangeTo := c.rangeTo.map move }

/-- The voices of channel n get a start instant at boundary k (R81), and its elastic buffer starts there: no composed sample is
left, and the NCO holds what R138 gives. -/
def State.startAt (s : State) (n : Nat) (k : Int) : State :=
  let p := 512 * k * 1024
  let d := (s.chan n).grid.dacOfPlace p
  let s := (s.voicesOf n).foldl (fun t v => t.startVoice v p) s
  ((s.modChan n fun c =>
    { (c.ontoGrid c.grid 0) with
      sums := [], line := [], ahead := 0, again_ := 0, coarse := s.f F.CH_TRIM_EFF_COARSE n, lanes := []
      nextVoice := 512 * k, nextDac := d, nextNco := d, sets := [], nco := s.ncoAt n d, stopDac := none
      rangeTo := if s.on F.CH_DAC_STATUS_RANGE_BUSY n then (c.ontoGrid c.grid 0).rangeTo else none
      shown := false, cond := 1, code := 0, prev := 0, carried := false, kept := none, ufl := 0 }).pushSet n d).sendLanes n p

/-- CHANNEL_START (R134): channel n reaches its start boundary. -/
def execChannelStart (n : Fin 16) (s : State) : Res :=
  match (s.chan n).start with
  | some k =>
    let s := s.reach ((s.chan n).grid.voiceAt (512 * k)).toNat
    let s := (s.flag F.CH_STATUS_RUN n).modChan n fun c =>
      { c with start := none, unlocked := s.f F.SP_STATUS_STATE (n.val / 4) != 4, restart := false,
               brown := s.on F.PWR_STATUS_BO_ACTIVE && s.on F.PWR_BO_CFG_PARK }
    .next (s.startAt n k)
  | none => .next s

/-- CHANNEL_STOP (R134): channel n reaches the boundary at which it stops, and an enable that waited is checked there. -/
def execChannelStop (n : Fin 16) (s : State) : Res :=
  match (s.chan n).stop with
  | some k =>
    let again := (s.chan n).again
    let t := (s.chan n).grid.exactPlace (512 * k * 1024)
    let s := (s.reach ((s.chan n).grid.voiceAt (512 * k)).toNat).modChan n fun c => { c with again := false }
    let s := s.stopChannel n k
    .next (if again then s.enableCheck n t else s)
  | none => .next s

/-! ### Retuning (R132, R210) -/

/-- Channel n waits parked for its restart, or its stop, on the grid its registers and F_DAC give, DTIME having stepped by delta (R210,
R231). Its voices abandon their items. What waits for a boundary takes its boundary on the new grid, the flip of a calibration run
too (R318); a range change in progress keeps its instants. -/
def State.regrid (s : State) (n : Nat) (delta : Int) : State :=
  let s := (s.voicesOf n).foldl (fun t v => t.abandon v) s
  let g := s.gridOf n
  let now := exactly s.now
  let s := s.modCal n fun c => { c with flip := c.flip.map fun _ => g.runtime s.now }
  let s := s.modChan n fun c =>
    { (c.ontoGrid g delta) with
      grid := g, unlocked := true, restart := s.on F.CH_STATUS_RUN n, sums := [], line := [], ahead := 0
      start := c.start.map fun _ => max 0 (g.boundary2us now)
      stop := c.stop.map fun _ => g.boundaryPast s.now
      held := c.held.map fun h => { h with boundary := g.runtime s.now }
      ncoReset := c.ncoReset.map fun r =>
        { r with at_ := if r.late then g.dacOfPlace (512 * g.runtime s.now * 1024) else g.dacFrom r.want } }
  forN 64 (fun v t => match (t.voice v).join with
    | some (m, _) => if m = n then t.modVoice v fun x => { x with join := some (n, g.boundaryFrom now) } else t
    | none => t) s

/-- The quad's F_DAC has changed for channel n. While it is enabled it is checked anew, and is disabled with code FDAC or waits parked for
its restart on the new grid; one that only runs on to its stop parks until then (R132, R210). -/
def State.retuneChannel (s : State) (n : Nat) : State :=
  if ¬ s.on F.CH_CTL_EN n then
    ((s.showLat n).retrim n).modChan n fun c => { c with unlocked := c.unlocked || s.on F.CH_STATUS_RUN n }
  else if s.chanCode n ≠ 0 then
    let s := ((((s.clr F.CH_CTL_EN n).calCut n 6).setF F.CH_STATUS_CFG_CODE 8 n).flag F.CH_STATUS_CFG_ERR n).showLat n
    ((s.cutVoices n).clr F.CH_STATUS_RUN n).rest n ((s.chan n).grid.place s.now) |>.modChan n fun c =>
      { c with stopDac := some c.nextDac }
  else
    let s := ((s.setF F.CH_STATUS_CFG_CODE 0 n).showLat n).regrid n 0
    if s.on F.CH_STATUS_RUN n then s else s.retrim n

/-- Channel n leaves park at boundary k of its grid after a relock (R210, R217): its elastic buffer fills anew, and its NCO stands where it
would had it never parked. A calibration result rescaled meanwhile enters the trim here (R312). -/
def State.relockChannel (s : State) (n : Nat) (k : Int) : State :=
  let s := s.reach ((s.chan n).grid.voiceAt (512 * k)).toNat
  if (s.chan n).restart then ((s.retrim n).modChan n fun c => { c with unlocked := false, restart := false }).startAt n k
  else
    let s := s.retrimFrom n (512 * k * 1024)
    let d := (s.chan n).grid.dacOfPlace (512 * k * 1024)
    s.modChan n fun c =>
      if c.nextNco ≤ d then
        { c.ncoTo d with unlocked := false, nextDac := d, sums := [], line := [], ahead := 0, again_ := 0,
                         coarse := (c.setAt d).coarse, cond := 2 }
      else { c with unlocked := false, sums := [], cond := 2 }

/-- CHANNEL_UNPARK (R217): channel n leaves park at the first grid boundary at least 2 µs after its relock, its release, or the
end of the warning (R210, R217, R301). -/
def execChannelUnpark (n : Fin 16) (s : State) : Res :=
  let c := s.chan n
  if ¬ s.on F.CH_STATUS_RUN n then .next s
  else if c.unlocked ∧ s.f F.SP_STATUS_STATE (n.val / 4) = 4 then
    .next (s.relockChannel n (c.grid.boundary2us (exactly (s.sp (n.val / 4)).since)))
  else if c.brown ∧ ¬ s.on F.PWR_STATUS_BO_ACTIVE then
    .next ((s.reach (c.grid.voiceAt (512 * c.grid.boundary2us (exactly c.brownClear))).toNat).modChan n fun x => { x with brown := false })
  else .next s

/-! ### NCO resync (R138) -/

/-- The channels that a resync written to channel n resets. -/
def State.resyncGroup (s : State) (n : Nat) : List Nat :=
  (List.range 16).filter fun m => s.on F.CH_CTL_EN m &&
    (m == n || (s.on F.CH_GROUP_GID n && s.f F.CH_GROUP_GID m == s.f F.CH_GROUP_GID n))

/-- A write of 1 to NCO_RESYNC (R138). The resets take the instant that CH_NCO_EPOCH holds now, and each takes the place of one that
waits in its channel (DESIGN CHOICE, log entry 72). -/
def State.ncoResync (s : State) (n : Nat) : State :=
  let t := s.at F.CH_NCO_EPOCH_SEC_SEC F.CH_NCO_EPOCH_FRAC_FRAC n
  let ms := s.resyncGroup n
  (ms.foldl (fun u m =>
    let g := (s.chan m).grid
    let late := decide (((t : Int) - s.now) * g.vden < 64 * g.vnum)
    let d := if late then g.dacOfPlace (512 * g.runtime s.now * 1024) else g.dacFrom t
    u.modChan m fun c => { c with ncoReset := some ⟨d, late, t, n⟩ }) (if ms.isEmpty then s else s.flag F.CH_CTL_NCO_RESYNC n)).showResync

/-- The accumulator of channel m is reset at its DAC sample (R138). -/
def State.ncoZeroed (s : State) (m : Nat) (r : NcoReset) : State :=
  (if r.late then s.flag F.CH_STATUS_NCO_LATE m else s).modChan m fun c =>
    if c.nextNco ≤ r.at_ then { c with ncoReset := none, ncoZero := some r.at_ }
    else { c with ncoReset := none, ncoZero := none, nco := wrap 48 (fwSum r.at_ c.nextNco c.sets) }

/-- NCO_RESET (R138): the accumulator of channel n, and of every member whose reset falls on the same instant, is 0 at its DAC
sample. -/
def execNcoReset (n : Fin 16) (s : State) : Res :=
  match (s.chan n).ncoReset with
  | none => .next s
  | some r =>
    let s := s.reach ((s.chan n).grid.dacAt r.at_).toNat
    .next (forN 16 (fun m t => if (t.chan m).ncoReset = some r then t.ncoZeroed m r else t) s).showResync

/-! ### Register writes of a channel block -/

/-- A passing write of CH_CFG, CH_EPOCH or CH_GROUP with new word w: while EN = 1 only the run-time field DROOP changes, and an
attempt on any other sets CFG_ERR with code BUSY (R132). -/
def State.writeStatic (s : State) (r : Reg) (n : Nat) (w : Word) : State :=
  if ¬ s.on F.CH_CTL_EN n then
    let t := (s.setRw r w n).showLat n
    if r = .CH_CFG then t.actNow n (r.addr n 0) 7 6 else t.retrim n
  else
    let old := (s.rw r n).toNat
    let lo := if r = .CH_CFG then 6 else 0
    let hi := if r = .CH_CFG then 7 else 0
    let kept := if r = .CH_CFG then setBits w.toNat hi lo (bits old hi lo) else w.toNat
    let s := if kept ≠ old then (s.setF F.CH_STATUS_CFG_CODE 7 n).flag F.CH_STATUS_CFG_ERR n else s
    if r = .CH_CFG then
      (s.defer n (r.addr n 0) 7 6 (bits w.toNat 7 6)).setRw r (BitVec.ofNat 64 (setBits old 7 6 (bits w.toNat 7 6))) n
    else s

/-- A passing write of a register whose field hi..lo is run-time (R135): the trim and the converter follow at once while EN = 0. -/
def State.writeRuntime (s : State) (r : Reg) (n j hi lo : Nat) (w : Word) : State :=
  ((s.defer n (r.addr n j) hi lo (bits w.toNat hi lo)).setRw r w n j).actNow n (r.addr n j) hi lo

/-- A passing write of CH_TRIM: AUTO_EN and USER are run-time (R152). -/
def State.writeTrim (s : State) (n : Nat) (w : Word) : State :=
  let a := Reg.CH_TRIM.addr n 0
  ((((s.defer n a 30 0 (bits w.toNat 30 0)).defer n a 63 63 (bits w.toNat 63 63)).setRw .CH_TRIM w n).actNow n a 30 0).actNow n a 63 63

/-- A passing write of CH_SLOTp (R139, R140). -/
def State.writeSlot (s : State) (n p : Nat) (w : Word) : State :=
  let v := 16 * (n / 4) + bits w.toNat 11 8
  let taken := anyN 4 fun c => anyN 8 fun q => (4 * (n / 4) + c != n || q != p) &&
    s.on F.CH_SLOT_EN (4 * (n / 4) + c) q && s.f F.CH_SLOT_VQ (4 * (n / 4) + c) q == bits w.toNat 11 8
  if (bit w.toNat 15 ∧ taken) ∨ bits w.toNat 5 4 = 3 ∨ 2 ≤ bits w.toNat 1 0 then s.flag F.CH_STATUS_XB_ERR n
  else
    let s := ((s.defer n (Reg.CH_SLOT.addr n p) 15 0 (bits w.toNat 15 0)).setRw .CH_SLOT w n p).actNow n (Reg.CH_SLOT.addr n p) 15 0
    if bit w.toNat 15 ∧ s.voiceChan v = none then s.seekJoin v (exactly s.now) else s

/-- A passing write of CH_DAC_CFG (R161, R173): MODE 3 and a change of TERM while EN = 1 are ignored and set CFG_ERR; the other
fields are run-time. -/
def State.writeDacCfg (s : State) (n : Nat) (w : Word) : State :=
  let a := Reg.CH_DAC_CFG.addr n 0
  let badMode := bits w.toNat 1 0 = 3
  let badTerm := s.on F.CH_CTL_EN n ∧ bits w.toNat 8 8 ≠ s.f F.CH_DAC_CFG_TERM n
  let x := if badMode then setBits w.toNat 1 0 (s.f F.CH_DAC_CFG_MODE n) else w.toNat
  let x := if badTerm then setBits x 8 8 (s.f F.CH_DAC_CFG_TERM n) else x
  let s := if badMode ∨ badTerm then s.flag F.CH_DAC_STATUS_CFG_ERR n else s
  let s := (((s.defer n a 21 16 (bits x 21 16)).defer n a 4 4 (bits x 4 4)).defer n a 1 0 (bits x 1 0)).setRw .CH_DAC_CFG
    (BitVec.ofNat 64 x) n
  ((s.actNow n a 21 16).actNow n a 4 4).actNow n a 1 0

/-- A passing write of CH_DAC_CTL (R168); setting MUTE with a range request pending gives the request a run-time boundary, and clearing it
before that boundary gives the request back to a kerf (R166). -/
def State.writeMute (s : State) (n : Nat) (w : Word) : State :=
  let a := Reg.CH_DAC_CTL.addr n 0
  let t := ((s.defer n a 0 0 (bits w.toNat 0 0)).setRw .CH_DAC_CTL w n).actNow n a 0 0
  if ¬ t.on F.CH_CTL_EN n ∨ ¬ t.on F.CH_DAC_RANGE_RC_PEND n ∨ (t.chan n).rangeAt.isSome then t
  else if bit w.toNat 0 then t.rangeMark n
  else t.modChan n fun c => { c with held := c.held.filter fun h => h.addr != Reg.CH_DAC_RANGE.addr n 0 }

/-- A passing write of CH_DAC_RANGE (R166): a request, in the place of one that has not started. With EN = 0 and a stop to come the range
changes at once. -/
def State.writeRange (s : State) (n : Nat) (w : Word) : State :=
  let next := bits w.toNat 1 0
  let s := s.setRw .CH_DAC_RANGE w n
  if ¬ s.on F.CH_CTL_EN n then ((s.setF F.CH_DAC_RANGE_RANGE_ACT next n).clr F.CH_DAC_RANGE_RC_PEND n).dropRange n
  else if next = s.f F.CH_DAC_RANGE_RANGE_ACT n ∧ ¬ s.on F.CH_DAC_RANGE_RC_PEND n then s
  else
    let t := (s.flag F.CH_DAC_RANGE_RC_PEND n).dropRange n
    if t.on F.CH_DAC_CTL_MUTE n then t.rangeMark n else t

/-! ### Range changes (R166, R167) -/

/-- DAC samples in tRANGE: 2 µs rounded up (R167). -/
def Grid.rangeSamples (g : Grid) : Int := ceilDiv (2 * second * g.den) (1000000 * g.num)

/-- RANGE_CHANGE_START (R167): the range change of channel n appears at the pins, and tRANGE begins. -/
def execRangeChangeStart (n : Fin 16) (s : State) : Res :=
  match (s.chan n).rangeAt with
  | some d =>
    if ¬ s.on F.CH_CTL_EN n then .next s
    else
    let s := s.reach (s.pinTime n d)
    let s := ((s.setF F.CH_DAC_RANGE_RANGE_ACT (s.f F.CH_DAC_RANGE_RANGE_NEXT n) n).clr F.CH_DAC_RANGE_RC_PEND n).flag
      F.CH_DAC_STATUS_RANGE_BUSY n
    .next (((s.dropRange n).calCut n 4).modChan n fun c =>
      { c with rangeFrom := d, rangeTo := some (d + c.out.rangeSamples) })
  | none => .next s

/-- RANGE_DONE (R167): tRANGE of channel n ends. -/
def execRangeDone (n : Fin 16) (s : State) : Res :=
  match (s.chan n).rangeTo with
  | some e =>
    if s.on F.CH_DAC_STATUS_RANGE_BUSY n then
      let s := s.reach (s.pinTime n e)
      .next (((((s.clr F.CH_DAC_STATUS_RANGE_BUSY n).bump F.CH_DAC_CNT_RANGE_CHG n).fireChev n 0 (s.pinTime n e)).modChan n fun c =>
        { c with rangeTo := if e ≤ c.nextDac then none else c.rangeTo }).calRequests)
    else .next s
  | none => .next s

/-! ### Current limits and bias (R164, R171) -/

/-- Whether and since when the limit of a leg is engaged: leg P when p. -/
def ChanSt.leg (c : ChanSt) (p : Bool) : Option Nat := if p then c.legP else c.legN
def ChanSt.setLeg (c : ChanSt) (p : Bool) (t : Option Nat) : ChanSt := if p then { c with legP := t } else { c with legN := t }

/-- SC_ENGAGE (R171): the current limit of a leg of channel n engages. -/
def execScEngage (n : Fin 16) (p : Bool) (s : State) : Res :=
  .next (if ((s.chan n).leg p).isSome then s else s.modChan n fun c => c.setLeg p (some s.now))

/-- n nanoseconds in DTIME units, rounded up. -/
def nanos (n : Nat) : Nat := (n * second + 999999999) / 1000000000

/-- SC_EPISODE (R171): a leg of channel n has limited for 20 ns without a break. -/
def execScEpisode (n : Fin 16) (p : Bool) (s : State) : Res :=
  match (s.chan n).leg p with
  | some t =>
    if s.on F.CH_DAC_STATUS_SC_ACTIVE n then .next s
    else
      let s := s.reach (t + nanos 20)
      .next ((((s.flag F.CH_DAC_STATUS_SC_FLAG n).flag F.CH_DAC_STATUS_SC_ACTIVE n).bump F.CH_DAC_CNT_SC_EPIS n).fireChev n 1 s.now)
  | none => .next s

/-- CURRENT_LIMIT_RELEASED (R171): the fault at a pin of channel n goes away. -/
def execCurrentLimitReleased (n : Fin 16) (p : Bool) (s : State) : Res :=
  .next (s.modChan n fun c => { (c.setLeg p none) with released := if (c.leg p).isSome then s.now else c.released })

/-- SC_RELEASE (R171): the limits of channel n have been released for 1 µs. -/
def execScRelease (n : Fin 16) (s : State) : Res :=
  let c := s.chan n
  if s.on F.CH_DAC_STATUS_SC_ACTIVE n ∧ c.legP = none ∧ c.legN = none then
    .next ((s.reach (c.released + nanos 1000)).clr F.CH_DAC_STATUS_SC_ACTIVE n)
  else .next s

/-- 20 µs of DTIME, rounded up: by then the bias has settled (R164, R165). -/
def biasTime : Nat := nanos 20000

/-- DAC_BIAS_SETTLED (R164, R165): the array's bias of channel n settles 20 µs after its analog domain switched on. -/
def execDacBiasSettled (n : Fin 16) (s : State) : Res :=
  if s.dom (32 + n.val) ∧ ¬ (s.chan n).bias then
    let t := s.reach ((s.chan n).biasFrom + biasTime)
    .next ((t.modChan n fun c => { c with bias := true }).calRequests)
  else .next s

/-- Whether the output is parked from DAC sample d on because the channel stopped there, or no channel runs (R165). -/
def State.parkedAt (s : State) (n : Nat) (d : Int) : Bool :=
  match (s.chan n).stopDac with
  | some e => decide (e ≤ d)
  | none => !s.on F.CH_STATUS_RUN n

/-- Whether the output of channel n is parked by its channel: no sample of a run has come yet, or the stop has reached the pins (R165). -/
def State.idlePark (s : State) (n : Nat) : Bool :=
  let c := s.chan n
  s.parkedAt n c.nextDac || !c.shown || c.stopDac.any fun e => decide (s.pinTime n e ≤ s.now)

/-- OUT_STATE as it reads (R174): ANA_OFF without the domain and until the bias settles (R164), then the precedences of R28 that hold now,
and otherwise the condition that governed the last sample shown. -/
def State.outState (s : State) (n : Nat) : Nat :=
  let c := s.chan n
  if ¬ s.dom (32 + n) ∨ ¬ c.bias then 0
  else if s.idlePark n then 1
  else if c.unlocked then 2
  else if c.brown then 3
  else c.cond

/-! ### The spare (R172, R313) -/

/-- Whether unary slice i conducts while the array holds code c: M of R170 counts the slices that do (R158). -/
def sliceOn (i : Nat) (c : Int) : Bool := decide ((i : Int) < (c + 32768) / 1024)

/-- Whether slice i of channel n may change places with the spare between the two DAC samples last presented: the output is neither
parked, nor in tRANGE, nor in a carry hold, and the slice keeps its steering (R172). With EN = 0 nothing is exchanged, and nothing
waits (R313). -/
def State.mayExchange (s : State) (n i : Nat) : Bool :=
  let c := s.chan n
  !s.on F.CH_CTL_EN n || (decide (4 < s.outState n) && !c.carried && sliceOn i c.prev == sliceOn i c.code)

/-- The slice in whose place the spare stands from now on. With EN = 0 it stands in for none. -/
def State.setSpare (s : State) (n : Nat) (i : Option Nat) : State :=
  s.modCal n fun c => { c with spare := if s.on F.CH_CTL_EN n then i else none, back := false }

/-- The spare that a cut-short run left in a slice's place goes back at the first DAC sample that R172 permits (R316). -/
def State.spareBack (s : State) (n : Nat) : State :=
  match (s.cal n).spare with
  | some i => if (s.cal n).back ∧ s.mayExchange n i then s.setSpare n none else s
  | none => s

end Sys2Proof.Machine
end

