-- ==== Sys2Proof/Machine/Phasor.lean ====
section
/-! DEFINITION. Sines and cosines (R86, R89, R145, R151) and the form of every filter (R80, R149, R150, R152, R154). A sine is computed in
fixed point; what the spec leaves open is the direction in which a table's entry is rounded, and the taps. -/

namespace Sys2Proof.Machine

/-- I and Q. -/
abbrev IQ := Int × Int

/-- The numbers from k − n to k + n. -/
def around (k : Int) (n : Nat) : List Int := (List.range (2 * n + 1)).map fun (i : Nat) => k - n + i

/-! ### The sine of a quarter wave -/

/-- π / 2 in units of 2^-96. -/
def halfPi : Nat := 124451306656115542615260972311

/-- 1 − x² / (n (n + 1)) (1 − x² / ((n + 2) (n + 3)) (…)), the given number of terms of it, in units of 2^-96, from x² in the same units. -/
def sineTerms (x2 : Nat) : (terms n : Nat) → Nat
  | 0, _ => 2 ^ 96
  | k + 1, n => 2 ^ 96 - x2 * sineTerms x2 k (n + 2) / (n * (n + 1)) / 2 ^ 96

/-- sin (π / 2 × r / 2^k) for r at most 2^k, in units of 2^-96, with an error below 2^-90. -/
def quarterSine (r k : Nat) : Nat :=
  let x := halfPi * r / 2 ^ k
  x * sineTerms (x * x / 2 ^ 96) 20 2 / 2 ^ 96

/-- The sine of an angle of a / (4 × 2^k) turns, from the values that a quarter wave gives at 0 to 2^k: it rises in an even quadrant, falls in an
odd one, and is negative in the second half turn. -/
def foldSine (quarter : Nat → Int) (k a : Nat) : Int :=
  let r := a % 2 ^ k
  let y := quarter (if a / 2 ^ k % 2 = 0 then r else 2 ^ k - r)
  if a / 2 ^ k % 4 < 2 then y else -y

/-- Cosine and sine of the same angle. -/
def foldIQ (quarter : Nat → Int) (k a : Nat) : IQ := (foldSine quarter k (a + 2 ^ k), foldSine quarter k a)

/-! ### The generator of R89 -/

/-- Entry i of the quarter-wave table, 2^17 sin (π i / 8192) in whole units, rounded down or up. -/
def tableEntry (i : Nat) : Nat :=
  if i = 0 then 0 else if 4096 ≤ i then 2 ^ 17 else quarterSine i 12 / 2 ^ 79 + (Config.tableUp i).toNat

/-- The quarter wave at u / 2^16 entries: the entry, corrected toward the next in first order. -/
def tableSine (u : Nat) : Int :=
  let t : Int := tableEntry (u / 2 ^ 16)
  if u % 2 ^ 16 = 0 then t
  else t + (tableEntry (u / 2 ^ 16 + 1) - t) * (u % 2 ^ 16 : Nat) / 2 ^ 16 + (Config.correctionUp u).toNat

/-- 2^17 times cosine and sine of accumulator value a: quadrant in bits [47:46], table index in bits [45:34] and correction in bits [33:18]
(R86, R89). -/
def phasor (a : Nat) : IQ := foldIQ tableSine 28 (a / 2 ^ 18)

/-! ### The phasors of R145 and R151 -/

/-- 2^40 times cosine and sine of phi / 2^24 turns, rounded toward zero. -/
def turnPhasor (phi : Nat) : IQ := foldIQ (fun r => if 2 ^ 22 ≤ r then 2 ^ 40 else (quarterSine r 22 / 2 ^ 56 : Nat)) 22 phi

/-- The channel NCO's quarter wave, 2^17 times the sine in whole units, rounded down or up. -/
def ncoSine (r : Nat) : Int :=
  if r = 0 then 0 else if 2 ^ 46 ≤ r then 2 ^ 17 else (quarterSine r 46 / 2 ^ 79 + (Config.ncoUp r).toNat : Nat)

/-- 2^17 times cosine and sine of the channel NCO's angle, a / 2^48 turns (R151). -/
def ncoPhasor (a : Nat) : IQ := foldIQ ncoSine 46 a

/-! ### Filters -/

/-- The output of a filter at k, in units of 2^-30: each input within n of k, times the tap at its distance. -/
def firAt (tap : Int → Int) (n : Nat) (x : Int → Int) (k : Int) : Int := ((around 0 n).map fun d => tap d * x (k + d)).sum

/-- Output k of a filter that raises the rate r times, from the inputs within n of input k / r. -/
def upAt (tap : Int → Int) (r n : Nat) (x : Int → Int) (k : Int) : Int := ((around (k / r) n).map fun i => tap (k - r * i) * x i).sum

/-- The same of I and of Q. -/
def onIQ (f : (Int → Int) → Int → Int) (x : Int → IQ) (k : Int) : IQ := (f (fun i => (x i).1) k, f (fun i => (x i).2) k)

/-- The k-th value of a list whose first one is number lo, and 0 beyond it. -/
def fromList (lo : Int) (l : List IQ) (k : Int) : IQ := if k < lo then (0, 0) else l.getD (k - lo).toNat (0, 0)

/-- Outputs lo to lo + count − 1 of m half-band stages after stage A of factor ra, in units of 2^(-30 (m + 1)) (R149). Stage A's latency of
R155 is half its length, and so is a half-band stage's, 10 samples at its input rate. -/
def upsampled (ra : Nat) (x : Int → IQ) : (m : Nat) → (lo : Int) → (count : Nat) → List IQ
  | 0, lo, n => (List.range n).map fun (j : Nat) => onIQ (upAt (Config.stageATap ra) ra (stageA ra)) x (lo + j)
  | m + 1, lo, n =>
    let w := fromList (lo / 2 - 10) (upsampled ra x m (lo / 2 - 10) (n / 2 + 22))
    (List.range n).map fun (j : Nat) => onIQ (upAt Config.halfBandTap 2 10) w (lo + j)

/-- The fourth-order Farrow structure at phase mu / 2^32 after word k, in units of 2^-158 (R150). -/
def farrow (mu : Nat) (x : Int → Int) (k : Int) : Int :=
  ((List.range 5).map fun p => ((mu : Int) ^ p * 2 ^ (32 * (4 - p))) * firAt (Config.farrowTap p) 12 x k).sum

end Sys2Proof.Machine
end

