-- ==== Sys2Proof/Machine/Sample.lean ====
section
/-! DEFINITION. One voice sample and one DAC sample (R28, R69, R79, R80, R86 to R92, R115, R141 to R145, R148 to R154, R163, R169, R170).
What the spec leaves to the hardware (the direction in which a table's entry is rounded, the taps of each filter, the shape of a TICK step)
is a constant of Config without a body, and Machine/Figures.lean says what the spec states of the taps. -/

namespace Sys2Proof.Machine

/-! ### Rounding and saturation (R141) -/

/-- num / 2^k to the nearest integer, ties to even. -/
def roundEven (num : Int) (k : Nat) : Int :=
  let d : Int := 2 ^ k
  let q := num / d
  let r := 2 * (num - q * d)
  if r < d then q else if d < r then q + 1 else if q % 2 = 0 then q else q + 1

/-- z limited to w bits, two's complement, and whether it was. -/
def satTo (w : Nat) (z : Int) : Int × Nat :=
  if z < -2 ^ (w - 1) then (-2 ^ (w - 1), 1) else if 2 ^ (w - 1) ≤ z then (2 ^ (w - 1) - 1, 1) else (z, 0)

/-- n saturations in composition of channel c are counted (R141). -/
def State.compSat (s : State) (c n : Nat) : State :=
  if n = 0 then s else (s.bumpBy F.CH_DPCNT_COMP_SAT n c).flag F.CH_STATUS_COMP_SAT c

/-! ### The voice NCO (R69) -/

/-- Steps 1 to 4 of R69 at one sample: a running ramp adds its step, then SETPs act. SETF and RAMPF acted at the item's first
sample. -/
def VoiceSt.ncoBegin (x : VoiceSt) : VoiceSt :=
  let x := if x.ramping ∧ x.rampLeft ≠ some 0 then
      { x with fw := (x.fw + x.rampStep) % 2 ^ 48, rampLeft := x.rampLeft.map (· - 1) }
    else x
  let acc := x.setps.foldl (fun a d => match d with
    | .setp true p => (a + p * 65536) % 2 ^ 48
    | .setp false p => p * 65536 + a % 65536
    | _ => a) x.acc
  { x with acc := acc, setps := [] }

/-- Step 6 of R69. -/
def VoiceSt.ncoEnd (x : VoiceSt) : VoiceSt := { x with acc := (x.acc + x.fw) % 2 ^ 48 }

/-- RAMP_END (R69): the ramp of voice v has added all its steps, and FW holds. -/
def execRampEnd (v : Fin 64) (s : State) : Res :=
  if (s.voice v).ramping ∧ (s.voice v).rampLeft = some 0 then
    .next (s.modVoice v fun x => { x with ramping := false, rampLeft := none })
  else .next s

/-! ### Products and filters (R80, R86, R145) -/

/-- A complex product. -/
def mulIQ (x y : IQ) : IQ := (x.1 * y.1 - x.2 * y.2, x.1 * y.2 + x.2 * y.1)

/-- z / 2^k rounded and saturated to w bits per component, with the saturations (R141). -/
def narrow (w k : Nat) (z : IQ) : IQ × Nat :=
  let i := satTo w (roundEven z.1 k)
  let q := satTo w (roundEven z.2 k)
  ((i.1, q.1), i.2 + q.2)

/-- Sample n of an item of length len that lies voff / 1024 samples off the grid, from the samples around it, 0 outside the item, rounded as
R148 rounds (R80). -/
def offGrid (voff len : Nat) (at_ : Nat → IQ) (n : Nat) : IQ :=
  if voff = 0 then at_ n
  else
    let x := fun (i : Int) => if i < 0 ∨ (len ≠ 0 ∧ (len : Int) ≤ i) then (0, 0) else at_ i.toNat
    let z := onIQ (firAt (Config.voiceTap voff) 16) x n
    (roundEven z.1 30, roundEven z.2 30)

/-! ### Contributions (R79, R86 to R92, R145) -/

/-- The value a voice holds in spans and WAITs (R79). -/
def State.holdValue (s : State) (v : Nat) : IQ :=
  if s.on F.VOICE_CTL_HOLD v then ((s.voice v).lastI, (s.voice v).lastQ) else (0, 0)

/-- The data of grain j of item it: what its fetch has read, and where none has what memory holds now (R95; DESIGN
CHOICE, log entry 72). -/
def State.grainCopy (s : State) (v : Nat) (it : Item) (j : Nat) : Copy :=
  match (s.voice v).lineOf j with
  | some c => c
  | none => s.copyOf (s.grainSpans it.words it.len j)

/-- Whether sample n of item it belongs to a line of its latest grain that arrived late (R249). -/
def VoiceSt.lateAt (x : VoiceSt) (it : Item) (envelope : Bool) (n : Nat) : Bool :=
  decide (n / 512 + 1 = it.next) && x.late.any fun l => l.envelope == envelope && decide (l.from_ ≤ n % 512) && decide (n % 512 < l.upTo)

/-- A stored sample at byte address a (R83): zero from an uncorrectable word. -/
def Copy.sample (c : Copy) (d cplx : Bool) (a : Nat) : IQ :=
  if c.poisoned d a then (0, 0) else (signed 16 (c.readLE d a 2), if cplx then signed 16 (c.readLE d (a + 2) 2) else 0)

/-- An envelope point (R145): AMP and PH, zero gain from an uncorrectable word. -/
def Copy.point (c : Copy) (d : Bool) (a : Nat) : Nat × Nat :=
  if c.poisoned d a then (0, 0) else (c.readLE d a 2, c.readLE d (a + 2) 2)

/-- Stored sample n of a SEG item or of a carrier plane (R83, R86): zero from a missing grain (R112) or a late line (R249). -/
def State.storedSample (s : State) (v : Nat) (it : Item) (n : Nat) : IQ :=
  let w0 := wordOf it.words 0
  let w1 := wordOf it.words 1
  let x := s.voice v
  if x.absent.contains (n / 512) ∨ x.lateAt it false n then (0, 0)
  else (s.grainCopy v it (n / 512)).sample (wordInDram w0 w1) (segCplx w0) (s.wordAddr w1 + n * sampleBytes w0)

/-- The gain of carrier sample n (R145): a in units of 2^-15 / S, and the phase in units of 2^-24 turn. Both are exact, for S divides
2^8. -/
def State.envelope (s : State) (v : Nat) (it : Item) (n : Nat) : Int × Nat :=
  let w0 := wordOf it.words 0
  let w2 := wordOf it.words 2
  let x := s.voice v
  if x.absent.contains (n / 512) ∨ x.lateAt it true n then (0, 0)
  else
    let c := s.grainCopy v it (n / 512)
    let sub := envSub w0
    let k := n / sub
    let at_ := fun (i : Nat) => c.point (wordInDram w0 w2) (s.wordAddr w2 + 4 * i)
    let p := at_ k
    let q := if k + 1 = it.len / sub then p else at_ (k + 1)
    let step : Int := (n % sub : Nat)
    (p.1 * sub + ((q.1 : Int) - p.1) * step, wrap 24 ((p.2 * sub + signed 16 (wrap 16 ((q.2 : Int) - p.2)) * step) * (256 / sub : Nat)))

/-- z turned by the voice's phasor with ROT, before rounding: 2^17 times the sample (R86). -/
def VoiceSt.rotate (x : VoiceSt) (w0 : Nat) (z : IQ) : IQ := if segRot w0 then mulIQ z (phasor x.acc) else (z.1 * 2 ^ 17, z.2 * 2 ^ 17)

/-- A rotated sample, rounded and saturated once, the saturations being counted (R86, R141). -/
def State.shaped (s : State) (v c : Nat) (it : Item) (z : IQ) : IQ × State :=
  let r := narrow 16 17 ((s.voice v).rotate (wordOf it.words 0) z)
  (r.1, s.compSat c r.2)

/-- One MOD sample before rotation and rounding: carrier × a × exp(j φ), 2^55 S times (R145). -/
def State.modProduct (s : State) (v : Nat) (it : Item) (n : Nat) : IQ :=
  let e := s.envelope v it n
  let z := mulIQ (s.storedSample v it n) (turnPhasor e.2)
  (z.1 * e.1, z.2 * e.1)

/-- A MOD sample (R145): on the grid the product is rounded once, after the rotation; off it the filter follows the rounded product. -/
def State.modSample (s : State) (v c : Nat) (it : Item) (n voff : Nat) : IQ × State :=
  let k := 56 + bits (wordOf it.words 0) 1 0
  if voff = 0 then
    let r := narrow 16 (k + 17) ((s.voice v).rotate (wordOf it.words 0) (s.modProduct v it n))
    (r.1, s.compSat c r.2)
  else s.shaped v c it (offGrid voff it.len (fun i => (narrow 16 k (s.modProduct v it i)).1) n)

/-- The accumulator at the voice sample i samples on from the present one, both in one item (R69, R80): a past one from the record, a future one
by the steps of R69. -/
def VoiceSt.phaseAt (x : VoiceSt) (i : Int) : Nat :=
  if i < 0 then x.phases.getD (-i - 1).toNat 0 else (forN i.toNat (fun _ y => y.ncoEnd.ncoBegin) x).acc

/-- A TONE sample (R89): AMP times the generator's value, rounded to 16 bits. AMP is below 2^15, so nothing saturates on the grid. -/
def State.toneSample (s : State) (v : Nat) (it : Item) (n voff : Nat) : IQ :=
  let w0 := wordOf it.words 0
  let amp := bits w0 15 0
  let tone := fun (i : Nat) =>
    let p := phasor ((s.voice v).phaseAt ((i : Int) - n))
    (narrow 16 17 (p.1 * amp, p.2 * amp)).1
  let z := (narrow 16 0 (offGrid voff it.len tone n)).1
  (z.1, if segCplx w0 then z.2 else 0)

/-! ### TICK items (R90, R249) -/

/-- An edge: its exact instant, num / den DTIME units, and the level after it. -/
abbrev Edge := (Int × Int) × Int

/-- The rising and falling edge of pulse n of TAI second sec in a RATIO train (R90). -/
def pulseEdges (w0 w1 w2 w3 sec n : Nat) : List Edge :=
  let den := bits w1 31 0
  let t : Int := (sec * second + bits w2 47 0) * den + n * bits w1 63 32 * second
  [((t, den), signed 16 (bits w0 31 16)), ((t + bits w3 47 0 * den, den), signed 16 (bits w0 15 0))]

/-- The edges of a RATIO train around DTIME t in TAI second sec: of the pulses that stay within the second, those next to t. -/
def edgesIn (w0 w1 w2 w3 t sec : Nat) : List Edge :=
  let step := bits w1 63 32 * second
  let den := bits w1 31 0
  let last := (second * den - 1 - bits w2 47 0 * den) / max 1 step
  let near := (t - sec * second - bits w2 47 0) * den / max 1 step
  if second ≤ bits w2 47 0 then []
  else (List.range 5).flatMap fun i =>
    let n := min near last + i
    if n < 2 ∨ last + 2 < n then [] else pulseEdges w0 w1 w2 w3 sec (n - 2)

/-- An edge takes its place among edges of one train in order of time; of two at one instant the one that came first stays first. -/
def putEdge (e : Edge) : List Edge → List Edge
  | [] => [e]
  | f :: r => if e.1.1 < f.1.1 then e :: f :: r else f :: putEdge e r

/-- The edges of TICK item it that can shape a sample at DTIME t, in order: a LIST's without those from uncorrectable words, and a RATIO
train's around t. -/
def State.tickEdges (s : State) (v : Nat) (it : Item) (j t : Nat) : List Edge :=
  let w := wordOf it.words
  if bit (w 2) 63 then
    let a := t / second
    ((if a = 0 then [] else edgesIn (w 0) (w 1) (w 2) (w 3) t (a - 1)) ++ edgesIn (w 0) (w 1) (w 2) (w 3) t a ++
      edgesIn (w 0) (w 1) (w 2) (w 3) t (a + 1)).foldl (fun l e => putEdge e l) []
  else
    let c := s.grainCopy v it j
    let a := s.wordAddr (w 1)
    ((List.range (bits (w 3) 31 0)).filter fun k => !c.poisoned false (a + 16 * k) && !c.poisoned false (a + 16 * k + 8)).map fun k =>
      (((c.readLE false (a + 16 * k + 4) 12 : Nat), 1), signed 16 (c.readLE false (a + 16 * k + 2) 2))

/-- Where an edge lies on the voice's timeline, in 1/1024 voice samples, ties later (R80). -/
def Grid.placeEdge (g : Grid) (e : Int × Int) : Int := roundDiv ((e.1 - g.epoch * e.2) * 1024 * g.vden) (g.vnum * e.2)

/-- An edge due before its late line arrives takes effect at the first sample after the arrival (R249). -/
def VoiceSt.deferEdge (x : VoiceSt) (it : Item) (p : Int) : Int :=
  let d := p - it.first - 512 * 1024 * (it.next - 1 : Nat)
  match x.late.find? fun l => decide ((l.from_ : Int) * 1024 ≤ d) && decide (d < l.upTo * 1024) with
  | some l => it.first + 512 * 1024 * (it.next - 1 : Nat) + l.upTo * 1024
  | none => p

/-- 2^16 times the part of a step at position p that a sample at position q shows, in item it: all of one that lies at or before the item's
first sample, none of one at or after its end, one half at the edge itself, and within the filter's 2.00 ns of it the step's shape (R80, R90). -/
def Grid.stepPart (g : Grid) (it : Item) (p q : Int) : Int :=
  if p ≤ it.first then 2 ^ 16
  else if it.len ≠ 0 ∧ it.first + it.len * 1024 ≤ p then 0
  else if q = p then 2 ^ 15
  else if (q - p).natAbs * g.vnum * 500000000 < 1024 * g.vden * second then Config.stepShape (it.first % 1024).toNat (q - p)
  else if p ≤ q then 2 ^ 16
  else 0

/-- The sum of the steps, 2^16 times, after level l. -/
def stepSum (g : Grid) (x : VoiceSt) (it : Item) (q : Int) : Int → List Edge → Int
  | _, [] => 0
  | l, e :: r => (e.2 - l) * g.stepPart it (x.deferEdge it (g.placeEdge e.1)) q + stepSum g x it q e.2 r

/-- A TICK sample n (R90): the level before the edges, and the sum of their steps. The edges of a RATIO train begin with a rise, from LO. -/
def State.tickSample (s : State) (v c : Nat) (it : Item) (n : Nat) : IQ × State :=
  let g := (s.chan c).grid
  let q := it.first + n * 1024
  let lo := signed 16 (bits (wordOf it.words 0) 15 0)
  let z := satTo 16 (roundEven (lo * 2 ^ 16 + stepSum g (s.voice v) it q lo (s.tickEdges v it (n / 512) (g.placeAt q).toNat)) 16)
  ((z.1, 0), s.compSat c z.2)

/-! ### PAT and STRM items (R87, R91, R119) -/

/-- Level i of a PAT item (R91). -/
def patLevel (ws : List Word) (i : Nat) : Int :=
  if i < 4 then signed 16 (bits (wordOf ws 2) (16 * i + 15) (16 * i)) else signed 16 (bits (wordOf ws 3) (16 * (i - 4) + 15) (16 * (i - 4)))

/-- Byte n of a PAT item: 0 from a late line (R249), none from an uncorrectable word. -/
def State.patByte (s : State) (v : Nat) (it : Item) (n : Nat) : Option Nat :=
  let a := s.wordAddr (wordOf it.words 1) + n
  let c := s.grainCopy v it (n / 512)
  if (s.voice v).lateAt it false n then some 0 else if c.poisoned false a then none else some (c.byte false a).toNat

/-- The level that sample n of a PAT item contributes: with DACEN, that of its byte; zero from an uncorrectable word (R91, R361). -/
def State.patValue (s : State) (v : Nat) (it : Item) (n : Nat) : IQ :=
  match s.patByte v it n with
  | some b => (if bit (wordOf it.words 0) 4 then patLevel it.words (bits b 6 4) else 0, 0)
  | none => (0, 0)

/-- The lanes of a PAT item take the bits of sample n (R91). -/
def State.patLanes (s : State) (v : Nat) (it : Item) (n : Nat) : State :=
  s.modVoice v fun x => { x with pat := (bits (wordOf it.words 0) 3 0, bits ((s.patByte v it n).getD 0) 3 0) }

/-- The stream sample at voice sample m, sample n of its item: from a block found present, zero from one missing or a late line, and the
hold value before the first placement and after END (R119, R120). -/
def State.streamSample (s : State) (v c : Nat) (it : Item) (b n : Nat) (m : Int) : IQ × State :=
  match (s.voice v).stream.decided.find? fun p => decide (p.1 ≤ m) && decide (m < p.1 + 64) with
  | some (p, some (a, d)) =>
    if (s.voice v).lateAt it false n then ((0, 0), s)
    else s.shaped v c it (d.sample (s.ringDram b) (s.on F.STM_CFG_CPLX b) (a + (m - p).toNat * s.stmBytes b))
  | some (_, none) => ((0, 0), s)
  | none => (s.holdValue v, s)

/-- Sample n, at grid voice sample m, of the PLAY item or target it. -/
def State.itemSample (s : State) (v c : Nat) (it : Item) (n : Nat) (m : Int) : IQ × State :=
  let w0 := wordOf it.words 0
  let voff := (it.first % 1024).toNat
  match segMode w0 with
  | 0 => s.shaped v c it (offGrid voff it.len (s.storedSample v it) n)
  | 1 => s.streamSample v c it (bits w0 5 0) n m
  | 2 => s.modSample v c it n voff
  | 3 => (s.toneSample v it n voff, s)
  | 4 => s.tickSample v c it n
  | _ =>
    let r := narrow 16 0 (offGrid voff it.len (s.patValue v it) n)
    (r.1, (s.patLanes v it n).compSat c r.2)

/-- Whether the REPLACE gate of slot word w, naming voice u of channel c, is open at voice sample m (R142). -/
def State.gateOpen (s : State) (u w : Nat) (m : Int) : Bool :=
  bits w 1 0 == 1 || (match (s.voice u).item with
    | some it => (it.kind == .play || it.kind == .target) && decide (it.first / 1024 ≤ m) &&
        (it.len == 0 || decide (m < it.first / 1024 + it.len))
    | none => false)

/-- Whether a REPLACE voice above voice v that drives channel c is open at voice sample m. -/
def State.coveredAt (s : State) (v c : Nat) (m : Int) : Bool :=
  match s.slotOf c v with
  | none => false
  | some p => anyN p fun q =>
      let w := s.slotInForce c q
      let u := 16 * (c / 4) + bits w 11 8
      bit w 15 && bits w 5 4 == 1 && s.voiceChan u == some c && s.gateOpen u w m

/-- A sample of a covered grain: zero, and counted once for the grain when it is exposed (R143, R144). PAT lanes still run. -/
def State.coveredSample (s : State) (v c : Nat) (it : Item) (n : Nat) (m : Int) : IQ × State :=
  let s := if segMode (wordOf it.words 0) = 5 then s.patLanes v it n else s
  if s.coveredAt v c m ∨ (s.voice v).broke.contains (n / 512) then ((0, 0), s)
  else ((0, 0), ((s.flag F.CH_STATUS_COVER_BRK c).bump F.CH_DPCNT_COVER_BRK c).modVoice v fun x =>
    { x with broke := n / 512 :: x.broke })

/-- VOICE_POS counts within an item, a WAIT or an idle grain, and reads 0 during a span (R108). -/
def State.atSample (s : State) (v n : Nat) : State := (s.setF F.VOICE_POS_SAMPLE (n % 2 ^ 28) v).setF F.VOICE_POS_GRAIN (n / 512 % 2 ^ 19) v

/-- What voice v contributes to channel c at voice sample m (R79, R86 to R92). -/
def State.contribution (s : State) (v c : Nat) (m : Int) : IQ × State :=
  match (s.voice v).item with
  | none => ((0, 0), s)
  | some it =>
    let n := m - it.first / 1024
    match it.kind with
    | .idle => ((0, 0), s.atSample v n.toNat)
    | .wait => (s.holdValue v, s.atSample v n.toNat)
    | _ =>
      if n < 0 then (s.holdValue v, s.atSample v 0)
      else if it.len ≠ 0 ∧ (it.len : Int) ≤ n then ((0, 0), s)
      else
        let s := s.atSample v n.toNat
        if (s.voice v).covered.contains (n.toNat / 512) then s.coveredSample v c it n.toNat m
        else s.itemSample v c it n.toNat m

/-- One voice at one sample: its NCO steps, and the contribution is kept as the sample that left it last. A real channel keeps
I only (R92). -/
def State.voiceSample (s : State) (v c : Nat) (m : Int) : State :=
  let s := s.modVoice v fun x => x.ncoBegin
  let (z, s) := if s.f F.CORE_STATUS_STATE v ≤ 1 then ((0, 0), s) else s.contribution v c m
  let q := if s.on F.CH_CFG_CPLX c then z.2 else 0
  s.modVoice v fun x => { x.ncoEnd with nowI := z.1, nowQ := q, phases := x.acc :: x.phases.take 15 }

/-! ### Composition (R141, R142) -/

/-- The accumulator, and the saturations so far. -/
structure Acc where
  i : Int := 0
  q : Int := 0
  sats : Nat := 0

/-- Both components saturated to w bits. -/
def Acc.sat (w : Nat) (a : Acc) : Acc :=
  let i := satTo w a.i
  let q := satTo w a.q
  ⟨i.1, q.1, a.sats + i.2 + q.2⟩

/-- Slot p of channel c acts on the accumulator. -/
def State.compose (s : State) (c : Nat) (m : Int) (a : Acc) (p : Nat) : Acc :=
  let w := s.slotInForce c p
  let v := 16 * (c / 4) + bits w 11 8
  let x := s.voice v
  if ¬ bit w 15 ∨ s.voiceChan v ≠ some c then a
  else match bits w 5 4 with
    | 0 => Acc.sat 20 ⟨a.i + x.nowI, a.q + x.nowQ, a.sats⟩
    | 1 => if s.gateOpen v w m then ⟨x.nowI, x.nowQ, a.sats⟩ else a
    | _ => Acc.sat 20 ⟨roundEven (a.i * x.nowI - a.q * x.nowQ) 15, roundEven (a.i * x.nowQ + a.q * x.nowI) 15, a.sats⟩

/-- The composed sample of channel c at voice sample m, before GAIN, from priority 7 up to priority 0. -/
def State.composed (s : State) (c : Nat) (m : Int) : Acc := [7, 6, 5, 4, 3, 2, 1, 0].foldl (s.compose c m) {}

/-- GAIN and the saturation to 16 bits. -/
def State.composedOut (s : State) (c : Nat) (m : Int) : Acc :=
  let a := s.composed c m
  let g : Int := s.inForce c (Reg.CH_COMP.addr c 0) 15 0
  Acc.sat 16 ⟨roundEven (a.i * g) 14, roundEven (a.q * g) 14, a.sats⟩

/-- VOICE_SAMPLE (R141): the next voice sample of channel n's grid. Those that reach the elastic buffer during an unlock are discarded
(R217). -/
def execVoiceSample (n : Fin 16) (s : State) : Res :=
  let c := s.chan n
  if ¬ s.on F.CH_STATUS_RUN n ∨ c.restart then .next s
  else
    let m := c.nextVoice
    let s := s.reach (c.grid.voiceAt m).toNat
    let s := ((s.voicesOf n).foldl (fun t v => t.voiceSample v n m) s).sendLanes n (m * 1024)
    let a := s.composedOut n m
    .next ((s.compSat n a.sats).modChan n fun x =>
      { x with nextVoice := m + 1, sums := if x.unlocked then [] else x.sums ++ [(m, a.i, a.q)] })

/-! ### The datapath (R148 to R154) -/

/-- The composed sum at voice sample m: zero where the elastic buffer holds none. -/
def ChanSt.sum (c : ChanSt) (m : Int) : IQ := ((c.sums.find? fun p => p.1 == m).map (·.2)).getD (0, 0)

/-- n saturations of datapath stages of channel c are counted (R148). -/
def State.stageSat (s : State) (c n : Nat) : State :=
  if n = 0 then s else (s.bumpBy F.CH_DPCNT_DP_SAT n c).flag F.CH_STATUS_DP_SAT c

/-- Words lo to lo + count − 1 of the interpolator, each with its saturations (R148, R149): twice the sum with R = 1, and otherwise the output
of stage A and its half-band stages over the sums around. -/
def State.interpolated (s : State) (n : Nat) (lo : Int) (count : Nat) : List (IQ × Nat) :=
  let c := s.chan n
  let r := s.f F.CH_CFG_R n
  if r ≤ 1 then (List.range count).map fun (j : Nat) => ((2 * (c.sum (lo + j)).1, 2 * (c.sum (lo + j)).2), 0)
  else
    let m := halfBands r
    (upsampled (r / 2 ^ m) c.sum m lo count).map (narrow 18 (30 * (m + 1) - 1))

/-- The resampler's word for DAC sample d, and the saturations of the two stages, each interpolator word counting once (R150). -/
def State.resampled (s : State) (n : Nat) (d : Int) : IQ × Nat :=
  if s.on F.CH_CFG_RHO_BYP n then (s.interpolated n d 1).headD ((0, 0), 0)
  else
    let u := d * s.rho n
    let k := u / 2 ^ 32
    let w := s.interpolated n (k - 12) 25
    let z := narrow 18 158 (onIQ (farrow (u % 2 ^ 32).toNat) (fromList (k - 12) (w.map (·.1))) k)
    (z.1, z.2 + if (u - s.rho n) / 2 ^ 32 = k then 0 else (w.getD 12 ((0, 0), 0)).2)

/-- The NCO stage's word for a sample under settings x with accumulator acc: I cos θ − Q sin θ, or I with NCO_EN = 0 (R131, R151). -/
def State.ncoWord (s : State) (n : Nat) (x : DacSet) (acc : Nat) (z : IQ) : Int × Nat :=
  if s.on F.CH_CFG_NCO_EN n then
    let p := ncoPhasor ((acc + x.phase * 2 ^ 16) % 2 ^ 48)
    satTo 18 (roundEven (z.1 * p.1 - z.2 * p.2) 17)
  else (z.1, 0)

/-- The next DAC sample of channel n passes the NCO stage: its word, with the accumulator stepped. -/
def State.nextWord (s : State) (n : Nat) : Int × State :=
  let c := s.chan n
  let e := c.nextNco
  let z := s.resampled n e
  let w := s.ncoWord n (c.setAt e) (if c.ncoZero = some e then 0 else c.nco) z.1
  (w.1, (s.stageSat n (z.2 + w.2)).modChan n fun x => x.ncoTo (e + 1))

/-- The coarse buffer of channel n gives its next sample (R153). With COARSE lowered it first drops as many samples, and with COARSE
raised it plays the sample there as many times more. -/
def State.pushSlot (s : State) (n : Nat) : State :=
  let c := s.chan n
  match c.again_, c.line with
  | k + 1, q :: _ => s.modChan n fun x =>
      { x with again_ := k, line := { q with wait := k } :: x.line.take 80, ahead := x.ahead + 1 }
  | _, _ =>
    let new := (c.setAt c.nextNco).coarse
    let s := forN (c.coarse - new) (fun _ t => (t.nextWord n).2) s
    let e := (s.chan n).nextNco
    let (w, s) := s.nextWord n
    s.modChan n fun x =>
      { x with coarse := new, again_ := new - c.coarse, line := ⟨e, new - c.coarse, w⟩ :: x.line.take 80, ahead := x.ahead + 1 }

/-- The word after the fractional-delay filter, of the slot at place i of the line (R152). -/
def ChanSt.trimmed (c : ChanSt) (i : Nat) : Int × Nat :=
  match c.line[i]? with
  | none => (0, 0)
  | some q =>
    let frac := (c.setAt q.index).frac
    if frac = 0 then (q.word, 0)
    else satTo 18 (roundEven (firAt (Config.trimTap frac) 16 (fun j => ((c.line[j.toNat]?).map (·.word)).getD 0) i) 30)

/-- The code due at the slot at place 40 of the line, after the sinc and droop correction, with the saturations of both stages (R154). -/
def ChanSt.corrected (c : ChanSt) : Int × Nat :=
  let w := c.trimmed 40
  let mode := (match c.line[40]? with | some q => (c.setAt q.index).droop | none => 0)
  let z := if mode = 0 then satTo 16 (roundEven w.1 1)
    else satTo 16 (roundEven (firAt (Config.droopTap mode) 24 (fun j => (c.trimmed j.toNat).1) 40) 31)
  (z.1, w.2 + z.2)

/-- The first voice sample that the sums of channel n need not reach yet for its next DAC sample to be presented. -/
def State.needs (s : State) (n : Nat) : Int :=
  let c := s.chan n
  let last := c.nextNco + 40 - c.ahead + (c.coarse - (c.setAt c.nextNco).coarse : Nat)
  let r := s.f F.CH_CFG_R n
  last * s.rho n / (2 ^ 32 * max 1 r) + 1 + (if r ≤ 1 then 0 else 24) + (if s.on F.CH_CFG_RHO_BYP n then 0 else 12)

/-! ### The Burr Guard (R28, R148, R163, R165, R169, R170) -/

/-- Whether an underrun episode of a voice of channel n governs DAC sample d (R115). -/
def State.underrunAt (s : State) (n : Nat) (d : Int) : Bool :=
  (s.voicesOf n).any fun v => (s.voice v).misses.any fun p =>
    decide (p.1 ≤ d) && (match p.2 with | some e => decide (d < e) | none => true)

/-- Whether tRANGE covers DAC sample d. -/
def ChanSt.inRange (c : ChanSt) (d : Int) : Bool :=
  (match c.rangeAt with | some a => decide (a ≤ d) | none => false) ||
  (match c.rangeTo with | some e => decide (c.rangeFrom ≤ d) && decide (d < e) | none => false)

/-- The condition of R28 that governs DAC sample d of channel n, in its OUT_STATE code: 8 stands for precedences 7 and 8. -/
def State.condAt (s : State) (n : Nat) (d : Int) : Nat :=
  let c := s.chan n
  if s.parkedAt n d ∨ ¬ (s.chan n).bias then 1
  else if c.unlocked then 2
  else if c.brown then 3
  else if c.inRange d then 4
  else if (c.setAt d).mute then 5
  else if s.underrunAt n d then 6
  else 8

/-- c (64 − k) / 64, ties toward zero (R169). -/
def rampCode (c : Int) (k : Nat) : Int :=
  let z := c * (64 - k)
  if 0 ≤ z then (z + 31) / 64 else -((-z + 31) / 64)

/-- Major carry (R170): whether code z is held back at a sample that follows one shown under precedence 7 or 8. -/
def carryHolds (thr : Nat) (last z : Int) : Bool :=
  let m := fun (x : Int) => (x + 32768) / 1024
  decide (1 ≤ thr) && decide ((thr : Int) ≤ (m z - m last).natAbs)

/-- DAC sample d of channel n is shown under condition k, z being the code due under precedence 8. -/
def State.showSample (s : State) (n : Nat) (d : Int) (k : Nat) (z : Int) : State :=
  let c := s.chan n
  if k = 6 then
    let last := c.kept.getD c.code
    let u := c.ufl + 1
    s.modChan n fun x => { x with kept := some last, ufl := u, carried := false,
                                  code := if (c.setAt d).ufl = 0 then last else rampCode last (min u 64) }
  else if k = 8 then
    if c.cond = 8 ∧ c.shown ∧ ¬ c.carried ∧ carryHolds (c.setAt d).carry c.code z then
      (s.bump F.CH_DAC_CNT_CARRY_HOLD n).modChan n fun x => { x with carried := true }
    else s.modChan n fun x => { x with code := z, carried := false }
  else s.modChan n fun x => { x with carried := false }

/-- The underrun record clears when no episode governs DAC sample d, hidden or not (R169). -/
def State.endUnderrun (s : State) (n : Nat) (d : Int) : State :=
  if s.underrunAt n d then s else s.modChan n fun c => { c with kept := none, ufl := 0 }

/-- Records that later DAC samples do not need are forgotten. -/
def State.forget (s : State) (n : Nat) (d : Int) : State :=
  let s := (s.voicesOf n).foldl (fun t v => t.modVoice v fun x =>
    { x with misses := x.misses.filter fun p => match p.2 with | some e => decide (d < e) | none => true }) s
  let old := d - 100
  let first := (s.chan n).nextNco * s.rho n / (2 ^ 32 * max 1 (s.f F.CH_CFG_R n)) - 64
  let busy := s.on F.CH_DAC_STATUS_RANGE_BUSY n
  s.modChan n fun c =>
    { c with
      sums := c.sums.filter fun p => decide (first < p.1)
      sets := c.sets.takeWhile (fun x => decide (old < x.from_)) ++ (c.sets.dropWhile fun x => decide (old < x.from_)).take 1
      rangeTo := if !busy && c.rangeTo.any (fun e => decide (e ≤ d + 1)) then none else c.rangeTo }

/-- A slot of channel n is presented at the Burr Guard: DAC sample q.index, which reaches the pins 2.50 ns later (R28). -/
def State.present (s : State) (n : Nat) (q : DacSlot) : State :=
  let d := q.index
  let c := s.chan n
  let period := roundDiv (q.wait * c.out.num) c.out.den
  let s := s.reach (s.pinTime n d - nanos 2 - nanos 1 / 2 - period.toNat)
  let k := s.condAt n d
  let due := c.corrected
  let s := ((s.stageSat n due.2).endUnderrun n d).showSample n d k due.1
  ((s.modChan n fun x =>
    { x with shown := true, cond := k, prev := c.code, nextDac := if q.wait = 0 then d + 1 else d, ahead := x.ahead - 1 }).spareBack n).forget n d

/-- DAC_SAMPLE (R28): the Burr Guard presents the next DAC sample of channel n, once the sums that shape it have been composed. -/
def execDacSample (n : Fin 16) (s : State) : Res :=
  let c := s.chan n
  if s.parkedAt n c.nextDac ∨ c.restart ∨ (s.on F.CH_STATUS_RUN n ∧ ¬ c.unlocked ∧ c.nextVoice < s.needs n) then .next s
  else
    let s := forN (41 - c.ahead) (fun _ t => t.pushSlot n) s
    match (s.chan n).line[40]? with
    | some q =>
      if s.parkedAt n q.index then .next (s.modChan n fun x => { x with nextDac := q.index, ahead := x.ahead - 1 })
      else .next (s.present n q)
    | none => .next s

end Sys2Proof.Machine
end

