-- ==== Sys2Proof/Machine/TimeBase.lean ====
section
/-! DEFINITION. What every source of a change of device time shares (chapter 11): the uncertainty bound, the holdover offsets,
steps of DTIME, and the return of a reference. -/

namespace Sys2Proof.Machine

/-! ### Device time and PTP timestamps (R228) -/

/-- The seconds, nanoseconds and 2^-16 ns of a DTIME, rounded down. -/
def ptpOfDtime (t : Nat) : Nat × Nat × Nat :=
  let f := t % second
  (t / second, f * 10 ^ 9 / second, f * 10 ^ 9 * 65536 / second % 65536)

/-- The DTIME of seconds, nanoseconds and 2^-16 ns, rounded down. -/
def dtimeOfPtp (s ns sub : Nat) : Nat := s * second + (ns * 65536 + sub) * second / (10 ^ 9 * 65536)

/-- The DTIME that a received timestamp names. -/
def ptpDtime (p : PtpTime) : Nat := dtimeOfPtp p.sec.toNat p.ns.toNat 0

/-! ### The uncertainty bound (R233, R234) -/

/-- Growth of the bound per second, in units of 2^-40 s, as numerator and denominator: by the state of the Reference PLL, or in
REST by whether REF_A is counted, and without a crystal at 5 % (R360). -/
def State.uncRate (s : State) : Nat × Nat :=
  if s.resting then
    (if s.on F.TM_REST_CFG_REFA_CORR ∧ s.time.refA then (0, 1)
     else if s.power.crystalBad then (5 * 2 ^ 40, 100)
     else (s.f F.TM_REST_CFG_REST_PPM * 2 ^ 40, 1000000))
  else if s.f F.CLK_REF_STATUS_STATE = 2 then (0, 1)
  else if s.f F.CLK_REF_STATUS_STATE = 3 then (s.f F.TM_HO_CFG_HO_DRIFT, 1)
  else (2 ^ 40, 10000)

/-- All ones: the bound is unknown. -/
def uncUnknown : Nat := 2 ^ 48 - 1

/-- The base of the bound, grown to the present instant; a part of a unit counts whole. -/
def State.uncBase (s : State) : Nat :=
  let base := s.f F.TM_UNC_DTIME_UNC
  let (a, b) := s.uncRate
  min uncUnknown (base + (a * (s.now - s.time.uncSince) + b * second - 1) / (b * second))

/-- Bring the stored base up to date, before anything changes the rate at which it grows. -/
def State.foldUnc (s : State) : State :=
  let b := s.uncBase
  { s.setF F.TM_UNC_DTIME_UNC b with time := { s.time with uncSince := s.now } }

/-- Set the base (R233). -/
def State.setUnc (s : State) (b : Nat) : State :=
  { s.setF F.TM_UNC_DTIME_UNC b with time := { s.time with uncSince := s.now } }

/-- An offset in DTIME units counts in the base, in units of 2^-40 s rounded up. -/
def State.addUnc (s : State) (z : Int) : State :=
  let t := s.foldUnc
  t.setF F.TM_UNC_DTIME_UNC (min uncUnknown (t.f F.TM_UNC_DTIME_UNC + (z.natAbs + 255) / 256))

/-! ### Holdover offsets (R236) -/

/-- REMAIN and BUILD as stored, signed. -/
def State.remain (s : State) : Int := signed 64 (s.f F.TM_HO_REMAIN_REMAIN)
def State.build (s : State) : Int := signed 64 (s.f F.TM_HO_BUILD_BUILD)

/-- Put REMAIN and BUILD. -/
def State.setHoldover (s : State) (remain build : Int) : State :=
  (s.setF F.TM_HO_REMAIN_REMAIN (wrap 64 remain)).setF F.TM_HO_BUILD_BUILD (wrap 64 build)

/-- What the slew has removed since slewSince: SLEW_RATE fs in each second, never more than REMAIN. -/
def State.slewed (s : State) : Int :=
  if s.on F.TM_STATUS_SLEWING then
    let k : Nat := min s.remain.natAbs (s.f F.TM_HO_CFG_SLEW_RATE * (s.now - s.time.slewSince) / 10 ^ 15)
    if s.remain < 0 then -(k : Int) else k
  else 0

/-- Bring REMAIN and BUILD up to date with the slew. -/
def State.foldSlew (s : State) : State :=
  let z := s.slewed
  let t := s.setHoldover (s.remain - z) (s.build - z)
  { t with time := { t.time with slewSince := s.now } }

/-- TM_UNC as it reads: the base, with |REMAIN| while it is not 0 (R233). -/
def State.uncRead (s : State) : Nat := min uncUnknown (s.uncBase + ((s.remain - s.slewed).natAbs + 255) / 256)

/-- SLEWING and STEP_PEND follow REMAIN, POLICY and the Reference PLL (R236, R237). -/
def State.showHoldover (s : State) : State :=
  let nz := decide (s.remain ≠ 0)
  (s.setB F.TM_STATUS_SLEWING (nz && s.f F.TM_HO_CFG_POLICY == 1 && s.f F.CLK_REF_STATUS_STATE == 2)).setB
    F.TM_STATUS_STEP_PEND (nz && s.f F.TM_HO_CFG_POLICY == 2)

/-- REMAIN becomes 0 while BUILD keeps the offset, whose size joins the base (R233, R237). -/
def State.dropRemain (s : State) : State :=
  let t := s.foldSlew
  ((t.addUnc t.remain).setHoldover 0 t.build).showHoldover

/-- The Reference PLL changes its state: both accounts are brought up to date first. -/
def State.setRefState (s : State) (st : Nat) : State :=
  ((s.foldUnc.foldSlew).setF F.CLK_REF_STATUS_STATE st).showHoldover

/-- A return (R235, R236) with jump j from source src (0 REF_A, 1 REF_B, 2 PTP); the PLL is LOCKED again. -/
def State.refReturn (s : State) (src : Nat) (j : Int) : State :=
  let p := s.f F.TM_HO_CFG_POLICY
  let r := s.time.returns
  let e := r % 8
  let s := (s.trouble .refReturn).fireNow 621
  let s := ((s.setF F.TM_RETLOG_A_POLICY p e).setF F.TM_RETLOG_A_SRC src e).putTime F.TM_RETLOG_A_SEC F.TM_RETLOG_B_FRAC s.now e
  let s := (s.setF F.TM_RETLOG_B_ESEQ (r + 1) e).setF F.TM_RETLOG_C_JUMP (wrap 64 j) e
  let s := { s with time := { s.time with returns := r + 1 } }
  let s := if p = 1 ∨ p = 2 then s.setHoldover (s.remain + j) (s.build + j) else (s.addUnc j).setHoldover s.remain (s.build + j)
  s.showHoldover

/-! ### Steps of DTIME (R231) -/

/-- Spindle PLL q reports a state; SP_LOCKED reads LOCKED or FROZEN. -/
def State.setSpState (s : State) (q st : Nat) : State :=
  (s.setF F.SP_STATUS_STATE st q).setF F.CLK_REF_STATUS_SP_LOCKED
    (setBits (s.f F.CLK_REF_STATUS_SP_LOCKED) q q (if st = 4 ∨ st = 6 then 1 else 0))

/-- Instants that elapsed time is counted from keep their distance from the present when DTIME steps by delta. -/
def moveTime (delta : Int) (t : Nat) : Nat := ((t : Int) + delta).toNat

/-- Apply g to every listed value of a store. -/
def smap {α : Type} [DecidableEq α] (d : Nat → α) (g : α → α) (m : List (Nat × α)) : List (Nat × α) :=
  m.foldl (fun acc p => sput d acc p.1 (g p.2)) m

/-- The instants that a channel and its converter keep. -/
def ChanSt.moved (c : ChanSt) (d : Int) : ChanSt :=
  let m := moveTime d
  { c with brownClear := m c.brownClear, released := m c.released, legP := c.legP.map m, legN := c.legN.map m, biasFrom := m c.biasFrom,
           lanes := c.lanes.map fun q => (q.1, q.2.map fun p => (p.1 + d, p.2)) }

/-- The instants that a voice keeps. -/
def VoiceSt.moved (x : VoiceSt) (d : Int) : VoiceSt :=
  let m := moveTime d
  { x with
    takesFrom := m x.takesFrom, slotGone := x.slotGone.map m, jumpSeen := x.jumpSeen.map m
    armed := x.armed.map fun a => { a with armed := m a.armed }
    pending := x.pending.map fun j => { j with rel := ((j.rel : Int) + d * 10 ^ 10).toNat }
    slots := x.slots.map fun c => match c with | .here t c => .here (m t) c | c => c }

/-- The instants that a TRIG_OUT line keeps, its fall to the nearest step of 9.6 GHz. -/
def TrigOutSt.moved (x : TrigOutSt) (d : Int) : TrigOutSt :=
  { due := x.due.map fun p => (p.1 + d * p.2, p.2)
    old := x.old.map fun p => (moveTime d p.1, p.2)
    fall := x.fall.map fun f => ((f : Int) + roundDiv (d * 9600000000) second).toNat }

/-- The instants that a port keeps. -/
def PortSt.moved (x : PortSt) (d : Int) : PortSt :=
  let m := moveTime d
  { x with gap := x.gap.map m, rxAt := m x.rxAt, txAt := m x.txAt, coalAt := x.coalAt.map m,
           exec := x.exec.map fun w => { w with until_ := m w.until_ } }

/-- The instants of firings and events on their way, and of windows, periods and outputs in the event fabric. TIMER outputs stay at their
absolute instants (R197). -/
def FabricSt.moved (f : FabricSt) (d : Int) : FabricSt :=
  let m := moveTime d
  { f with
    fired := f.fired.map fun e => { e with time := m e.time }
    flight := f.flight.map fun e => { e with time := m e.time }
    refr := smap (fun _ => none) (fun (t : Option Nat) => t.map m) f.refr
    inputs := smap (fun _ => {}) (fun (i : InputSt) => { i with window := i.window.map m }) f.inputs
    relays := smap (fun _ => {}) (fun (r : RelaySt) => { r with held := r.held.map m, due := r.due.map m }) f.relays }

/-- The instants that the clocks keep. A divider of a Spindle clock starts anew when its PLL has aligned (R224, R231). -/
def ClockSt.moved (c : ClockSt) (d : Int) : ClockSt :=
  let m := moveTime d
  { c with
    refs := smap (fun _ => {}) (fun (r : RefIn) => { r with since := m r.since }) c.refs
    lockedAt := m c.lockedAt
    acq := m c.acq
    held := c.held.map fun p => (m p.1, m p.2)
    spindles := smap (fun _ => {}) (fun (x : SpindleSt) => { x with since := m x.since, acq := m x.acq }) c.spindles
    aux := smap (fun _ => {}) (fun (x : AuxSt) => { x with segStart := m x.segStart, phaseAt := m x.phaseAt, acq := m x.acq }) c.aux
    clkouts := smap (fun _ => {}) (fun (x : ClkoutSt) => { x with start := m x.start }) c.clkouts }

/-- The instants that the hidden state keeps to measure elapsed time move with a step (DESIGN CHOICE, log entry 60). -/
def State.moveInstants (s : State) (d : Int) : State :=
  let m := moveTime d
  let s := { s with
    chans := smap (fun _ => {}) (fun (c : ChanSt) => c.moved d) s.chans
    voices := smap (fun _ => {}) (fun (x : VoiceSt) => x.moved d) s.voices
    cores := smap (fun _ => {}) (fun (c : CoreSt) => { c with since := m c.since, deadline := c.deadline.map m }) s.cores
    bindings := smap (fun _ => {}) (fun (b : BindingSt) => { b with packets := b.packets.map fun (p : Packet) => { p with arrived := m p.arrived } })
      s.bindings
    buffers := smap (fun _ => {}) (fun (b : BufferSt) => { b with gone := b.gone.map m }) s.buffers
    trigOuts := smap (fun _ => {}) (fun (x : TrigOutSt) => x.moved d) s.trigOuts
    trigIns := smap (fun _ => {}) (fun (i : TrigInSt) =>
      { i with last := i.last.map m, writes := i.writes.map fun (p : Nat × Word) => (m p.1, p.2) }) s.trigIns
    ports := smap (fun _ => {}) (fun (x : PortSt) => x.moved d) s.ports
    fabric := s.fabric.moved d
    clock := s.clock.moved d
    mem := { s.mem with
      pllLost := s.mem.pllLost.map m
      logAt := s.mem.logAt.map m
      passes := s.mem.passes.map fun (p : Bool × Nat) => (p.1, m p.2) }
    bus := { s.bus with
      table := s.bus.table.map fun (p : Nat × List Word) => (m p.1, p.2)
      refusedAt := s.bus.refusedAt.map m }
    cals := smap (fun _ => {}) (fun (x : CalSt) => { x with cutAt := x.cutAt.map m }) s.cals
    boot := { s.boot with halts := s.boot.halts.map m }
    time := { s.time with
      ppsEdge := m s.time.ppsEdge
      ppsWait := s.time.ppsWait.map fun (w : PpsWait) => { w with written := m w.written }
      cables := smap (fun _ => {}) (fun (c : CableSt) => { c with start := m c.start, next := m c.next }) s.time.cables } }
  let s := s.modGov fun g => { g with recent := g.recent.map fun (p : Nat × Nat) => (m p.1, p.2), due := m g.due }
  { s with power := { s.power with since := m s.power.since, window := m s.power.window, osc := s.power.osc.map m } }

/-- The first whole second not passed over. One on which a step lands is not passed over, and fires (DESIGN CHOICE, log entry 82: R231 does not
say). -/
def State.nextWhole (s : State) : Nat := max s.time.nextSecond ((s.now + second - 1) / second)

/-- A step of DTIME by delta (R231). Every Spindle PLL that is LOCKED or FROZEN aligns again, with the dither settings of now (R211), and
counts no unlock, so that requests for calibration runs are withdrawn (R315); running channels park and restart on grids with unchanged
epochs; relay TIMER instants and seconds that are passed over fire nothing. -/
def State.stepTime (s : State) (delta : Int) : State :=
  let new := BitVec.ofInt 96 (s.now + delta)
  if new = s.time.dtime then s
  else
    let s := s.foldUnc.foldSlew
    let d : Int := new.toNat - s.now
    let s := s.moveInstants d
    let s := { s with time := { s.time with dtime := new, uncSince := new.toNat, slewSince := new.toNat } }
    let s := { s with time := { s.time with nextSecond := s.nextWhole } }
    let s := forN 4 (fun q t =>
      if t.f F.SP_STATUS_STATE q = 4 ∨ t.f F.SP_STATUS_STATE q = 6 then
        (t.setSpState q 3).modSp q fun x =>
          { x with relock := false, dither := t.on F.SP_CTL_DITHER q, seed := max 1 (t.f F.SP_SEED_SEED q) }
      else t) s
    let s := forN 16 (fun n t => if t.on F.CH_CTL_EN n ∨ t.on F.CH_STATUS_RUN n then t.regrid n d else t) s
    ((s.calRequests.skipTimers).flag F.TM_STATUS_STEPPED).flag F.TM_STATUS_SET

end Sys2Proof.Machine
end

