-- ==== Sys2Proof/Machine/Clock.lean ====
section
/-! DEFINITION. Clock synthesis (chapter 10): the Reference PLL and its inputs, the Spindle PLLs, the auxiliary synthesizers and the
CLKOUT pairs. -/

namespace Sys2Proof.Machine

/-! ### Reference PLL (R204 to R208) -/

/-- Whether input x (0 REF_A, 1 REF_B) is enabled, valid, qualified. -/
def State.refEn (s : State) (x : Nat) : Bool := if x = 0 then s.on F.CLK_REF_CFG_EN_A else s.on F.CLK_REF_CFG_EN_B
def State.refValid (s : State) (x : Nat) : Bool := if x = 0 then s.on F.CLK_REF_STATUS_A_VALID else s.on F.CLK_REF_STATUS_B_VALID
def State.refQual (s : State) (x : Nat) : Bool := if x = 0 then s.on F.CLK_REF_STATUS_A_QUAL else s.on F.CLK_REF_STATUS_B_QUAL
def State.setRefValid (s : State) (x : Nat) (v : Bool) : State :=
  if x = 0 then s.setB F.CLK_REF_STATUS_A_VALID v else s.setB F.CLK_REF_STATUS_B_VALID v
def State.setRefQual (s : State) (x : Nat) (v : Bool) : State :=
  if x = 0 then s.setB F.CLK_REF_STATUS_A_QUAL v else s.setB F.CLK_REF_STATUS_B_QUAL v
def State.flagRefLost (s : State) (x : Nat) : State :=
  if x = 0 then s.flag F.CLK_REF_STATUS_A_LOST else s.flag F.CLK_REF_STATUS_B_LOST

/-- Whether source x (0 REF_A, 1 REF_B, 2 PTP) can be used: an input while qualified, PTP while its servo steers (R204, R240). -/
def State.refUsable (s : State) (x : Nat) : Bool :=
  if x = 2 then s.f F.PTP_STAT_SERVO == 1 || s.f F.PTP_STAT_SERVO == 2 else s.refQual x

/-- The source that MODE, MAN_SRC and PRIO select, when it can be used (R204, R207). MODE = 3 selects none (DESIGN CHOICE, log entry
72). -/
def State.refPick (s : State) : Option Nat :=
  let pref := s.f F.CLK_REF_CFG_PRIO
  if s.f F.CLK_REF_CFG_MODE = 0 then
    (if s.refUsable (s.f F.CLK_REF_CFG_MAN_SRC) then some (s.f F.CLK_REF_CFG_MAN_SRC) else none)
  else if s.f F.CLK_REF_CFG_MODE = 1 then
    (if s.refUsable pref then some pref else if s.refUsable (1 - pref) then some (1 - pref) else none)
  else if s.f F.CLK_REF_CFG_MODE = 2 then (if s.refUsable 2 then some 2 else none)
  else none

/-- The PLL begins to compare with its source (R212). -/
def State.refCompares (s : State) : State := { s with clock := { s.clock with acq := s.now } }

/-- The PLL goes over to another usable source with their phase difference absorbed (R207). -/
def State.refSwitch (s : State) (x : Nat) : State :=
  if s.f F.CLK_REF_STATUS_SRC_ACT = x then s else ((s.setF F.CLK_REF_STATUS_SRC_ACT x).flag F.CLK_REF_STATUS_SWITCHED).refCompares

/-- The averaging window of HO_AVG in tenths of a second (R208). Codes above 3 have no meaning and are taken as 3 (DESIGN CHOICE, log
entry 72). -/
def hoTenths (code : Nat) : Nat := 10 ^ min code 3

/-- The span whose mean frequency is held after a loss detected now: HO_AVG, ending 10 ms before, and not before lock (R208). -/
def State.heldSpan (s : State) : Nat × Nat :=
  let end_ := s.now - second / 100
  let lock := s.clock.lockedAt
  (max lock (end_ - hoTenths (s.f F.CLK_REF_CFG_HO_AVG) * second / 10), if end_ ≤ lock then s.now else end_)

/-- The offset of the output from 2.4 GHz that the PLL holds while it coasts (R208). -/
def State.heldRate (s : State) : Option Int := s.clock.held.map fun h => Config.meanRate h.1 h.2

/-- The PLL begins to coast (R208). -/
def State.refCoast (s : State) : State :=
  let t := { s with clock := { s.clock with held := some s.heldSpan } }
  (((t.setRefState 3).setF F.CLK_REF_STATUS_SRC_ACT 3).flag F.CLK_REF_STATUS_COASTED).fireNow 620

/-- The source in use is gone: a switch when another can be used, and otherwise COAST, or FREERUN when the PLL was never LOCKED
since power-on (R206, R207). -/
def State.refLose (s : State) : State :=
  match s.refPick with
  | some x => s.refSwitch x
  | none =>
    if s.f F.CLK_REF_STATUS_STATE = 2 ∨ s.clock.everLocked then s.refCoast
    else (s.setRefState 0).setF F.CLK_REF_STATUS_SRC_ACT 3

/-- In COAST a write has named qualified input x: the PLL goes over to it as a switch, whose lock is no return (R207, R235). STATE reads COAST
until then. -/
def State.coastSwitch (s : State) (x : Nat) : State :=
  let t := s.refSwitch x
  { t with clock := { t.clock with switching := true } }

/-- The input to which a PLL in COAST was going over is no longer usable: it coasts on without a source. -/
def State.coastOn (s : State) : State :=
  if s.clock.switching ∧ s.refPick ≠ some (s.f F.CLK_REF_STATUS_SRC_ACT) then
    let t := s.setF F.CLK_REF_STATUS_SRC_ACT 3
    { t with clock := { t.clock with switching := false } }
  else s

/-- The inputs have changed: the PLL in use of a source that no longer serves loses it, one that runs free begins to acquire, and with
REVERT it goes back to the preferred input as that qualifies (R206, R207). chosen: a write named the source, which is a switch. -/
def State.refReview (s : State) (chosen : Bool) : State :=
  let st := s.f F.CLK_REF_STATUS_STATE
  let use := s.f F.CLK_REF_STATUS_SRC_ACT
  if st = 0 then
    (match s.refPick with
     | some x => ((s.setRefState 1).setF F.CLK_REF_STATUS_SRC_ACT x).refCompares
     | none => s)
  else if st = 3 then
    (match s.refPick with
     | some x => if chosen then s.coastSwitch x else s.coastOn
     | none => s.coastOn)
  else if s.refPick = none ∨ ¬ s.refUsable use then s.refLose
  else match s.refPick with
    | some x => if chosen ∨ s.on F.CLK_REF_CFG_REVERT ∨ s.f F.CLK_REF_CFG_MODE ≠ 1 then s.refSwitch x else s
    | none => s

/-- Input x becomes invalid (R205). -/
def State.refInvalid (s : State) (x : Nat) : State :=
  if s.refValid x then ((s.setRefValid x false).setRefQual x false).flagRefLost x else s

/-- Input x is valid while it is enabled, edges arrive, and no gate has found its frequency at fault (R205). -/
def State.refJudge (s : State) (x : Nat) : State :=
  if s.refEn x ∧ (s.refIn x).edges ∧ ¬ (s.refIn x).fault then
    (if s.refValid x then s else (s.setRefValid x true).modRefIn x fun r => { r with since := s.now })
  else s.refInvalid x

/-- Edges come or cease on input x. In REST the Rest domain sees it of REF_A (R234), and no input is judged. -/
def State.refEdges (s : State) (x : Nat) (on : Bool) : State :=
  let s := if x = 0 ∧ s.resting then (let t := s.foldUnc; { t with time := { t.time with refA := on } }) else s
  let t := s.modRefIn x fun r => { r with edges := on }
  if s.resting then t else t.refJudge x

/-- REF_INPUT_LOST (R205): no edge has come on input x for 4 nominal periods. -/
def execRefInputLost (x : Fin 2) (s : State) : Res :=
  let t := s.refEdges x false
  .next (if s.resting then t else t.refReview false)

/-- REF_INPUT_VALID (R205): edges return on input x. -/
def execRefInputValid (x : Fin 2) (s : State) : Res := .next (s.refEdges x true)

/-- A gate measured input x with an offset in ppb, or saw no edges: the frequency decides whether it is valid (R205). -/
def State.refGate (s : State) (x : Nat) (off : Option (BitVec 32)) : State :=
  match off with
  | none => s
  | some w =>
    let s := if x = 0 then s.setF F.REF_MEAS_FOFF_A w.toNat else s.setF F.REF_MEAS_FOFF_B w.toNat
    (s.modRefIn x fun r => { r with fault := decide (s.f F.REF_MON_FWIN * 1000 < w.toInt.natAbs) }).refJudge x

/-- REF_GATE_END (R205): a 10 ms gate ends, with the offsets of both inputs from nominal in ppb where edges came. Both are judged
before the PLL acts, so that it coasts when both are lost (R207). -/
def execRefGateEnd (a b : Option (BitVec 32)) (s : State) : Res :=
  if s.resting then .next s else .next (((s.refGate 0 a).refGate 1 b).refReview false)

/-- REF_QUALIFIED (R205): input x has stayed valid for QUAL × 10 ms. A PLL that coasts compares with its source from now on. -/
def execRefQualified (x : Fin 2) (s : State) : Res :=
  if s.refValid x ∧ ¬ s.refQual x ∧ ¬ s.resting then
    let t := (s.reach ((s.refIn x).since + s.f F.REF_MON_QUAL * second / 100)).setRefQual x true
    .next ((if t.f F.CLK_REF_STATUS_STATE = 3 ∧ s.refPick = none then t.refCompares else t).refReview false)
  else .next s

/-- The phase-detector period PDIV / f_REF of input x in DTIME units, from its nominal frequency, as numerator and denominator (R204). -/
def State.refPeriod (s : State) (x : Nat) : Nat × Nat :=
  ((if x = 0 then s.f F.CLK_REF_CFG_PDIVA else s.f F.CLK_REF_CFG_PDIVB) * 2 ^ 64, s.f F.REF_FREQ_FREQ x)

/-- The jump reduced modulo the phase-detector period P of input x, into −P/2 ≤ J < P/2 (R235). PDIV = 0 or a frequency of 0 leaves it
unreduced (DESIGN CHOICE, log entry 72). -/
def State.reduceJump (s : State) (x : Nat) (j : Int) : Int :=
  let pn : Int := (s.refPeriod x).1
  let pd : Int := (s.refPeriod x).2
  if pn = 0 ∨ pd = 0 then j else j - roundDiv ((2 * j * pd + pn) / (2 * pn) * pn) pd

/-- The earliest lock of the Reference PLL to source x: LK_CNT comparisons after they began (R212). PTP has no phase detector here. -/
def State.refLockFrom (s : State) (x : Nat) : Nat :=
  let p := s.refPeriod x
  s.clock.acq + (if 2 ≤ x ∨ p.2 = 0 then 0 else (s.f F.REF_LOCKDET_LK_CNT * p.1 + p.2 - 1) / p.2)

/-- The Reference PLL is LOCKED. -/
def State.refLocked (s : State) : State :=
  let t := s.setRefState 2
  { t with clock := { t.clock with everLocked := true, lockedAt := t.now, held := none, switching := false } }

/-- REF_PLL_LOCK (R212, R235): the Reference PLL declares lock. From COAST it is a return, with j the measured change of the source's
time less DTIME; in PTP mode the jump is minus offsetFromMaster. The lock that ends a switch made in COAST is no return. -/
def execRefPllLock (j : BitVec 64) (s : State) : Res :=
  let st := s.f F.CLK_REF_STATUS_STATE
  match s.refPick with
  | some x =>
    if s.resting then .next s
    else if st = 1 then .next (s.reach (s.refLockFrom x)).refLocked
    else if st = 3 then
      let t := ((s.reach (s.refLockFrom x)).setF F.CLK_REF_STATUS_SRC_ACT x).refLocked
      if s.clock.switching then .next t
      else .next (t.refReturn x (if x = 2 then -(signed 64 (s.f F.PTP_OFFSET_OFFSET)) else s.reduceJump x j.toInt))
    else .next s
  | none => .next s

/-- A passing write of CLK_REF_CFG: a disabled input is not valid and one that is enabled may be, and a write that changes MODE, or MAN_SRC
in MANUAL, names a source (R205, R207). A new PRIO with REVERT = 0 does not switch while the input in use stays qualified (DESIGN CHOICE, log
entry 82: R207 names only MAN_SRC and MODE). A value of BW above 4, of PDIV below 1 or a phase-detector frequency outside 1–25 MHz is stored
like any other (DESIGN CHOICE, log entry 72). -/
def State.writeRefCfg (s : State) (w : Word) : State :=
  let t := ((s.setRw .CLK_REF_CFG w).refJudge 0).refJudge 1
  t.refReview (s.f F.CLK_REF_CFG_MODE != t.f F.CLK_REF_CFG_MODE ||
    (t.f F.CLK_REF_CFG_MODE == 0 && s.f F.CLK_REF_CFG_MAN_SRC != t.f F.CLK_REF_CFG_MAN_SRC))

/-- Whether a REF_MON or lock-parameter word holds only values in their stated ranges; a write of another is ignored as a whole. -/
def refMonLegal (w : Nat) : Bool := decide (1 ≤ bits w 23 16) && decide (1 ≤ bits w 15 0) && decide (bits w 15 0 ≤ 1000)
def lockdetLegal (w : Nat) : Bool :=
  decide (1 ≤ bits w 39 32) && decide (16 ≤ bits w 31 16) && decide (2 ≤ bits w 7 0) && decide (bits w 7 0 ≤ 250)

/-! ### Spindle PLLs (R209 to R218) -/

/-- Every channel of quad q. -/
def State.eachOf (s : State) (q : Nat) (f : Nat → State → State) : State := forN 4 (fun i t => f (4 * q + i) t) s

/-- Spindle PLL q acquires at the SP_FREQ word w, from BAND (R210, R215). -/
def State.acquire (s : State) (q : Nat) (w : Word) : State :=
  ((s.setSpState q 1).setF F.SP_FDAC_FDAC (fdacReport w.toNat) q).modSp q fun x =>
    { x with applied := w, relock := false, rail := false, stuck := false }

/-- Quad q's F_DAC may have changed from that of word old: its enabled channels are checked anew (R132, R210). -/
def State.followFreq (s : State) (q old : Nat) : State :=
  if s.quadFreq q = old then s else s.eachOf q fun n t => t.retuneChannel n

/-- A passing write of SP_FREQ (R210): it stages a value, which is the quad's F_DAC while its Spindle PLL is OFF (R132). -/
def State.writeSpFreq (s : State) (q : Nat) (w : Word) : State := (s.setRw .SP_FREQ w q).followFreq q (s.quadFreq q)

/-- The trim of channel n follows at once, but for one that runs: it is parked, and its restart brings the trim (R312). -/
def State.retrimIdle (s : State) (n : Nat) : State := if s.on F.CH_STATUS_RUN n then s else s.retrim n

/-- The Spindle domain of quad q switches on: the PLL acquires at the staged word, and results of calibrations are rescaled (R210,
R312). A restored record waits for the first lock (R324). -/
def State.spindleOn (s : State) (q : Nat) : State :=
  let t := s.acquire q (s.rw .SP_FREQ q)
  (t.eachOf q fun n u =>
    if (u.cal n).rescale then u else (u.calRescale n (fdacReport (u.rw .SP_FREQ q).toNat)).retrimIdle n).followFreq q (s.quadFreq q)

/-- Spindle PLL q reaches LOCKED: records restored meanwhile are rescaled (R324), and requests for calibration runs follow (R315). -/
def State.spLocked (s : State) (q : Nat) : State :=
  let t := (s.setSpState q 4).modSp q fun x => { x with relock := false, since := s.now }
  (t.eachOf q fun n u =>
    if (u.cal n).rescale then
      ((u.modCal n fun c => { c with rescale := false }).calRescale n (u.f F.SP_FDAC_FDAC q)).retrimIdle n
    else u).calRequests

/-- The Spindle domain of quad q switches off: a measurement ends with it, and the quad has the F_DAC of the staged word. -/
def State.spindleOff (s : State) (q : Nat) : State :=
  (((s.setSpState q 0).clr F.SP_FDAC_FDAC q).modSp q fun x =>
    { x with measuring := false, relock := false, rail := false, stuck := false }).followFreq q (s.quadFreq q)

/-- A write of 1 to RETUNE (R210): the staged word is applied, or FREQ_ERR sets. While the domain is OFF the word stays staged. -/
def State.spRetune (s : State) (q : Nat) : State :=
  let w := s.rw .SP_FREQ q
  if ¬ freqLegal w.toNat then s.flag F.SP_STATUS_FREQ_ERR q
  else if s.f F.SP_STATUS_STATE q = 0 then s
  else (s.acquire q w).eachOf q fun n t => ((t.calCut n 8).calRescale n (fdacReport w.toNat)).retuneChannel n

/-- A write of 1 to BMEAS (R216): the measurement starts, or is refused while a channel of the quad is enabled. Channels that still
run park. While the PLL is OFF nothing is measured, and DONE clears (DESIGN CHOICE, log entry 82: R216 does not say). -/
def State.spBmeas (s : State) (q : Nat) : State :=
  if anyN 4 fun i => s.on F.CH_CTL_EN (4 * q + i) then s.flag F.SP_STATUS_BMEAS_REJ q
  else
    let t := s.clr F.SP_BMEAS_DONE q
    if s.f F.SP_STATUS_STATE q = 0 then t
    else ((t.setSpState q 1).modSp q fun x => { x with measuring := true }).eachOf q fun n u =>
      (u.calCut n 8).modChan n fun c => { c with unlocked := true }

/-- The channels of a frozen quad resume as under REALIGN, counted from now (R217). -/
def State.spRelease (s : State) (q : Nat) : State :=
  if s.f F.SP_STATUS_STATE q = 6 then s.spLocked q else s

/-- A passing write of SP_CTL with written word w (R210, R216, R217). -/
def State.writeSpCtl (s : State) (q : Nat) (stored w : Word) : State :=
  let t := s.setRw .SP_CTL stored q
  let t := if t.on F.SP_CTL_POLICY q then t else t.spRelease q
  let t := if bit w.toNat 4 then t.spBmeas q else t
  if bit w.toNat 16 then t.spRetune q else t

/-- Whether band-table entry b of Spindle PLL q covers f_VCO (R215). -/
def State.bandCovers (s : State) (q b : Nat) : Bool :=
  let f := 600000 * nWord (s.sp q).applied.toNat
  s.on F.SP_BAND_VALID q b && decide (s.f F.SP_BAND_FMIN q b * 2 ^ 32 ≤ f) && decide (f ≤ s.f F.SP_BAND_FMAX q b * 2 ^ 32)

/-- A Spindle PLL that has reported LOST goes on to reacquire: in ACQUIRE, or in BAND after a rail (R213). The next row of its acquisition does
this too, so that STATE reports each step. -/
def State.reacquire (s : State) (q : Nat) : State :=
  if s.f F.SP_STATUS_STATE q = 5 then s.setSpState q (if (s.sp q).rail then 1 else 2) else s

/-- SP_BAND_SELECT (R215): Spindle PLL q in BAND takes the lowest-numbered entry that covers f_VCO; in LOST it goes on to reacquire. -/
def execSpBandSelect (q : Fin 4) (s : State) : Res :=
  let x := s.sp q
  let st := s.f F.SP_STATUS_STATE q
  if st = 5 then .next (s.reacquire q)
  else if st = 1 ∧ ¬ x.measuring ∧ ¬ x.stuck then
    match firstN 64 (s.bandCovers q) with
    | some b => .next (((s.setF F.SP_STATUS_BAND_ACT b q).setSpState q 2).modSp q fun y => { y with rail := false, acq := s.now })
    | none => .next (((s.flag F.SP_STATUS_NO_BAND q).setSpState q 1).modSp q fun y => { y with stuck := true, rail := false })
  else .next s

/-- n comparisons at 600 MHz in DTIME units, rounded up (R212). -/
def comparisons (n : Nat) : Nat := (n * second + 599999999) / 600000000

/-- SP_LOCK_DECLARED (R212, R213): Spindle PLL q in ACQUIRE declares lock, not before LK_CNT comparisons of the acquisition, and enters ALIGN,
taking the dither settings (R211); in LOST it goes on to reacquire. -/
def execSpLockDeclared (q : Fin 4) (s : State) : Res :=
  let st := s.f F.SP_STATUS_STATE q
  if st = 5 then .next (s.reacquire q)
  else if st = 2 then
    .next (((s.reach ((s.sp q).acq + comparisons (s.f F.SP_LOCKDET_LK_CNT q))).setSpState q 3).modSp q fun x =>
      { x with dither := s.on F.SP_CTL_DITHER q, seed := max 1 (s.f F.SP_SEED_SEED q) })
  else .next s

/-! ### The modulator and its dither (R211) -/

/-- The next state of the 24-bit LFSR: shifted left, the parity of its taps moving in. -/
def lfsrNext (x : BitVec 24) : BitVec 24 :=
  x <<< 1 ||| BitVec.ofNat 24 ((List.range 24).countP (fun i => (x &&& Config.lfsrTaps).getLsbD i) % 2)

/-- The LFSR's output n steps after its seed. -/
def lfsrBit (seed n : Nat) : Int := ((forN n (fun _ x => lfsrNext x) (BitVec.ofNat 24 seed)).getLsbD 23).toNat

/-- The dither at step n: the first difference of the LFSR's sequence, −1, 0 or 1 LSB, so that its running sum stays bounded. Without DITHER
it is 0, and SEED plays no part. -/
def ditherAt (on : Bool) (seed n : Nat) : Int := if on then lfsrBit seed (n + 1) - lfsrBit seed n else 0

/-- A third-order MASH: three accumulators of 32 bits, each adding the one before it. -/
structure Mash where
  a : Nat := 0
  b : Nat := 0
  c : Nat := 0
  deriving DecidableEq, Repr

/-- One step with input x in units of 2^-32: the accumulators, whose carries, each differenced once more than the one before, make the
step of the divider (R211). -/
def Mash.step (m : Mash) (x : Int) : Mash :=
  let a := wrap 32 (m.a + x)
  let b := (m.b + a) % 2 ^ 32
  ⟨a, b, (m.c + b) % 2 ^ 32⟩

/-- Phase-detector cycles, 600 MHz, since DTIME 0. -/
def cyclesAt (t : Nat) : Nat := t * 600000000 / second

/-- The modulator at DTIME t for N, D, DITHER and SEED, and the place of its divider D: a fixed function of them (R211). Both count from
DTIME 0, where the accumulators hold 0 (DESIGN CHOICE, log entry 82: the spec gives no start). -/
def modulator (n d : Nat) (dither : Bool) (seed t : Nat) : Mash × Nat :=
  (forN (cyclesAt t) (fun k m => m.step (n % 2 ^ 32 + ditherAt dither seed k)) {}, t * 600000000 * n / (second * 2 ^ 32) % max 1 d)

/-- The modulator's state of Spindle PLL q once ALIGN has placed it (R211). -/
def State.spModulator (s : State) (q : Nat) : Option (Mash × Nat) :=
  let x := s.sp q
  if s.f F.SP_STATUS_STATE q = 4 ∨ s.f F.SP_STATUS_STATE q = 6 then
    some (modulator (nWord x.applied.toNat) (dWord x.applied.toNat) x.dither x.seed s.now)
  else none

/-- The dividers of CLKOUT pairs with the Spindle clock of quad q start anew (R224, R231). -/
def State.restartDividers (s : State) (q : Nat) : State :=
  forN 8 (fun j t => if t.f F.CO_CFG_SRC j = 3 + q then t.modClkout j fun x => { x with start := t.now } else t) s

/-- SP_ALIGN_DONE (R213, R217): ALIGN completes: LOCKED, or FROZEN after a loss of lock under FREEZE. A restored record is rescaled
when its PLL first reaches LOCKED (R324). -/
def execSpAlignDone (q : Fin 4) (s : State) : Res :=
  if s.f F.SP_STATUS_STATE q = 3 then
    let s := s.restartDividers q
    .next (if (s.sp q).relock ∧ s.on F.SP_CTL_POLICY q then s.setSpState q 6 else s.spLocked q)
  else .next s

/-- SPINDLE_UNLOCK (R217, R218): Spindle PLL q declares loss of lock, with rail telling that its tuning voltage reached a rail. Only a
loss in LOCKED counts and fires; during acquisition or ALIGN it restarts the acquisition at BAND. -/
def execSpindleUnlock (q : Fin 4) (rail : Bool) (s : State) : Res :=
  let st := s.f F.SP_STATUS_STATE q
  let s := if rail ∧ st ≠ 0 then s.flag F.SP_STATUS_VT_RAIL q else s
  if st = 4 then
    let t := ((((s.setSpState q 5).flag F.SP_STATUS_LOST q).bump F.SP_STATUS_UNLK_CNT q).trouble .spindleUnlock).fireNow (616 + q)
    let t := t.modSp q fun x => { x with relock := true, rail := rail, acq := s.now }
    .next (t.eachOf q fun n u =>
      (u.calCut n 3).modChan n fun c => if s.on F.CH_STATUS_RUN n then { c with unlocked := true } else c)
  else if st = 6 then .next ((s.setSpState q 5).modSp q fun x => { x with relock := true, rail := rail, acq := s.now })
  else if st = 5 then .next (s.modSp q fun x => { x with rail := x.rail || rail })
  else if st = 2 ∨ st = 3 then .next (s.setSpState q 1)
  else .next s

/-- SP_BMEAS_DONE (R216): the band measurement ends with the frequencies found at the two rails, in kHz, and the PLL reacquires. -/
def execSpBmeasDone (q : Fin 4) (flo fhi : BitVec 24) (s : State) : Res :=
  if (s.sp q).measuring then
    let t := ((s.flag F.SP_BMEAS_DONE q).setF F.SP_BMEAS_FLO flo.toNat q).setF F.SP_BMEAS_FHI fhi.toNat q
    .next ((t.acquire q (s.sp q).applied).modSp q fun x => { x with measuring := false })
  else .next s

/-! ### Auxiliary synthesizers (R221, R222) -/

/-- Whether a frequency word is within the range of the auxiliary synthesizers: N from 10 to 15. -/
def auxLegal (w : Nat) : Bool := decide (10 * 2 ^ 32 ≤ nWord w) && decide (nWord w ≤ 15 * 2 ^ 32)

/-- Synthesizer i reports a state. -/
def State.setAuxState (s : State) (i st : Nat) : State :=
  (s.setF F.AUX_STATUS_STATE st i).setF F.CLK_REF_STATUS_AUX_LOCKED
    (setBits (s.f F.CLK_REF_STATUS_AUX_LOCKED) i i (if st = 2 then 1 else 0))

/-- N of point k of synthesizer i, and its segment duration in DTIME units. -/
def State.auxPoint (s : State) (i k : Nat) : Nat := nWord (s.rw .AUX_PT_N i k).toNat
def State.auxDur (s : State) (i k : Nat) : Nat := s.f F.AUX_PT_T_T i k * 2 ^ 24

/-- The frequency word on the way from point a to point b, d of the segment's dur units in, rounded down (DESIGN CHOICE, log entry
73). -/
def rampWord (na nb : Int) (d dur : Nat) : Nat :=
  if dur = 0 then nb.toNat else (na + (nb - na) * (min d dur : Nat) / dur).toNat

/-- The duration of the segment under way: T of its later point, T_0 on the way back of LOOP. -/
def State.segDur (s : State) (i : Nat) : Nat := s.auxDur i (if (s.aux i).reverse then (s.aux i).from_ else s.f F.AUX_STATUS_PT i)

/-- Update k of the word of ramp generator i, one every 16 phase-detector cycles, and the latest at or before DTIME t (R222). -/
def updateAt (i k : Nat) : Nat := Config.rampLag i + k * 16 * second / 600000000
def updatesBy (i t : Nat) : Nat := ((t - Config.rampLag i) * 600000000 + 599999999) / (16 * second)

/-- The word that the ramp of synthesizer i takes at update k: that of the segment under way at that instant. -/
def State.rampAt16 (s : State) (i k : Nat) : Nat :=
  let x := s.aux i
  rampWord (s.auxPoint i x.from_) (s.auxPoint i (s.f F.AUX_STATUS_PT i)) (updateAt i k - x.segStart) (s.segDur i)

/-- The frequency word of synthesizer i at DTIME t: while a ramp runs, the one that its latest update took (R222). -/
def State.auxWordAt (s : State) (i t : Nat) : Nat :=
  if s.f F.AUX_STATUS_RAMP i = 2 then s.rampAt16 i (updatesBy i t) else (s.aux i).word

/-- The phase that the ramp of synthesizer i runs through from DTIME a to b: the sum of its words over their times. -/
def State.rampPhase (s : State) (i a b : Nat) : Nat :=
  forN (updatesBy i b + 1 - updatesBy i a) (fun j sum =>
    let k := updatesBy i a + j
    sum + 600000000 * s.rampAt16 i k * (min b (updateAt i (k + 1)) - max a (if j = 0 then a else updateAt i k))) 0

/-- The output phase of synthesizer i is brought up to DTIME t: the running integral of the frequency (R222). -/
def State.foldTo (s : State) (i t : Nat) : State :=
  let x := s.aux i
  let t := max x.phaseAt t
  let run := if s.f F.AUX_STATUS_RAMP i = 2 then s.rampPhase i x.phaseAt t else 600000000 * x.word * (t - x.phaseAt)
  s.modAux i fun x => { x with phase := (x.phase + run) % 2 ^ 80, phaseAt := t }

/-- The same up to now. -/
def State.auxFold (s : State) (i : Nat) : State := s.foldTo i s.now

/-- The modulator's state of synthesizer i, with the modulator and dither of R211 and its own SEED (R221). -/
def State.auxModulator (s : State) (i : Nat) : Option (Mash × Nat) :=
  if s.f F.AUX_STATUS_STATE i = 2 then
    some (modulator (s.auxWordAt i s.now) 1 (s.on F.AUX_CTL_DITHER i) (max 1 (s.f F.AUX_CTL_SEED i)) s.now)
  else none

/-- Synthesizer i begins to acquire (R212, R221). -/
def State.auxAcquire (s : State) (i : Nat) : State :=
  (s.setAuxState i 1).modAux i fun x => { x with acq := s.now, held := true }

/-- The staged word and ADIV are applied, unless they break R221; the synthesizer acquires while it runs, its CLKOUT pairs held until
LOCKED. -/
def State.auxApply (s : State) (i : Nat) : State :=
  let w := (s.rw .AUX_FREQ i).toNat
  if ¬ auxLegal w ∨ 4 < s.f F.AUX_CTL_ADIV i then s
  else
    let t := ((s.auxFold i).clr F.AUX_STATUS_RAMP i).modAux i fun x =>
      { x with word := nWord w, adiv := s.f F.AUX_CTL_ADIV i, held := true }
    if t.f F.AUX_STATUS_STATE i ≠ 0 then t.auxAcquire i else t

/-- Synthesizer i starts with the staged word, its power domain being on. -/
def State.auxStart (s : State) (i : Nat) : State :=
  if s.on F.AUX_CTL_EN i ∧ s.dom (70 + i) then (s.auxAcquire i).auxApply i else s

/-- The ramp of synthesizer i starts at point 0 at DTIME at_ (R222). -/
def State.rampGo (s : State) (i at_ : Nat) : State :=
  let npts := s.f F.AUX_CTL_NPTS i
  let t := (s.foldTo i at_).modAux i fun x => { x with word := s.auxPoint i 0, from_ := 0, segStart := at_, reverse := false }
  if npts = 0 ∧ s.f F.AUX_CTL_RMODE i ≠ 2 then (t.setF F.AUX_STATUS_RAMP 3 i).setF F.AUX_STATUS_PT 0 i
  else (t.setF F.AUX_STATUS_RAMP 2 i).setF F.AUX_STATUS_PT (min 1 npts) i

/-- Whether ARM accepts the points in use (R222). -/
def State.rampLegal (s : State) (i : Nat) : Bool :=
  let npts := s.f F.AUX_CTL_NPTS i
  let n0 := s.auxPoint i 0
  !anyN (npts + 1) fun k =>
    !auxLegal (s.rw .AUX_PT_N i k).toNat || (s.auxPoint i k != n0 && !Config.auxBandCovers n0 (s.auxPoint i k)) ||
      ((k != 0 || s.f F.AUX_CTL_RMODE i == 2) && s.f F.AUX_PT_T_T i k == 0)

/-- A write of 1 to ARM (R222). With RMODE = OFF no ramp starts. A synthesizer that is stopped, EN = 0, arms or starts its ramp all the same
(DESIGN CHOICE, log entry 82: R222 does not say). -/
def State.auxArm (s : State) (i : Nat) : State :=
  if s.f F.AUX_CTL_RMODE i = 0 then s
  else if ¬ s.rampLegal i then s.flag F.AUX_STATUS_RAMP_ERR i
  else
    let start := s.at F.AUX_START_SEC_SEC F.AUX_START_FRAC_FRAC i
    if start < s.now then (s.rampGo i s.now).flag F.AUX_STATUS_RAMP_LATE i
    else (s.setF F.AUX_STATUS_RAMP 1 i).modAux i fun x => { x with start := start }

/-- RMODE = OFF is written (R222): the frequency holds where the ramp stands. -/
def State.auxRampStop (s : State) (i : Nat) : State :=
  let w := s.auxWordAt i s.now
  ((s.auxFold i).clr F.AUX_STATUS_RAMP i).modAux i fun x => { x with word := w }

/-- A passing write of AUX_CTL with written word w: EN runs or stops the synthesizer, RMODE = OFF stops a ramp, RETUNE and ARM act. -/
def State.writeAuxCtl (s : State) (i : Nat) (stored w : Word) : State :=
  let was := s.on F.AUX_CTL_EN i
  let t := s.setRw .AUX_CTL stored i
  let t := if t.f F.AUX_CTL_RMODE i = 0 then t.auxRampStop i else t
  let t := if ¬ t.on F.AUX_CTL_EN i then ((t.auxRampStop i).setAuxState i 0) else if was then t else t.auxStart i
  let t := if bit w.toNat 8 then t.auxApply i else t
  if bit w.toNat 9 then t.auxArm i else t

/-- A passing write of AUX_FREQ or AUX_PT: ignored with RAMP_ERR while a ramp runs (R222). -/
def State.writeAuxPoint (s : State) (r : Reg) (i k : Nat) (w : Word) : State :=
  if s.f F.AUX_STATUS_RAMP i = 2 then s.flag F.AUX_STATUS_RAMP_ERR i else s.setRw r w i k

/-- AUX_LOCK_DECLARED (R212, R221): synthesizer i declares lock, not before 1,024 comparisons of the acquisition, and its CLKOUT pairs
leave the inactive level. The phase at which it locks is not stated and is drawn. -/
def execAuxLockDeclared (i : Fin 2) (s : State) : Res :=
  if s.f F.AUX_STATUS_STATE i = 1 ∨ s.f F.AUX_STATUS_STATE i = 3 then
    let t := ((s.reach ((s.aux i).acq + comparisons 1024)).setAuxState i 2).drawn
    .next (t.modAux i fun x => { x with held := false, phase := s.free.toNat, phaseAt := t.now })
  else .next s

/-- AUX_LOSS_OF_LOCK (R212): synthesizer i declares loss of lock. -/
def execAuxLossOfLock (i : Fin 2) (s : State) : Res :=
  if s.f F.AUX_STATUS_STATE i = 2 then .next ((s.setAuxState i 3).modAux i fun x => { x with acq := s.now }) else .next s

/-- AUX_RAMP_START (R222): the armed ramp of synthesizer i starts at AUX_START, or at once when that has passed. -/
def execAuxRampStart (i : Fin 2) (s : State) : Res :=
  if s.f F.AUX_STATUS_RAMP i = 1 ∧ ¬ s.frozen (70 + i) then
    let late := s.past (s.aux i).start
    let t := (s.reach (s.aux i).start).rampGo i (if late then s.now else (s.aux i).start)
    .next (if late then t.flag F.AUX_STATUS_RAMP_LATE i else t)
  else .next s

/-- AUX_RAMP_POINT (R222): the ramp of synthesizer i reaches the point it moves toward. -/
def execAuxRampPoint (i : Fin 2) (s : State) : Res :=
  let x := s.aux i
  let p := s.f F.AUX_STATUS_PT i
  let last := s.f F.AUX_CTL_NPTS i
  if s.f F.AUX_STATUS_RAMP i = 2 ∧ ¬ s.frozen (70 + i) then
    let t := ((s.reach (x.segStart + s.segDur i)).foldTo i (x.segStart + s.segDur i)).modAux i fun y =>
      { y with word := s.auxPoint i p, from_ := p, segStart := x.segStart + s.segDur i }
    let go := fun (k : Nat) (back : Bool) => (t.setF F.AUX_STATUS_PT k i).modAux i fun y => { y with reverse := back }
    .next (
      if s.f F.AUX_CTL_RMODE i = 1 then (if p = last then t.setF F.AUX_STATUS_RAMP 3 i else go (p + 1) false)
      else if s.f F.AUX_CTL_RMODE i = 2 then (if p = last then go 0 false else go (p + 1) false)
      else if x.reverse then (if p = 0 then go 1 false else go (p - 1) true)
      else if p = last then go (p - 1) true else go (p + 1) false)
  else .next s

/-! ### CLKOUT pairs (R223, R224) -/

/-- Frequency of a CLKOUT source in Hz as numerator and denominator, when the source runs: AUX0, AUX1, the Reference PLL output, f_SP
of a quad. -/
def State.coSource (s : State) (src : Nat) : Option (Nat × Nat) :=
  if src < 2 then
    (if s.f F.AUX_STATUS_STATE src = 0 then none else some (600000000 * s.auxWordAt src s.now, 2 ^ 32 * 2 ^ (s.aux src).adiv))
  else if src = 2 then some (2400000000, 1)
  else if src < 7 then
    let w := (s.sp (src - 3)).applied.toNat
    (if s.f F.SP_STATUS_STATE (src - 3) = 0 then none else some (600000000 * nWord w, 2 ^ 32 * dWord w))
  else none

/-- Largest output frequency of a format (R223). -/
def coLimit (fmt : Nat) : Nat :=
  if fmt = 0 then 1600000000 else if fmt = 1 then 6600000000 else if fmt = 2 then 400000000 else if fmt = 3 then 250000000 else 0

/-- Whether a CO_CFG word may enable its pair. -/
def State.coLegal (s : State) (w : Nat) : Bool :=
  match s.coSource (bits w 7 4) with
  | some (a, b) => decide (a ≤ coLimit (bits w 3 1) * (bits w 27 16 + 1) * b)
  | none => false

/-- The divider of CLKOUT pair j starts (R224): with a Spindle source its first edge follows from now, and with another it lies where the
spec does not place it, for all pairs that one write starts on one source alike. -/
def State.coBegin (s : State) (j : Nat) : State :=
  let src := s.f F.CO_CFG_SRC j
  s.modClkout j fun x => { x with running := s.on F.CO_CFG_EN j, start := if 3 ≤ src then s.now else s.now + Config.coStart src s.now }

/-- A passing write of CO_CFG: one that enables a pair against R223 is ignored and sets ERR. A pair that runs keeps its divider's start when DIV
or SRC changes (DESIGN CHOICE, log entry 82: R224 does not say). -/
def State.writeCoCfg (s : State) (j : Nat) (w : Word) : State :=
  if bit w.toNat 0 ∧ ¬ s.coLegal w.toNat then s.flag F.CO_CFG_ERR j
  else
    let t := s.setRw .CO_CFG w j
    if bit w.toNat 0 ∧ (s.clkout j).running then t else t.coBegin j

/-- CO_DLY_APPLY (R224): the delays written to CO_DLYj take effect. -/
def execCoDlyApply (j : Fin 8) (s : State) : Res :=
  .next (s.modClkout j fun x => { x with dlyC := s.f F.CO_DLY_DLY_C j, dlyF := s.f F.CO_DLY_DLY_F j })

/-- The period of CLKOUT pair j in DTIME units, as numerator and denominator, and that of its source. -/
def State.coPeriod (s : State) (j : Nat) : Option ((Nat × Nat) × (Nat × Nat)) :=
  (s.coSource (s.f F.CO_CFG_SRC j)).map fun f => (((s.f F.CO_CFG_DIV_M1 j + 1) * second * f.2, f.1), (second * f.2, f.1))

/-- When rising edge k of CLKOUT pair j since its divider started leaves the device, in DTIME units, as numerator and denominator (R224). A
Spindle source's divider starts at the first multiple of DIV / f_SP from DTIME 0 on. DLY_C half-periods of the source and DLY_F × 2 ps
are added. -/
def State.coEdge (s : State) (j k : Nat) : Option (Nat × Nat) :=
  (s.coPeriod j).map fun p =>
    let x := s.clkout j
    let ((a, f), (b, _)) := p
    let src := s.f F.CO_CFG_SRC j
    let first := if 3 ≤ src then (x.start * f + a - 1) / a * a else x.start * f
    ((2 * (first + k * a) + x.dlyC * b) * 10 ^ 12 + x.dlyF * 4 * second * f, 2 * f * 10 ^ 12)

/-- Whether CLKOUT pair j leaves its inactive level: enabled, and not held by its synthesizer (R221, R224). -/
def State.coDrives (s : State) (j : Nat) : Bool :=
  let src := s.f F.CO_CFG_SRC j
  (s.clkout j).running && (s.coSource src).isSome && !(decide (src < 2) && (s.aux src).held)

/-! ### LOCKMON_A (R220) -/

/-- Whether LOCKMON_A sinks continuously because a PLL selected in LOCKMON_SEL is not in its locked state, or the device is in REST. In OFF
it is released. -/
def State.lockmonSinks (s : State) : Bool :=
  !s.off && (s.resting ||
  (s.on F.LOCKMON_SEL_REF && !(s.f F.CLK_REF_STATUS_STATE == 2 || s.f F.CLK_REF_STATUS_STATE == 3)) ||
  (s.on F.LOCKMON_SEL_SYS && !s.on F.CLK_REF_STATUS_SYS_LOCK) ||
  (s.on F.LOCKMON_SEL_DRAM && !s.on F.CLK_REF_STATUS_DRAM_LOCK) ||
  (anyN 4 fun q => bit (s.f F.LOCKMON_SEL_SP) q && !bit (s.f F.CLK_REF_STATUS_SP_LOCKED) q) ||
  anyN 2 fun i => bit (s.f F.LOCKMON_SEL_AUX) i && !bit (s.f F.CLK_REF_STATUS_AUX_LOCKED) i)

/-- The lock detector of a PLL (R212): whether it has declared lock, and the consecutive comparisons that speak for a change. -/
structure Detector where
  locked : Bool := false
  count : Nat := 0
  deriving DecidableEq, Repr

/-- One comparison with a phase error of err ps under the values of LK_WIN, LK_CNT and UL_CNT that hold at it; the count reached before is
kept when they change. rail: the tuning voltage has reached a rail (R212). -/
def Detector.compare (x : Detector) (win lk ul : Nat) (rail : Bool) (err : Int) : Detector :=
  let inside := decide (err.natAbs ≤ win)
  if x.locked then
    (if rail then {}
     else if inside then { x with count := 0 }
     else if ul ≤ x.count + 1 then {} else { x with count := x.count + 1 })
  else if ¬ inside then {}
  else if lk ≤ x.count + 1 then { locked := true } else { x with count := x.count + 1 }

/-- LK_WIN, LK_CNT and UL_CNT of a PLL by its place in LOCKMON_SEL's order: 0 Reference, 1 System, 2 DRAM, 3 to 6 Spindle, 7 and 8 auxiliary. The
values of the System, DRAM and auxiliary PLLs cannot be changed (R212). -/
def State.lockParams (s : State) (p : Nat) : Nat × Nat × Nat :=
  if p = 0 then (s.f F.REF_LOCKDET_LK_WIN, s.f F.REF_LOCKDET_LK_CNT, s.f F.REF_LOCKDET_UL_CNT)
  else if 3 ≤ p ∧ p ≤ 6 then (s.f F.SP_LOCKDET_LK_WIN (p - 3), s.f F.SP_LOCKDET_LK_CNT (p - 3), s.f F.SP_LOCKDET_UL_CNT (p - 3))
  else (20, 1024, 4)

/-- Whether LOCKMON_SEL selects PLL p. -/
def State.lockSelected (s : State) (p : Nat) : Bool :=
  if p = 0 then s.on F.LOCKMON_SEL_REF else if p = 1 then s.on F.LOCKMON_SEL_SYS else if p = 2 then s.on F.LOCKMON_SEL_DRAM
  else if p ≤ 6 then bit (s.f F.LOCKMON_SEL_SP) (p - 3) else bit (s.f F.LOCKMON_SEL_AUX) (p - 7)

/-- Whether LOCKMON_A sinks on a comparison of PLL p with a phase error of err ps (R220): that lies outside its window, or some selected PLL is
not locked. -/
def State.lockmonOn (s : State) (p : Nat) (err : Int) : Bool :=
  s.lockmonSinks || (!s.off && s.lockSelected p && decide ((s.lockParams p).1 < err.natAbs))

end Sys2Proof.Machine
end

