-- ==== Sys2Proof/Machine/Link.lean ====
section
/-! DEFINITION. What a port sends (chapter 13): MSI-X requests, the transmit injector, responses and notifications, and the counts of
discarded messages. -/

namespace Sys2Proof.Machine

def State.port (s : State) (p : Nat) : PortSt := sget (fun _ => {}) s.ports p
def State.modPort (s : State) (p : Nat) (g : PortSt → PortSt) : State :=
  { s with ports := sput (fun _ => {}) s.ports p (g (s.port p)) }

/-- n bytes of v, little-endian. -/
def leBytes : Nat → Nat → List Byte
  | 0, _ => []
  | n + 1, v => BitVec.ofNat 8 v :: leBytes n (v / 256)

/-- The number that bytes spell, little-endian. -/
def ofLe : List Byte → Nat
  | [] => 0
  | b :: bs => b.toNat + 256 * ofLe bs

/-! ### Interrupts (R282) -/

/-- A request for MSI-X vector i: a masked vector sets its PBA bit, which merges further requests; otherwise its message is sent. -/
def State.requestVector (s : State) (i : Nat) : State :=
  if bit (s.rw .MSIX_TAB (2 * i + 1)).toNat 32 then
    s.setF F.MSIX_PBA_PEND (setBits (s.f F.MSIX_PBA_PEND) i i 1)
  else { s with link := { s.link with msi := sput (fun _ => 0) s.link.msi i (sget (fun _ => 0) s.link.msi i + 1) } }

/-- A write of a word of the MSI-X table: a vector that is unmasked with its PBA bit set sends its message. -/
def State.writeMsix (s : State) (i : Nat) (w : Word) : State :=
  let t := s.setRw .MSIX_TAB w i
  if i % 2 = 1 ∧ ¬ bit w.toNat 32 ∧ bit (t.f F.MSIX_PBA_PEND) (i / 2) then
    (t.setF F.MSIX_PBA_PEND (setBits (t.f F.MSIX_PBA_PEND) (i / 2) (i / 2) 0)).requestVector (i / 2)
  else t

/-! ### Bindings (R271, R333) -/

/-- The PRT_BIND word in force on port p: the old one while a change waits. -/
def State.bindWord (s : State) (p : Nat) : Nat :=
  ((s.port p).bind.getD (if p = 0 then s.rw .PRT_BIND0 else s.rw .PRT_BIND (p - 1))).toNat

/-- Whether port p is bound, and the level of its partner. -/
def State.portBound (s : State) (p : Nat) : Bool := p == 0 || bit (s.bindWord p) 0
def State.portLevel (s : State) (p : Nat) : Nat := bits (s.bindWord p) 2 1

/-- SESSION of port p. -/
def State.session (s : State) (p : Nat) : Nat := if p = 0 then s.f F.PRT_BIND0_SESSION else s.f F.PRT_BIND_SESSION (p - 1)
def State.nextSession (s : State) (p : Nat) : State :=
  if p = 0 then s.tick F.PRT_BIND0_SESSION else s.tick F.PRT_BIND_SESSION (p - 1)

/-! ### Sending -/

/-- A message is discarded and counted (R272). -/
def State.dropMessage (s : State) (p : Nat) : State := (s.bump F.PRT_CNT_DROP p).trouble .linkDrop

/-- Entries of a PORT0 ring with LOG2N = n. -/
def ringSize (n : Nat) : Nat := 2 ^ n

/-- Whether the response ring holds no free entry (R273). -/
def State.responseFull (s : State) : Bool :=
  (s.f F.P0_RSP_IDX_TAIL + 65536 - s.f F.P0_RSP_IDX_HEAD) % 65536 == ringSize (s.f F.P0_QCFG_RSP_LOG2N)

/-- Whether Ethernet port p (1–4) transmits: enabled, up, with a station address, and not stopped (R269, R291). -/
def State.ethSends (s : State) (p : Nat) : Bool :=
  s.on F.ETH_CFG_EN (p - 1) && s.on F.ETH_STAT_UP (p - 1) && s.f F.ETH_MAC_MAC (p - 1) != 0 && !s.frozen (64 + p)

/-- Whether port p receives, its domain not being stopped (R291): PORT1 to PORT4 when enabled and up, and PORT0 when its command ring holds
an entry that the device may fetch. -/
def State.receives (s : State) (p : Nat) : Bool :=
  s.active && !s.frozen (64 + p) &&
    (if p = 0 then s.on F.P0_QCFG_CMD_EN && s.f F.P0_CMD_IDX_HEAD != s.f F.P0_CMD_IDX_TAIL && !s.responseFull
     else s.on F.ETH_CFG_EN (p - 1) && s.on F.ETH_STAT_UP (p - 1))

/-- The 802.1Q tag that the frames of Ethernet port p (1–4) carry (R269). -/
def State.vlanTag (s : State) (p : Nat) : List (BitVec 12) :=
  if s.on F.ETH_CFG_VLAN_EN (p - 1) then [BitVec.ofNat 12 (s.f F.ETH_CFG_VLAN_ID (p - 1))] else []

/-- Whether Ethernet port p takes a datagram (R269): over an IP version that is enabled, with the tag of its frames, and no fragment. -/
def State.takesFrame (s : State) (p : Nat) (f : EthFrame) : Bool :=
  p == 0 || (s.on (if f.v6 then F.ETH_CFG_IP6_EN else F.ETH_CFG_IP4_EN) (p - 1) && !f.frag && f.tags == s.vlanTag p)

/-- Whether port p can send a message now: on PORT0 the response ring is enabled and not full, and nothing waits for it. -/
def State.canSend (s : State) (p : Nat) : Bool :=
  if p = 0 then s.on F.P0_QCFG_RSP_EN && !s.responseFull && (s.port 0).unsent.isEmpty else s.ethSends p

/-- The response ring requests its vector (R282). -/
def State.ringRequest (s : State) : State :=
  (s.modPort 0 fun x => { x with coal := 0, coalAt := none }).requestVector (s.f F.P0_IRQ_VEC)

/-- Where entry i of the response ring lies in host memory, and the PHASE that the device writes in it (R273). -/
def State.ringEntry (s : State) (i : Nat) : Nat × Bool :=
  let size := ringSize (s.f F.P0_QCFG_RSP_LOG2N)
  (s.f F.P0_RSPQ_BASE_ADDR * 4096 + 64 * (i % size), i / size % 2 == 0)

/-- An entry is written into the response ring (R273, R282). -/
def State.ringWrite (s : State) : State :=
  let s := { s with link := { s.link with entries := s.link.entries ++ [s.ringEntry (s.f F.P0_RSP_IDX_TAIL)] } }
  let t := (s.tick F.P0_RSP_IDX_TAIL).modPort 0 fun x =>
    { x with coal := x.coal + 1, coalAt := some (x.coalAt.getD s.now) }
  if t.on F.P0_IRQ_EN ∧ max 1 (t.f F.P0_IRQ_COAL_N) ≤ (t.port 0).coal then t.ringRequest else t

/-- A frame leaves port p. One for a full response ring waits (R273), and one for a port that does not send is lost. -/
def State.sendFrame (s : State) (p : Nat) (m : Sent) : State :=
  if s.canSend p then
    let t := s.modPort p fun x => { x with sent := x.sent ++ [m] }
    if p = 0 then t.ringWrite else t
  else if p = 0 ∧ s.on F.P0_QCFG_RSP_EN then s.modPort 0 fun x => { x with unsent := x.unsent ++ [m] }
  else s

/-- The entries that wait for the response ring are written in order, as far as there is room. -/
def State.flushRing (s : State) : State :=
  (s.port 0).unsent.foldl (fun t m => t.sendFrame 0 m) (s.modPort 0 fun x => { x with unsent := [] })

/-- Whether port p injects faults in a direction (0 receive, 1 transmit). -/
def State.injects (s : State) (p dir : Nat) : Bool :=
  s.on F.PRT_FI_EN p && (s.f F.PRT_FI_DIR p == dir || s.f F.PRT_FI_DIR p == 2)

/-- What the injector does with the k-th frame offered, of a length in bytes: none when DROP_N takes it, else whether CORR_N corrupts
it. -/
def State.injected (s : State) (p k len : Nat) : Option Bool :=
  let d := s.f F.PRT_FI_DROP_N p
  let c := s.f F.PRT_FI_CORR_N p
  if d ≠ 0 ∧ k % d = 0 then none else some (decide (c ≠ 0 ∧ k % c = 0 ∧ s.f F.PRT_FI_CORR_BIT p < 8 * len))

/-- REORD_W while it reorders: 2 to 16. -/
def State.reorderWidth (s : State) (p : Nat) : Nat :=
  if 2 ≤ s.f F.PRT_FI_REORD_W p ∧ s.f F.PRT_FI_REORD_W p ≤ 16 then s.f F.PRT_FI_REORD_W p else 0

/-- The transmit group of port p is released in reverse order (R283). -/
def State.releaseTx (s : State) (p : Nat) : State :=
  let g := (s.port p).txGroup
  let t := s.modPort p fun x => { x with txGroup := [] }
  if g.isEmpty then t
  else g.reverse.foldl (fun u m => u.sendFrame p m) (t.bump F.PRT_FI_CNT_REORDERED p)

/-- Length in bytes of a frame for the injector of port p: on PORT0 a ring entry with its payload, elsewhere header and payload. -/
def Sent.size (p : Nat) : Sent → Nat
  | .mlp m => if p ≠ 0 then 32 + m.payload.length else if m.payload.length ≤ 32 then 64 else 64 + m.payload.length
  | _ => 64

/-- A frame after injection has inverted a bit of it, when hit. -/
def Sent.hit (hit : Bool) : Sent → Sent
  | .mlp m => .mlp { m with corrupt := m.corrupt || hit }
  | .streamAck c => .streamAck (c || hit)
  | m => m

/-- Whether the transmit injector of port p takes a frame: MLP messages, and with STRM stream frames (R283). -/
def State.injectsTx (s : State) (p : Nat) : Sent → Bool
  | .mlp _ => s.injects p 1
  | .streamAck _ => s.injects p 1 && s.on F.PRT_FI_STRM p
  | _ => false

/-- A frame is offered for transmission on port p (R283). -/
def State.offerTx (s : State) (p : Nat) (m : Sent) : State :=
  if s.injectsTx p m then
    let k := (s.port p).txCount + 1
    let s := s.modPort p fun x => { x with txCount := k }
    match s.injected p k (m.size p) with
    | none => s.bump F.PRT_FI_CNT_DROPPED p
    | some hit =>
      let s := if hit then s.bump F.PRT_FI_CNT_CORRUPTED p else s
      if s.reorderWidth p = 0 then s.sendFrame p (m.hit hit)
      else
        let t := s.modPort p fun x =>
          { x with txGroup := x.txGroup ++ [m.hit hit], txAt := if x.txGroup.isEmpty then s.now else x.txAt }
        if s.reorderWidth p ≤ (t.port p).txGroup.length then t.releaseTx p else t
  else s.sendFrame p m

/-- An MLP message is offered for transmission on port p. -/
def State.transmit (s : State) (p : Nat) (m : MlpOut) : State := s.offerTx p (.mlp m)

/-! ### Notifications (R281) -/

/-- The next DSN of port p, which becomes LAST_DSN (R278). -/
def State.nextDsn (s : State) (p : Nat) : Nat := (s.f F.PRT_SEQ_LAST_DSN p + 1) % 2 ^ 32

/-- The waiting notifications of port p are sent while it can send. -/
def State.flushNotes (s : State) (p : Nat) : State :=
  (s.port p).waiting.foldl (fun t m =>
    if t.canSend p then (t.modPort p fun x => { x with waiting := x.waiting.drop 1 }).transmit p m else t) s

/-- A notification joins the queue of port p; a full queue discards its oldest. -/
def State.queueNote (s : State) (p : Nat) (m : MlpOut) : State :=
  let full := decide (64 ≤ (s.port p).waiting.length)
  let t := s.modPort p fun x => { x with waiting := (if full then x.waiting.drop 1 else x.waiting) ++ [m] }
  (if full then t.dropMessage p else t).flushNotes p

/-- A Service Core (true for SC1) posts a notification to the session of port p, when its mask takes the kind. -/
def State.postNote (s : State) (p kind : Nat) (sc1 : Bool) (payload : List Byte) : State :=
  if s.boot.running ∧ (s.port p).opened ∧ bit (s.port p).mask kind then
    let d := s.nextDsn p
    let m : MlpOut := { note := true, code := kind, dsn := d, session := s.session p, payload := payload }
    (((s.setF F.PRT_SEQ_LAST_DSN d p).modPort p fun x => { x with notes := (m :: x.notes).take 64 }).fireNow
      (if sc1 then 633 else 632)).queueNote p m
  else s

/-- A notification for every session. -/
def State.postAll (s : State) (kind : Nat) (sc1 : Bool) (payload : List Byte) : State :=
  forN 5 (fun p t => t.postNote p kind sc1 payload) s

/-- A BIND notification (R279). -/
def State.noteBind (s : State) (p : Nat) : State :=
  s.postNote p 2 true (leBytes 2 (s.session p) ++ leBytes 1 (s.portLevel p) ++ leBytes 1 0)

/-- A change of the PTP servo is notified (R281). -/
def State.notePtp (s : State) : State :=
  let p := s.f F.PTP_STAT_RX_PORT
  let st := if p = 0 then 0 else s.f F.PTP_PSTAT_STATE (p - 1)
  s.postAll 3 false (leBytes 1 (s.f F.PTP_STAT_SERVO) ++ leBytes 1 p ++ leBytes 1 st ++ leBytes 1 0 ++ leBytes 8 s.uncRead)

end Sys2Proof.Machine
end

