-- ==== Sys2Proof/Machine/Access.lean ====
section
/-! DEFINITION. Who accesses registers and what protection lets through (chapter 16): requesters and their levels, the protection table,
locks, and what a refused access leaves. -/

namespace Sys2Proof.Machine

/-! ### Requesters (R327, R333) -/

/-- REQ as PROT_LAST codes it, in the order of R327. -/
def reqCode : Requester → Nat
  | .port0 => 0 | .port1 => 1 | .port2 => 2 | .port3 => 3 | .port4 => 4 | .sc0 => 5 | .sc1 => 6

/-- The requester of port p. -/
def portReq (p : Fin 5) : Requester :=
  match p with | 0 => .port0 | 1 => .port1 | 2 => .port2 | 3 => .port3 | 4 => .port4

/-- An unbound port is no requester (R333). -/
def State.bound (s : State) (q : Requester) : Bool := decide (5 ≤ reqCode q) || s.portBound (reqCode q)

/-- The level of a requester (R333); the reserved code 3 acts as PL2. -/
def State.level (s : State) (q : Requester) : Nat :=
  match q with
  | .sc0 => s.f F.GLB_SCLVL_SC0
  | .sc1 => s.f F.GLB_SCLVL_SC1
  | p => min 2 (s.portLevel (reqCode p))

/-! ### Protection (R334, R336, R341) -/

/-- The protection region of a BAR0 offset (R346). -/
def regionOf (off : Nat) : Nat :=
  if off < 0x80000 then off / 0x10000
  else if off < 0x200000 then 8 + (off - 0x100000) / 0x10000
  else if off < 0x400000 then 24 + (off - 0x200000) / 0x8000
  else 24 + (off - 0x400000) / 0x10000

/-- The block of a BAR0 offset (Table: BAR0 blocks and their chapters): a core's control and its instruction memory are two blocks of one
region. -/
def blockAt (off : Nat) : Nat := if off < 0x400000 then regionOf off else 88 + (off - 0x400000) / 0x10000

/-- Word i of the protection table as accesses to a region meet it: a write of the table counts in other blocks from the next core cycle
on, and in the Global block at once, where no two accesses share a cycle (R327, R336). -/
def State.protWord (s : State) (region i : Nat) : Word :=
  match s.bus.table with
  | some (t, old) => if region ≠ 0 ∧ s.thisCycle (some t) then old.getD i 0#64 else s.word (0x100 + i * 8)
  | none => s.word (0x100 + i * 8)

/-- A write of the protection table at this instant keeps the table of the core cycle's start. -/
def State.keepTable (s : State) : State :=
  if s.thisCycle (s.bus.table.map (·.1)) then s
  else { s with bus := { s.bus with table := some (s.now, (List.range 12).map fun i => s.word (0x100 + i * 8)) } }

/-- The access of a level to a region (R334): 0 NONE, 1 READ, 2 READ_WRITE; an entry of 3 is taken as NONE. -/
def State.access (s : State) (level region : Nat) : Nat :=
  if level = 0 then 2
  else
    let a := bits (s.protWord region (region / 8)).toNat (8 * (region % 8) + 2 * level - 1) (8 * (region % 8) + 2 * level - 2)
    if a = 3 then 0 else a

/-- The causes of a refusal, in the codes of PROT_LAST. -/
inductive Cause where
  | region | pl0Only | lock | wonce | fabric | fuse
  deriving DecidableEq, Repr

def Cause.code : Cause → Nat
  | .region => 1 | .pl0Only => 2 | .lock => 3 | .wonce => 4 | .fabric => 5 | .fuse => 6

/-- Whether PROT_LAST keeps what it holds although a refused access of q follows: one of this core cycle, in another block, by a
requester that comes first (R342). -/
def State.keepsRefused (s : State) (q : Requester) (space addr : Nat) : Bool :=
  let w := (s.rw .PROT_LAST).toNat
  let block := fun (space addr : Nat) => if space = 0 then (0, blockAt addr) else (space, 0)
  s.thisCycle s.bus.refusedAt && bit w 63 && decide (bits w 59 57 < reqCode q) && block (bits w 53 52) (bits w 36 0) != block space addr

/-- A refused access is counted and recorded, and may fire PROT (R341). space: 0 BAR0, 1 BAR2, 2 BAR4. -/
def State.refuseAccess (s : State) (q : Requester) (c : Cause) (read : Bool) (space addr : Nat) : State :=
  let w := 2 ^ 63 + c.code * 2 ^ 60 + reqCode q * 2 ^ 57 + s.level q * 2 ^ 55 + read.toNat * 2 ^ 54 + space * 2 ^ 52 + addr % 2 ^ 37
  let t := s.trouble .protViolation
  let t := if s.keepsRefused q space addr then t
    else { t.setRw .PROT_LAST (BitVec.ofNat 64 w) with bus := { t.bus with refusedAt := some s.now } }
  if t.on F.GLB_CFG_PROT_EVT then t.fireNow 623 else t

/-! ### Locks (R337, R338, R346) -/

/-- Offset of the LOCK register that governs an offset. -/
def lockOf (off : Nat) : Nat :=
  if off < 0x80000 then
    match off / 0x10000 with
    | 0 => 0x28
    | 1 => 0x100F8
    | 2 => 0x20048
    | 3 => if 0x38000 ≤ off ∧ off < 0x38400 then 0x38300 else 0x30078
    | 4 => 0x40080
    | 5 => 0x50010
    | 6 => 0x60060
    | _ => 0x70188
  else if off < 0x200000 then
    let b := off / 0x10000 * 0x10000
    let o := off % 0x10000
    if o < 0x1000 then b + 0xC8
    else if o < 0x2000 then b + 0x1028
    else if o < 0x8000 then b + 0x2028
    else b + o / 0x1000 * 0x1000 + 0x50
  else if off < 0x400000 then off / 0x8000 * 0x8000 + 0x60
  else 0x200060 + (off - 0x400000) / 0x10000 * 0x8000

/-- The LOCK bit that governs an offset as an access to it meets it (R338): a write of CORE_LOCK counts for the core's instruction memory,
which is another block, from the next core cycle on; a LOCK and what it governs elsewhere lie in one block. -/
def State.lockBit (s : State) (off : Nat) : Bool :=
  let now := bit (s.word (lockOf off)).toNat 0
  if off < 0x400000 then now
  else match sget (fun _ => none) s.bus.locks ((off - 0x400000) / 0x10000) with
    | some (t, old) => if s.thisCycle (some t) then old else now
    | none => now

/-- A write of CORE_LOCK of core k at this instant keeps the LOCK of the core cycle's start. -/
def State.keepLock (s : State) (k : Nat) : State :=
  if s.thisCycle ((sget (fun _ => none) s.bus.locks k).map (·.1)) then s
  else { s with bus := { s.bus with locks := sput (fun _ => none) s.bus.locks k (some (s.now, s.on F.CORE_LOCK_LOCK k)) } }

end Sys2Proof.Machine
end

