-- ==== Sys2Proof/Machine/Time.lean ====
section
/-! DEFINITION. Device time (chapter 11): time commands, PPS_IN, seconds, and holdover policy. -/

namespace Sys2Proof.Machine

/-! ### Time commands (R230) -/

/-- A time command is refused with a code. -/
def State.refuseTime (s : State) (code : Nat) : State := (s.setF F.TM_STATUS_CMD_CODE code).flag F.TM_STATUS_CMD_ERR

/-- The argument ARG_SEC:ARG_FRAC as a 96-bit number. -/
def State.timeArg (s : State) : Nat := s.at F.TM_ARG_SEC_SEC F.TM_ARG_FRAC_FRAC

/-- Whether the servo owns DTIME: the role is RECEIVER or BOUNDARY (R240). -/
def State.servoOwns (s : State) : Bool := decide (2 ≤ s.f F.PTP_CFG_ROLE)

/-- SET_AT_PPS or ALIGN_PPS begins to wait; GO reads 1 (R230). -/
def State.awaitPps (s : State) (align : Bool) : State :=
  let t := s.flag F.TM_CMD_GO
  { t with time := { t.time with ppsWait := some ⟨align, s.f F.TM_ARG_SEC_SEC, s.now⟩ } }

/-- The waiting command is over; GO reads 0. -/
def State.endPps (s : State) : State :=
  let t := s.clr F.TM_CMD_GO
  { t with time := { t.time with ppsWait := none } }

/-- Step by REMAIN (R236): BUILD loses what was pending. -/
def State.stepRemain (s : State) : State :=
  let t := s.foldSlew
  let r := t.remain
  (((t.setHoldover 0 (t.build - r)).showHoldover).stepTime r)

/-- A write of GO = 1 with operation op (R230). The operations that are not tied to an edge are applied at once. -/
def State.timeCommand (s : State) (op : Nat) : State :=
  if s.time.ppsWait.isSome then (if op = 5 then s.endPps else s.refuseTime 2)
  else if op = 0 then (if s.servoOwns then s.refuseTime 6 else s.stepTime ((s.timeArg : Int) - s.now))
  else if op = 1 then (if s.servoOwns then s.refuseTime 6 else s.awaitPps false)
  else if op = 2 then (if s.servoOwns then s.refuseTime 6 else s.stepTime (signed 96 s.timeArg))
  else if op = 3 then (if s.servoOwns then s.refuseTime 6 else s.awaitPps true)
  else if op = 4 then
    (if s.remain = 0 then s.refuseTime 3 else if s.f F.CLK_REF_STATUS_STATE ≠ 2 then s.refuseTime 4 else s.stepRemain)
  else if op = 5 then s.dropRemain
  else s.refuseTime 1

/-- A passing write of TM_CMD with written word w. -/
def State.writeTmCmd (s : State) (stored w : Word) : State :=
  let t := s.setRw .TM_CMD stored
  if bit w.toNat 63 then t.timeCommand (bits w.toNat 3 0) else t

/-- A passing write of TM_HO_CFG (R236, R237): what went before counts at the old rates, and POLICY = BUILDOUT drops REMAIN. -/
def State.writeHoCfg (s : State) (w : Word) : State :=
  let t := (s.foldUnc.foldSlew).setRw .TM_HO_CFG w
  if t.f F.TM_HO_CFG_POLICY = 0 ∧ t.remain ≠ 0 then t.dropRemain else t.showHoldover

/-- PPS_CMD_TIMEOUT (R230): no edge came within 2 s of the write. -/
def execPpsCmdTimeout (s : State) : Res :=
  match s.time.ppsWait with
  | some w => .next (((s.reach (w.written + 2 * second)).endPps).refuseTime 5)
  | none => .next s

/-! ### PPS_IN (R232) -/

/-- The offset the waiting command steps by, for an edge with compensated timestamp ts. -/
def PpsWait.delta (w : PpsWait) (ts : Int) : Int :=
  if w.align then
    let f := ts % second
    if 2 * f < second then -f else second - f
  else (w.arg * second : Nat) - ts

/-- A waiting command takes the first edge whose timestamp lies 10 µs or more after its write. -/
def State.ppsApply (s : State) (ts : Int) : State :=
  match s.time.ppsWait with
  | some w => if (second : Int) ≤ (ts - w.written) * 100000 then s.endPps.stepTime (w.delta ts) else s
  | none => s

/-- PPS_IN_EDGE (R232): PPS_IN crosses its threshold at DTIME t. -/
def execPpsInEdge (t : Nat) (rising : Bool) (s : State) : Res :=
  let s := s.reach t
  if s.on F.TM_PPS_CFG_EN ∧ rising = !s.on F.TM_PPS_CFG_EDGE then
    let ts : Int := (t : Int) - signed 32 (s.f F.TM_PPS_CFG_COMP) * 256
    let s := ((s.putTime F.TM_PPS_SEC_SEC F.TM_PPS_FRAC_FRAC (wrap 96 ts)).tick F.TM_PPS_SEC_ESEQ).tick F.TM_PPS_FRAC_ESEQ
    let s := s.fire 625 t
    let good := match s.time.ppsLast with
      | some l => decide ((signed 96 (wrap 96 (ts - l - second))).natAbs * 10000 ≤ second)
      | none => false
    let s := if good then s.flag F.TM_STATUS_PPS_VALID else s
    let s := { s with time := { s.time with ppsLast := some (wrap 96 ts), ppsEdge := t } }
    .next (s.ppsApply ts)
  else .next s

/-- PPS_MISS (R232): no edge came within 1.0001 s of the last while PPS_VALID was 1. -/
def execPpsMiss (s : State) : Res :=
  match s.time.ppsLast with
  | some _ =>
    if s.on F.TM_STATUS_PPS_VALID then
      .next (((s.reach (s.time.ppsEdge + 10001 * second / 10000)).flag F.TM_STATUS_PPS_MISS).clr F.TM_STATUS_PPS_VALID)
    else .next s
  | none => .next s

/-! ### Seconds and slewing -/

/-- SECOND (R191, R231): DTIME passes the next whole TAI second. -/
def execSecond (s : State) : Res :=
  let n := s.time.nextSecond
  let s := (s.reach (n * second)).fire 626 (n * second)
  .next { s with time := { s.time with nextSecond := n + 1 } }

/-- SLEW_COMPLETE (R236): the slew removes the last of REMAIN. -/
def execSlewComplete (s : State) : Res :=
  let rate := s.f F.TM_HO_CFG_SLEW_RATE
  if s.on F.TM_STATUS_SLEWING ∧ rate ≠ 0 then
    let s := s.reach (s.time.slewSince + (s.remain.natAbs * 10 ^ 15 + rate - 1) / rate)
    .next ((s.setHoldover 0 (s.build - s.remain)).showHoldover)
  else .next s

end Sys2Proof.Machine
end

