-- ==== Sys2Proof/Machine/Ptp.lean ====
section
/-! DEFINITION. The IEEE 1588-2019 time service (R238 to R241). The servo's offsets, port states and datasets; what the spec takes from
IEEE 1588-2019 by name is read from that standard (PRESUMED): portState numbers, the formulas of offsetFromMaster and
meanPathDelay, the order in which Announce messages rank, and the clockAccuracy enumeration. -/

namespace Sys2Proof.Machine

/-- Change the time service's own state. -/
def State.modPtp (s : State) (g : PtpSt → PtpSt) : State := { s with time := { s.time with ptp := g s.time.ptp } }

/-- logSyncInterval, logAnnounceInterval and logMinDelayReqInterval of the instance. -/
def State.logSync (s : State) : Int := signed 4 (s.f F.PTP_CFG_LOG_SYNC)
def State.logAnn (s : State) : Int := signed 4 (s.f F.PTP_CFG_LOG_ANN)
def State.logDreq (s : State) : Int := signed 4 (s.f F.PTP_CFG_LOG_DREQ)

/-- Whether domainNumber, the intervals and announceReceiptTimeout have values that R238 supports. -/
def State.ptpSupported (s : State) : Bool :=
  decide (s.f F.PTP_CFG_DOMAIN < 128) && decide (-7 ≤ s.logSync ∧ s.logSync ≤ 1) && decide (-3 ≤ s.logAnn ∧ s.logAnn ≤ 3) &&
    decide (-7 ≤ s.logDreq ∧ s.logDreq ≤ 1) && decide (2 ≤ s.f F.PTP_CFG_ANN_TMO)

/-- Whether the instance runs: PTP_CFG.EN, on a running SC0, with values that are supported (R238). With others it does not run (DESIGN
CHOICE, log entry 84). -/
def State.ptpRuns (s : State) : Bool := s.on F.PTP_CFG_EN && s.boot.running && s.ptpSupported

/-- 2^l seconds, l from -7 to 3, in DTIME units. -/
def logSeconds (l : Int) : Nat := if l < 0 then second / 2 ^ (-l).toNat else second * 2 ^ l.toNat

/-- Whether port i + 1 takes part: EN, over one of the transports of R238. -/
def State.ptpPort (s : State) (i : Nat) : Bool := s.on F.PTP_PORT_EN i && s.f F.PTP_PORT_TRANSPORT i != 3

/-- A signed number of fs in DTIME units, to the nearest. -/
def fsUnits (fs : Int) : Int := roundDiv (fs * second) (10 ^ 15)

/-- A signed number of 2^-16 ns in DTIME units, to the nearest. -/
def subnsUnits (z : Int) : Int := roundDiv (z * second) (65536 * 10 ^ 9)

/-- portState values used: DISABLED is read 0 with EN = 0. -/
def stListening : Nat := 4
def stMaster : Nat := 6
def stSlave : Nat := 9

/-- portState of port i + 1. -/
def State.portState (s : State) (i : Nat) : Nat := s.f F.PTP_PSTAT_STATE i

/-- Port i + 1 takes the state its role and the parent give it (R238, R241): 0 while not enabled, SLAVE on the port of the parent, else
MASTER on a grandmaster or a boundary clock and LISTENING on a receiver. -/
def State.showPortState (s : State) (i : Nat) : State :=
  let role := s.f F.PTP_CFG_ROLE
  let follows : Bool := match s.time.ptp.parent with | some q => q.port == i | none => false
  s.setF F.PTP_PSTAT_STATE
    (if ¬ s.ptpRuns ∨ ¬ s.ptpPort i ∨ role = 0 then 0
     else if follows ∧ 2 ≤ role then stSlave else if role = 3 then stListening else stMaster) i

/-- All port states and RX_PORT follow. -/
def State.showPtpPorts (s : State) : State :=
  let t := forN 4 (fun i u => u.showPortState i) s
  t.setF F.PTP_STAT_RX_PORT (match firstN 4 fun i => t.portState i == stSlave with | some i => i + 1 | none => 0)

/-- The servo enters a state (R240): LOCKED fires 629, LOST fires 630 and lets the Reference PLL coast in PTP mode. -/
def State.setServo (s : State) (st : Nat) : State :=
  let was := s.f F.PTP_STAT_SERVO
  let t := (s.setF F.PTP_STAT_SERVO st).modPtp fun x => { x with good := 0, bad := 0 }
  let t := if st = 2 then t.fireNow 629 else if st = 3 then t.fireNow 630 else t
  let t := if was = st then t else t.notePtp
  if s.resting then t else t.refReview false

/-- The servo is lost, when it ran (R240). -/
def State.loseServo (s : State) : State :=
  if s.f F.PTP_STAT_SERVO = 1 ∨ s.f F.PTP_STAT_SERVO = 2 then s.setServo 3 else s

/-- A passing write of PTP_CFG or of a PTP_PORT: the instance and its ports start or stop. A receiving role starts its servo in
ACQUIRE, and none runs without EN. -/
def State.ptpConfigured (s : State) : State :=
  let recv := s.ptpRuns && decide (2 ≤ s.f F.PTP_CFG_ROLE)
  let t := if recv then s else s.modPtp fun x => { x with parent := none, waiting := none, reqTime := none }
  let t := t.showPtpPorts
  if recv ∧ s.f F.PTP_STAT_SERVO = 0 then (t.modPtp fun x => { x with begun := false }).setServo 1
  else if ¬ recv ∧ s.f F.PTP_STAT_SERVO ≠ 0 then
    let u := (t.setF F.PTP_STAT_SERVO 0).notePtp
    if u.resting then u else u.refReview false
  else t

/-- Whether a message belongs to the instance: its port takes part, in the same domain and sdoId (R238). -/
def State.ptpTakes (s : State) (h : PtpHead) : Bool :=
  s.ptpRuns && s.ptpPort h.port && s.f F.PTP_CFG_DOMAIN == h.domain.toNat && s.f F.PTP_CFG_SDOID == h.sdo.toNat

/-- A receive timestamp referred to the plane of PTP_TSADJ (R239). -/
def State.rxStamp (s : State) (i t : Nat) : Int := t + fsUnits (signed 32 (s.f F.PTP_TSADJ_RX_FS i))
/-- A transmit timestamp, likewise. -/
def State.txStamp (s : State) (i t : Nat) : Int := t + fsUnits (signed 32 (s.f F.PTP_TSADJ_TX_FS i))

/-- delayAsymmetry of port i + 1 in DTIME units. -/
def State.asymmetry (s : State) (i : Nat) : Int := subnsUnits (signed 32 (s.f F.PTP_PORT_ASYM i))

/-- A frame leaves PTP port i + 1. -/
def State.sendPtp (s : State) (fr : PtpFrame) : State :=
  if s.ethSends (fr.port + 1) then s.modPtp fun x => { x with sent := x.sent ++ [fr] } else s

/-- The timestamp that a frame shows: seconds and nanoseconds, with the 2^-16 ns beneath in its correctionField (R228). -/
def shownStamp (f : PtpFrame) : Nat × Nat × Nat := ptpOfDtime (wrap 96 f.time)

/-- A message of a kind (0 Sync, 1 Announce, 2 Delay_Req) is due on port i + 1, an interval of 2^l s after the one before (R238). -/
def State.ptpDue (s : State) (i kind : Nat) (l : Int) : State :=
  let t := match s.time.ptp.sentAt.find? fun p => p.1 == 4 * i + kind with
    | some p => s.reach (p.2 + logSeconds l)
    | none => s
  t.modPtp fun x => { x with sentAt := sput (fun _ => 0) x.sentAt (4 * i + kind) t.now }

/-- The next sequenceId of a kind of message on port i + 1. -/
def State.ptpSeq (s : State) (i kind : Nat) : Nat × State :=
  let n := sget (fun _ => 0) s.time.ptp.seqs (4 * i + kind)
  (n, s.modPtp fun x => { x with seqs := sput (fun _ => 0) x.seqs (4 * i + kind) ((n + 1) % 65536) })

/-! ### The servo (R240) -/

/-- 1 µs and 1 ns in 1000 × DTIME units × 10^6, compared exactly: |offset| against n ns. -/
def withinNs (off : Int) (n : Nat) : Bool := decide (off.natAbs * 10 ^ 9 ≤ n * second)

/-- SC0 writes TM_UNC, at its own level (R333): a write that the protection table or TM_LOCK refuses is recorded and has no effect. -/
def State.sc0Unc (s : State) (v : Nat) : State :=
  let lv := s.level .sc0
  let off := Reg.TM_UNC.addr 0 0
  if s.access lv (regionOf off) ≠ 2 then s.refuseAccess .sc0 .region false 0 off
  else if lv ≠ 0 ∧ s.lockBit off ∧ v ≠ s.uncBase then s.refuseAccess .sc0 .lock false 0 off
  else s.setUnc v

/-- What a Sync does once its origin time t1 and receive time t2, both less corrections, are known. In ACQUIRE the first offset past 1 µs since
the role was enabled is removed by a step. From LOST the first Sync lets the servo acquire again. The bound that a LOCKED servo writes to
TM_UNC is not stated, so it is drawn; protection may ignore the write (R333). -/
def State.servoSync (s : State) (t1 t2 : Int) : State :=
  let s := s.modPtp fun x => { x with t1 := t1, t2 := t2 }
  let off := t2 - t1 - signed 64 (s.f F.PTP_MPD_MPD)
  let s := s.setF F.PTP_OFFSET_OFFSET (wrap 64 off)
  let s := if s.f F.PTP_STAT_SERVO = 3 then s.setServo 1 else s
  let steps := s.f F.PTP_STAT_SERVO == 1 && !s.time.ptp.begun && !withinNs off 1000
  let s := s.modPtp fun x =>
    { x with begun := x.begun || steps, good := if withinNs off 1 then x.good + 1 else 0,
             bad := if withinNs off 1000 then 0 else x.bad + 1 }
  let s := if steps then s.stepTime (-off) else s
  let s := if s.f F.PTP_STAT_SERVO = 1 ∧ 16 ≤ s.time.ptp.good then s.setServo 2 else s
  let s := if 4 ≤ s.time.ptp.bad then s.loseServo else s
  if s.f F.PTP_STAT_SERVO = 2 then s.drawn.sc0Unc (s.free.toNat % 2 ^ 48) else s

/-- PTP_SYNC_RX (R240): a Sync with its origin timestamp arrives on the SLAVE port at DTIME t. -/
def execPtpSyncRx (h : PtpHead) (twoStep : Bool) (origin : PtpTime) (t : Nat) (s : State) : Res :=
  let s := s.reach t
  if s.ptpTakes h ∧ s.portState h.port = stSlave then
    let t2 := s.rxStamp h.port t - subnsUnits h.corr.toInt - s.asymmetry h.port
    if twoStep then .next (s.modPtp fun x => { x with waiting := some ⟨h.port, h.seq.toNat, t2⟩ })
    else .next (s.servoSync (ptpDtime origin) t2)
  else .next s

/-- PTP_FOLLOW_UP_RX (R238): the precise origin time of the two-step Sync that waits. -/
def execPtpFollowUpRx (h : PtpHead) (origin : PtpTime) (s : State) : Res :=
  match s.time.ptp.waiting with
  | some w =>
    if s.ptpTakes h ∧ w.port = h.port.val ∧ w.seq = h.seq.toNat then
      .next ((s.modPtp fun x => { x with waiting := none }).servoSync (ptpDtime origin) (w.t2 - subnsUnits h.corr.toInt))
    else .next s
  | none => .next s

/-- PTP_DELAY_REQ_RX (R238): a Delay_Req arrives at DTIME t on a MASTER port and is answered with its receive timestamp. -/
def execPtpDelayReqRx (h : PtpHead) (t : Nat) (s : State) : Res :=
  let s := s.reach t
  if s.ptpTakes h ∧ s.portState h.port = stMaster then
    .next (s.sendPtp { port := h.port, kind := .delayResp, seq := h.seq.toNat, time := s.rxStamp h.port t })
  else .next s

/-- The mean of a measurement of cable delay by PTP takes one more meanPathDelay (R242). -/
def State.cableTake (s : State) (i : Nat) (v : Int) : State :=
  s.modCable i fun x =>
    { x with done := x.done + 1, sum := x.sum + v, least := if x.done = 0 then v else min x.least v,
             most := if x.done = 0 then v else max x.most v }

/-- PTP_DELAY_RESP_RX (R240): the answer to the Delay_Req that waits, with its receive time at the master, gives meanPathDelay. A
measurement of cable delay takes it too, and has failed when it came later than 1 ms (R242). -/
def execPtpDelayRespRx (h : PtpHead) (t4 : PtpTime) (s : State) : Res :=
  match s.time.ptp.reqTime with
  | some t3 =>
    if s.ptpTakes h ∧ s.portState h.port = stSlave ∧ s.time.ptp.reqSeq = h.seq.toNat then
      let back := (ptpDtime t4 : Int) - t3 - subnsUnits h.corr.toInt + s.asymmetry h.port
      let mpd := (s.time.ptp.t2 - s.time.ptp.t1 + back) / 2
      let s := (s.setF F.PTP_MPD_MPD (wrap 64 mpd)).modPtp fun x => { x with reqTime := none }
      if s.on F.CD_STAT_BUSY h.port ∧ s.f F.CD_CFG_METHOD h.port = 2 ∧ (s.cable h.port).done < 2 ^ s.f F.CD_CFG_NAVG h.port then
        .next ((s.cableTake h.port mpd).modCable h.port fun x =>
          { x with failed := x.failed || decide (t3 + second / 1000 < (s.now : Int)) })
      else .next s
    else .next s
  | none => .next s

/-- Lexicographic order of ranks. -/
def rankLess : List Nat → List Nat → Bool
  | a :: as, b :: bs => decide (a < b) || (a == b && rankLess as bs)
  | _, _ => false

/-- PTP_ANNOUNCE_RX (R241): an Announce with its grandmaster's priority1, clockClass, clockAccuracy, variance, priority2 and identity,
and stepsRemoved. A receiving role follows the best one; TX_ONLY ports follow none. -/
def execPtpAnnounceRx (h : PtpHead) (prio1 cls acc : BitVec 8) (var : BitVec 16) (prio2 : BitVec 8) (gm : BitVec 64)
    (steps : BitVec 16) (s : State) : Res :=
  let rank := [prio1.toNat, cls.toNat, acc.toNat, var.toNat, prio2.toNat, gm.toNat, steps.toNat]
  let best : Bool := match s.time.ptp.parent with
    | some q => q.port == h.port.val || rankLess rank q.rank
    | none => true
  if s.ptpTakes h ∧ 2 ≤ s.f F.PTP_CFG_ROLE ∧ ¬ s.on F.PTP_PORT_TX_ONLY h.port ∧ best then
    let t := s.modPtp fun x => { x with parent := some ⟨h.port, rank⟩, annAt := s.now }
    let t := ((t.setF F.PTP_STAT_CLASS cls.toNat).setF F.PTP_STAT_ACC acc.toNat).setF F.PTP_STAT_STEPS (steps.toNat + 1)
    .next t.showPtpPorts
  else .next s

/-- PTP_ANNOUNCE_TIMEOUT (R240): announceReceiptTimeout expires on the receiving port: ANN_TMO announce intervals without an Announce. -/
def execPtpAnnounceTimeout (s : State) : Res :=
  match s.time.ptp.parent with
  | some _ =>
    let t := s.reach (s.time.ptp.annAt + s.f F.PTP_CFG_ANN_TMO * logSeconds s.logAnn)
    .next ((t.modPtp fun x => { x with parent := none, waiting := none, reqTime := none }).showPtpPorts.loseServo)
  | none => .next s

/-- PTP_MANAGEMENT_RX (R238): a GET is answered, and SET and COMMAND are refused. -/
def execPtpManagementRx (h : PtpHead) (get : Bool) (s : State) : Res :=
  if s.ptpTakes h then
    .next (s.sendPtp { port := h.port, kind := if get then .managed else .refused, seq := h.seq.toNat })
  else .next s

/-! ### Sending (R238, R241) -/

/-- clockClass announced without a SLAVE port (R241): 1 µs is 2^40 / 10^6 units of TM_UNC. -/
def State.clockClass (s : State) : Nat :=
  let trace := s.on F.PTP_CFG_TRACE
  let st := s.f F.CLK_REF_STATUS_STATE
  if st = 2 ∧ trace then 6
  else if st = 3 then (if s.uncRead * 1000000 ≤ 2 ^ 40 ∧ trace then 7 else if s.uncRead * 1000000 ≤ 2 ^ 40 then 248 else 52)
  else 248

/-- The bounds of the clockAccuracy enumeration from 0x17 on, in ps. -/
def accuracyBounds : List Nat :=
  [1, 2, 10, 25, 100, 250, 1000, 2500, 10000, 25000, 100000, 250000, 1000000, 2500000, 10000000, 25000000, 100000000, 250000000,
   1000000000, 2500000000, 10000000000, 25000000000, 100000000000, 250000000000, 1000000000000, 10000000000000]

/-- clockAccuracy (R241): the smallest enumerated bound not below DTIME_UNC, 0x31 past 10 s, 0xFE while unknown. 2.5 ps counts as
5 / 2. -/
def State.clockAccuracy (s : State) : Nat :=
  let u := s.uncRead
  if u = uncUnknown then 0xFE
  else match firstN 26 fun i =>
      let b := accuracyBounds.getD i 0
      decide (u * 2 * 10 ^ 12 ≤ (if i = 1 then 5 else 2 * b) * 2 ^ 40) with
    | some i => 0x17 + i
    | none => 0x31

/-- PTP_SYNC_TX (R238): port i + 1 in MASTER sends a Sync, one-step with its transmit time or two-step with a Follow_Up that holds it. -/
def execPtpSyncTx (i : Fin 4) (s : State) : Res :=
  if s.ptpRuns ∧ s.portState i = stMaster then
    let s := s.ptpDue i 0 s.logSync
    let (n, t) := s.ptpSeq i 0
    let at_ := s.txStamp i s.now
    if s.on F.PTP_PORT_ONESTEP i then .next (t.sendPtp { port := i, kind := .sync, seq := n, time := at_ })
    else .next ((t.sendPtp { port := i, kind := .sync, seq := n }).sendPtp { port := i, kind := .followUp, seq := n, time := at_ })
  else .next s

/-- The bytes of timePropertiesDS as the host wrote them (R241); 0 before. -/
def State.timeProps (s : State) : List Byte := (sget (fun _ => []) s.time.ptp.datasets 0x2003 ++ [0, 0, 0, 0]).take 4

/-- PTP_ANNOUNCE_TX (R241): port i + 1 in MASTER announces the clock: the device's own quality, or the parent's while another port is
SLAVE. -/
def execPtpAnnounceTx (i : Fin 4) (s : State) : Res :=
  if s.ptpRuns ∧ s.portState i = stMaster then
    let s := s.ptpDue i 1 s.logAnn
    let (n, t) := s.ptpSeq i 1
    let t := if s.f F.PTP_STAT_RX_PORT = 0 then
        ((t.setF F.PTP_STAT_CLASS s.clockClass).setF F.PTP_STAT_ACC s.clockAccuracy).setF F.PTP_STAT_STEPS 0
      else t
    let cls := t.f F.PTP_STAT_CLASS
    .next (t.sendPtp { port := i, kind := .announce, seq := n, cls := cls, acc := t.f F.PTP_STAT_ACC,
                       traceable := cls == 6 || cls == 7, props := s.timeProps })
  else .next s

/-- PTP_DELAY_REQ_TX (R238): port i + 1 in SLAVE sends a Delay_Req and keeps its transmit timestamp. -/
def execPtpDelayReqTx (i : Fin 4) (s : State) : Res :=
  if s.ptpRuns ∧ s.portState i = stSlave then
    let s := s.ptpDue i 2 s.logDreq
    let (n, t) := s.ptpSeq i 2
    .next ((t.modPtp fun x => { x with reqSeq := n, reqTime := some (s.txStamp i s.now) }).sendPtp
      { port := i, kind := .delayReq, seq := n })
  else .next s

/-! ### Datasets (R238, R275) -/

/-- n bytes of v, most significant first. -/
def beBytes (n v : Nat) : List Byte := (leBytes n v).reverse

/-- A signed number of DTIME units as a TimeInterval, in 2^-16 ns. -/
def timeInterval (z : Int) : List Byte := beBytes 8 (wrap 64 (roundDiv (z * 65536 * 10 ^ 9) second))

/-- clockQuality of a class and an accuracy. -/
def quality (cls acc : Nat) : List Byte := beBytes 1 cls ++ beBytes 1 acc ++ beBytes 2 Config.clockVariance.toNat

/-- What the Announce of the parent ranked by, or the instance's own values when it follows none: priority1, clockClass, clockAccuracy,
variance, priority2 and identity. -/
def State.parentRank (s : State) : List Nat :=
  match s.time.ptp.parent with
  | some q => q.rank
  | none => [s.f F.PTP_CFG_PRIO1, s.clockClass, s.clockAccuracy, Config.clockVariance.toNat, s.f F.PTP_CFG_PRIO2, Config.clockIdentity.toNat]

/-- The dataField of a dataset as MLP reads it, in the layout of IEEE 1588-2019 (PRESUMED): defaultDS, currentDS, timePropertiesDS and
the single members from the instance's state; parentDS from its parent, but for the parent's own identity; and of any other what was
written. -/
def State.dataset (s : State) (id : Nat) : List Byte :=
  let kept := sget (fun _ => []) s.time.ptp.datasets id
  if id = 0x2000 then
    [if s.f F.PTP_CFG_ROLE = 3 then 3 else 1, 0] ++ beBytes 2 4 ++ beBytes 1 (s.f F.PTP_CFG_PRIO1) ++ quality s.clockClass s.clockAccuracy ++
      beBytes 1 (s.f F.PTP_CFG_PRIO2) ++ beBytes 8 Config.clockIdentity.toNat ++ beBytes 1 (s.f F.PTP_CFG_DOMAIN) ++ [0]
  else if id = 0x2001 then
    beBytes 2 (s.f F.PTP_STAT_STEPS) ++ timeInterval (signed 64 (s.f F.PTP_OFFSET_OFFSET)) ++ timeInterval (signed 64 (s.f F.PTP_MPD_MPD))
  else if id = 0x2003 then s.timeProps
  else if id = 0x2005 then [BitVec.ofNat 8 (s.f F.PTP_CFG_PRIO1), 0]
  else if id = 0x2006 then [BitVec.ofNat 8 (s.f F.PTP_CFG_PRIO2), 0]
  else if id = 0x2007 then [BitVec.ofNat 8 (s.f F.PTP_CFG_DOMAIN), 0]
  else kept

/-- L1SyncState of port i + 1: free while L1SYNC is on, L1_SYNC_UP being 4 in the enumeration of IEEE 1588-2019 (PRESUMED). -/
def State.l1State (s : State) (i : Nat) : Nat := if s.on F.PTP_PORT_L1SYNC i then (Config.l1State i s.now).toNat % 16 else 0

/-- The port, less 1, whose recovered receive clock syntonizes the servo (R238): in the SLAVE state, with L1_SYNC_UP. -/
def State.syntonizer (s : State) : Option Nat := firstN 4 fun i => s.ptpRuns && s.portState i == stSlave && s.l1State i == 4

/-- An interval as a byte of a dataset. -/
def logByte (l : Int) : Byte := BitVec.ofInt 8 l

/-- portDS of port i + 1 (R238) in the layout of PORT_DATA_SET (PRESUMED): portIdentity, portState, logMinDelayReqInterval, no peer delay,
logAnnounceInterval, announceReceiptTimeout, logSyncInterval, delay request-response, and version 2. -/
def State.portDs (s : State) (i : Nat) : List Byte :=
  beBytes 8 Config.clockIdentity.toNat ++ beBytes 2 (i + 1) ++ beBytes 1 (s.portState i) ++ [logByte s.logDreq] ++ beBytes 8 0 ++
    [logByte s.logAnn] ++ beBytes 1 (s.f F.PTP_CFG_ANN_TMO) ++ [logByte s.logSync, 1, 2, 0]

/-- The part of parentDS after the parent's port identity (PRESUMED layout): no statistics, and the grandmaster. -/
def State.parentTail (s : State) : List Byte :=
  let r := fun (i : Nat) => s.parentRank.getD i 0
  [0, 0] ++ beBytes 2 0xFFFF ++ beBytes 4 0x7FFFFFFF ++ beBytes 1 (r 0) ++ beBytes 1 (r 1) ++ beBytes 1 (r 2) ++ beBytes 2 (r 3) ++
    beBytes 1 (r 4) ++ beBytes 8 (r 5)

/-- A write of a dataset: the members that the instance holds in PTP_CFG take their bytes, defaultDS and portDS in the layouts that they
are read in, and any other dataset is kept as written. Members that no register holds are read-only. -/
def State.setDataset (s : State) (id : Nat) (data : List Byte) : State :=
  let b := (data.headD 0).toNat
  let at_ := fun (i : Nat) => (data.getD i 0).toNat
  if id = 0x2000 then
    if data.length < 20 then s
    else ((s.setF F.PTP_CFG_PRIO1 (at_ 4)).setF F.PTP_CFG_PRIO2 (at_ 9)).setF F.PTP_CFG_DOMAIN (at_ 18)
  else if id = 0x2004 then
    if data.length < 25 then s
    else (((s.setF F.PTP_CFG_LOG_DREQ (at_ 11 % 16)).setF F.PTP_CFG_LOG_ANN (at_ 20 % 16)).setF F.PTP_CFG_ANN_TMO (at_ 21 % 16)).setF
      F.PTP_CFG_LOG_SYNC (at_ 22 % 16)
  else if id = 0x2005 then s.setF F.PTP_CFG_PRIO1 b
  else if id = 0x2006 then s.setF F.PTP_CFG_PRIO2 b
  else if id = 0x2007 then s.setF F.PTP_CFG_DOMAIN b
  else s.modPtp fun x => { x with datasets := sput (fun _ => []) x.datasets id data }

end Sys2Proof.Machine
end

