-- ==== Sys2Proof/Machine/Cable.lean ====
section
/-! DEFINITION. Cable-delay measurement on PORT1 to PORT4 (R242, R243, R272). Port p has index p − 1. -/

namespace Sys2Proof.Machine

/-- Exchanges of one measurement. -/
def State.cableN (s : State) (i : Nat) : Nat := 2 ^ s.f F.CD_CFG_NAVG i

/-- A measurement begins on port i + 1 (R242). -/
def State.cableBegin (s : State) (i : Nat) : State :=
  (s.flag F.CD_STAT_BUSY i).modCable i fun x => { repeating := x.repeating, start := s.now, next := s.now }

/-- A passing write of CD_CFG with written word w: STOP ends the repetition, START begins measuring unless a measurement is in
progress. With METHOD = 3, which is reserved, START is taken and BUSY sets, no exchange is sent, and the measurement does not end (DESIGN
CHOICE, log entry 82). -/
def State.writeCdCfg (s : State) (i : Nat) (stored w : Word) : State :=
  let t := s.setRw .CD_CFG stored i
  let t := if bit w.toNat 1 then t.modCable i fun x => { x with repeating := false } else t
  if bit w.toNat 0 ∧ ¬ t.on F.CD_STAT_BUSY i then
    (t.modCable i fun x => { x with repeating := t.f F.CD_CFG_PERIOD i != 0 }).cableBegin i
  else t

/-- CD_REPEAT (R242): PERIOD ms have passed since the latest measurement of port i + 1 began, and the next begins. -/
def execCdRepeat (i : Fin 4) (s : State) : Res :=
  if s.boot.running ∧ (s.cable i).repeating ∧ ¬ s.on F.CD_STAT_BUSY i ∧ s.f F.CD_CFG_PERIOD i ≠ 0 then
    .next ((s.reach ((s.cable i).start + (s.f F.CD_CFG_PERIOD i * second + 999) / 1000)).cableBegin i)
  else .next s

/-- CD_EXCHANGE_TX (R242): port i + 1 sends the next exchange frame of a LOOP or PEER measurement, at DTIME t and at least 20 µs after the
one before. -/
def execCdExchangeTx (i : Fin 4) (t : Nat) (s : State) : Res :=
  let x := s.cable i
  let t := max t x.next
  let s := s.reach t
  if s.boot.running ∧ s.on F.CD_STAT_BUSY i ∧ s.f F.CD_CFG_METHOD i < 2 ∧ x.begun < s.cableN i ∧ s.ethSends (i.val + 1) then
    let t1 := (s.txStamp i t).toNat
    .next ((s.modCable i fun y =>
      { y with begun := y.begun + 1, outs := y.outs ++ [t1], next := t + (20 * second + 999999) / 1000000 }).sendFrame (i.val + 1)
      (.cdx (BitVec.ofNat 64 (t1 % second)) 0 0))
  else .next s

/-- The turnaround t3 − t2 of a peer, whose stamps are fractions of a second. -/
def turnaround (t2 t3 : BitVec 64) : Int := ((t3.toNat : Int) - t2.toNat) % second

/-- CDX_RX (R242, R272): a CDX frame with t1, t2 and t3 arrives on port i + 1 at DTIME t. The answer to an exchange under way completes
it, one later than 1 ms failing the measurement; any other frame is answered while CD_RESP is 1. -/
def execCdxRx (i : Fin 4) (t1 t2 t3 : BitVec 64) (t : Nat) (s : State) : Res :=
  let s := s.reach t
  if ¬ s.receives (i.val + 1) ∨ ¬ (s.on F.ETH_CFG_IP4_EN i ∨ s.on F.ETH_CFG_IP6_EN i) then .next s
  else match (s.cable i).outs.find? fun o => o % second == t1.toNat with
  | some o =>
    let rtt := s.rxStamp i t - o
    let v := if s.f F.CD_CFG_METHOD i = 1 then rtt - turnaround t2 t3 else rtt
    let s := (s.modCable i fun x => { x with outs := x.outs.erase o, failed := x.failed || decide ((second : Int) < rtt * 1000) })
    .next (s.cableTake i v)
  | none =>
    if s.on F.ETH_CFG_CD_RESP i then
      .next (s.sendFrame (i.val + 1) (.cdx t1 (BitVec.ofNat 64 ((s.rxStamp i t).toNat % second))
        (BitVec.ofNat 64 ((s.txStamp i t).toNat % second))))
    else .next s

/-- DELAY_FS of a finished measurement, to the nearest fs (R242). -/
def State.cableDelay (s : State) (i : Nat) : Int :=
  let n := (s.cableN i : Int)
  let fs := (s.cable i).sum * 10 ^ 15
  if s.f F.CD_CFG_METHOD i = 0 then roundDiv (fs - s.f F.CD_LOOP_LOOP_FS i * n * second) (2 * n * second)
  else if s.f F.CD_CFG_METHOD i = 1 then roundDiv fs (2 * n * second)
  else roundDiv fs (n * second)

/-- The spread max − min in fs. -/
def State.cableSpread (s : State) (i : Nat) : Nat := (roundDiv (((s.cable i).most - (s.cable i).least) * 10 ^ 15) second).toNat

/-- The measurement of port i + 1 ends: with its result when it is valid, and FAIL or SPREAD_REJ otherwise. It has failed when an
exchange did not complete within 1 ms, or PTP is measured on a port that is not SLAVE. none: it is still under way. -/
def State.cableEnd (s : State) (i : Nat) : Option (State × Option Int) :=
  let x := s.cable i
  let ptp := s.f F.CD_CFG_METHOD i = 2
  let limit := if ptp then s.time.ptp.reqTime.map fun (t3 : Int) => (t3 + (second / 1000 : Nat)).toNat
    else match x.outs with | o :: _ => some (o + second / 1000) | [] => none
  let stop := fun (t : State) => (t.clr F.CD_STAT_BUSY i).modCable i fun y => { repeating := y.repeating, start := y.start }
  if ¬ s.on F.CD_STAT_BUSY i ∨ ¬ s.boot.running then none
  else if ptp ∧ s.portState i ≠ stSlave then some (stop (s.flag F.CD_STAT_FAIL i), none)
  else if s.cableN i ≤ x.done ∧ ¬ x.failed then
    let most := s.f F.CD_CFG_SPREAD_MAX i
    if most ≠ 0 ∧ most * 1000 < s.cableSpread i then some (stop (s.flag F.CD_STAT_SPREAD_REJ i), none)
    else
      let d := s.cableDelay i
      let t := (((s.setF F.CD_RES_DELAY_FS (wrap 64 d) i).setF F.CD_STAT_SPREAD (s.cableSpread i) i).tick F.CD_STAT_NRES i)
      some ((stop t).postAll 4 false (leBytes 1 (i + 1) ++ leBytes 3 0 ++ leBytes 4 (t.f F.CD_STAT_NRES i) ++ leBytes 8 (wrap 64 d)),
        some d)
  else if x.failed then some (stop (s.flag F.CD_STAT_FAIL i), none)
  else match limit with
    | some t => some (stop ((s.reach t).flag F.CD_STAT_FAIL i), none)
    | none => none

/-- AUTO of channel n for a delay in fs (R243). -/
def State.autoTrim (s : State) (n : Nat) (delay : Int) : Int :=
  let c := signed 64 (s.f F.CD_TGT_TARGET_FS n) - Int.tdiv (s.f F.CD_MAP_SCALE n * delay) (2 ^ 16)
  let w := s.quadFreq (n / 4)
  roundAway (c * 1200000000 * nWord w * 1024) (10 ^ 15 * dWord w * 2 ^ 32)

end Sys2Proof.Machine
end

