-- ==== Sys2Proof/Machine/Dram.lean ====
section
/-! DEFINITION. Where a DRAM byte lies and in what order a sub-channel serves its work (chapter 12): the address map, the visits of a
request, urgency at the ports, and the page hints; and the order and the load of the SRAM banks. -/

namespace Sys2Proof.Machine

/-! ### The address map (R254, R255) -/

/-- Row bits W: 17 for 32 Gb components, 16 for 16 Gb. -/
def State.rowBits (s : State) : Nat := if s.f F.MEM_CFG_POP = 3 then 17 else 16

/-- A device location: byte within the visit, sub-channel (true for B), channel, visit within the row, bank group, bank, row, and rank. -/
structure DramPlace where
  byte : Nat
  sub : Bool
  channel : Nat
  visit : Nat
  group : Nat
  bank : Nat
  row : Nat
  rank : Nat
  deriving DecidableEq, Repr

/-- The device location of DRAM byte address a (R255); HASH XORs the bank group with row bits [2:0] and the bank with row bits [4:3]. -/
def State.dramPlace (s : State) (a : Nat) : DramPlace :=
  let row := bits a (19 + s.rowBits) 20
  let hash := s.on F.MEM_CFG_HASH
  { byte := bits a 7 0
    sub := bit a 8
    channel := bits a 10 9
    visit := bits a 14 11
    group := if hash then bits a 17 15 ^^^ bits row 2 0 else bits a 17 15
    bank := if hash then bits a 19 18 ^^^ bits row 4 3 else bits a 19 18
    row := row
    rank := if s.f F.MEM_CFG_POP = 2 then bits a 36 36 else 0 }

/-- The visits of a request for n bytes from address a: pieces of up to 256 bytes, each its address and length (R255, R260). fuel bounds
their number. -/
def visits (a n : Nat) : (fuel : Nat) → List (Nat × Nat)
  | 0 => []
  | k + 1 =>
    let piece := 256 - a % 256
    if n ≤ piece then (if n = 0 then [] else [(a, n)]) else (a, piece) :: visits (a + piece) (n - piece) k

/-! ### Scheduling (R257 to R259) -/

/-- Urgency of a request on ports 4 to 7 whose latency target is t and whose deadline lies r ahead (R258). -/
def portUrgency (t r : Int) : Nat := if t < 2 * r then 0 else if t < 4 * r then 1 else if 0 < r then 2 else 3

/-- Work of a sub-channel: a refresh set at a debt, a request at an urgency, a periodic training step deferred for some milliseconds, or
scrub. -/
inductive DramWork where
  | refresh (debt : Nat)
  | request (urgency : Nat)
  | training (deferred : Nat)
  | scrub
  deriving DecidableEq, Repr

/-- The order at which a sub-channel serves work (R259); none: nothing to do. Scrub, which follows training within order 8, is given as
9. -/
def State.dramOrder (s : State) : DramWork → Option Nat
  | .refresh d =>
    if d = 0 then none else if s.f F.MEM_MAINT_MAX_POSTPONE ≤ d then some 1 else if 2 ≤ d then some 3 else some 5
  | .request u => some (if 3 ≤ u then 2 else if u = 2 then 4 else if u = 1 then 6 else 7)
  | .training ms => some (if 4 * s.f F.MEM_MAINT_RETRAIN_MS < ms then 3 else 8)
  | .scrub => some 9

/-- A waiting visit: its deadline, whether it hits an open row, and its port. -/
structure DramVisit where
  deadline : Nat
  hit : Bool
  port : Nat
  deriving DecidableEq, Repr

/-- Whether a is served before b within one order: the earlier deadline, then a row hit, then the lower port (R259). -/
def DramVisit.before (a b : DramVisit) : Bool :=
  decide (a.deadline < b.deadline) ||
    (a.deadline == b.deadline && ((a.hit && !b.hit) || (a.hit == b.hit && decide (a.port < b.port))))

/-- Who asks the DRAM controllers (R257). -/
inductive DramAsker where
  | refill (quad : Fin 4)
  | bar4 | mlp | bufGet | bufPut | bufFence | calibration | capture | ringWrite
  deriving DecidableEq, Repr

/-- The controller port through which a request enters. -/
def DramAsker.port : DramAsker → Nat
  | .refill q => q
  | .bar4 | .mlp => 4
  | .bufGet | .bufPut | .bufFence => 5
  | .calibration | .capture => 6
  | .ringWrite => 7

/-- The MEM_PORT word of port n (R257). -/
def State.portWord (s : State) (n : Nat) : Nat := (s.word (0x60100 + 8 * n)).toNat

/-- The latency target of port n, 4 to 7, in DTIME units, rounded down (R258). -/
def State.portTarget (s : State) (n : Nat) : Nat := bits (s.portWord n) 63 32 * second / 1000000000

/-- Whether the row stays open after a visit's last burst on port n (R260). same: a waiting visit targets the row; conflict: one to
another row of the bank waits; idle: CK cycles since. HINT 3 is reserved, and the model takes it as AUTO (DESIGN CHOICE, log entry 73). -/
def State.rowOpen (s : State) (n : Nat) (same conflict : Bool) (idle : Nat) : Bool :=
  match bits (s.portWord n) 1 0 with
  | 0 => !conflict && decide (idle < 64)
  | 1 => false
  | _ => same

/-! ### SRAM banks (R247, R248) -/

/-- Who asks an SRAM bank (R247). -/
inductive BankAsker where
  | voiceLine | ringBlock | patternLine | snapshot | ringWrite | preload | bufGet | bufPut | capture | bar2 | mlp | scrub
  deriving DecidableEq, Repr

/-- The class in which a bank serves a request. -/
def BankAsker.cls : BankAsker → Nat
  | .voiceLine | .ringBlock | .patternLine | .snapshot | .ringWrite => 1
  | .preload => 2
  | .bufGet | .bufPut | .capture => 3
  | .bar2 | .mlp => 4
  | .scrub => 5

/-- Whether a request is a voice's read, of which those for one line merge. -/
def BankAsker.voiceRead : BankAsker → Bool
  | .voiceLine | .ringBlock | .patternLine | .snapshot => true
  | _ => false

/-- A request that waits at an SRAM bank: who asks, its deadline in class 1 and otherwise its arrival, and its 64-byte line. -/
structure BankRequest where
  by_ : BankAsker
  due : Nat
  line : Nat
  deriving DecidableEq, Repr

/-- The deadline of a line of voice v whose first voice sample is number n of the voice's timeline: the DTIME scheduled for that sample
at the voice (R247). -/
def State.lineDue (s : State) (v : Nat) (n : Int) : Nat := s.posTime v (1024 * n)

/-- Whether a bank serves a before b: the lower class, and within one the earlier deadline or arrival (R247). -/
def BankRequest.before (a b : BankRequest) : Bool :=
  decide (a.by_.cls < b.by_.cls) || (a.by_.cls == b.by_.cls && decide (a.due < b.due))

/-- The request that a bank serves next of those waiting in the order of their arrival. -/
def bankNext : List BankRequest → Option BankRequest
  | [] => none
  | a :: r => match bankNext r with | some b => some (if b.before a then b else a) | none => some a

/-- What still waits once a bank has served a: voice reads of one line merge (R247). -/
def bankServe (a : BankRequest) (l : List BankRequest) : List BankRequest :=
  if a.by_.voiceRead then (l.erase a).filter fun b => !(b.by_.voiceRead && b.line == a.line) else l.erase a

/-- The most lines that voice v asks of one bank in a grain period, with edges edges of a TICK LIST item in its densest grain (R248). -/
def State.bankLines (s : State) (v edges : Nat) : Nat :=
  match (s.voice v).item with
  | some it =>
    if it.kind == .idle || it.kind == .wait then 1
    else
      let w := wordOf it.words
      match segMode (w 0) with
      | 0 => if wordInDram (w 0) (w 1) then 1 else 2
      | 1 => if s.ringDram (bits (w 0) 5 0) then 1 else 2
      | 2 => if wordInDram (w 0) (w 1) && wordInDram (w 0) (w 2) then 1 else 3
      | 4 => if bit (w 2) 63 then 1 else max 2 (1 + (edges + 191) / 192)
      | 5 => 2
      | _ => 1
  | none => 1

/-- Whether every class 1 request meets its deadline by the bound of R248, 608 GS/s over all voices. The sum is kept as a fraction. -/
def State.banksKeepUp (s : State) (edges : Nat → Nat) : Bool :=
  let sum := ((List.range 64).filter fun v => (s.voiceChan v).isSome).foldl (fun (f : Nat × Nat) v =>
    let g := s.voiceGrid v
    (f.1 * g.vnum + s.bankLines v (edges v) * second * g.vden * f.2, f.2 * g.vnum)) (0, 1)
  decide (sum.1 ≤ 608000000000 * sum.2)

end Sys2Proof.Machine
end

