-- ==== Sys2Proof/Machine/Memory.lean ====
section
/-! DEFINITION. The memory system (chapter 12): partial writes, BAR windows, fills, scrub, refresh, set-point changes and training. -/

namespace Sys2Proof.Machine

def State.modMem (s : State) (g : MemSt → MemSt) : State := { s with mem := g s.mem }

/-! ### Accesses (R246, R251, R265) -/

/-- The word w with the bytes of be taken from data. -/
def mergeBytes (be : BitVec 8) (data old : Word) : Word :=
  BitVec.ofNat 64 ((List.range 8).foldl (fun n j =>
    if bit be.toNat j then setBits n (8 * j + 7) (8 * j) (bits data.toNat (8 * j + 7) (8 * j)) else n) old.toNat)

/-- A write of the bytes be of the word at address a (R251): a partial write meets what the check bits find, e, and an uncorrected old
word leaves the merged word poisoned. -/
def State.writeMasked (s : State) (d : Bool) (a : Nat) (be : BitVec 8) (data : Word) (e : Ecc) (req : Nat) : State :=
  if be = 0#8 then s
  else if be = 255#8 then s.writeWord d a data
  else
    let marked := s.poisoned d a
    let bad := (foundEcc d marked e).bad
    let t := (s.eccEvent e d marked req a).writeWord d a (mergeBytes be data (s.readWord d a))
    if bad then { t with poison := t.poison ++ [(d, a / 8 * 8)] } else t

/-- A read of the word at address a by requester req of the error log. -/
def State.readChecked (s : State) (d : Bool) (a : Nat) (e : Ecc) (req : Nat) : State := s.eccEvent e d (s.poisoned d a) req a

/-- Where a BAR2 (false) or BAR4 (true) offset lies: region byte address, or none when it is out of range (R246, R265). -/
def State.barAddr (s : State) (four : Bool) (x : Nat) : Option Nat :=
  if four then
    let a := s.f F.MEM_BAR4_BASE_GIB * 2 ^ 30 + x
    if a < s.dramBytes then some a else none
  else if x < sramBytes then some x else none

/-- A BAR2 or BAR4 access that protection lets pass: bytes be of the word at offset x. -/
def State.barAccess (s : State) (four write : Bool) (x : Nat) (be : BitVec 8) (data : Word) (e : Ecc) : State :=
  match s.barAddr four (x / 8 * 8) with
  | some a => if write then s.writeMasked four a be data e 2 else s.readChecked four a e 2
  | none => s.flag F.MEM_STATUS_BAR_OOR

/-! ### Configuration (R246, R349) -/

/-- A passing write of MEM_POOL. -/
def State.writeMemPool (s : State) (w : Word) : State :=
  if s.buffers.any (fun p => p.2.life != .free) ∨ 24576 < bits w.toNat 31 0 then s.flag F.MEM_STATUS_POOL_ERR else s.setRw .MEM_POOL w

def State.ddr (s : State) (c : Nat) : Nat := s.f F.DDR_STAT_STATE c
def State.setDdr (s : State) (c st : Nat) : State := s.setF F.DDR_STAT_STATE st c

/-- A passing write of MEM_CFG: POP changes only while every channel is OFF; fitted channels whose domain is on become UNTRAINED. -/
def State.writeMemCfg (s : State) (w : Word) : State :=
  if bits w.toNat 1 0 ≠ s.f F.MEM_CFG_POP ∧ anyN 4 (fun c => s.ddr c != 0) then s.flag F.MEM_STATUS_CFG_ERR
  else
    let t := s.setRw .MEM_CFG w
    if t.on F.MEM_CFG_POP then forN 4 (fun c u => if u.dom (56 + c) ∧ u.ddr c = 0 then u.setDdr c 1 else u) t else t

/-! ### Fills and scrub -/

/-- Bank of an SRAM byte address: line L lies in bank L mod 48, and group g holds banks 6g to 6g + 5 (R245). -/
def sramBank (a : Nat) : Nat := a / 64 % 48

/-- Every byte of the banks b that satisfy p holds 0 with valid check bits. -/
def State.zeroBanks (s : State) (p : Nat → Bool) : State :=
  { s with sram := s.sram.filter (fun x => !p (sramBank x.1)), poison := s.poison.filter fun x => x.1 || !p (sramBank x.2) }

/-- The zero fill of the banks of a list is under way. -/
def State.startFill (s : State) (l : List Nat) : State :=
  { s with power := { s.power with fills := s.power.fills.filter (fun b => !l.contains b) ++ l } }

/-- BANK_FILL_DONE (R246): the zero fill of bank group g completes. Banks retained through REST are not filled. -/
def execBankFillDone (g : Fin 8) (s : State) : Res :=
  let mine := s.power.fills.filter fun b => b / 6 == g.val
  .next { s.zeroBanks mine.contains with power := { s.power with fills := s.power.fills.filter fun b => b / 6 != g.val } }

/-- Every byte of DRAM channel c holds 0 with valid check bits. -/
def State.zeroChannel (s : State) (c : Nat) : State :=
  { s with dram := s.dram.filter (fun p => dramChannel p.1 != c), poison := s.poison.filter (fun p => !p.1 || dramChannel p.2 != c),
           mem := { s.mem with gens := sput (fun _ => 0) s.mem.gens c 0 } }

/-- The contents of DRAM are undefined from now on (R360). -/
def State.loseDram (s : State) : State :=
  let n := s.mem.losses + 1
  { s with dram := [], poison := s.poison.filter (fun p => !p.1),
           mem := { s.mem with losses := n, gens := forN 4 (fun c g => sput (fun _ => 0) g c n) s.mem.gens } }

/-- Whether DRAM channel c serves requests: it is READY, and its controllers have a clock (R360). -/
def State.channelServes (s : State) (c : Nat) : Bool := s.ddr c == 4 && s.mem.pllLost.isNone

/-- Whether SRAM bank b serves requests: its bank group is on, and the bank filled. -/
def State.bankServes (s : State) (b : Nat) : Bool := s.dom (48 + b / 6) && !s.power.fills.contains b

/-- Whether the line at address a can be read. -/
def State.inService (s : State) (d : Bool) (a : Nat) : Bool :=
  if d then s.channelServes (dramChannel a) else s.bankServes (sramBank a)

/-- How many lines of SRAM, or bursts of DRAM, can be read: a bank holds one line in 48, and a channel a quarter of the DRAM. -/
def State.linesInService (s : State) (d : Bool) : Nat :=
  if d then ((List.range 4).filter s.channelServes).length * (s.dramBytes / 256)
  else ((List.range 48).filter s.bankServes).length * (sramBytes / 3072)

/-- The scrubber reads the line at address a and finds e in the word asked for. A corrected word is written back as it reads, and an
uncorrected one is only logged. -/
def State.scrubLine (s : State) (d : Bool) (a : Nat) (e : Ecc) : State :=
  let t := forN 8 (fun i u => u.readChecked d (a / 64 * 64 + 8 * i) (if i = a / 8 % 8 then e else .clean) 6) s
  t.modMem fun x => { x with
    scrubbed := (d, a / 64) :: x.scrubbed
    passes := if x.scrubbed.any (·.1 == d) then x.passes else (d, s.now) :: x.passes.filter (·.1 != d) }

/-- Whether a pass over SRAM (false) or DRAM is under way, or the period of the last one has passed: each line is read once in SRAM_H or
DRAM_H hours. -/
def State.scrubDue (s : State) (d : Bool) : Bool :=
  s.mem.scrubbed.any (·.1 == d) ||
    s.mem.passes.all fun p => p.1 != d ||
      decide (p.2 + (if d then s.f F.MEM_SCRUB_DRAM_H else s.f F.MEM_SCRUB_SRAM_H) * 3600 * second ≤ s.now)

/-- A pass over a region ends once every line that is in service has been read, and the next begins with none. A line out of service holds
nothing to scrub. -/
def State.scrubEnd (s : State) (d : Bool) : State :=
  let done := (s.mem.scrubbed.filter fun p => p.1 == d && s.inService d (64 * p.2)).length
  if s.mem.scrubbed.any (·.1 == d) ∧ s.linesInService d ≤ done then
    (s.modMem fun x => { x with scrubbed := x.scrubbed.filter fun p => p.1 != d }).endTask .scrub
  else s

/-- SCRUB_STEP (R253): the scrubber reads the line of SRAM or the burst of DRAM (d) that holds the word at address a, and finds e there. A
pass reads each line once, in an order that the spec does not give (log entry 78), and is a BG task: its first step asks for admission, its last ends
it, and a brown-out warning stops it where it stands (R301). A line that the pass has read, or a pass before its period, is not read. -/
def execScrubStep (d : Bool) (a : BitVec 37) (e : Ecc) (s : State) : Res :=
  let s := s.scrubEnd d
  let size := if d then s.dramBytes else sramBytes
  if ¬ (if d then s.on F.MEM_SCRUB_DRAM_EN else s.on F.MEM_SCRUB_SRAM_EN) ∨ size ≤ a.toNat ∨ ¬ s.inService d a.toNat ∨
      s.mem.scrubbed.contains (d, a.toNat / 64) ∨ ¬ s.scrubDue d then .next s
  else if s.on F.PWR_STATUS_BO_ACTIVE then .next (s.endTask .scrub)
  else
    let t := if s.power.gov.tasks.contains .scrub then s else s.enqueueTask .scrub
    let t := if t.taskGrantable .scrub then t.startTask .scrub else t
    if t.power.gov.tasks.contains .scrub then .next ((t.scrubLine d a.toNat e).scrubEnd d) else .next t

/-! ### Refresh (R261) -/

/-- Refresh debt of a rank: index 4c + 2 × sub-channel + rank. -/
def State.debt (s : State) (i : Nat) : Nat := sget (fun _ => 0) s.mem.debts i

/-- Put a rank's debt; DDRc_STAT shows the larger over the ranks of each sub-channel. -/
def State.setDebt (s : State) (c : Nat) (i v : Nat) : State :=
  let t := s.modMem fun m => { m with debts := sput (fun _ => 0) m.debts i v }
  (t.setF F.DDR_STAT_DEBT_A (max (t.debt (4 * c)) (t.debt (4 * c + 1))) c).setF F.DDR_STAT_DEBT_B
    (max (t.debt (4 * c + 2)) (t.debt (4 * c + 3))) c

/-- Whether channel c refreshes its DRAM itself: in service or in training. -/
def State.refreshes (s : State) (c : Nat) (rank : Bool) : Bool :=
  decide (2 ≤ s.ddr c) && decide (s.ddr c ≤ 4) && (!rank || s.f F.MEM_CFG_POP == 2)

/-- The next refresh set of a rank of channel c is issued, at its debt: at order 1, while requests at urgency 3 wait, it preempts them and
counts (R261). -/
def State.issueSet (s : State) (c i : Nat) (urgent : Bool) : State :=
  if urgent ∧ s.dramOrder (.refresh (s.debt i)) = some 1 then (s.trouble .refreshPreempt).bump F.DDR_STAT_PREEMPT c else s

/-- A completed set lowers the debt by 1. -/
def State.payDebt (s : State) (c i : Nat) : State := s.setDebt c i (s.debt i - 1)

/-- TREFI_TICK (R261): a tREFI interval of a rank of sub-channel b of DDRc passes. A set that completes in the same cycle is counted first,
and refresh is never postponed beyond MAX_POSTPONE intervals. -/
def execTrefiTick (c : Fin 4) (b : Bool) (rank : RankTick) (s : State) : Res :=
  let i := 4 * c.val + 2 * b.toNat + rank.rank.toNat
  if s.refreshes c rank.rank then
    let t := if rank.done ∧ s.mem.pllLost.isNone then s.payDebt c i else s
    let t := t.setDebt c i (max (t.debt i) (min (t.debt i + 1) (max 1 (t.f F.MEM_MAINT_MAX_POSTPONE))))
    .next (if t.mem.pllLost.isNone then t.issueSet c i rank.urgent else t)
  else .next s

/-- REFRESH_SET_DONE (R261): a refresh set of a rank completes. urgent: the set that follows, when its debt makes it due at order 1, is
issued while a request at urgency 3 from ports 0 to 3 waits on the sub-channel. A DRAM PLL out of lock lets no command issue (R360). -/
def execRefreshSetDone (c : Fin 4) (b rank urgent : Bool) (s : State) : Res :=
  let i := 4 * c.val + 2 * b.toNat + rank.toNat
  if s.debt i = 0 ∨ s.mem.pllLost.isSome then .next s else .next ((s.payDebt c i).issueSet c i urgent)

/-! ### Training (R263, R264) -/

/-- Whether channel c holds a valid trained set of a set-point. -/
def State.trained (s : State) (c : Nat) (slow : Bool) : Bool := bit (s.f F.DDR_STAT_TRAINED c) slow.toNat

/-- The state of channel c once neither a run nor a change holds it. -/
def State.ddrRest (s : State) (c : Nat) : Nat :=
  if ¬ s.trained c (s.on F.MEM_STATUS_FREQ_ACT) then 1 else if s.mem.filled.contains c then 4 else 3

/-- A run that has not begun gives up its place, and its request for admission. -/
def State.dropRun (s : State) (r : TrainRun) : State :=
  ((s.clr F.MEM_TRAIN_STAT_CH).modMem fun m => { m with run := none }).endTask (.train r.chans.length)

/-- A waiting run begins: a PERIODIC one at once, a FULL one once it is admitted (R263, R305). A FULL run is refused while DRAM_BACKED is not
0, and one whose set-point has gone waits for it. -/
def State.tryTrain (s : State) : State :=
  match s.mem.run with
  | some r =>
    if s.f F.MEM_TRAIN_STAT_STEP ≠ 0 ∨ s.mem.change.isSome ∨ s.mem.pllLost.isSome then s
    else if r.full ∧ s.on F.DRAM_BACKED_VOICES then (s.dropRun r).flag F.MEM_TRAIN_STAT_REFUSED
    else if r.slow ≠ s.on F.MEM_STATUS_FREQ_ACT then (s.dropRun r).modMem fun m => { m with waits := r :: m.waits }
    else
      let t := if r.full ∧ s.taskGrantable (.train r.chans.length) then s.startTask (.train r.chans.length) else s
      if r.full ∧ ¬ t.power.gov.tasks.contains (.train r.chans.length) then t
      else
        let u := (t.setF F.MEM_TRAIN_STAT_STEP 1).flag F.MEM_TRAIN_STAT_RUNNING
        if r.full then
          (r.chans.foldl (fun v c => v.setDdr c 2) u).modMem fun m =>
            { m with unreset := m.unreset ++ r.chans.filter fun c => !m.unreset.contains c }
        else u
  | none => s

/-- The next run that waits for its turn is taken, when its set-point is in force. -/
def State.nextTrain (s : State) : State :=
  if s.mem.run.isSome ∨ s.mem.change.isSome then s
  else match s.mem.waits.find? fun r => r.slow == s.on F.MEM_STATUS_FREQ_ACT with
    | some r =>
      let t := s.modMem fun m => { m with run := some r, waits := m.waits.erase r }
      let t := t.setF F.MEM_TRAIN_STAT_CH (r.chans.foldl (fun n c => n + 2 ^ c) 0)
      (if r.full then t.enqueueTask (.train r.chans.length) else t).tryTrain
    | none => s

/-- A run is asked for. -/
def State.askTrain (s : State) (r : TrainRun) : State :=
  if r.chans.isEmpty then s else (s.modMem fun m => { m with waits := m.waits ++ [r] }).nextTrain

/-- The run under way is over; its channels go where ddrRest says. -/
def State.endTrain (s : State) (r : TrainRun) : State :=
  let t := ((s.clr F.MEM_TRAIN_STAT_STEP).clr F.MEM_TRAIN_STAT_RUNNING).clr F.MEM_TRAIN_STAT_CH
  let t := (t.modMem fun m => { m with run := none }).endTask (.train r.chans.length)
  if r.full then r.chans.foldl (fun u c => if u.ddr c = 2 then u.setDdr c (u.ddrRest c) else u) t else t

/-- A passing write of MEM_TRAIN with written word w (R263). -/
def State.writeMemTrain (s : State) (stored w : Word) : State :=
  let t := s.setRw .MEM_TRAIN stored
  if ¬ bit w.toNat 63 then t
  else
    let full := !t.on F.MEM_TRAIN_KIND
    let ok := fun c => bit (t.f F.MEM_TRAIN_CH) c && (if full then t.ddr c != 0 else t.ddr c == 4)
    if full ∧ t.on F.DRAM_BACKED_VOICES then t.flag F.MEM_TRAIN_STAT_REFUSED
    else t.askTrain ⟨full, (List.range 4).filter ok, t.on F.MEM_TRAIN_SETPT⟩

/-- PERIODIC_TRAIN (R263): a PERIODIC run of READY channel c is due. -/
def execPeriodicTrain (c : Fin 4) (s : State) : Res :=
  .next (if s.ddr c = 4 then s.askTrain ⟨false, [c], s.on F.MEM_STATUS_FREQ_ACT⟩ else s)

/-! ### Set-point changes (R262) -/

/-- The change proceeds: every channel leaves its service (R262). -/
def State.beginChange (s : State) : State :=
  forN 4 (fun c t => if 1 ≤ t.ddr c ∧ t.ddr c ≤ 4 then t.setDdr c 6 else t) (s.modMem fun m => { m with hold := false })

/-- A set-point request is refused with a code. -/
def State.refuseFreq (s : State) (code : Nat) : State := (s.setF F.MEM_STATUS_FREQ_CODE code).flag F.MEM_STATUS_FREQ_ERR

/-- Channels that lack a trained set of a set-point, those that are OFF apart. -/
def State.untrainedFor (s : State) (slow : Bool) : List Nat :=
  (List.range 4).filter fun c => decide (1 ≤ s.ddr c) && !s.trained c slow

/-- A passing write of MEM_FREQ with written word w (R262). A request that is taken leaves FREQ_CODE at 0 OK (DEDUCED, log entry 73). -/
def State.writeMemFreq (s : State) (stored w : Word) : State :=
  let busy := s.on F.MEM_STATUS_FREQ_BUSY
  let t := s.setRw .MEM_FREQ stored
  let slow := bit w.toNat 0
  if ¬ bit w.toNat 63 then (if busy then t.flag F.MEM_FREQ_GO else t)
  else if ¬ t.on F.MEM_CFG_POP then t.refuseFreq 1
  else if busy then (t.flag F.MEM_FREQ_GO).refuseFreq 2
  else if slow = t.on F.MEM_STATUS_FREQ_ACT then t.clr F.MEM_STATUS_FREQ_CODE
  else if t.on F.DRAM_BACKED_VOICES ∧ t.untrainedFor slow ≠ [] then t.refuseFreq 3
  else
    let u := (((t.flag F.MEM_FREQ_GO).flag F.MEM_STATUS_FREQ_BUSY).clr F.MEM_STATUS_FREQ_CODE).modMem fun m =>
      { m with change := some slow }
    if u.on F.MEM_TRAIN_STAT_RUNNING then u.modMem fun m => { m with hold := true } else u.beginChange

/-- FREQ_CHANGE_DONE (R262, R264): the new set-point is in force; channels without its trained set get a FULL run, and a discarded run
starts anew. -/
def execFreqChangeDone (s : State) : Res :=
  match s.mem.change with
  | some slow =>
    if s.mem.hold then .next s
    else
      let lack := s.untrainedFor slow
      let t := ((s.setB F.MEM_STATUS_FREQ_ACT slow).clr F.MEM_STATUS_FREQ_BUSY).clr F.MEM_FREQ_GO
      let t := t.modMem fun m => { m with change := none, asked := none }
      let t := forN 4 (fun c u => if u.ddr c = 6 then u.setDdr c (u.ddrRest c) else u) t
      let again := s.mem.asked
      let full : TrainRun := ⟨true, (match again with
        | some r => if r.full then (List.range 4).filter fun c => lack.contains c || r.chans.contains c else lack
        | none => lack), slow⟩
      let t := t.askTrain full
      .next ((match again with | some r => if r.full then t else t.askTrain { r with slow := slow } | none => t).nextTrain)
  | none => .next s

/-- TRAIN_STEP_DONE (R263, R264): the step under way ends, with fail telling that it failed. A set-point change that waits for it
discards the run; a brown-out warning holds a FULL run at the step (R301). -/
def execTrainStepDone (fail : Bool) (s : State) : Res :=
  match s.mem.run with
  | some r =>
    let step := s.f F.MEM_TRAIN_STAT_STEP
    if s.mem.pllLost.isSome then .next s
    else if step = 0 then .next s.tryTrain
    else if s.mem.hold then
      let s := if fail then s.flag F.MEM_TRAIN_STAT_FAIL else s
      let t := (s.endTrain r).flag F.MEM_TRAIN_STAT_ABORTED
      .next ((t.modMem fun m => { m with asked := some r }).beginChange)
    else if r.full ∧ s.on F.PWR_STATUS_BO_ACTIVE then .next s
    else if fail then .next (((s.flag F.MEM_TRAIN_STAT_FAIL).endTrain r).nextTrain)
    else if r.full ∧ step < 8 then .next (s.setF F.MEM_TRAIN_STAT_STEP (step + 1))
    else
      let t := if r.full then
          r.chans.foldl (fun u c => u.setF F.DDR_STAT_TRAINED (setBits (u.f F.DDR_STAT_TRAINED c) r.slow.toNat r.slow.toNat 1) c) s
        else s
      .next (((t.tick F.MEM_TRAIN_STAT_RUNS).endTrain r).nextTrain)
  | none => .next s

/-- DRAM_FILL_DONE (R263): the zero fill of channel c completes, and it is READY. -/
def execDramFillDone (c : Fin 4) (s : State) : Res :=
  if s.ddr c = 3 ∧ s.mem.pllLost.isNone then
    .next (((s.zeroChannel c).setDdr c 4).modMem fun m => { m with filled := c.val :: m.filled.erase c.val })
  else .next s

/-! ### The DRAM PLL (R360) -/

/-- DRAM_PLL_UNLOCK: the DRAM PLL loses lock. -/
def execDramPllUnlock (s : State) : Res :=
  if s.on F.CLK_REF_STATUS_DRAM_LOCK then
    .next ((s.clr F.CLK_REF_STATUS_DRAM_LOCK).modMem fun m => { m with pllLost := some s.now })
  else .next s

/-- Whether the DRAM PLL has been out of lock for more than 10 µs. -/
def State.pllOverdue (s : State) : Bool := s.mem.pllLost.any fun (t : Nat) => decide (second < (s.now - t) * 100000)

/-- The DRAM PLL has not relocked within 10 µs: every channel goes to UNTRAINED and its contents are undefined (R360). -/
def State.pllExpire (s : State) : State :=
  if s.pllOverdue ∧ anyN 4 (fun c => decide (1 < s.ddr c)) then
    let t := match s.mem.run with | some r => s.endTrain r | none => s
    forN 4 (fun c u => if u.ddr c = 0 then u else u.setDdr c 1) t.loseDram
  else s

end Sys2Proof.Machine
end

