-- ==== Sys2Proof/Machine/Cal.lean ====
section
/-! DEFINITION. Calibration (chapter 15): runs, flips, the bank window, and storage of the results in Rest memory. -/

namespace Sys2Proof.Machine

/-! ### Rest memory by word (R295) -/

/-- Word i of Rest memory, 0–32,767. -/
def State.rest64 (s : State) (i : Nat) : Word := sget (fun _ => 0#64) s.power.words i
def State.setRest64 (s : State) (i : Nat) (w : Word) : State :=
  { s with power := { s.power with words := sput (fun _ => 0#64) s.power.words i w,
                                   rmemPoison := s.power.rmemPoison.filter (· != i) } }

/-- CRC-32 with the IEEE 802.3 polynomial, reflected, from a running value. -/
def crcByte (c : Nat) (b : Byte) : Nat :=
  (List.range 8).foldl (fun x _ => if x % 2 = 1 then (x / 2) ^^^ 0xEDB88320 else x / 2) (c ^^^ b.toNat)

/-- CRC-32 of bytes. -/
def crc32 (l : List Byte) : Nat := (l.foldl crcByte 0xFFFFFFFF) ^^^ 0xFFFFFFFF

/-- CRC-32 of words laid out little-endian. -/
def crcWords (l : List Word) : Nat := (l.foldl (fun c w => (leBytes 8 w.toNat).foldl crcByte c) 0xFFFFFFFF) ^^^ 0xFFFFFFFF

/-! ### Slots (R320, R321) -/

/-- First word of a slot: 0x1_8000 or 0x2_0000. -/
def slotWord (k : Nat) : Nat := (0x18000 + 0x8000 * k) / 8

/-- Words of a slot that its CRC covers: 0x000 to 0x81F. -/
def slotLen : Nat := 0x820 / 8

/-- Word i of slot k. -/
def State.calWord (s : State) (k i : Nat) : Nat := (s.rest64 (slotWord k + i)).toNat

/-- MAGIC, VERSION and NCH of a slot. -/
def slotHead : Nat := 0x4C414356 + 1 * 2 ^ 32 + 16 * 2 ^ 48

/-- Whether slot k is valid (R321). -/
def State.slotValid (s : State) (k : Nat) : Bool :=
  s.calWord k 0 == slotHead &&
    !anyN slotLen (fun i => s.power.rmemPoison.contains (slotWord k + i)) &&
    crcWords ((List.range slotLen).map fun i =>
      if i = 3 then BitVec.ofNat 64 (bits (s.calWord k 3) 31 0) else s.rest64 (slotWord k + i)) == bits (s.calWord k 3) 63 32

/-- EPOCH of slot k. -/
def State.slotEpoch (s : State) (k : Nat) : Nat := bits (s.calWord k 1) 31 0

/-- The newest valid slot. -/
def State.newestSlot (s : State) : Option Nat :=
  if s.slotValid 0 then
    (if s.slotValid 1 then (if (s.slotEpoch 0 + 2 ^ 32 - s.slotEpoch 1) % 2 ^ 32 < 2 ^ 31 then some 0 else some 1) else some 0)
  else if s.slotValid 1 then some 1 else none

/-- CAL_STORE reports the newest slot and its EPOCH. -/
def State.showStore (s : State) : State :=
  match s.newestSlot with
  | some k => (s.setF F.CAL_STORE_NEWEST k).setF F.CAL_STORE_EPOCH (s.slotEpoch k)
  | none => (s.setF F.CAL_STORE_NEWEST 0).setF F.CAL_STORE_EPOCH 0

/-- The record of channel n in slot k: its 16 words. -/
def State.slotRecord (s : State) (k n : Nat) : List Word := (List.range 16).map fun i => s.rest64 (slotWord k + 4 + 16 * n + i)

/-- The record that channel n's active bank makes. -/
def State.bankRecord (s : State) (n : Nat) : List Word :=
  let b := s.calBank n
  let frac := s.f F.CAL_LAST_FRAC_FRAC n
  let sec := s.f F.CAL_LAST_SEC_SEC n
  [b.main, b.lanes] ++ b.slices ++
    [BitVec.ofNat 64 (s.f F.CAL_CNT_CAL_COUNT n + s.f F.CAL_TEMP_T_LAST n * 2 ^ 16 + bits frac 31 0 * 2 ^ 32),
     BitVec.ofNat 64 (bits frac 47 32 + sec * 2 ^ 16), BitVec.ofNat 64 b.fdac, 0#64, 0#64, 0#64]

/-- The record of channel n that a store writes (R322): its active bank while its DAC analog domain is on, else its record in the newest
slot, or one with VALID = 0. -/
def State.storeRecord (s : State) (n : Nat) : List Word :=
  if s.dom (32 + n) then s.bankRecord n
  else match s.newestSlot with
    | some k => s.slotRecord k n
    | none => List.replicate 16 0#64

/-- Put words from word i of Rest memory on. -/
def State.putRest (s : State) (i : Nat) : List Word → State
  | [] => s
  | w :: ws => (s.setRest64 i w).putRest (i + 1) ws

/-- The slot a store writes. -/
def State.storeSlot (s : State) : Nat := match s.newestSlot with | some k => 1 - k | none => 0

/-- A store is requested (R322): it begins with 0 in its slot's first word; requests during a store merge into one further store. -/
def State.requestStore (s : State) : State :=
  if s.on F.CAL_STORE_BUSY then { s with calStoreAgain := true }
  else (s.flag F.CAL_STORE_BUSY).setRest64 (slotWord s.storeSlot) 0#64

/-- The whole slot is written (R322). -/
def State.writeStore (s : State) : State :=
  let k := s.storeSlot
  let epoch := match s.newestSlot with | some j => (s.slotEpoch j + 1) % 2 ^ 32 | none => 1
  let frac := s.now % second
  let sec := s.now / second
  let w1 := BitVec.ofNat 64 epoch
  let w2 := BitVec.ofNat 64 (frac + bits sec 15 0 * 2 ^ 48)
  let recs := (List.range 16).flatMap s.storeRecord
  let crc := crcWords ([BitVec.ofNat 64 slotHead, w1, w2, BitVec.ofNat 64 (bits sec 47 16)] ++ recs)
  let base := slotWord k
  let t := ((s.putRest (base + 4) recs).setRest64 (base + 1) w1).setRest64 (base + 2) w2
  let t := (t.setRest64 (base + 3) (BitVec.ofNat 64 (bits sec 47 16 + crc * 2 ^ 32))).setRest64 base (BitVec.ofNat 64 slotHead)
  t.showStore

/-- CAL_STORE_DONE (R322): the store completes its slot, and a merged request follows. -/
def execCalStoreDone (s : State) : Res :=
  if s.on F.CAL_STORE_BUSY then
    let t := s.writeStore.clr F.CAL_STORE_BUSY
    .next (if t.calStoreAgain then { t with calStoreAgain := false }.requestStore else t)
  else .next s

/-- Whether some channel's active bank differs from its record in the newest valid slot (R322). -/
def State.storeNeeded (s : State) : Bool :=
  anyN 16 fun n => s.dom (32 + n) && (match s.newestSlot with
    | some k => s.slotRecord k n != s.bankRecord n
    | none => (s.calBank n).valid)

/-! ### Domains and banks (R317, R324) -/

/-- The banks of channel n are lost with its DAC analog domain. -/
def State.loseBanks (s : State) (n : Nat) : State :=
  ((s.clr F.CAL_STATUS_ACTIVE n).modCal n fun _ => {}).showBanks n

/-- Channel n's DAC analog domain switches on: its record is loaded into bank A, or a run is due (R314, R324). -/
def State.loadBanks (s : State) (n : Nat) : State :=
  let s := s.loseBanks n
  let r := match s.newestSlot with | some k => s.slotRecord k n | none => []
  let w := fun i => r.getD i 0#64
  if bit (w 0).toNat 63 then
    let fdac := (w 12).toNat
    let here := s.f F.SP_FDAC_FDAC (n / 4)
    let b : CalBank := { main := w 0, lanes := w 1, slices := (r.drop 2).take 8, fdac := fdac }
    let t := (s.modCal n fun c => { c with a := b, rescale := fdac != here }).showBanks n
    let t := ((t.setF F.CAL_CNT_CAL_COUNT (bits (w 10).toNat 15 0) n).setF F.CAL_TEMP_T_LAST (bits (w 10).toNat 31 16) n).setF
      F.CAL_LAST_FRAC_FRAC (bits (w 10).toNat 63 32 + bits (w 11).toNat 15 0 * 2 ^ 32) n
    let t := t.setF F.CAL_LAST_SEC_SEC (bits (w 11).toNat 63 16) n
    if fdac ≠ here ∧ t.f F.SP_STATUS_STATE (n / 4) = 4 then
      ((t.modCal n fun c => { c with rescale := false }).calRescale n here).retrimNow n
    else t.retrimNow n
  else s.calDue n

/-! ### Commands (R314, R316, R319) -/

/-- A write of 1 to FLIP (R318, R319): at once, or at the run-time boundary while the channel is enabled. -/
def State.hostFlip (s : State) (n : Nat) : State :=
  let inactive := if s.on F.CAL_STATUS_ACTIVE n then (s.cal n).a else (s.cal n).b
  if s.on F.CAL_STATUS_RUNNING n ∨ ¬ inactive.valid then s.flag F.CAL_STATUS_WR_ERR n
  else if s.on F.CH_CTL_EN n then
    s.modChan n fun c => { c with held := c.held ++ [⟨Reg.CAL_CTL.addr n 0, 2, 2, 0, c.grid.runtime s.now⟩] }
  else (s.applyFlip n).retrimNow n

/-- A passing write of CAL_CTL with written word w. -/
def State.writeCalCtl (s : State) (n : Nat) (stored w : Word) : State :=
  let t := s.setRw .CAL_CTL stored n
  let t := if bit w.toNat 3 ∧ (t.on F.CAL_STATUS_RUNNING n ∨ t.thisCycle (t.cal n).cutAt) then t.calCut n 2 else t
  let t := if bit w.toNat 2 then t.hostFlip n else t
  if bit w.toNat 0 then t.calDue n else t

/-- A passing write of word j of the bank window (0 MAIN, 1 MK, 2–9 SLICE), refused for the active bank and during a run (R319). A host's
results are taken as measured at the present F_DAC. While the DAC analog domain is off there is no bank to write (R317). -/
def State.writeBank (s : State) (n j : Nat) (w : Word) : State :=
  let b := s.on F.CAL_CTL_SEL n
  if ¬ s.dom (32 + n) then s
  else if s.on F.CAL_STATUS_RUNNING n ∨ b = s.on F.CAL_STATUS_ACTIVE n then s.flag F.CAL_STATUS_WR_ERR n
  else
    let put := fun (x : CalBank) =>
      if j = 0 then { x with main := w, fdac := s.f F.SP_FDAC_FDAC (n / 4) }
      else if j = 1 then { x with lanes := w }
      else { x with slices := x.slices.set (j - 2) w }
    (s.modCal n fun c => if b then { c with b := put c.b } else { c with a := put c.a }).showBanks n

/-- Word j of the bank window as it reads; there is none while the DAC analog domain is off (R317). -/
def State.readBank (s : State) (n j : Nat) : Word :=
  let b := if s.on F.CAL_CTL_SEL n then (s.cal n).b else (s.cal n).a
  if ¬ s.dom (32 + n) then 0
  else if j = 0 then b.main else if j = 1 then b.lanes else b.slices.getD (j - 2) 0#64

/-- CAL_TEMP_CHECK (R314): with AUTO, the temperature of channel n's quad is compared with T_LAST. -/
def execCalTempCheck (n : Fin 16) (s : State) : Res :=
  let d := signed 16 (s.f F.BG_TEMP_T (n.val / 4)) - signed 16 (s.f F.CAL_TEMP_T_LAST n)
  .next (if s.on F.CAL_CTL_AUTO n ∧ s.f F.CAL_TEMP_DELTA_T n < d.natAbs then s.calDue n else s)

/-! ### Runs (R313, R315, R318) -/

/-- A calibration run of channel n starts (R315). -/
def State.calStart (s : State) (n : Nat) : State :=
  let t := ((s.startTask (.cal n)).clr F.CAL_STATUS_WAITING n).flag F.CAL_STATUS_RUNNING n
  ((t.setF F.CAL_STATUS_STEP 1 n).clr F.CAL_STATUS_SLICE n).modCal n fun c => { c with again := false, flip := none }

/-- CAL_RUN_START (R315): the request of channel n is granted, and its run starts. -/
def execCalRunStart (n : Fin 16) (s : State) : Res :=
  let s := s.calRequests
  if s.on F.CAL_STATUS_WAITING n ∧ s.taskGrantable (.cal n) then .next (s.calStart n) else .next s

/-- The run of channel n completes with its flip, which steps the trim at the flip's boundary (R318). -/
def State.calComplete (s : State) (n : Nat) : State :=
  let again := (s.cal n).again
  let p := match (s.cal n).flip with
    | some k => 512 * k * 1024
    | none => (s.chan n).grid.place s.now
  let t := (s.applyFlip n).modCal n fun c => { c with again := false }
  let t := (((t.clr F.CAL_STATUS_RUNNING n).clr F.CAL_STATUS_STEP n).setF F.CAL_STATUS_RESULT 1 n).bump F.CAL_CNT_CAL_COUNT n
  let t := (t.putTime F.CAL_LAST_SEC_SEC F.CAL_LAST_FRAC_FRAC t.now n).setF F.CAL_TEMP_T_LAST (s.cal n).temp n
  let t := (((t.setB F.CAL_STATUS_DUE again n).fireNow 631).endTask (.cal n)).retrimFrom n p
  let t := if t.on F.CAL_CFG_AUTOSTORE then t.requestStore else t
  t.calRequests

/-- CAL_DONE (R318): the flip of channel n's run takes effect at its boundary. -/
def execCalDone (n : Fin 16) (s : State) : Res :=
  match (s.cal n).flip with
  | some k =>
    if s.on F.CAL_STATUS_RUNNING n then .next ((s.reach ((s.chan n).grid.voiceAt (512 * k)).toNat).calComplete n) else .next s
  | none => .next s

/-- The SKEW that pads the converter of channel n to 2.50 ns now, to the nearest 1/1024 DAC sample (R311). -/
def State.skewNow (s : State) (n : Nat) : Nat :=
  (roundDiv (s.converterLack n * s.f F.SP_FDAC_FDAC (n / 4) * 1024 : Nat) (2 ^ 16 * 10 ^ 15)).toNat

/-- MKSKEW of lane l of channel n now: minus its driver's lag, to the nearest 1/32 DAC sample, ties away from zero (R311). -/
def State.mkSkewNow (s : State) (n l : Nat) : Int :=
  -roundAway (s.laneLag n l * s.f F.SP_FDAC_FDAC (n / 4) * 32 : Nat) (2 ^ 16 * 10 ^ 15)

/-- The lanes in LANES take their MKSKEW (R311, R313). -/
def State.measureLanes (s : State) (n : Nat) : State :=
  forN 4 (fun l t =>
    if bit (t.f F.CAL_CTL_LANES n) l then
      t.modInactive n fun b => { b with lanes := BitVec.ofNat 64 (setBits b.lanes.toNat (16 * l + 15) (16 * l) (wrap 16 (t.mkSkewNow n l))) }
    else t) s

/-- CAL_STEP_DONE (R313): the step, or in step 2 the slice, of channel n's run completes. The trims that it measured are not stated by the
spec and are drawn; SKEW and MKSKEW are those of R311. A step or slice whose exchanges are not yet permitted goes on (R172). -/
def execCalStepDone (n : Fin 16) (s : State) : Res :=
  let step := s.f F.CAL_STATUS_STEP n
  let go := fun (t : State) (k : Nat) => Host.Outcome.next (t.setF F.CAL_STATUS_STEP k n)
  if ¬ s.on F.CAL_STATUS_RUNNING n then .next s
  else if step = 1 then (if s.mayExchange n 0 then go ((s.clr F.CAL_STATUS_SLICE n).setSpare n (some 0)) 2 else .next s)
  else if step = 2 then
    let i := s.f F.CAL_STATUS_SLICE n
    if ¬ s.mayExchange n i ∨ (i < 63 ∧ ¬ s.mayExchange n (i + 1)) then .next s
    else
    let measured := fun (b : CalBank) =>
      BitVec.ofNat 64 (setBits (b.slices.getD (i / 8) 0#64).toNat (8 * (i % 8) + 7) (8 * (i % 8)) s.free.toNat)
    let t := s.drawn.modInactive n fun b => { b with slices := b.slices.set (i / 8) (measured b) }
    if i = 63 then go ((t.clr F.CAL_STATUS_SLICE n).setSpare n none) 3
    else .next ((t.setF F.CAL_STATUS_SLICE (i + 1) n).setSpare n (some (i + 1)))
  else if step = 3 then
    let corners := fun (b : CalBank) => BitVec.ofNat 64 (setBits b.main.toNat 31 0 s.free.toNat)
    go (s.drawn.modInactive n fun b => { b with main := corners b }) 4
  else if step = 4 then
    let skew := fun (b : CalBank) => BitVec.ofNat 64 (setBits b.main.toNat 47 32 (s.skewNow n))
    go (s.modInactive n fun b => { b with main := skew b }) 5
  else if step = 5 then
    let t := (s.measureLanes n).modCal n fun c => { c with temp := s.f F.BG_TEMP_T (n.val / 4) }
    let fdac := t.f F.SP_FDAC_FDAC (n.val / 4)
    let valid := fun (b : CalBank) => BitVec.ofNat 64 (setBits b.main.toNat 63 63 1)
    let t := t.modInactive n fun b => { b with main := valid b, fdac := fdac }
    let t := t.setF F.CAL_STATUS_STEP 6 n
    if t.on F.CH_CTL_EN n then .next (t.modCal n fun c => { c with flip := some ((t.chan n).grid.runtime t.now) })
    else .next (t.calComplete n)
  else .next s

end Sys2Proof.Machine
end

