-- ==== Sys2Proof/Machine/Novdex.lean ====
section
/-! DEFINITION. The Novdex instruction word (R54 to R58, R59 to R77): the instructions with their operands, and the decoder,
total on any word, which answers the fault code of R51 where the word is no instruction. -/

namespace Sys2Proof.Machine

/-- The instructions of format RR. -/
inductive RR where
  | add | sub | and | or | xor | shl | shr | sra | mul
  deriving DecidableEq, Repr

/-- The instructions of format RI. -/
inductive RI where
  | addi | andi | ori | xori | shli | shri | srai
  deriving DecidableEq, Repr

/-- Branch conditions, by COND (R61). -/
inductive Cond where
  | eq | ne | lt | ge | ltu | geu | bs | bc
  deriving DecidableEq, Repr

/-- A decoded instruction. -/
inductive CoreOp where
  | nop
  | rr (o : RR) (d a b : Fin 32)
  | ri (o : RI) (d a : Fin 32) (imm : BitVec 32)
  | ldi (d : Fin 32) (imm : BitVec 48)
  | ldih (d : Fin 32) (imm : BitVec 16)
  | ld (d a : Fin 32) (off : BitVec 16)
  | st (a b : Fin 32) (off : BitVec 16)
  | dtrdSec (d : Fin 32)
  | dtrdFrac (d : Fin 32)
  | br (c : Cond) (a b : Fin 32) (tgt : Fin 8192)
  | bi (c : Cond) (a : Fin 32) (imm : BitVec 30) (tgt : Fin 8192)
  | goto_ (tgt : Fin 8192)
  | call (tgt : Fin 8192)
  | ret
  | end_
  | play (kerf seg : Operand 16)
  | loop (count : Operand 24) (len : BitVec 5)
  | jump (mode : Fin 3) (discard : Bool) (ec : BitVec 8) (entry : Fin 16)
  | jumpDisarm (none_ : Bool)
  | waitTrig (arg : BitVec 16)
  | waitEvent (arg : BitVec 16)
  | waitTime (a b : Fin 32)
  | waitKerf (arg : BitVec 16)
  | waitOther
  | setf (a : Fin 32)
  | setp (add : Bool) (phase : Operand 32)
  | rampf (a b : Fin 32)
  | mark (lane : Fin 4) (mode : Fin 4) (offset : BitVec 28) (width : BitVec 16)
  | trigo (line : Fin 16)
  | bufAlloc (d a : Fin 32) (region : Fin 3)
  | bufAttach (d a : Fin 32)
  | bufFree (a : Fin 32)
  | bufFence (a : Fin 32)
  | bufGet (d a b : Fin 32) (daddr : BitVec 12) (nw : BitVec 8)
  | bufPut (d a b : Fin 32) (daddr : BitVec 12) (nw : BitVec 8)
  | evtFire (ec : Operand 7)
  | evtWaitArm (d : Fin 32) (eca ecb : BitVec 8)
  | evtWait (d : Fin 32) (eca ecb : BitVec 8) (tmo : BitVec 24)
  | budget (d : Fin 32) (cls : Fin 4) (phase : Fin 16)
  deriving DecidableEq, Repr

/-- What the decoder answers. -/
inductive Decoded where
  | op (o : CoreOp)
  | fault (code : Nat)
  deriving DecidableEq, Repr

/-- The instruction when every field of the list, all reserved, is 0; RESERVED_BITS otherwise (R54). -/
def whenClear (w : Nat) (l : List (Nat × Nat)) (o : CoreOp) : Decoded :=
  if l.all fun p => bits w p.1 p.2 == 0 then .op o else .fault 4

/-- Register fields D, A and B (R55). -/
def regD (w : Nat) : Fin 32 := Fin.ofNat 32 (bits w 55 51)
def regA (w : Nat) : Fin 32 := Fin.ofNat 32 (bits w 50 46)
def regB (w : Nat) : Fin 32 := Fin.ofNat 32 (bits w 45 41)
/-- TGT (R58). -/
def tgtOf (w : Nat) : Fin 8192 := Fin.ofNat 8192 w
/-- Bits hi..lo as a bit vector. -/
def slice (n w hi lo : Nat) : BitVec n := BitVec.ofNat n (bits w hi lo)

def condOf : Nat → Cond
  | 0 => .eq | 1 => .ne | 2 => .lt | 3 => .ge | 4 => .ltu | 5 => .geu | 6 => .bs | _ => .bc

def rrOf : Nat → RR
  | 0x08 => .add | 0x09 => .sub | 0x0A => .and | 0x0B => .or | 0x0C => .xor | 0x0D => .shl | 0x0E => .shr | 0x0F => .sra
  | _ => .mul

def riOf : Nat → RI
  | 0x11 => .addi | 0x12 => .andi | 0x13 => .ori | 0x14 => .xori | 0x15 => .shli | 0x16 => .shri | _ => .srai

/-- WAIT by KIND (R68). ARG is wholly unused for TIME, A and B for the others; KIND 4 to 7 name no form. -/
def decodeWait (w : Nat) : Decoded :=
  match bits w 55 53 with
  | 0 => whenClear w [(52, 51), (50, 41), (40, 16)] (.waitTrig (slice 16 w 15 0))
  | 1 => whenClear w [(52, 51), (50, 41), (40, 16)] (.waitEvent (slice 16 w 15 0))
  | 2 => whenClear w [(52, 51), (40, 16), (15, 0)] (.waitTime (regA w) (regB w))
  | 3 => whenClear w [(52, 51), (50, 41), (40, 16)] (.waitKerf (slice 16 w 15 0))
  | _ => whenClear w [(52, 51), (50, 41), (40, 16)] .waitOther

/-- The descriptor and service instructions, by opcode. -/
def decodeOwn (w : Nat) : Decoded :=
  match bits w 63 56 with
  | 0x40 =>
    let sr := bit w 55
    let kr := bit w 54
    whenClear w ([(53, 51), (40, 32)] ++ (if sr then [(15, 0)] else [(50, 46)]) ++ (if kr then [(31, 16)] else [(45, 41)]))
      (.play (if kr then .reg (regB w) else .imm (slice 16 w 31 16)) (if sr then .reg (regA w) else .imm (slice 16 w 15 0)))
  | 0x41 =>
    let cr := bit w 55
    whenClear w ([(54, 51), (45, 32), (7, 5)] ++ (if cr then [(31, 8)] else [(50, 46)]))
      (.loop (if cr then .reg (regA w) else .imm (slice 24 w 31 8)) (slice 5 w 4 0))
  | 0x42 =>
    if bits w 55 54 = 3 then
      whenClear w [(53, 53), (52, 16), (14, 8), (7, 4), (3, 0)] (.jumpDisarm (bit w 15))
    else whenClear w [(52, 16), (7, 4)]
      (.jump (Fin.ofNat 3 (bits w 55 54)) (bit w 53) (slice 8 w 15 8) (Fin.ofNat 16 w))
  | 0x43 => decodeWait w
  | 0x48 => whenClear w [(55, 51), (45, 0)] (.setf (regA w))
  | 0x49 =>
    let pr := bit w 54
    whenClear w ([(53, 51), (45, 32)] ++ (if pr then [(31, 0)] else [(50, 46)]))
      (.setp (bit w 55) (if pr then .reg (regA w) else .imm (slice 32 w 31 0)))
  | 0x4A => whenClear w [(55, 51), (40, 0)] (.rampf (regA w) (regB w))
  | 0x50 =>
    whenClear w ([(51, 48), (19, 16)] ++ (if bits w 53 52 = 2 then [] else [(15, 0)]))
      (.mark (Fin.ofNat 4 (bits w 55 54)) (Fin.ofNat 4 (bits w 53 52)) (slice 28 w 47 20) (slice 16 w 15 0))
  | 0x51 => whenClear w [(51, 0)] (.trigo (Fin.ofNat 16 (bits w 55 52)))
  | 0x58 =>
    if bits w 1 0 = 3 then whenClear w [(45, 2)] (.bufAttach (regD w) (regA w))
    else whenClear w [(45, 2)] (.bufAlloc (regD w) (regA w) (Fin.ofNat 3 (bits w 1 0)))
  | 0x59 => whenClear w [(55, 51), (45, 0)] (.bufFree (regA w))
  | 0x5A => whenClear w [(55, 51), (45, 0)] (.bufFence (regA w))
  | 0x5B => whenClear w [(40, 28), (15, 8)] (.bufGet (regD w) (regA w) (regB w) (slice 12 w 27 16) (slice 8 w 7 0))
  | 0x5C => whenClear w [(40, 28), (15, 8)] (.bufPut (regD w) (regA w) (regB w) (slice 12 w 27 16) (slice 8 w 7 0))
  | 0x60 =>
    if bit w 55 then whenClear w [(54, 51), (45, 7), (6, 0)] (.evtFire (.reg (regA w)))
    else whenClear w [(54, 51), (50, 46), (45, 7)] (.evtFire (.imm (slice 7 w 6 0)))
  | 0x61 =>
    if bit w 50 then whenClear w [(49, 40), (23, 0)] (.evtWaitArm (regD w) (slice 8 w 31 24) (slice 8 w 39 32))
    else whenClear w [(49, 40)] (.evtWait (regD w) (slice 8 w 31 24) (slice 8 w 39 32) (slice 24 w 23 0))
  | 0x68 =>
    whenClear w [(50, 42), (39, 4)] (.budget (regD w) (Fin.ofNat 4 (bits w 41 40)) (Fin.ofNat 16 w))
  | _ => .fault 3

/-- Decode an instruction word (R54, R57). -/
def decodeCore (w : Nat) : Decoded :=
  let op := bits w 63 56
  if op = 0x01 then whenClear w [(55, 0)] .nop
  else if 0x08 ≤ op ∧ op ≤ 0x10 then whenClear w [(40, 0)] (.rr (rrOf op) (regD w) (regA w) (regB w))
  else if 0x11 ≤ op ∧ op ≤ 0x17 then
    whenClear w ((45, 32) :: if 0x15 ≤ op then [(31, 6)] else []) (.ri (riOf op) (regD w) (regA w) (slice 32 w 31 0))
  else match op with
  | 0x18 => whenClear w [(50, 48)] (.ldi (regD w) (slice 48 w 47 0))
  | 0x19 => whenClear w [(50, 16)] (.ldih (regD w) (slice 16 w 15 0))
  | 0x1A => whenClear w [(45, 41), (40, 16)] (.ld (regD w) (regA w) (slice 16 w 15 0))
  | 0x1B => whenClear w [(55, 51), (40, 16)] (.st (regA w) (regB w) (slice 16 w 15 0))
  | 0x1C => whenClear w [(50, 1)] (if bit w 0 then .dtrdFrac (regD w) else .dtrdSec (regD w))
  | 0x20 => whenClear w [(52, 51), (40, 13)] (.br (condOf (bits w 55 53)) (regA w) (regB w) (tgtOf w))
  | 0x21 =>
    whenClear w ([(52, 51), (15, 13)] ++ if 6 ≤ bits w 55 53 then [(45, 22)] else [])
      (.bi (condOf (bits w 55 53)) (regA w) (slice 30 w 45 16) (tgtOf w))
  | 0x22 => whenClear w [(55, 13)] (.goto_ (tgtOf w))
  | 0x23 => whenClear w [(55, 13)] (.call (tgtOf w))
  | 0x24 => whenClear w [(55, 0)] .ret
  | 0x25 => whenClear w [(55, 0)] .end_
  | _ => decodeOwn w

end Sys2Proof.Machine
end

