-- ==== Sys2Proof/Machine/CoreOps.lean ====
section
/-! DEFINITION. What an instruction of a Sequencer Core does (R32 to R37, R44, R49, R51, R59 to R77, R377): registers, data
memory, faults, issue, and one shared operation that performs any decoded instruction, with or without STEP. -/

namespace Sys2Proof.Machine

/-! ### Registers and state of a core (R32, R43) -/

/-- CORE_STATUS.STATE: 0 OFF, 1 INIT, 2 HALT, 3 ARMED, 4 ADMIT_WAIT, 5 RUN, 6 EVWAIT, 7 QSTALL, 8 BWAIT, 9 DONE, 10 FAULT. -/
def State.st (s : State) (k : Nat) : Nat := s.f F.CORE_STATUS_STATE k
/-- Core k goes to state n. From one in which its voice plays no queue to one in which it does, the voice plays it from this instant on
(R43). -/
def State.setSt (s : State) (k n : Nat) : State :=
  let t := s.setF F.CORE_STATUS_STATE n k
  if s.st k ≤ 3 ∧ 3 < n then t.modVoice k fun x => { x with takesFrom := s.now } else t

/-- Register gr; g0 reads 0 (R55). -/
def State.greg (s : State) (k : Nat) (r : Fin 32) : Word := if r = 0 then 0 else s.rw .CORE_GREG k r
/-- Write register gr; a result written to g0 is discarded (R55). -/
def State.setGreg (s : State) (k : Nat) (r : Fin 32) (w : Word) : State := if r = 0 then s else s.setRw .CORE_GREG w k r

def State.pc (s : State) (k : Nat) : Nat := (s.core k).pc
def State.setPc (s : State) (k n : Nat) : State := s.modCore k fun c => { c with pc := n }

/-- Number of instructions of the loaded text: TEXT_LEN / 8 (R33). -/
def State.textWords (s : State) (k : Nat) : Nat := s.textLen k / 8

/-- Data memory of core k, by word index (R32, R33). -/
def State.dmemWord (s : State) (k i : Nat) : Word := sget (fun _ => 0#64) s.dmem (k * 4096 + i)
def State.setDmem (s : State) (k i : Nat) (w : Word) : State :=
  { s with dmem := sput (fun _ => 0#64) s.dmem (k * 4096 + i) w }

/-- A fault of core k: code and index are recorded, COUNT rises, the core enters FAULT and its FAULT producer fires (R51). -/
def State.coreFault (s : State) (k code : Nat) : State :=
  ((((s.setSt k 10).setF F.CORE_FAULT_CODE code k).setF F.CORE_FAULT_FPC (s.pc k) k).bump F.CORE_FAULT_COUNT k).fireNow (9 * k + 7)

/-- What performing an instruction comes to: a fault before any effect but the count of a memory error (R34), a next
instruction index, or an instruction that has not completed and stays at its index. -/
inductive CoreRes where
  | fault (code : Nat) (s : State)
  | next (pc : Nat) (s : State)
  | stay (s : State)

/-- The state after an instruction of core k. -/
def CoreRes.apply (r : CoreRes) (k : Nat) : State :=
  match r with
  | .fault c t => t.coreFault k c
  | .next p t => t.setPc k p
  | .stay t => t

/-- An instruction that writes gd and moves on. -/
def State.result (s : State) (k : Nat) (d : Fin 32) (w : Word) : CoreRes := .next (s.pc k + 1) (s.setGreg k d w)

/-! ### Integer and branch operations (R59, R61) -/

/-- The low six bits of a shift count. -/
def shiftOf (w : Word) : Nat := w.toNat % 64

def RR.eval (o : RR) (a b : Word) : Word :=
  match o with
  | .add => a + b
  | .sub => a - b
  | .and => a &&& b
  | .or => a ||| b
  | .xor => a ^^^ b
  | .shl => a <<< shiftOf b
  | .shr => a >>> shiftOf b
  | .sra => a.sshiftRight (shiftOf b)
  | .mul => a * b

def RI.eval (o : RI) (a : Word) (imm : BitVec 32) : Word :=
  match o with
  | .addi => a + imm.signExtend 64
  | .andi => a &&& imm.zeroExtend 64
  | .ori => a ||| imm.zeroExtend 64
  | .xori => a ^^^ imm.zeroExtend 64
  | .shli => a <<< (imm.toNat % 64)
  | .shri => a >>> (imm.toNat % 64)
  | .srai => a.sshiftRight (imm.toNat % 64)

/-- Whether a branch is taken (R61). -/
def Cond.holds (c : Cond) (a b : Word) : Bool :=
  match c with
  | .eq => a == b
  | .ne => a != b
  | .lt => a.slt b
  | .ge => !a.slt b
  | .ltu => a.ult b
  | .geu => !a.ult b
  | .bs => bit a.toNat (b.toNat % 64)
  | .bc => !bit a.toNat (b.toNat % 64)

/-- Go to an index; at or beyond the text it is IMEM_RANGE (R56). -/
def State.goTo (s : State) (k tgt : Nat) : CoreRes := if s.textWords k ≤ tgt then .fault 2 s else .next tgt s

def State.branch (s : State) (k : Nat) (c : Cond) (a b : Word) (tgt : Fin 8192) : CoreRes :=
  if c.holds a b then s.goTo k tgt else .next (s.pc k + 1) s

/-! ### Data memory (R33, R59) -/

/-- Byte address of a data-memory operand. -/
def State.dataAddr (s : State) (k : Nat) (a : Fin 32) (off : BitVec 16) : Nat := (s.greg k a + off.signExtend 64).toNat

/-- A load or store at a byte address, when the address allows it (R33, R51: the lowest code is recorded). -/
def State.dataAt (s : State) (addr : Nat) (go : Nat → CoreRes) : CoreRes :=
  if addr % 8 ≠ 0 then .fault 7 s else if 0x8000 ≤ addr then .fault 8 s else go (addr / 8)

/-- LD (R59): ecc is what the word meets; an uncorrected word is ECC_UE_DMEM (R34). The error is counted though the
instruction has no effect of its own. -/
def State.load (s : State) (k : Nat) (d : Fin 32) (addr : Nat) (ecc : Ecc) : CoreRes :=
  s.dataAt addr fun i => if ecc.bad then .fault 9 (s.coreEcc ecc addr) else (s.coreEcc ecc addr).result k d (s.dmemWord k i)

/-! ### Emission (R36, R63) -/

/-- Append a descriptor to the queue of core k's voice at this instant, and let refill go on (R110). The program stops
holding the handle of a BUF.FREE, whose descriptor carries the hold on (R125). -/
def State.emitNow (s : State) (k : Nat) (q : QEntry) : State :=
  let t := match q.desc with
    | .bufFree h => s.moveHold k h
    | _ => s
  (t.modVoice k fun x => x.append q.desc s.now q.dram q.words).refill k

/-- Emit a descriptor that passed its checks: a full queue stalls the core, or under STEP queues nothing (R36, R377). -/
def State.emit (s : State) (k : Nat) (step : Bool) (q : QEntry) : CoreRes :=
  if s.qfill k < 32 then .next (s.pc k + 1) (s.emitNow k q)
  else if step then .stay s
  else .stay ((s.modCore k fun c => { c with stalled := some q }).setSt k 7)

/-- A descriptor whose field values are good; one that an open loop body may not hold is DESC_INVALID (R63, R66). -/
def State.emitIf (s : State) (k : Nat) (step good : Bool) (d : Desc) : CoreRes :=
  if !good || (decide (0 < (s.voice k).openBody) && !d.inBody) then .fault 0x0A s
  else s.emit k step { desc := d, written := s.now }

/-- A 16-bit operand: bits of a register above it are ignored (R65). -/
def State.oper (s : State) (k : Nat) {w : Nat} : Operand w → Nat
  | .reg r => (s.greg k r).toNat
  | .imm n => n.toNat

/-- A channel locked against cores (R201). -/
def State.lockedEc (s : State) (c : Nat) : Bool := s.on F.EC_CTL_LK_CORE c

/-- PLAY (R65): the issue checks of word 0, then DRAM backing, with a slot taken once both pass (R113); under STEP with a full queue nothing
more happens (R377). ecc: what the read of the entry meets at issue, which counts and faults nothing (R20, R361); the snapshot judges the entry. -/
def State.play (s : State) (k : Nat) (step : Bool) (kerf seg : Operand 16) (ecc : Ecc) : CoreRes :=
  let g := s.oper k seg % 65536
  let s := if g < s.entryCount k then s.eccEvent ecc false (s.entryPoisoned k g) 0 (s.entryAddr k g) else s
  let ws := s.readEntry k g
  let d := s.entryInDram ws
  if !issueChecks (s.entryCount k) g (wordOf ws 0) then .fault 0x0A s
  else if d && !s.hasSlot k && !(s.canSlot k && s.hdrDramv k) then .fault 0x0B s
  else if step && decide (32 ≤ s.qfill k) then .stay s
  else
    let t := if d then s.takeSlot k else s
    t.emit k step { desc := .play (s.oper k kerf % 65536) g, written := s.now, dram := d, words := ws }

/-! ### Buffers (R72, R73) -/

/-- A status value of R73. -/
def bufStatus (n : Nat) : Word := if n = 0 then 0 else BitVec.ofNat 64 (2 ^ 63 + n)

/-- BUF.ALLOC of a region for core k: the value gd receives. -/
def State.coreAlloc (s : State) (k region : Nat) (size : Word) : Word × State :=
  let n := size.toNat
  if n = 0 ∨ 2 ^ 30 < n then (bufStatus 4, s)
  else if 16 ≤ s.heldCount k then (bufStatus 2, s)
  else match s.alloc region ((n + 4095) / 4096) (fun b => { b with progs := [k] }) with
    | some (h, t) => (BitVec.ofNat 64 h, t)
    | none => (bufStatus 1, s.drawn.drawn)

/-- ATTACH adds a hold on a live handle (R72). -/
def State.coreAttach (s : State) (k : Nat) (h : Word) : Word × State :=
  if ¬ s.liveHandle h.toNat then (bufStatus 3, s)
  else if 16 ≤ s.heldCount k then (bufStatus 2, s)
  else (h, s.holdBy k h.toNat)

/-- The status of a GET or PUT before any word is copied: 0, NOT_HELD or RANGE (R73). -/
def State.copyStatus (s : State) (k : Nat) (h off : Word) (n : Nat) : Nat :=
  if ¬ s.holds k h.toNat then 6
  else if off.toNat % 8 ≠ 0 ∨ s.bufferSize h.toNat < off.toNat + 8 * n then 5 else 0

/-- Copy n words from a buffer to data memory as read, counting what each meets; ecc is what the first word meets. -/
def State.copyIn (s : State) (k : Nat) (dram : Bool) (addr dst : Nat) (ecc : Ecc) (n : Nat) : State :=
  forN n (fun i t =>
    let a := addr + 8 * i
    (t.eccEvent (if i = 0 then ecc else .clean) dram (s.poisoned dram a) 3 a).setDmem k (dst + i) (s.readWord dram a)) s

/-- Copy n words from data memory to a buffer. -/
def State.copyOut (s : State) (k : Nat) (dram : Bool) (addr src n : Nat) : State :=
  forN n (fun i t => t.writeWord dram (addr + 8 * i) (s.dmemWord k (src + i))) s

/-- BUF.GET (R72, R73). -/
def State.bufGet (s : State) (k : Nat) (h off : Word) (daddr n : Nat) (ecc : Ecc) : Word × State :=
  match s.copyStatus k h off n with
  | 0 =>
    let dram := bit h.toNat 23
    let a := s.bufferBase h.toNat + off.toNat
    let ue := ecc.bad || anyN n fun i => s.poisoned dram (a + 8 * i)
    (bufStatus (if ue then 7 else 0), s.copyIn k dram a daddr ecc n)
  | c => (bufStatus c, s)

/-- BUF.PUT (R72, R73). -/
def State.bufPut (s : State) (k : Nat) (h off : Word) (daddr n : Nat) : Word × State :=
  match s.copyStatus k h off n with
  | 0 => (0, s.copyOut k (bit h.toNat 23) (s.bufferBase h.toNat + off.toNat) daddr n)
  | c => (bufStatus c, s)

/-- A buffer instruction has its effect; in RUN the core stays blocked on it until it completes (R72), and under STEP it
completes within the STEP (R377). -/
def State.blockOn (s : State) (k : Nat) (step : Bool) : CoreRes :=
  if step then .next (s.pc k + 1) s else .stay (s.modCore k fun c => { c with blocked := true })

/-! ### Events (R74 to R76) -/

/-- A channel in the 8-bit form. -/
def channelOf (e : BitVec 8) : Option Nat := if bit e.toNat 7 then none else some (e.toNat % 128)

/-- Select an input; a changed selection clears its latch (R75) and opens a new window (R195). -/
def EventIn.select (x : EventIn) (c : Option Nat) : EventIn := if x.sel = c then x else { sel := c }

/-- EVT.WAIT selects both inputs of core k. -/
def State.selectInputs (s : State) (k : Nat) (eca ecb : BitVec 8) : State :=
  let t := s.modCore k fun c => { c with ei0 := c.ei0.select (channelOf eca), ei1 := c.ei1.select (channelOf ecb) }
  let t := if (s.core k).ei0.sel = channelOf eca then t else t.modInput (2 * k) fun i => { i with window := none }
  if (s.core k).ei1.sel = channelOf ecb then t else t.modInput (2 * k + 1) fun i => { i with window := none }

/-- Whether EVT.WAIT names a channel locked against cores (R75). -/
def State.deniedWait (s : State) (eca ecb : BitVec 8) : Bool :=
  (match channelOf eca with | some c => s.lockedEc c | none => false) ||
  (match channelOf ecb with | some c => s.lockedEc c | none => false)

/-- The latched inputs of core k, bit 0 for EI0 and bit 1 for EI1 (R76). -/
def CoreSt.latched (c : CoreSt) : Nat := c.ei0.latch.toNat + 2 * c.ei1.latch.toNat

/-- Take the latched inputs: gd receives them and the latches clear (R76). -/
def State.takeLatches (s : State) (k : Nat) (d : Fin 32) : State :=
  (s.setGreg k d (BitVec.ofNat 64 (s.core k).latched)).modCore k fun c =>
    { c with ei0 := { c.ei0 with latch := false }, ei1 := { c.ei1 with latch := false } }

/-- A core in EVWAIT with a latch set leaves it (R76). -/
def State.wakeEvt (s : State) (k : Nat) : State :=
  if s.st k = 6 ∧ (s.core k).latched ≠ 0 then
    (((s.takeLatches k (Fin.ofNat 32 (s.core k).gd)).setPc k (s.pc k + 1)).modCore k fun c => { c with deadline := none }).setSt
      k 5
  else s

/-- The DTIME n × 64 core cycles from now, rounded up to the next unit. -/
def State.afterCycles (s : State) (n : Nat) : Nat := s.now + (n * 64 * second + 1199999999) / 1200000000

/-- EVT.WAIT with ARM = 0 (R76, R377). -/
def State.evtWait (s : State) (k : Nat) (step : Bool) (d : Fin 32) (eca ecb : BitVec 8) (tmo : BitVec 24) : CoreRes :=
  if s.deniedWait eca ecb then .fault 0x0D s
  else
    let t := s.selectInputs k eca ecb
    if (t.core k).latched ≠ 0 then .next (s.pc k + 1) (t.takeLatches k d)
    else if step then .stay t
    else .stay ((t.modCore k fun c =>
      { c with gd := d, deadline := if tmo = 0 then none else some (s.afterCycles tmo.toNat) }).setSt k 6)

/-! ### Budget (R49) -/

/-- A phase takes effect; what an admitted core holds follows it. -/
def State.setPhase (s : State) (k p : Nat) : State :=
  let t := s.setF F.CORE_BUDGET_PHASE p k
  if s.f F.CORE_BUDGET_ADMIT k = 2 then t.setF F.CORE_BUDGET_RESV_MW (s.phaseCost k p) k else t

/-- BUDGET (R49, R377); the reserved class 3 differs from every header's (R77). -/
def State.budget (s : State) (k : Nat) (step : Bool) (d : Fin 32) (cls p : Nat) : CoreRes :=
  if cls ≠ s.hdrClass k ∨ cls = 3 then .fault 0x0E s
  else if s.costCount k ≤ p then .fault 0x0F s
  else if cls = 0 then (s.setF F.CORE_BUDGET_PHASE p k).result k d 0
  else if s.phaseCost k p ≤ s.phaseCost k (s.f F.CORE_BUDGET_PHASE k) then (s.setPhase k p).result k d 0
  else if step then .stay s
  else
    let t := s.modCore k fun c => { c with gd := d, phase := p, since := s.now }
    .stay (((t.setSt k 8).setF F.CORE_BUDGET_ADMIT 3 k).enqueue k)

/-! ### One instruction -/

/-- Perform a decoded instruction of core k. step: under STEP (R377). ecc: what a data-memory, buffer or segment-table word it reads
meets. The descriptor of a JUMP DISARM holds EC 0, whether EC was NONE or 0 (DESIGN CHOICE, log entry 82: R67 says only that the form uses no
EC). -/
def State.perform (s : State) (k : Nat) (step : Bool) (o : CoreOp) (ecc : Ecc) : CoreRes :=
  let g := s.greg k
  let pc := s.pc k + 1
  match o with
  | .nop => .next pc s
  | .rr o d a b => s.result k d (o.eval (g a) (g b))
  | .ri o d a imm => s.result k d (o.eval (g a) imm)
  | .ldi d imm => s.result k d (imm.signExtend 64)
  | .ldih d imm => s.result k d (BitVec.ofNat 64 (setBits (g d).toNat 63 48 imm.toNat))
  | .ld d a off => s.load k d (s.dataAddr k a off) ecc
  | .st a b off => s.dataAt (s.dataAddr k a off) fun i => .next pc (s.setDmem k i (g b))
  | .dtrdSec d =>
    (s.modCore k fun c => { c with dtrd := s.now % second }).result k d (BitVec.ofNat 64 (s.now / second))
  | .dtrdFrac d => s.result k d (BitVec.ofNat 64 (s.core k).dtrd)
  | .br c a b tgt => s.branch k c (g a) (g b) tgt
  | .bi c a imm tgt => s.branch k c (g a) (imm.signExtend 64) tgt
  | .goto_ tgt => s.goTo k tgt
  | .call tgt =>
    let sp := s.f F.CORE_STATUS_SP k
    if s.textWords k ≤ tgt then .fault 2 s
    else if 8 ≤ sp then .fault 5 s
    else .next tgt ((s.setF F.CORE_STACK_RET pc k sp).setF F.CORE_STATUS_SP (sp + 1) k)
  | .ret =>
    let sp := s.f F.CORE_STATUS_SP k
    if sp = 0 then .fault 6 s
    else
      let dst := s.f F.CORE_STACK_RET k (sp - 1)
      if s.textWords k ≤ dst then .fault 2 s else .next dst (s.setF F.CORE_STATUS_SP (sp - 1) k)
  | .end_ => .next pc ((s.setSt k 9).fireNow (9 * k + 6))
  | .play kerf seg => s.play k step kerf seg ecc
  | .loop count len =>
    let c := s.oper k count
    s.emitIf k step (decide (1 ≤ c ∧ c < 2 ^ 24) && decide (1 ≤ len.toNat ∧ len.toNat ≤ 16)) (.loop c len.toNat)
  | .jump m dis ec en =>
    let locked := match channelOf ec with | some c => s.lockedEc c | none => false
    s.emitIf k step (bit (s.f F.VOICE_JT_STAT_LOADED k) en && !locked) (.jump m dis ec.toNat en)
  | .jumpDisarm _ => s.emitIf k step true (.jump 3 false 0 0)
  | .waitTrig arg => s.emitIf k step (decide (arg.toNat < 16)) (.waitTrig arg.toNat)
  | .waitEvent arg => s.emitIf k step (decide (arg.toNat < 128) && !s.lockedEc (arg.toNat % 128)) (.waitEvent arg.toNat)
  | .waitTime a b =>
    s.emitIf k step (decide ((g a).toNat < second) && decide ((g b).toNat < second))
      (.waitTime ((g a).toNat * second + (g b).toNat))
  | .waitKerf arg => s.emitIf k step (decide (arg.toNat < 16) && arg.toNat != k % 16) (.waitKerf arg.toNat)
  | .waitOther => .fault 0x0A s
  | .setf a => s.emitIf k step true (.setf ((g a).toNat % 2 ^ 48))
  | .setp add ph => s.emitIf k step true (.setp add (s.oper k ph % 2 ^ 32))
  | .rampf a b => s.emitIf k step true (.rampf ((g b).toNat % 2 ^ 32) ((g a).toNat % 2 ^ 48))
  | .mark l m o w =>
    s.emitIf k step ((s.voiceChan k).isSome && !(m.val == 2 && w.toNat == 0)) (.mark l m o.toNat w.toNat)
  | .trigo l => s.emitIf k step true (.trigo l)
  | .bufAlloc d a region =>
    let (w, t) := s.coreAlloc k region (g a)
    (t.setGreg k d w).blockOn k step
  | .bufAttach d a =>
    let (w, t) := s.coreAttach k (g a)
    (t.setGreg k d w).blockOn k step
  | .bufFree a =>
    if 0 < (s.voice k).openBody then .fault 0x0A s
    else if ¬ s.holds k (g a).toNat then .fault 0x0C s
    else s.emit k step { desc := .bufFree (g a).toNat, written := s.now }
  | .bufFence a => if s.holds k (g a).toNat then s.blockOn k step else .fault 0x0C s
  | .bufGet d a b daddr nw =>
    if 4096 < daddr.toNat + nw.toNat + 1 then .fault 8 s
    else
      let (w, t) := s.bufGet k (g a) (g b) daddr.toNat (nw.toNat + 1) ecc
      (t.setGreg k d w).blockOn k step
  | .bufPut d a b daddr nw =>
    if 4096 < daddr.toNat + nw.toNat + 1 then .fault 8 s
    else if s.copyStatus k (g a) (g b) (nw.toNat + 1) = 0 ∧ ecc.bad then .fault 9 (s.coreEcc ecc (daddr.toNat * 8))
    else
      let s := if s.copyStatus k (g a) (g b) (nw.toNat + 1) = 0 then s.coreEcc ecc (daddr.toNat * 8) else s
      let (w, t) := s.bufPut k (g a) (g b) daddr.toNat (nw.toNat + 1)
      (t.setGreg k d w).blockOn k step
  | .evtFire ec =>
    let c := s.oper k ec % 128
    if s.lockedEc c then .fault 0x0D s else .next pc (s.fireChannel c s.now)
  | .evtWaitArm d eca ecb =>
    if s.deniedWait eca ecb then .fault 0x0D s else (s.selectInputs k eca ecb).result k d 0
  | .evtWait d eca ecb tmo => s.evtWait k step d eca ecb tmo
  | .budget d cls p => s.budget k step d cls p

/-! ### Fetch and issue (R33, R34, R54) -/

/-- Fetch the instruction at PC of core k; e is what the fetch meets. -/
def State.fetch (s : State) (k : Nat) (e : Ecc) : Decoded × State :=
  if s.textWords k ≤ s.pc k then (.fault 2, s)
  else
    let t := s.coreEcc e (s.pc k * 8)
    if e.bad then (.fault 1, t) else (decodeCore (s.rw .CORE_IMEM k (s.pc k)).toNat, t)

/-- Fetch, decode and perform one instruction of core k. want: only when it is this one; a fault of the fetch, and the fault of a WAIT of
KIND 4 to 7, are taken whatever is wanted, for they are the core's own step. -/
def State.runOne (s : State) (k : Nat) (step : Bool) (want : Option CoreOp) (e ecc : Ecc) : State :=
  match s.fetch k e with
  | (.fault c, t) => t.coreFault k c
  | (.op o, t) =>
    if want = none ∨ want = some o ∨ o = .waitOther then (t.perform k step o ecc).apply k else s

/-- Core k issues an instruction (R32): it is in RUN, nothing blocks it, and the word at PC is that instruction. A core in
EVWAIT whose latch has set leaves EVWAIT first (R76). -/
def State.issue (s : State) (k : Nat) (e : Ecc) (o : CoreOp) (ecc : Ecc) : Res :=
  let s := s.wakeEvt k
  if s.st k = 5 ∧ ¬ (s.core k).blocked then .next (s.runOne k false (some o) e ecc) else .next s

end Sys2Proof.Machine
end

