-- ==== Sys2Proof/Machine/CoreCtl.lean ====
section
/-! DEFINITION. Loading, arming, starting, stopping and admitting a core (R35, R36, R44 to R49, R53). -/

namespace Sys2Proof.Machine

/-- A command that R44 lists for no such state (R44). -/
def State.ignoreCmd (s : State) (k : Nat) : State := s.flag F.CORE_STATUS_CMD_IGNORED k

/-! ### ARM (R41, R42, R46) -/

/-- COST_CNT is 1 to 16, and in each entry VMODE is 0 to 5 and the reserved fields are 0 (R42, R46). -/
def State.costOk (s : State) (k : Nat) : Bool :=
  let n := s.costCount k
  decide (1 ≤ n ∧ n ≤ 16) && (List.range n).all fun p =>
    decide (s.costBits k p 0 23 16 ≤ 5) && s.costBits k p 0 31 24 == 0 && s.costBits k p 2 31 8 == 0 &&
      s.costBits k p 3 63 0 == 0

/-- The reserved bytes of the header, and FLAGS[31:4], are 0 (R41). -/
def State.hdrReserved (s : State) (k : Nat) : Bool :=
  s.hdr k 1 31 4 == 0 && s.hdr k 4 63 48 == 0 && s.hdr k 5 63 48 == 0 && s.hdr k 6 63 32 == 0 && s.hdr k 7 31 0 == 0

/-- ARM_ERR of an ARM: the code of the first check that fails, in the order of Table: Arm checks (R46). -/
def State.armCode (s : State) (k : Nat) : Nat :=
  if s.hdr k 0 31 0 ≠ 0x5844564E then 1
  else if s.hdr k 0 47 32 ≠ 1 then 2
  else if s.hdr k 0 63 48 ≠ s.f F.DEV_ID_PART ∧ s.hdr k 0 63 48 ≠ 0x9600 then 3
  else if s.textLen k % 8 ≠ 0 ∨ s.textLen k < 8 ∨ 65536 < s.textLen k ∨ s.dataLen k % 8 ≠ 0 ∨ 32768 < s.dataLen k then 4
  else if s.textLen k / 8 ≤ s.hdrEntry k then 5
  else if ¬ s.costOk k then 6
  else if s.hdrClass k = 3 then 7
  else if ¬ s.hdrReserved k then 0xB
  else if s.f F.CORE_CTL_START_SRC k = 3 then 0xA
  else if ¬ s.governs then 8
  else if s.hdrClass k = 0 ∧ ¬ s.rtFits k then 9
  else 0

/-- DTIME of a timed start. -/
def State.startTime (s : State) (k : Nat) : Nat := s.at F.CORE_START_SEC_SEC F.CORE_START_FRAC_FRAC k

/-- A core leaves ARMED for its start source (R44, R47): RT runs, STD and BG wait for admission. -/
def State.startCore (s : State) (k : Nat) : State :=
  if s.f F.CORE_BUDGET_CLASS k = 0 then s.setSt k 5
  else (((s.setSt k 4).setF F.CORE_BUDGET_ADMIT 3 k).modCore k fun c => { c with fromStart := true, since := s.now }).enqueue k

/-- A timed start whose DTIME has passed (R47). -/
def State.startTimed (s : State) (k : Nat) (late : Bool) : State :=
  let t := s.startCore k
  if late then t.flag F.CORE_STATUS_START_LATE k else t

/-- ARM in HALT (R46, R47): an RT program is reserved, and a reservation held before stays with a program of another class; a core that arms
with a TIME start already passed leaves ARMED at once. -/
def State.arm (s : State) (k : Nat) : State :=
  if s.st k ≠ 2 then s.ignoreCmd k
  else
    let c := s.armCode k
    let s := s.setF F.CORE_STATUS_ARM_ERR c k
    if c ≠ 0 then s
    else
      let t := (((s.setPc k (s.hdrEntry k)).setF F.CORE_BUDGET_CLASS (s.hdrClass k) k).setF F.CORE_BUDGET_PHASE 0 k).setSt k 3
      let t := if s.hdrClass k = 0 then t.modCore k fun c => { c with resv := some (s.resvOf k) } else t
      let t := (t.unadmit k).armDiv k
      if s.f F.CORE_CTL_START_SRC k = 2 ∧ s.startTime k < s.now then t.startTimed k true else t

/-! ### START, STOP, RESUME, RESET, STEP (R44, R45, R47) -/

/-- A start source fires (R45): it starts an ARMED core, and elsewhere sets START_MISS. -/
def State.startSource (s : State) (k : Nat) : State :=
  if s.st k = 3 then s.startCore k else s.flag F.CORE_STATUS_START_MISS k

/-- A write of 1 to START (R47). -/
def State.hostStart (s : State) (k : Nat) : State :=
  if s.f F.CORE_CTL_START_SRC k = 0 then s.startSource k else s.ignoreCmd k

/-- The uncommitted descriptors of the core's queue are dropped. -/
def State.dropUncommitted (s : State) (k : Nat) : State := s.dropQueue k fun q => !q.committed

/-- A STOP that is taken: the core halts with PC on its instruction, and FLUSH = 1 drops uncommitted descriptors. -/
def State.halt (s : State) (k : Nat) : State :=
  let t := ((s.setSt k 2).modCore k fun c => { c with blocked := false, stopLater := false, stalled := none, deadline := none }).freeSlot k
  if s.on F.CORE_CTL_FLUSH k then ((t.dropUncommitted k).freeSlot k).trimSlots k else t

/-- STOP (R44): from ARMED what is held is released; elsewhere an admission ends and an RT reservation stays (R46). A buffer
instruction completes first (R72). -/
def State.stop (s : State) (k : Nat) : State :=
  match s.st k with
  | 3 => (s.release k).halt k
  | 4 => (s.unadmit k).halt k
  | 5 | 6 | 7 | 8 =>
    if (s.core k).blocked then s.modCore k fun c => { c with stopLater := true }
    else (s.unadmit k).halt k
  | _ => s.ignoreCmd k

/-- RESUME (R44). -/
def State.resume (s : State) (k : Nat) : State :=
  if s.st k ≠ 2 then s.ignoreCmd k
  else if s.f F.CORE_BUDGET_CLASS k = 0 then s.setSt k 5
  else (((s.setSt k 4).setF F.CORE_BUDGET_ADMIT 3 k).modCore k fun c => { c with fromStart := false, since := s.now }).enqueue k

/-- g1 to g31 and the call stack are cleared. -/
def State.clearRegs (s : State) (k : Nat) : State :=
  (forN 8 (fun i t => t.setRw .CORE_STACK 0 k i) (forN 32 (fun i t => t.setRw .CORE_GREG 0 k i) s)).clr F.CORE_STATUS_SP k

/-- A voice that has no kerf yet starts no earlier than the first grid boundary from now on (R81). -/
def State.raiseSince (s : State) (v : Nat) : State :=
  let x := s.voice v
  match x.since with
  | some p => if x.item.isNone ∧ x.kerfAt.isNone then
      s.startVoice v (max p ((s.voiceGrid v).boundaryAfter s.now 0 * 512 * 1024)) else s
  | none => s

/-- RESET (R44): PC returns to ENTRY, what the core holds is released, its event inputs select NONE (R75), the latch of
DTRD reads 0 (R60) and its voice's marker state clears (R176). R44 lists no effect on CORE_BUDGET.PHASE, so it stays, also for a RESUME that
runs from ENTRY (DESIGN CHOICE, log entry 72). -/
def State.coreReset (s : State) (k : Nat) : State :=
  if s.st k = 2 ∨ s.st k = 9 ∨ s.st k = 10 then
    let t := ((((s.clearRegs k).clr F.CORE_STATUS_ARM_ERR k).clr F.CORE_FAULT_CODE k).dropUncommitted k).release k
    let t := (t.modInput (2 * k) fun i => { i with window := none }).modInput (2 * k + 1) fun i => { i with window := none }
    let t := (t.modVoice k fun x => x.clearMarks).raiseSince k
    (((t.modCore k fun _ => { pc := s.hdrEntry k % 8192 }).freeSlot k).trimSlots k).setSt k 2
  else s.ignoreCmd k

/-- STEP (R44, R377): e and ecc are what the fetch and a data word meet. -/
def State.stepCore (s : State) (k : Nat) (e ecc : Ecc) : State :=
  if s.st k = 2 then s.runOne k true none e ecc else s.ignoreCmd k

/-- The command bits of a value written to CORE_CTL, once START_SRC and FLUSH are stored (R45): RESET before STOP before any
other, and a start source after the ARM of the same cycle. -/
def State.coreCtl (s : State) (k w : Nat) (e ecc : Ecc) : State :=
  let s := if bit w 5 then s.coreReset k else s
  let s := if bit w 3 then s.stop k else s
  let s := if bit w 1 then s.arm k else s
  let s := if bit w 4 then s.resume k else s
  let s := if bit w 6 then s.stepCore k e ecc else s
  if bit w 2 then s.hostStart k else s

/-! ### Switching a cluster on and off (R35, R44, R69, R75) -/

/-- Registers of BAR0 between two offsets return to their reset values. -/
def State.wipe (s : State) (lo hi : Nat) : State :=
  { s with regs := s.regs.filter fun p => decide (p.1 < lo) || decide (hi ≤ p.1) }

/-- A core loses all its state, with the queue, the item, the jumps, the slice and the NCO of its voice (R44, R69, R80, R108); the voice stays
with its channel, and contributes zero (R43). CORE_START_EVT is a consumer selection, which the Rest domain holds (R202). -/
def State.loseCore (s : State) (k : Nat) : State :=
  let x := s.voice k
  let t := ((s.endItem k).presentSamples k s.now).dropRefs (some k) ((x.taken.map (·.refs)).flatten ++ (x.jt.map (·.2.refs)).flatten)
  let t := ((t.dropQueue k fun _ => true).release k).modVoice k fun y =>
    { drives := y.drives, join := y.join, since := y.since, misses := y.misses }
  let t := ((t.modCore k fun _ => {}).freeSlot k).showRefill k
  let start := s.rw .CORE_START_EVT k
  let t := (t.wipe (0x200000 + k * 0x8000) (0x208000 + k * 0x8000)).wipe (0x400000 + k * 0x10000) (0x410000 + k * 0x10000)
  let t := { t.wipe (voiceBase k) (voiceBase k + 0x1000) with dmem := t.dmem.filter fun p => p.1 / 4096 != k }
  t.setRw .CORE_START_EVT start k

/-- A cluster is switched off: its cores are OFF. -/
def State.clusterOff (s : State) (c : Nat) : State := forN 4 (fun i t => t.loseCore (4 * c + i)) s

/-- A cluster is switched on: its memories are filled with zero words and its cores are in INIT (R35). -/
def State.clusterOn (s : State) (c : Nat) : State := forN 4 (fun i t => (t.loseCore (4 * c + i)).setSt (4 * c + i) 1) s

/-- CLUSTER_FILL_DONE (R35, R44): the cores of cluster c go from INIT to HALT with PC at ENTRY. -/
def execClusterFillDone (c : Fin 16) (s : State) : Res :=
  .next (forN 4 (fun i t =>
    let k := 4 * c.val + i
    if t.st k = 1 then ((t.setPc k (t.hdrEntry k % 8192)).setSt k 2).raiseSince k else t) s)

/-! ### Start by time, and admission (R47 to R49) -/

/-- TIME_START (R47): DTIME reaches the start DTIME of core k, whose source is TIME. -/
def execTimeStart (k : Fin 64) (s : State) : Res :=
  if s.f F.CORE_CTL_START_SRC k = 2 then .next ((s.reach (s.startTime k)).startSource k) else .next s

/-- A program that START_SRC = TIME started runs after its start DTIME, in a later cycle (R48). -/
def State.lateStart (s : State) (k : Nat) : State :=
  if (s.core k).fromStart ∧ s.f F.CORE_CTL_START_SRC k = 2 ∧ s.past (s.startTime k) then s.flag F.CORE_STATUS_START_LATE k else s

/-- An admission request of core k is granted (R48, R49, R305). -/
def State.grant (s : State) (k : Nat) : State :=
  let c := s.taskCost (.core k)
  let t := ((s.weighRequest.admitCost c).withdraw k).setAdmit k 2 c
  if s.st k = 8 then
    ((((t.setF F.CORE_BUDGET_PHASE (s.core k).phase k).setGreg k (Fin.ofNat 32 (s.core k).gd) 0).setPc k (s.pc k + 1)).setSt k 5)
  else (t.lateStart k).setSt k 5

/-- ADMISSION_GRANT (R48): the Governor finds headroom for core k in ADMIT_WAIT. -/
def execAdmissionGrant (k : Fin 64) (s : State) : Res :=
  if s.st k = 4 ∧ s.grantable k then .next (s.grant k) else .next s

/-- One millisecond in DTIME units, n of them, rounded up. -/
def millis (n : Nat) : Nat := (n * second + 999) / 1000

/-- Whether the admission wait of core k can time out: STD with a limit (R48, R49). -/
def State.mayTimeOut (s : State) (k : Nat) : Bool := s.f F.CORE_BUDGET_CLASS k == 1 && s.on F.CORE_BUDGET_ADMIT_TMO k

/-- The DTIME at which it does. -/
def State.admitLimit (s : State) (k : Nat) : Nat := (s.core k).since + millis (s.f F.CORE_BUDGET_ADMIT_TMO k)

/-- ADMISSION_TIMEOUT (R48): ADMIT_TMO passes in ADMIT_WAIT. -/
def execAdmissionTimeout (k : Fin 64) (s : State) : Res :=
  if s.st k = 4 ∧ s.mayTimeOut k then
    let t := ((s.reach (s.admitLimit k)).withdraw k).setF F.CORE_BUDGET_ADMIT 4 k
    .next ((t.flag F.CORE_STATUS_ADMIT_REFUSED k).setSt k (if (s.core k).fromStart then 3 else 2))
  else .next s

/-- BUDGET_GRANT (R49): the phase core k waits for in BWAIT is granted. -/
def execBudgetGrant (k : Fin 64) (s : State) : Res :=
  if s.st k = 8 ∧ s.grantable k then .next (s.grant k) else .next s

/-- BUDGET_TIMEOUT (R49): ADMIT_TMO passes in BWAIT; the phase stays and gd receives 1. ADMIT reads again that the program is admitted, and
ADMIT_REFUSED is not set (DESIGN CHOICE, log entry 72: R49 names neither). -/
def execBudgetTimeout (k : Fin 64) (s : State) : Res :=
  if s.st k = 8 ∧ s.mayTimeOut k then
    let t := ((s.reach (s.admitLimit k)).withdraw k).setF F.CORE_BUDGET_ADMIT 2 k
    .next (((t.setGreg k (Fin.ofNat 32 (s.core k).gd) 1).setPc k (s.pc k + 1)).setSt k 5)
  else .next s

/-! ### Waits that end (R36, R72, R76) -/

/-- QSTALL_RESUME (R36): an entry has freed, and core k completes its emission. -/
def execQstallResume (k : Fin 64) (s : State) : Res :=
  match (s.core k).stalled with
  | some q =>
    if s.st k = 7 ∧ s.qfill k < 32 then
      .next ((((s.emitNow k { q with written := s.now }).modCore k fun c => { c with stalled := none }).setPc k (s.pc k + 1)).setSt k 5)
    else .next s
  | none => .next s

/-- EVT_WAIT_TIMEOUT (R76): TMO × 64 cycles have passed in EVWAIT. With a latch set, the event wins. -/
def execEvtWaitTimeout (k : Fin 64) (s : State) : Res :=
  match (s.core k).deadline with
  | some t =>
    if s.st k ≠ 6 then .next s
    else if (s.core k).latched ≠ 0 then .next (s.wakeEvt k)
    else
      let u := (s.reach t).setGreg k (Fin.ofNat 32 (s.core k).gd) 0
      .next (((u.setPc k (s.pc k + 1)).modCore k fun c => { c with deadline := none }).setSt k 5)
  | none => .next s

/-- BUF_OP_COMPLETE (R72): the buffer instruction that blocks core k completes; a STOP written meanwhile takes effect now. -/
def execBufOpComplete (k : Fin 64) (s : State) : Res :=
  if (s.core k).blocked then
    let t := (s.setPc k (s.pc k + 1)).modCore k fun c => { c with blocked := false, stopLater := false }
    .next (if (s.core k).stopLater then t.stop k else t)
  else .next s

end Sys2Proof.Machine
end

