-- ==== Sys2Proof/Machine/CoreRows.lean ====
section
/-! DEFINITION. The instructions of a Sequencer Core as commands: core k issues the instruction at PC. e is what the fetch
meets; ecc, where there is one, is what a data-memory or buffer word meets. -/

namespace Sys2Proof.Machine

/-- ADD: gd = ga + gb (R59). -/
def execAdd (k : Fin 64) (e : Ecc) (d a b : Fin 32) (s : State) : Res :=
  s.issue k e (.rr .add d a b) .clean

/-- SUB: gd = ga − gb (R59). -/
def execSub (k : Fin 64) (e : Ecc) (d a b : Fin 32) (s : State) : Res :=
  s.issue k e (.rr .sub d a b) .clean

/-- AND (R59). -/
def execAnd (k : Fin 64) (e : Ecc) (d a b : Fin 32) (s : State) : Res :=
  s.issue k e (.rr .and d a b) .clean

/-- OR (R59). -/
def execOr (k : Fin 64) (e : Ecc) (d a b : Fin 32) (s : State) : Res :=
  s.issue k e (.rr .or d a b) .clean

/-- XOR (R59). -/
def execXor (k : Fin 64) (e : Ecc) (d a b : Fin 32) (s : State) : Res :=
  s.issue k e (.rr .xor d a b) .clean

/-- SHL by gb[5:0] (R59). -/
def execShl (k : Fin 64) (e : Ecc) (d a b : Fin 32) (s : State) : Res :=
  s.issue k e (.rr .shl d a b) .clean

/-- SHR by gb[5:0], logical (R59). -/
def execShr (k : Fin 64) (e : Ecc) (d a b : Fin 32) (s : State) : Res :=
  s.issue k e (.rr .shr d a b) .clean

/-- SRA by gb[5:0], arithmetic (R59). -/
def execSra (k : Fin 64) (e : Ecc) (d a b : Fin 32) (s : State) : Res :=
  s.issue k e (.rr .sra d a b) .clean

/-- MUL: the low 64 bits (R59). -/
def execMul (k : Fin 64) (e : Ecc) (d a b : Fin 32) (s : State) : Res :=
  s.issue k e (.rr .mul d a b) .clean

/-- ADDI: IMM32 sign-extended (R59). -/
def execAddi (k : Fin 64) (e : Ecc) (d a : Fin 32) (imm : BitVec 32) (s : State) : Res :=
  s.issue k e (.ri .addi d a imm) .clean

/-- ANDI: IMM32 zero-extended (R59). -/
def execAndi (k : Fin 64) (e : Ecc) (d a : Fin 32) (imm : BitVec 32) (s : State) : Res :=
  s.issue k e (.ri .andi d a imm) .clean

/-- ORI: IMM32 zero-extended (R59). -/
def execOri (k : Fin 64) (e : Ecc) (d a : Fin 32) (imm : BitVec 32) (s : State) : Res :=
  s.issue k e (.ri .ori d a imm) .clean

/-- XORI: IMM32 zero-extended (R59). -/
def execXori (k : Fin 64) (e : Ecc) (d a : Fin 32) (imm : BitVec 32) (s : State) : Res :=
  s.issue k e (.ri .xori d a imm) .clean

/-- SHLI by IMM32[5:0] (R59). -/
def execShli (k : Fin 64) (e : Ecc) (d a : Fin 32) (imm : BitVec 32) (s : State) : Res :=
  s.issue k e (.ri .shli d a imm) .clean

/-- SHRI by IMM32[5:0] (R59). -/
def execShri (k : Fin 64) (e : Ecc) (d a : Fin 32) (imm : BitVec 32) (s : State) : Res :=
  s.issue k e (.ri .shri d a imm) .clean

/-- SRAI by IMM32[5:0] (R59). -/
def execSrai (k : Fin 64) (e : Ecc) (d a : Fin 32) (imm : BitVec 32) (s : State) : Res :=
  s.issue k e (.ri .srai d a imm) .clean

/-- LDI: IMM48 sign-extended (R59). -/
def execLdi (k : Fin 64) (e : Ecc) (d : Fin 32) (imm : BitVec 48) (s : State) : Res :=
  s.issue k e (.ldi d imm) .clean

/-- LDIH: gd[63:48] = IMM16 (R59). -/
def execLdih (k : Fin 64) (e : Ecc) (d : Fin 32) (imm : BitVec 16) (s : State) : Res :=
  s.issue k e (.ldih d imm) .clean

/-- LD: gd = the data word at ga + OFF16 (R59). -/
def execLd (k : Fin 64) (e : Ecc) (ecc : Ecc) (d a : Fin 32) (off : BitVec 16) (s : State) : Res :=
  s.issue k e (.ld d a off) ecc

/-- ST: the data word at ga + OFF16 = gb (R59). -/
def execSt (k : Fin 64) (e : Ecc) (a b : Fin 32) (off : BitVec 16) (s : State) : Res :=
  s.issue k e (.st a b off) .clean

/-- DTRD SEC: samples DTIME (R60). -/
def execDtrdSec (k : Fin 64) (e : Ecc) (d : Fin 32) (s : State) : Res :=
  s.issue k e (.dtrdSec d) .clean

/-- DTRD FRAC: the latched fraction (R60). -/
def execDtrdFrac (k : Fin 64) (e : Ecc) (d : Fin 32) (s : State) : Res :=
  s.issue k e (.dtrdFrac d) .clean

/-- BEQ (R61). -/
def execBeq (k : Fin 64) (e : Ecc) (a b : Fin 32) (tgt : Fin 8192) (s : State) : Res :=
  s.issue k e (.br .eq a b tgt) .clean

/-- BNE (R61). -/
def execBne (k : Fin 64) (e : Ecc) (a b : Fin 32) (tgt : Fin 8192) (s : State) : Res :=
  s.issue k e (.br .ne a b tgt) .clean

/-- BLT (R61). -/
def execBlt (k : Fin 64) (e : Ecc) (a b : Fin 32) (tgt : Fin 8192) (s : State) : Res :=
  s.issue k e (.br .lt a b tgt) .clean

/-- BGE (R61). -/
def execBge (k : Fin 64) (e : Ecc) (a b : Fin 32) (tgt : Fin 8192) (s : State) : Res :=
  s.issue k e (.br .ge a b tgt) .clean

/-- BLTU (R61). -/
def execBltu (k : Fin 64) (e : Ecc) (a b : Fin 32) (tgt : Fin 8192) (s : State) : Res :=
  s.issue k e (.br .ltu a b tgt) .clean

/-- BGEU (R61). -/
def execBgeu (k : Fin 64) (e : Ecc) (a b : Fin 32) (tgt : Fin 8192) (s : State) : Res :=
  s.issue k e (.br .geu a b tgt) .clean

/-- BBS (R61). -/
def execBbs (k : Fin 64) (e : Ecc) (a b : Fin 32) (tgt : Fin 8192) (s : State) : Res :=
  s.issue k e (.br .bs a b tgt) .clean

/-- BBC (R61). -/
def execBbc (k : Fin 64) (e : Ecc) (a b : Fin 32) (tgt : Fin 8192) (s : State) : Res :=
  s.issue k e (.br .bc a b tgt) .clean

/-- BEQI (R61). -/
def execBeqi (k : Fin 64) (e : Ecc) (a : Fin 32) (imm : BitVec 30) (tgt : Fin 8192) (s : State) : Res :=
  s.issue k e (.bi .eq a imm tgt) .clean

/-- BNEI (R61). -/
def execBnei (k : Fin 64) (e : Ecc) (a : Fin 32) (imm : BitVec 30) (tgt : Fin 8192) (s : State) : Res :=
  s.issue k e (.bi .ne a imm tgt) .clean

/-- BLTI (R61). -/
def execBlti (k : Fin 64) (e : Ecc) (a : Fin 32) (imm : BitVec 30) (tgt : Fin 8192) (s : State) : Res :=
  s.issue k e (.bi .lt a imm tgt) .clean

/-- BGEI (R61). -/
def execBgei (k : Fin 64) (e : Ecc) (a : Fin 32) (imm : BitVec 30) (tgt : Fin 8192) (s : State) : Res :=
  s.issue k e (.bi .ge a imm tgt) .clean

/-- BLTUI (R61). -/
def execBltui (k : Fin 64) (e : Ecc) (a : Fin 32) (imm : BitVec 30) (tgt : Fin 8192) (s : State) : Res :=
  s.issue k e (.bi .ltu a imm tgt) .clean

/-- BGEUI (R61). -/
def execBgeui (k : Fin 64) (e : Ecc) (a : Fin 32) (imm : BitVec 30) (tgt : Fin 8192) (s : State) : Res :=
  s.issue k e (.bi .geu a imm tgt) .clean

/-- BBSI (R61). -/
def execBbsi (k : Fin 64) (e : Ecc) (a : Fin 32) (imm : BitVec 30) (tgt : Fin 8192) (s : State) : Res :=
  s.issue k e (.bi .bs a imm tgt) .clean

/-- BBCI (R61). -/
def execBbci (k : Fin 64) (e : Ecc) (a : Fin 32) (imm : BitVec 30) (tgt : Fin 8192) (s : State) : Res :=
  s.issue k e (.bi .bc a imm tgt) .clean

/-- GOTO (R62). -/
def execGoto (k : Fin 64) (e : Ecc) (tgt : Fin 8192) (s : State) : Res :=
  s.issue k e (.goto_ tgt) .clean

/-- CALL (R62). -/
def execCall (k : Fin 64) (e : Ecc) (tgt : Fin 8192) (s : State) : Res :=
  s.issue k e (.call tgt) .clean

/-- RET (R62). -/
def execRet (k : Fin 64) (e : Ecc) (s : State) : Res :=
  s.issue k e (.ret) .clean

/-- END (R62). -/
def execEnd (k : Fin 64) (e : Ecc) (s : State) : Res :=
  s.issue k e (.end_) .clean

/-- NOP (R62). -/
def execNop (k : Fin 64) (e : Ecc) (s : State) : Res :=
  s.issue k e (.nop) .clean

/-- PLAY (R65). -/
def execPlay (k : Fin 64) (e : PlayRead) (seg kerf : Operand 16) (s : State) : Res :=
  s.issue k e.fetch (.play kerf seg) e.entry

/-- LOOP (R66). -/
def execLoop (k : Fin 64) (e : Ecc) (count : Operand 24) (len : BitVec 5) (s : State) : Res :=
  s.issue k e (.loop count len) .clean

/-- JUMP (R67). -/
def execJump (k : Fin 64) (e : Ecc) (mode : Fin 3) (discard : Bool) (ec : BitVec 8) (entry : Fin 16) (s : State) : Res :=
  s.issue k e (.jump mode discard ec entry) .clean

/-- JUMP with MODE = DISARM, EC holding NONE or 0 (R67). -/
def execJumpDisarm (k : Fin 64) (e : Ecc) (none_ : Bool) (s : State) : Res :=
  s.issue k e (.jumpDisarm none_) .clean

/-- WAIT TRIG (R68). -/
def execWaitTrig (k : Fin 64) (e : Ecc) (arg : BitVec 16) (s : State) : Res :=
  s.issue k e (.waitTrig arg) .clean

/-- WAIT EVENT (R68). -/
def execWaitEvent (k : Fin 64) (e : Ecc) (arg : BitVec 16) (s : State) : Res :=
  s.issue k e (.waitEvent arg) .clean

/-- WAIT TIME (R68). -/
def execWaitTime (k : Fin 64) (e : Ecc) (a b : Fin 32) (s : State) : Res :=
  s.issue k e (.waitTime a b) .clean

/-- WAIT KERF (R68). -/
def execWaitKerf (k : Fin 64) (e : Ecc) (arg : BitVec 16) (s : State) : Res :=
  s.issue k e (.waitKerf arg) .clean

/-- SETF (R69). -/
def execSetf (k : Fin 64) (e : Ecc) (a : Fin 32) (s : State) : Res :=
  s.issue k e (.setf a) .clean

/-- SETP (R69). -/
def execSetp (k : Fin 64) (e : Ecc) (add : Bool) (phase : Operand 32) (s : State) : Res :=
  s.issue k e (.setp add phase) .clean

/-- RAMPF (R69). -/
def execRampf (k : Fin 64) (e : Ecc) (a b : Fin 32) (s : State) : Res :=
  s.issue k e (.rampf a b) .clean

/-- MARK (R70). -/
def execMark (k : Fin 64) (e : Ecc) (lane mode : Fin 4) (offset : BitVec 28) (width : BitVec 16) (s : State) : Res :=
  s.issue k e (.mark lane mode offset width) .clean

/-- TRIGO (R71). -/
def execTrigo (k : Fin 64) (e : Ecc) (line : Fin 16) (s : State) : Res :=
  s.issue k e (.trigo line) .clean

/-- BUF.ALLOC in MODE 0 to 2 (R72). -/
def execBufAlloc (k : Fin 64) (e : Ecc) (d a : Fin 32) (region : Fin 3) (s : State) : Res :=
  s.issue k e (.bufAlloc d a region) .clean

/-- BUF.ALLOC in ATTACH mode (R72). -/
def execBufAttach (k : Fin 64) (e : Ecc) (d a : Fin 32) (s : State) : Res :=
  s.issue k e (.bufAttach d a) .clean

/-- BUF.FREE (R72, R125). -/
def execBufFree (k : Fin 64) (e : Ecc) (a : Fin 32) (s : State) : Res :=
  s.issue k e (.bufFree a) .clean

/-- BUF.FENCE (R72). -/
def execBufFence (k : Fin 64) (e : Ecc) (a : Fin 32) (s : State) : Res :=
  s.issue k e (.bufFence a) .clean

/-- BUF.GET (R72, R73). -/
def execBufGet (k : Fin 64) (e : Ecc) (ecc : Ecc) (d a b : Fin 32) (daddr : BitVec 12) (nw : BitVec 8) (s : State) : Res :=
  s.issue k e (.bufGet d a b daddr nw) ecc

/-- BUF.PUT (R72, R73). -/
def execBufPut (k : Fin 64) (e : Ecc) (ecc : Ecc) (d a b : Fin 32) (daddr : BitVec 12) (nw : BitVec 8) (s : State) : Res :=
  s.issue k e (.bufPut d a b daddr nw) ecc

/-- EVT.FIRE (R74). -/
def execEvtFire (k : Fin 64) (e : Ecc) (ec : Operand 7) (s : State) : Res :=
  s.issue k e (.evtFire ec) .clean

/-- EVT.WAIT with ARM = 1 (R76). -/
def execEvtWaitArm (k : Fin 64) (e : Ecc) (d : Fin 32) (eca ecb : BitVec 8) (s : State) : Res :=
  s.issue k e (.evtWaitArm d eca ecb) .clean

/-- EVT.WAIT with ARM = 0 (R76). A core already in EVWAIT, with a latch set, completes the wait. -/
def execEvtWait (k : Fin 64) (e : Ecc) (d : Fin 32) (eca ecb : BitVec 8) (tmo : BitVec 24) (s : State) : Res :=
  if s.st k = 6 then .next (s.wakeEvt k) else s.issue k e (.evtWait d eca ecb tmo) .clean

/-- BUDGET (R49). -/
def execBudget (k : Fin 64) (e : Ecc) (d : Fin 32) (cls : Fin 4) (phase : Fin 16) (s : State) : Res :=
  s.issue k e (.budget d cls phase) .clean

end Sys2Proof.Machine
end

