-- ==== Sys2Proof/Machine/Power.lean ====
section
/-! DEFINITION. Power states (chapter 14) and the start of the Service Cores' loader: domains, the entry handshake, REST and DOZE, wakes,
supplies, and brown-out. -/

namespace Sys2Proof.Machine

def State.modPower (s : State) (g : PowerSt → PowerSt) : State := { s with power := g s.power }

/-- Put n bytes of v in the boot mailbox, from SRAM byte off on (R356): partial writes of the words they lie in (R251). The log names the
link as the requester (DESIGN CHOICE, log entry 73). -/
def State.setMail (s : State) (off n v : Nat) : State :=
  let at_ := off % 8
  forN ((at_ + n + 7) / 8) (fun i t =>
    t.writeMasked false (off / 8 * 8 + 8 * i) (BitVec.ofNat 8 ((2 ^ n - 1) * 2 ^ at_ / 2 ^ (8 * i)))
      (BitVec.ofNat 64 (v % 2 ^ (8 * n) * 2 ^ (8 * at_) / 2 ^ (64 * i))) .clean 5) s

/-- A field of the boot mailbox. -/
def State.mail (s : State) (off n : Nat) : Nat := s.readLE false off n

/-! ### Domains (R286, R288) -/

/-- Voice v loses what the channel datapath domain holds of it; its queue lies with its core, and its NCO with the cluster (R69). -/
def State.loseVoice (s : State) (v : Nat) : State :=
  let t := s.abandon v
  let x := t.voice v
  let refs := x.taken.flatMap (·.refs) ++ x.jt.flatMap fun (p : Nat × JtSt) => p.2.refs
  (t.dropRefs (some v) refs).modVoice v fun y =>
    { queue := y.queue.map fun q => { q with committed := false, inplay := false, loopbody := false }
      fw := y.fw
      acc := y.acc
      phases := y.phases
      ramping := y.ramping
      rampStep := y.rampStep
      rampLeft := y.rampLeft }

/-- The domain of a channel datapath holds nothing any more: its block's registers, and the voices of its slices. -/
def State.loseChannel (s : State) (n : Nat) : State :=
  let t := forN 4 (fun i u => u.loseVoice (4 * n + i)) s
  let t := (t.wipe (0x100000 + n * 0x10000) (0x110000 + n * 0x10000)).modChan n fun c => { bias := c.bias, biasFrom := c.biasFrom }
  forN 64 (fun v u => match (u.voice v).join with
    | some (m, _) => if m = n then u.modVoice v fun x => { x with join := none } else u
    | none => u) t

/-- Registers of port p (1–4) that its domain holds; the sequence words stay with the Service Cores' state. -/
def portReg (p off : Nat) : Bool :=
  (decide (0x70000 + p * 0x40 ≤ off ∧ off < 0x70040 + p * 0x40) && off % 0x40 != 8) ||
    decide (0x71FC0 + p * 0x40 ≤ off ∧ off < 0x72000 + p * 0x40)

/-- Registers of PORT1 to PORT4. -/
def ethPortReg (off : Nat) : Bool := portReg 1 off || portReg 2 off || portReg 3 off || portReg 4 off

/-- The domain of port p (1–4) holds nothing any more; the session is the Service Cores'. -/
def State.losePort (s : State) (p : Nat) : State :=
  let sess := s.session p
  let t := ({ s with regs := s.regs.filter fun r => !portReg p r.1 } : State).setF F.PRT_BIND_SESSION sess (p - 1)
  t.modPort p fun x => { opened := x.opened, mask := x.mask, notes := x.notes, waiting := x.waiting, sent := x.sent }

/-- Domain d is switched off: what it holds is lost. The contents of a DRAM channel without refresh are undefined (R263, R360). -/
def State.domainOff (s : State) (d : Nat) : State :=
  let t :=
    if d < 16 then s.clusterOff d
    else if d < 32 then s.loseChannel (d - 16)
    else if d < 48 then ((s.loseBanks (d - 32)).modChan (d - 32) fun c => { c with bias := false }).retrimNow (d - 32)
    else if d < 56 then s.zeroBanks fun b => b / 6 == d - 48
    else if d < 60 then
      let c := d - 56
      let n := s.mem.losses + 1
      let t := (s.setDdr c 0).clr F.DDR_STAT_TRAINED c
      { t with dram := t.dram.filter (fun p => dramChannel p.1 != c)
               mem := { t.mem with losses := n, gens := sput (fun _ => 0) t.mem.gens c n, filled := t.mem.filled.erase c } }
    else if d < 64 then s.spindleOff (d - 60)
    else if 65 ≤ d ∧ d ≤ 68 then s.losePort (d - 64)
    else if d = 70 ∨ d = 71 then (s.setAuxState (d - 70) 0).auxRampStop (d - 70)
    else s
  (t.setDom d false).calRequests

/-- Domain d is switched on, and its own start-up begins (R288). A PLL acquires with the staged word. -/
def State.domainOn (s : State) (d : Nat) : State :=
  let s := s.setDom d true
  if d < 16 then s.clusterOn d
  else if d < 32 then (s.showLat (d - 16)).retrim (d - 16)
  else if d < 48 then (s.loadBanks (d - 32)).modChan (d - 32) fun c => { c with bias := false, biasFrom := s.now }
  else if d < 56 then s.startFill ((List.range 6).map (6 * (d - 48) + ·))
  else if d < 60 then s.setDdr (d - 56) (if s.on F.MEM_CFG_POP then 1 else 0)
  else if d < 64 then s.spindleOn (d - 60)
  else if d = 70 ∨ d = 71 then s.auxStart (d - 70)
  else s

/-! ### The entry handshake (R291 to R294) -/

/-- The order in which domains are asked (R291). -/
def askOrder : List Nat :=
  let r := fun (a n : Nat) => (List.range n).map (a + ·)
  r 32 16 ++ r 16 16 ++ r 0 16 ++ r 70 2 ++ r 65 4 ++ r 56 4 ++ [69] ++ r 60 4 ++ r 48 8 ++ [64]

/-- Whether DOZE puts domain d at RETAIN or OFF (R289); REST does so with every domain. -/
def dozeAffects (d : Nat) : Bool :=
  decide (d < 60) || decide (65 ≤ d ∧ d ≤ 69)

/-- The domains a request affects: on, and put at RETAIN or OFF. -/
def State.affected (s : State) (target : Nat) : List Nat :=
  askOrder.filter fun d => s.dom d && (target == 3 || dozeAffects d)

/-- Whether a buffer of SRAM is LIVE or RETIRING while bank group g has an unretained bank; a buffer of any size lies in all 48 banks
(R245). -/
def State.liveUnkept (s : State) (g : Nat) : Bool :=
  (s.buffers.any fun p => p.2.life != .free && !p.2.dram) && anyN 6 fun i => !bit (s.f F.REST_BANKS_BANKS) (6 * g + i)

/-- REASON of a REFUSE of domain d for a target, or 0 (R292). -/
def State.refuses (s : State) (target d : Nat) : Nat :=
  if d < 16 then (if anyN 4 fun i => decide (3 ≤ s.st (4 * d + i)) && decide (s.st (4 * d + i) ≤ 8) then 2 else 0)
  else if d < 48 then (if s.on F.CH_CTL_EN (d % 16) then 1 else 0)
  else if d < 56 then (if target == 3 && !s.on F.PWR_REQ_DISCARD && s.liveUnkept (d - 48) then 3 else 0)
  else if d < 60 then (if s.on F.DRAM_BACKED_VOICES then 4 else 0)
  else if d < 64 then (if anyN 4 fun i => s.on F.CH_CTL_EN (4 * (d - 60) + i) then 1 else 0)
  else if d = 64 then (if target == 3 && (s.on F.P0_QCFG_CMD_EN || s.on F.P0_QCFG_RSP_EN) then 9 else 0)
  else if d < 69 then
    (if s.on F.PTP_CFG_EN ∧ s.on F.PTP_PORT_EN (d - 65) then 5
     else if (s.cable (d - 65)).repeating then 6
     else if anyN 64 fun b => s.on F.STM_CFG_EN b && s.f F.STM_CFG_SRC b == d - 63 then 7 else 0)
  else if d = 69 then 0
  else if anyN 8 fun j => s.on F.CO_CFG_EN j && s.f F.CO_CFG_SRC j == d - 70 then 8 else 0

/-- Whether domain d answers DELAY. No access to SRAM and no write of a response entry lasts beyond its command in this model. -/
def State.delays (s : State) (d : Nat) : Bool :=
  if 56 ≤ d ∧ d < 60 then s.on F.MEM_TRAIN_STAT_RUNNING || s.on F.MEM_STATUS_FREQ_BUSY
  else if 65 ≤ d ∧ d < 69 then (s.port (d - 64)).exec.isSome
  else if d = 69 then anyN 5 fun p => (s.port p).exec.isSome
  else false

/-- What being asked does: a DAC analog domain cuts a calibration run short (R316). -/
def State.asked (s : State) (d : Nat) : State := if 32 ≤ d ∧ d < 48 then s.calCut (d - 32) 7 else s

/-- What ACK does beside stopping the clocks: a READY DRAM channel enters self-refresh. -/
def State.acked (s : State) (d : Nat) : State := if 56 ≤ d ∧ d < 60 ∧ s.ddr (d - 56) = 4 then s.setDdr (d - 56) 5 else s

/-- A stopped domain resumes from the state it held. -/
def State.resumed (s : State) (d : Nat) : State := if 56 ≤ d ∧ d < 60 ∧ s.ddr (d - 56) = 5 then s.setDdr (d - 56) 4 else s

/-- A request or a switch is over with a RESULT. Calibration asks again as its domains resume (R315). -/
def State.endRequest (s : State) (result : Nat) : State :=
  (((s.modPower fun x => { x with entry := none }).clr F.PWR_STATUS_IN_PROGRESS).setF F.PWR_STATUS_RESULT result).calRequests

/-- Every stopped domain resumes, the latest first. -/
def State.resumeAll (s : State) (l : List Nat) : State := l.foldl State.resumed s

/-- REFUSE of domain d (R293). -/
def State.refuse (s : State) (l : List Nat) (d reason delays : Nat) : State :=
  let t := ((s.resumeAll l).setF F.PWR_REFUSER_DOMAIN d).setF F.PWR_REFUSER_REASON reason
  ((t.setF F.PWR_REFUSER_DELAYS delays).endRequest 2).fireNow 628

/-! ### Rest memory and REST (R295, R296) -/

/-- Whether a register lies in the Rest domain and keeps its word in REST: the Power and Budget block, the event fabric with the consumer
selections, the global trouble counters (R202, R289), WONCE fields (R339), the uncertainty bound (R234), and what timestamps PPS_IN and
keeps DTIME there (R232, R234). -/
def restOwned (off : Nat) : Bool :=
  decide (0x10000 ≤ off ∧ off < 0x20000) || decide (0x40000 ≤ off ∧ off < 0x50000) ||
    match Reg.ofOffset off with
    | some (r, _, _) => [Reg.GLB_TRB, .GLB_ONCE, .CORE_START_EVT, .TO_CFG, .TM_UNC, .TM_PPS_CFG, .TM_PPS_SEC, .TM_PPS_FRAC, .TM_REST_CFG].contains r
    | none => false

/-- Whether a register is on the hardware save list (R295). -/
def onSaveList (off : Nat) : Bool :=
  let o := off % 0x10000
  match Reg.ofOffset off with
  | some (r, _, _) =>
    decide (0x20000 ≤ off ∧ off < 0x40000) || decide (0x60000 ≤ off ∧ off < 0x80000) ||
      (decide (0x100000 ≤ off ∧ off < 0x200000) && decide (o < 0x1100 ∨ (0x2000 ≤ o ∧ o < 0x2100)) && r != .CH_CTL) ||
      [Reg.VOICE_CTL, .VOICE_SEGTAB, .VOICE_LOCK, .GLB_PROT0, .GLB_PROTA, .GLB_PROT11, .GLB_LOCK].contains r
  | none => false

/-- The RW and RWL bits of a register. -/
def savedBits (off : Nat) : Nat := match Reg.ofOffset off with | some (r, _, _) => r.spec.rw ||| r.spec.rwl | none => 0

/-- The register word that a restore gives: saved in its RW and RWL bits, as it is in the others. -/
def restoredWord (off : Nat) (old w : Word) : Word :=
  let m := BitVec.ofNat 64 (savedBits off)
  (old &&& ~~~m) ||| (w &&& m)

/-- The save list as it stands. -/
def State.saveList (s : State) : State :=
  s.modPower fun x => { x with saved := some (s.regs.filter fun p => onSaveList p.1) }

/-- The registers of the save list that satisfy want take their saved fields; fields that are not saved stay as the domain came up or the
Service Cores' state left them. -/
def State.restoreRegs (s : State) (want : Nat → Bool) : State :=
  match s.power.saved with
  | some l => l.foldl (fun t p => if want p.1 && !restOwned p.1 then t.setWord p.1 (restoredWord p.1 (t.word p.1) p.2) else t) s
  | none => s

/-- Voices, lanes and trims follow restored channel registers. -/
def State.followRegs (s : State) : State :=
  let t := forN 64 (fun v u =>
    (u.setRw .VOICE_SEGTAB_ACT (u.rw .VOICE_SEGTAB v) v).modVoice v fun x =>
      if x.drives = none ∧ u.slotNaming v ≠ some (v / 4, v % 4) then { x with drives := some ((u.slotNaming v).map (·.1)) } else x) s
  forN 16 (fun n u => (u.showLat n).retrim n) t

/-- What lies outside the Rest domain is lost, but for the trained sets of a DRAM that VDDQ holds, and with sc for the Service Cores' state
(R295). -/
def State.loseRest (s : State) (sc : Bool) : State :=
  let s := forN 64 (fun b t => if t.on F.STM_CFG_EN b then t.disableStream b else t) s
  let s := forN 64 (fun k t => t.loseCore k) s
  let s := forN 64 (fun v t => t.loseVoice v) s
  let set := s.f F.TM_STATUS_SET
  let trained := (List.range 4).map fun c => s.f F.DDR_STAT_TRAINED c
  let freq := s.f F.MEM_STATUS_FREQ_ACT
  let held := s.power.lines.contains 3
  let session := (List.range 5).map s.session
  let jnl := s.f F.LNK_JNL_ESEQ
  let seqs := (List.range 5).map fun p => s.rw .PRT_SEQ p
  let t := { s with
    regs := s.regs.filter fun p => restOwned p.1
    chans := [], voices := [], cores := [], dmem := [], bindings := [], trigOuts := [], trigIns := [], cals := []
    mem := { losses := s.mem.losses, gens := s.mem.gens, filled := s.mem.filled, unreset := s.mem.unreset }
    ports := if sc then s.ports.map fun (p : Nat × PortSt) =>
        (p.1, { opened := p.2.opened, mask := p.2.mask, notes := p.2.notes, waiting := p.2.waiting }) else []
    link := if sc then { journal := s.link.journal, written := s.link.written, perstLow := s.link.perstLow }
      else { written := s.link.written, perstLow := s.link.perstLow }
    calStoreAgain := false
    bus := { once := s.bus.once }
    clock := { everLocked := s.clock.everLocked, refs := s.clock.refs.map fun (p : Nat × RefIn) => (p.1, { edges := p.2.edges }) }
    time := { s.time with
      latches := [], ppsWait := none, cables := [],
      ptp := if sc then { datasets := s.time.ptp.datasets } else {} }
    boot := { s.boot with running := false, loading := false } }
  let t := (t.setF F.TM_STATUS_SET set).setF F.MEM_STATUS_FREQ_ACT freq
  let t := if held then forN 4 (fun c u => u.setF F.DDR_STAT_TRAINED (trained.getD c 0) c) t else t
  if sc then
    let t := (t.setF F.LNK_JNL_ESEQ jnl).setF F.PRT_BIND0_SESSION (session.getD 0 0)
    let t := forN 4 (fun i u => u.setF F.PRT_BIND_SESSION (session.getD (i + 1) 0) i) t
    forN 5 (fun p u => u.setRw .PRT_SEQ (seqs.getD p 0#64) p) t
  else t

/-- The supplies in the order of R287, by PWR_EN line. -/
def supplyOrder : List Nat := [5, 4, 1, 0, 3, 2]

/-- The lines that stay on in REST (R287). -/
def State.restLines (s : State) : List Nat :=
  (if s.on F.MEM_CFG_POP then [3] else []) ++ (if s.on F.REST_BANKS_BANKS then [1] else [])

/-- Banks that REST does not retain. -/
def State.unkeptBanks (s : State) : List Nat := (List.range 48).filter fun b => !bit (s.f F.REST_BANKS_BANKS) b

/-- The device switches supplies off, all but those of a list, and their PG fall (DESIGN CHOICE, log entry 86: no row tells of it). Without
VDDQ no DRAM is held in self-refresh, and RESET_N is low when it comes back (R287, R369). -/
def State.keepLines (s : State) (l : List Nat) : State :=
  let t := s.modPower fun x => { x with lines := l, good := x.good.filter fun g => l.contains g || !x.lines.contains g }
  if l.contains 3 then t else t.loseDram.modMem fun m => { m with unreset := [], filled := [] }

/-- n cycles of the Rest clock in DTIME units. -/
def restCycles (n : Nat) : Nat := n * 2 ^ 33

/-- The device is in REST (R296). save: the entry writes Rest memory; a thermal trip does not (R360). -/
def State.enterRest (s : State) (save : Bool) : State :=
  let s := s.foldUnc.dropRelays
  let refA := s.refEn 0 && (s.refIn 0).edges
  let freqA := s.f F.REF_FREQ_FREQ 0
  let s := if s.on F.TM_REST_CFG_REFA_CORR ∧ refA ∧ freqA ≠ 0 then
      s.setUnc (min uncUnknown (s.f F.TM_UNC_DTIME_UNC + (2 ^ 57 + freqA - 1) / freqA)) else s
  let s := if save then
      let t := if s.on F.REST_CFG_SAVE then s.saveList else s
      let t := if t.on F.CAL_STORE_BUSY then t.writeStore else t
      let t := if t.calStoreAgain ∨ t.storeNeeded then t.writeStore else t
      t.modPower fun x => { x with saves := x.saves + 1 }
    else s
  let lines := s.restLines
  let t := (s.keepLines lines).loseRest save
  let t := t.zeroBanks t.unkeptBanks.contains
  let t := ((t.clr F.PWR_DOM_STAT0_ON).clr F.PWR_DOM_STAT1_ON)
  let t := { t with time := { t.time with refA := refA, restRes := 0, restFreq := freqA } }
  let t := t.modPower fun x =>
    { x with stage := .rest, mine := [], osc := none, oscReady := false, kept := [], first := false,
             window := s.now + restCycles 3, since := s.now, gov := {}, woke := none }
  ((t.clr F.PWR_STATUS_HOST_TRIM).setF F.PWR_STATUS_STATE 3).endRequest 0

/-! ### DOZE -/

/-- The device is in DOZE: clusters and bank groups retain, PORT1 to PORT4, channels, converters, DRAM controllers and Service Cores are
OFF (R289). A FULL training run that waited for admission waits again. -/
def State.enterDoze (s : State) (l : List Nat) : State :=
  let t := l.foldl (fun u d =>
    if (16 ≤ d ∧ d < 48) ∨ (65 ≤ d ∧ d ≤ 68) then u.domainOff d
    else u.setDom d false) s.dropRelays
  let t := { t with boot := { t.boot with running := false, asleep := t.boot.running } }
  let t := match t.mem.run with | some r => (t.dropRun r).modMem fun m => { m with waits := r :: m.waits } | none => t
  let t := t.modPower fun x =>
    { x with kept := l.filter (fun d => decide (d < 16) || decide (48 ≤ d ∧ d < 60)), saves := x.saves + 1,
             gov := { x.gov with std := [], bg := [], tasks := [] } }
  (((t.clr F.PWR_STATUS_HOST_TRIM).clr F.PWR_STATUS_GOV_TRIM).setF F.PWR_STATUS_STATE 2).endRequest 0

/-! ### The handshake runs -/

/-- Every affected domain has answered ACK. -/
def State.entered (s : State) (h : Handshake) : State :=
  if h.target = 2 then s.enterDoze h.stopped
  else if h.target = 3 then s.enterRest true
  else s.endRequest (if h.refused then 2 else 0)

/-- Ask the domains of a handshake in turn, until one delays or refuses or none is left (R291 to R293). For PWR_DOM_ON each domain
answers for itself: it is switched off on ACK, and a REFUSE sets its bit again (R288). -/
def State.askOn (s : State) (h : Handshake) : List Nat → State
  | [] => s.entered h
  | d :: ds =>
    let s := s.asked d
    let why := s.refuses h.target d
    let reason := if why ≠ 0 then why else if s.delays d ∧ h.delays = 4 then 10 else 0
    if reason ≠ 0 then
      (if h.target = 4 then
        let t := (s.setDomAsked d true).refuse [] d reason h.delays
        if ds = [] then t
        else
          let h := { h with left := ds, delays := 0, refused := true }
          ((t.flag F.PWR_STATUS_IN_PROGRESS).modPower fun x => { x with entry := some h }).askOn h ds
       else s.refuse h.stopped d reason h.delays)
    else if s.delays d then
      s.modPower fun x => { x with entry := some { h with left := d :: ds, delays := h.delays + 1 }, since := s.now }
    else if h.target = 4 then (s.domainOff d).askOn { h with left := ds, delays := 0 } ds
    else
      let h := { h with left := ds, stopped := d :: h.stopped, delays := 0 }
      let t := (s.acked d).modPower fun x => { x with entry := some h }
      (if 32 ≤ d ∧ d < 48 then t.calRequests else t).askOn h ds

/-- A request begins. -/
def State.beginEntry (s : State) (target : Nat) (l : List Nat) : State :=
  let h : Handshake := { target := target, left := l }
  ((s.flag F.PWR_STATUS_IN_PROGRESS).modPower fun x => { x with entry := some h, woke := none }).askOn h l

/-- HANDSHAKE_RETRY (R292): 1 ms after a DELAY the controller asks the domain again. -/
def execHandshakeRetry (s : State) : Res :=
  match s.power.entry with
  | some h => .next ((s.reach (s.power.since + millis 1)).askOn h h.left)
  | none => .next s

/-! ### Wake (R297 to R299) -/

/-- The edge of the Rest clock that samples a wake source at DTIME t, by number. Edges are taken to fall at whole cycles of DTIME
(DESIGN CHOICE, log entry 86). -/
def wakeEdge (t : Nat) : Nat := (t + (2 ^ 33 - 1)) / 2 ^ 33

/-- SRC and the time of a wake source are recorded (R298). -/
def State.putWake (s : State) (src t : Nat) : State :=
  (s.setF F.PWR_WAKE_REC_SRC src).putTime F.PWR_WAKE_SEC_SEC F.PWR_WAKE_FRAC_FRAC t

/-- The wake logic records a source and its time, sampled at an edge (R298). -/
def State.recordWake (s : State) (src t edge : Nat) : State :=
  ((s.putWake src t).tick F.PWR_WAKE_REC_WAKES).modPower fun x => { x with woke := some edge }

/-- The fast oscillator starts. -/
def State.startOsc (s : State) : State := s.modPower fun x => { x with osc := some s.now, oscReady := false }

/-- Supplies are switched on from the n-th of the order on, one at a time, n counted as 6 less the argument (R287). One whose PG is already
high is accepted at once (R364). -/
def State.switchOn (s : State) : Nat → State
  | 0 => s.modPower fun x => { x with stage := if x.oscReady then .domains else .oscillator }
  | k + 1 =>
    let line := supplyOrder.getD (5 - k) 0
    if s.power.lines.contains line then s.switchOn k
    else
      let t := s.modPower fun x => { x with stage := .supplies (5 - k), lines := line :: x.lines, mine := line :: x.mine, since := s.now }
      if t.power.good.contains line then (if line = 0 then t.startOsc else t).switchOn k else t

/-- Supplies are switched on from the n-th of the order on. -/
def State.nextSupply (s : State) (n : Nat) : State := s.switchOn (6 - n)

/-- An attempt to bring the device up begins: with the supplies that are off, or with the oscillator. -/
def State.attempt (s : State) : State :=
  let core := s.power.lines.contains 0
  let t := (s.modPower fun x => { x with mine := [], osc := none, oscReady := false }).nextSupply 0
  if core then t.startOsc else t

/-- An attempt fails (R299); what: the line, or 0x10 for the oscillator. -/
def State.failAttempt (s : State) (what : Nat) : State :=
  let s := s.keepLines (s.power.lines.filter fun l => !s.power.mine.contains l)
  ((s.trouble .wakeFail).setF F.PWR_FAULT_WHAT what).modPower fun x =>
    { x with stage := .retry, mine := [], osc := none, oscReady := false, fails := x.fails + 1, since := s.now }

/-- A wake source fires (R294, R296 to R298): source code src, with the reference time of an edge, or the DTIME of the edge that sampled
a level source. fresh: a level source has been inactive at or since the final failure of an earlier wake (R299). Of sources that one edge
samples, the lowest code stays in the record (R297); a level source that is active in the entry window is sampled at its end (R296). -/
def State.wakeBy (s : State) (src t : Nat) (fresh : Bool) : State :=
  let level := src == 1 || src == 10 || src == 11
  let edge := wakeEdge (if level then max t s.power.window else t)
  if s.power.woke = some edge then (if src < s.f F.PWR_WAKE_REC_SRC then s.putWake src t else s)
  else match s.power.entry with
  | some h => if h.target = 2 ∨ h.target = 3 then ((s.resumeAll h.stopped).endRequest 3).recordWake src t edge else s
  | none =>
    if s.dozing ∧ s.power.stage = .up then
      (((s.recordWake src t edge).flag F.PWR_STATUS_IN_PROGRESS)).modPower fun x => { x with stage := .domains }
    else if s.power.stage = .rest then
      if (!level && decide (t < s.power.window)) || (level && !fresh && s.on F.PWR_FAULT_WAKE) ||
          (s.power.tripped && decide (t < s.power.since + second)) then s
      else
        let t := max t s.power.window
        ((((s.recordWake src t edge).flag F.PWR_STATUS_IN_PROGRESS).modPower fun x => { x with fails := 0 })).attempt
    else s

/-- WAKE (R297, R298): wake source src of Table: Wake sources fires at DTIME t. WAKE_N falls then, which is an event in every state (R191). -/
def execWake (src : Fin 12) (t : Nat) (fresh : Bool) (s : State) : Res :=
  let s := if s.active then s else s.reach t
  let s := if src = 1 then s.fire 634 t else s
  let alarm := s.at F.PWR_ALARM_SEC_SEC F.PWR_ALARM_FRAC_FRAC
  if src = 0 ∨ ¬ bit (s.f F.PWR_WAKE_EN_EN) (src - 1) ∨ (src = 10 ∧ t < alarm) ∨ (src = 11 ∧ ¬ s.power.lowRest) then .next s
  else .next (s.wakeBy src t fresh)

/-- PG_GOOD (R287): the PG of a line rises, and the next supply is enabled when it was awaited. The fast oscillator starts after that of
VDD_CORE. -/
def execPgGood (line : Fin 6) (s : State) : Res :=
  let t := s.modPower fun x => { x with good := line.val :: x.good.erase line.val }
  match s.power.stage with
  | .supplies n =>
    if supplyOrder.getD n 6 = line then
      .next ((if line.val = 0 then t.startOsc else t).nextSupply (n + 1))
    else .next t
  | _ => .next t

/-- PG_TIMEOUT (R299): the PG awaited does not arrive within PG_TMO. -/
def execPgTimeout (s : State) : Res :=
  match s.power.stage with
  | .supplies n => .next ((s.reach (s.power.since + millis (s.f F.PWR_WAKE_CFG_PG_TMO))).failAttempt (supplyOrder.getD n 0))
  | _ => .next s

/-- OSC_READY (R298): the fast oscillator reports ready. -/
def execOscReady (s : State) : Res :=
  if s.power.osc.isSome ∧ ¬ s.power.oscReady then
    .next (s.modPower fun x => { x with oscReady := true, stage := if x.stage = .oscillator then .domains else x.stage })
  else .next s

/-- OSC_TIMEOUT (R299): the fast oscillator does not report ready within OSC_TMO × 100 µs. -/
def execOscTimeout (s : State) : Res :=
  match s.power.osc with
  | some t =>
    if s.power.oscReady then .next s
    else .next ((s.reach (t + (s.f F.PWR_WAKE_CFG_OSC_TMO * second + 9999) / 10000)).failAttempt 0x10)
  | none => .next s

/-- WAKE_RETRY (R299): 10 ms after a failed attempt the controller tries again, or stays in REST with PWR_FAULT.WAKE set. -/
def execWakeRetry (s : State) : Res :=
  if s.power.stage = .retry then
    let t := s.reach (s.power.since + millis 10)
    if t.power.fails ≤ t.f F.PWR_WAKE_CFG_WAKE_RETRY then .next t.attempt
    else .next (((t.flag F.PWR_FAULT_WAKE).clr F.PWR_STATUS_IN_PROGRESS).modPower fun x => { x with stage := .rest })
  else .next s

/-- A reset by VDD_CORE is taken back as far as it reached into the Rest domain (R364): its registers, and the WONCE fields. -/
def State.unreset (s : State) (regs : List (Nat × Word)) (once : Bool) : State :=
  let t := regs.foldl (fun u r => u.setWord r.1 r.2) { s with regs := s.regs.filter fun r => !restOwned r.1 }
  { t with bus := { t.bus with once := once }, power := { t.power with coreLow := false, under := none, first := false } }

/-- PG_LOSS (R364): the PG of a line that is on falls for over 10 µs: the outputs park, every supply goes off, and the retry sequence runs
as in a wake from REST. The loss of PG0 governs over a reset by VDD_CORE in the same 10 µs: the Rest domain's registers are as they were
before it. -/
def execPgLoss (line : Fin 6) (s : State) : Res :=
  if s.power.lines.contains line.val then
    let s := match s.power.under with
      | some (t, regs, once) => if line.val = 0 ∧ s.now ≤ t + second / 100000 then s.unreset regs once else s
      | none => s
    let t := (if s.resting then s else s.enterRest false).zeroBanks fun _ => true
    let t := (forN 4 (fun c u => u.clr F.DDR_STAT_TRAINED c) t).keepLines []
    .next ((t.setF F.PWR_FAULT_WHAT line).modPower fun x =>
      { x with stage := .retry, mine := [], good := x.good.erase line.val, osc := none, oscReady := false, fails := 0, since := s.now })
  else .next (s.modPower fun x => { x with good := x.good.erase line.val })

/-! ### Reaching ACTIVE (R298, R348) -/

/-- Every STD and BG core takes the divider that g makes of its own; THROTTLED tells one above 1. -/
def State.setDivs (s : State) (g : Nat → Nat → Nat) : State :=
  forN 64 (fun k t =>
    if t.throttleable k then t.setDiv k (g k (t.f F.CORE_BUDGET_THR_DIV k)) else t) s

/-- The loader takes the host's image (R356): it waits for one, or is stopped. -/
def State.takeDoorbell (s : State) : State :=
  let waits := s.mail 0 1 == 1 || s.boot.stopped
  if s.mail 0x18 4 = 1 ∧ waits ∧ ¬ s.boot.loading ∧ ¬ s.boot.running then
    let t := s.setMail 0x18 4 0
    let t := { t with boot := { t.boot with loading := true, source := 1, again := false } }
    if t.boot.stopped then t else t.setMail 0 1 2
  else s

/-- The loader starts (R355): from flash, or waiting for the host, whose DOORBELL it may find written. again: after a wake, from the source
last used (R358, R359). A loader in STOPPED stays there: only a DOORBELL write restarts it (R358). -/
def State.bootLoader (s : State) (again : Bool) : State :=
  let src := if again then s.boot.used else if s.boot.bootsel = 1 ∨ s.boot.bootsel = 2 then 2 else 0
  if s.boot.stopped then s.setMail 0 1 5
  else
    let t := { s with boot := { s.boot with source := src, loading := src != 0, again := again } }
    if src = 0 then (t.setMail 0 1 1).takeDoorbell else t.setMail 0 1 2

/-- A domain found at OFF by a wake is switched on with its saved or reset registers, or one at RETAIN resumes. The fill of a bank group ends
before ACTIVE (R298, R348). -/
def State.bringUp (s : State) (d : Nat) : State :=
  if ¬ s.domAsked d then s
  else if 48 ≤ d ∧ d < 56 then s.setDom d true
  else if s.power.kept.contains d then
    (let t := s.setDom d true
     if 56 ≤ d ∧ d < 60 ∧ t.ddr (d - 56) = 5 then t.setDdr (d - 56) (t.ddrRest (d - 56)) else t)
  else s.domainOn d

/-- What a wake reads of Rest memory may be corrected, which counts (R20), or uncorrectable: each counts, logs and fires, and a slot with such
a word is invalid (R361). -/
def State.countUpset (s : State) (u : RestUpset) : State :=
  let n := u.regs.length + (if u.sets = 0 then 0 else 1) + u.core.toNat + u.slots.length
  let s := s.modPower fun x => { x with rmemPoison := u.slots.map BitVec.toNat ++ x.rmemPoison.filter fun i => !u.slots.any (·.toNat == i) }
  forN n (fun _ t => t.drawn.coreEcc .uncorrected t.free.toNat) (forN u.corrected.toNat (fun _ t => t.coreEcc .corrected 0) s)

/-- The Service Cores' state is dropped (R361). -/
def State.dropCores (s : State) : State :=
  let t := { s with link := { s.link with journal := [] }, ports := s.ports.map fun (p : Nat × PortSt) => (p.1, { sent := p.2.sent }) }
  let t := (t.clr F.LNK_JNL_ESEQ).clr F.PRT_BIND0_SESSION
  let t := forN 4 (fun i u => u.clr F.PRT_BIND_SESSION i) (forN 5 (fun p u => u.setRw .PRT_SEQ 0 p) t)
  { t with time := { t.time with ptp := {} } }

/-- Restored streams hold their rings again, and CLKOUT pairs run as their registers say. -/
def State.resumeUnits (s : State) : State :=
  let t := forN 64 (fun b u =>
    if u.on F.STM_CFG_EN b then (if u.liveHandle (u.f F.STM_RING_HANDLE b) then u.addRef (u.f F.STM_RING_HANDLE b) else u.clr F.STM_CFG_EN b)
    else u) s
  forN 8 (fun j u => u.modClkout j (fun _ =>
    { dlyC := u.f F.CO_DLY_DLY_C j, dlyF := u.f F.CO_DLY_DLY_F j }) |>.coBegin j) t

/-- DTIME passes to the Reference PLL, which runs free (R234, R298). -/
def State.passTime (s : State) : State :=
  let t := s.foldUnc
  let t := t.setUnc (min uncUnknown (t.f F.TM_UNC_DTIME_UNC + (2 ^ 40 + 999999999) / 1000000000))
  (t.setF F.CLK_REF_STATUS_SRC_ACT 3).flag F.TM_STATUS_REST_KEPT

/-- The device is ACTIVE after a wake from DOZE. -/
def State.wakeDoze (s : State) : State :=
  let want := fun (off : Nat) => decide (0x100000 ≤ off ∧ off < 0x200000) || ethPortReg off
  let t := if s.on F.REST_CFG_SAVE then s.restoreRegs want else s
  let t := { t.followRegs with boot := { t.boot with running := t.boot.asleep, asleep := false } }
  forN 72 (fun d u => if u.dom d then u else u.bringUp d) t

/-- The device is ACTIVE after a wake from REST, or after power-up. Trained sets that are lost leave their channels UNTRAINED. -/
def State.wakeRest (s : State) (u : RestUpset) : State :=
  let t := s.passTime
  let lost := fun (off : Nat) => u.regs.any fun r => r.toNat == off
  let t := if t.power.first then t
    else if t.on F.REST_CFG_SAVE then t.restoreRegs fun off => !lost off else t
  let t := t.modPower fun x => { x with fills := [] }
  let t := t.countUpset u
  let t := forN 72 (fun d v => v.bringUp d) t.followRegs.resumeUnits
  let t := forN 4 (fun c v =>
    let w := if bit u.sets.toNat c then v.clr F.DDR_STAT_TRAINED c else v
    if w.dom (56 + c) ∧ w.on F.MEM_CFG_POP then w.setDdr c (w.ddrRest c) else w) t
  let t := if u.core ∧ ¬ t.power.first then t.dropCores else t
  (t.bootLoader (!t.power.first && t.boot.used != 0)).showStore

/-- A WAKE notification is posted once SC1 runs (R281, R298). R281 gives the DTIME of ACTIVE 16 bytes and no layout: the 96-bit number
lies there in little-endian order, with zeros above it (DESIGN CHOICE, log entry 82). -/
def State.noteWake (s : State) : State :=
  if s.power.wakeNote ∧ s.boot.running then
    (s.modPower fun x => { x with wakeNote := false }).postAll 5 true
      (leBytes 1 (s.f F.PWR_WAKE_REC_SRC) ++ leBytes 7 0 ++ leBytes 16 (s.at F.PWR_ACT_SEC_SEC F.PWR_ACT_FRAC_FRAC))
  else s

/-- A device whose PLLs have locked and whose domains are on is ACTIVE (R298): the state and the record of the wake, source
627, and the link. No core is throttled in ACTIVE (R50, R289). -/
def State.wakeActive (s : State) (doze : Bool) : State :=
  let t := (((s.setF F.PWR_STATUS_STATE 0).clr F.PWR_STATUS_HOST_TRIM).clr F.PWR_STATUS_GOV_TRIM).setDivs fun _ _ => 1
  let t := (t.flag F.CLK_REF_STATUS_SYS_LOCK).flag F.CLK_REF_STATUS_DRAM_LOCK
  let t := if s.f F.PWR_WAKE_REC_SRC = 12 ∧ doze then t.endRequest 0 else t.clr F.PWR_STATUS_IN_PROGRESS
  let t := t.modPower fun x => { x with stage := .up, kept := [], mine := [], tripped := false, first := false, wakeNote := true }
  let t := (t.putTime F.PWR_ACT_SEC_SEC F.PWR_ACT_FRAC_FRAC t.now).fireNow 627
  { t with link := { t.link with training := !doze && !t.link.perstLow } }

/-- What a wake from REST or OFF starts besides: the watch over the reference inputs (R205), PTP, and the alignment to the next
PPS edge (R230). cold: the device was in OFF. -/
def State.wakeTime (s : State) (cold : Bool) : State :=
  let t := ({ s with time := { s.time with measured := true } }.refJudge 0).refJudge 1 |>.refReview false
  let t := if cold then t else t.ptpConfigured
  if ¬ cold ∧ t.on F.TM_PPS_CFG_WAKE_ALIGN then t.timeCommand 3 else t

/-- WAKE_DONE (R298, R348): the PLLs have locked, the domains are on, and the device is ACTIVE. u: what of Rest memory proves
uncorrectable. -/
def execWakeDone (u : RestUpset) (s : State) : Res :=
  if s.power.stage = .domains then
    let doze := s.dozing
    let t := (if doze then s.wakeDoze else s.wakeRest u).resumeTimers.wakeActive doze
    let run : TrainRun := ⟨false, (List.range 4).filter fun c => t.ddr c == 4, t.on F.MEM_STATUS_FREQ_ACT⟩
    let t := (t.modMem fun m => { m with waits := if run.chans.isEmpty then m.waits else run :: m.waits }).nextTrain
    let t := t.calRequests
    let t := if doze then t else t.wakeTime s.power.first
    .next t.noteWake
  else .next s

end Sys2Proof.Machine
end

