-- ==== Sys2Proof/Machine/Startup.lean ====
section
/-! DEFINITION. Power requests and domain switches as registers, Rest memory, brown-out and the Budget Governor's rows (chapter 14), and
start-up, resets, the Service Cores' loader and faults (chapter 17). -/

namespace Sys2Proof.Machine

/-! ### Throttling (R50, R290, R306) -/

/-- STATE follows HOST_TRIM and GOV_TRIM while the device is ACTIVE or in TRIM; in ACTIVE no core is throttled. -/
def State.showTrim (s : State) : State :=
  if ¬ s.active then s
  else if s.on F.PWR_STATUS_HOST_TRIM ∨ s.on F.PWR_STATUS_GOV_TRIM then s.setF F.PWR_STATUS_STATE 1
  else (s.setF F.PWR_STATUS_STATE 0).setDivs fun _ _ => 1

/-! ### PWR_REQ (R290) -/

/-- A request for TARGET with GO = 1. -/
def State.powerRequest (s : State) (target : Nat) : State :=
  let cur := s.f F.PWR_STATUS_STATE
  if target = cur then s.setF F.PWR_STATUS_RESULT 0
  else if target = 1 ∧ cur = 0 then
    (((s.flag F.PWR_STATUS_HOST_TRIM).setDivs fun _ _ => s.f F.BG_CFG_TRIM_DIV).showTrim).setF F.PWR_STATUS_RESULT 0
  else if target = 0 ∧ cur = 1 then ((s.clr F.PWR_STATUS_HOST_TRIM).showTrim).setF F.PWR_STATUS_RESULT 0
  else if target = 2 ∧ cur < 2 then s.beginEntry 2 (s.affected 2)
  else if target = 3 ∧ cur < 3 then s.beginEntry 3 (s.affected 3)
  else if target = 0 ∧ cur = 2 then s.wakeBy 12 s.now true
  else s.setF F.PWR_STATUS_RESULT 4

/-- A passing write of PWR_REQ with written word w. -/
def State.writePwrReq (s : State) (stored w : Word) : State :=
  if ¬ bit w.toNat 63 then s.setRw .PWR_REQ stored
  else if s.on F.PWR_STATUS_IN_PROGRESS then s.setF F.PWR_STATUS_RESULT 1
  else (s.setRw .PWR_REQ stored).powerRequest (bits w.toNat 2 0)

/-- A passing write of PWR_DOM_ON0 (j = 0) or PWR_DOM_ON1 (R288). Outside ACTIVE and TRIM the bits wait for the wake. -/
def State.writeDomOn (s : State) (j : Nat) (w : Word) : State :=
  let r := if j = 0 then Reg.PWR_DOM_ON0 else .PWR_DOM_ON1
  let asked := (List.range (if j = 0 then 64 else 8)).map (64 * j + ·)
  let want := fun (d : Nat) => bit w.toNat (d - 64 * j)
  let offs := asked.filter fun d => s.domAsked d && !want d
  let ons := asked.filter fun d => !s.domAsked d && want d
  if s.on F.PWR_STATUS_IN_PROGRESS then s.setF F.PWR_STATUS_RESULT 1
  else if offs.contains 64 ∨ offs.contains 69 then s.setF F.PWR_STATUS_RESULT 4
  else
    let t := s.setRw r w
    if ¬ t.active then t
    else
      let t := ons.foldl (fun u d => if u.dom d then u else u.domainOn d) t
      let live := askOrder.filter fun d => offs.contains d && t.dom d
      if live = [] then t else t.beginEntry 4 live

/-! ### Rest memory as the host reaches it (R295) -/

/-- Word i of Rest memory as it reads: the slots and the host area as they were written, the rest as the last entry left it. -/
def State.restRead (s : State) (i : Nat) : Word :=
  if (0x3000 ≤ i ∧ i < 0x5000) ∨ 0x6000 ≤ i ∨ s.power.saves = 0 then s.rest64 i else Config.savedWord s.power.saves i

/-- WORD advances after an access of PWR_RMEM_DATA. -/
def State.nextRest (s : State) : State := s.tick F.PWR_RMEM_ADDR_WORD

/-- A passing write of PWR_RMEM_DATA: the host may write the host area only. -/
def State.writeRest (s : State) (w : Word) : State :=
  let i := s.f F.PWR_RMEM_ADDR_WORD
  (if 0x6000 ≤ i then s.setRest64 i w else s.flag F.PWR_STATUS_RMEM_ERR).nextRest

/-- What a read of PWR_RMEM_DATA does beside its value; e: what the word meets (R20). A word found uncorrectable stays so until it is
written (R361), and makes a calibration slot invalid (R321). -/
def State.readRest (s : State) (e : Ecc) : State :=
  let i := s.f F.PWR_RMEM_ADDR_WORD
  let t := s.coreEcc e (8 * i)
  (if e.bad then t.modPower fun x => { x with rmemPoison := i :: x.rmemPoison.erase i } else t).nextRest

/-! ### Brown-out (R300, R301) -/

/-- BROWNOUT_WARN (R301): a supply falls below its warning level: VDD_REST when rest, else VDD_CORE, which is monitored while it is on.
BG tasks stop at their next step. A BG core program that already runs goes on: R301 names RT and admitted STD programs as running on and
BG tasks as stopping, and no rule stops such a program (DESIGN CHOICE, log entry 82). -/
def execBrownoutWarn (rest : Bool) (s : State) : Res :=
  if (if rest then s.power.lowRest else s.power.lowCore) ∨ (¬ rest ∧ ¬ s.power.lines.contains 0) then .next s
  else
    let t := s.modPower fun x => if rest then { x with lowRest := true } else { x with lowCore := true }
    let t := (((t.flag F.PWR_STATUS_BO_WARN).flag F.PWR_STATUS_BO_ACTIVE).trouble .brownout).fireNow 622
    let t := forN 16 (fun n u => u.calCut n 5) t
    .next (if t.on F.PWR_BO_CFG_PARK then
      forN 16 (fun n u => u.modChan n fun c => if t.on F.CH_STATUS_RUN n then { c with brown := true } else c) t else t)

/-- BROWNOUT_CLEAR (R301): the supply has stayed above its warning level and hysteresis for 10 µs. -/
def execBrownoutClear (rest : Bool) (s : State) : Res :=
  if ¬ (if rest then s.power.lowRest else s.power.lowCore) then .next s
  else
    let t := s.modPower fun x => if rest then { x with lowRest := false } else { x with lowCore := false }
    if t.power.lowRest ∨ t.power.lowCore then .next t
    else .next ((forN 16 (fun n u => u.modChan n fun c => if c.brown then { c with brownClear := s.now } else c)
      (t.clr F.PWR_STATUS_BO_ACTIVE)).calRequests)

/-! ### The Budget Governor (R302 to R307) -/

/-- The dividers may move once H has stayed at a level for its time: DTIME reaches the end of it, and the next 10 ms begin. -/
def State.divInstant (s : State) : State :=
  (s.reach s.power.gov.due).modGov fun g => { g with due := (s.reach s.power.gov.due).now + ms10 }

/-- The Governor's model over a new P_MEAS, the mean in µW (R302); it counts whole milliwatts, rounded up. -/
def State.evaluate (s : State) (mean : Nat) : State := (s.setF F.BG_STATUS_P_MEAS_MW (min 65535 ((mean + 999) / 1000))).weigh

/-- The request that heads a queue is granted, if it fits, and for calibration if every condition of R315 still holds. -/
def State.serveOne (s : State) : State :=
  let g := s.power.gov
  match g.std, g.bg with
  | k :: _, _ => if s.grantable k then s.grant k else s
  | [], .core k :: _ => if s.grantable k then s.grant k else s
  | [], .cal n :: _ => if s.calReady n ∧ s.taskGrantable (.cal n) then s.calStart n else s
  | [], .scrub :: _ => if s.taskGrantable .scrub then s.startTask .scrub else s
  | [], .train _ :: _ => s.tryTrain
  | [], [] => s

/-- Both queues are served in order, until a request does not fit (R305). -/
def State.serve (s : State) : State := forN s.waitingCount (fun _ t => t.serveOne) s

/-- GOV_EVAL (R302, R305): the sensors and the domain monitors report, in 1/16 °C and in µW over the last 1 ms; while SC1 runs, the
Governor evaluates its model and serves the queues. -/
def execGovEval (temps : List (BitVec 16)) (mons : List (BitVec 32)) (rest : BitVec 32) (s : State) : Res :=
  let t := forN 8 (fun i u => u.setF F.BG_TEMP_T (temps.getD i 0#16).toNat i) s
  let t := forN 72 (fun d u => u.setF F.PWR_MON_P_UW (mons.getD d 0#32).toNat d) t
  let mean := (mons.map BitVec.toNat).sum + rest.toNat
  .next (if t.governs then (t.evaluate mean).serve else t)

/-- The dividers double, up to 255 (R306). -/
def State.doubleDivs (s : State) : State := s.setDivs fun _ d => min 255 (2 * d)

/-- H is below 0, now and in the last evaluation. -/
def State.lowH (s : State) : Bool := s.governs && decide (s.headroom < 0) && s.power.gov.level == 1

/-- H is at or above MARGIN, now and in the last evaluation. -/
def State.highH (s : State) : Bool := s.governs && decide (s.margin ≤ s.headroom) && s.power.gov.level == 2

/-- GOV_TRIM_ENTER (R306): H has been below 0 for 1 ms. -/
def execGovTrimEnter (s : State) : Res :=
  if s.lowH ∧ s.active then .next (((s.divInstant.flag F.PWR_STATUS_GOV_TRIM).showTrim).doubleDivs) else .next s

/-- GOV_THROTTLE_DOUBLE (R306): in TRIM H has been below 0 for 1 ms, or for another 10 ms. -/
def execGovThrottleDouble (s : State) : Res :=
  if s.lowH ∧ s.on F.PWR_STATUS_GOV_TRIM then .next s.divInstant.doubleDivs else .next s

/-- Whether every divider has reached 1. -/
def State.unthrottled (s : State) : Bool := !anyN 64 fun k => s.throttleable k && decide (1 < s.f F.CORE_BUDGET_THR_DIV k)

/-- GOV_THROTTLE_HALVE (R306): H has stayed at or above MARGIN for 100 ms, or for another 10 ms. -/
def execGovThrottleHalve (s : State) : Res :=
  if s.highH ∧ s.on F.PWR_STATUS_GOV_TRIM then
    let t := s.divInstant.setDivs fun _ d => max 1 (d / 2)
    .next (if t.unthrottled then (t.clr F.PWR_STATUS_GOV_TRIM).showTrim else t)
  else .next s

/-- COEF_UPDATE (R303): SC1 writes the coefficients for the present F_DAC, temperature and supply. -/
def execCoefUpdate (core vr sr dr : BitVec 16) (s : State) : Res :=
  if s.governs then
    .next ((((s.setF F.BG_COEF_K_CORE core.toNat).setF F.BG_COEF_K_VR vr.toNat).setF F.BG_COEF_K_SR sr.toNat).setF F.BG_COEF_K_DR dr.toNat)
  else .next s

/-- A sensor's reading in 1/16 °C. -/
def State.sensor (s : State) (i : Nat) : Int := signed 16 (s.f F.BG_TEMP_T i)

/-- HW_GUARD_ENGAGE (R307): with SC1 halted a sensor reaches TJ_LIMIT. -/
def execHwGuardEngage (s : State) : Res :=
  if ¬ s.governs ∧ ¬ s.on F.BG_STATUS_HW_GUARD ∧ anyN 8 fun i => decide ((s.f F.BG_CFG_TJ_LIMIT * 16 : Nat) ≤ s.sensor i) then
    let t := s.modGov fun g =>
      { g with heldDivs := (List.range 64).map fun k => s.f F.CORE_BUDGET_THR_DIV k, heldTrim := s.on F.PWR_STATUS_GOV_TRIM }
    .next ((((t.flag F.BG_STATUS_HW_GUARD).flag F.PWR_STATUS_GOV_TRIM).showTrim).setDivs fun _ _ => 255)
  else .next s

/-- HW_GUARD_RELEASE (R307): every sensor is 5 °C below TJ_LIMIT. -/
def execHwGuardRelease (s : State) : Res :=
  if s.on F.BG_STATUS_HW_GUARD ∧ ¬ anyN 8 fun i => decide (((s.f F.BG_CFG_TJ_LIMIT : Int) - 5) * 16 ≤ s.sensor i) then
    let g := s.power.gov
    let t := (s.clr F.BG_STATUS_HW_GUARD).setB F.PWR_STATUS_GOV_TRIM g.heldTrim
    .next ((t.showTrim).setDivs fun k _ => g.heldDivs.getD k 1)
  else .next s

/-! ### Resets (R350 to R352, R360) -/

/-- What a cold reset leaves (R351): DTIME and SET, Rest memory, PWR_FAULT, BOOTSEL, and the supplies. What the Rest domain held is kept aside
for a loss of PG0 that governs (R364). -/
def State.coldReset (s : State) : State :=
  let set := s.f F.TM_STATUS_SET
  let rest := s.regs.filter fun r => restOwned r.1
  let t : State :=
    { pending := s.pending, choice := s.choice
      time := { dtime := s.time.dtime, residue := s.time.residue, nextSecond := s.time.nextSecond, uncSince := s.now, refA := s.time.refA,
                measured := s.time.measured }
      clock := { everLocked := s.clock.everLocked, refs := s.clock.refs.map fun (p : Nat × RefIn) => (p.1, { edges := p.2.edges }) }
      mem := { losses := s.mem.losses, unreset := s.mem.unreset }
      link := { perstLow := s.link.perstLow }
      boot := { bootsel := s.boot.bootsel }
      power := { stage := .held, lines := s.power.lines, first := true, saved := s.power.saved, saves := s.power.saves,
                 words := s.power.words, rmemPoison := s.power.rmemPoison, tripped := s.power.tripped,
                 crystalBad := s.power.crystalBad, coreLow := s.power.coreLow, porstLow := s.power.porstLow,
                 lowRest := s.power.lowRest, lowCore := s.power.lowCore, good := s.power.good,
                 under := some (s.now, rest, s.bus.once) } }
  let t := (t.setRw .PWR_FAULT (s.rw .PWR_FAULT)).setF F.TM_STATUS_SET set
  (t.loseDram).setF F.PWR_STATUS_STATE 3

/-- What a low of PORST_N that lasts less than 10 µs leaves (R352): every domain but the Rest domain has been in reset, and the Rest domain
keeps its registers. -/
def State.briefReset (s : State) : State :=
  let t := s.coldReset
  let u := (s.regs.filter fun r => restOwned r.1).foldl (fun u r => u.setWord r.1 r.2) t
  ({ u with bus := { u.bus with once := s.bus.once } }).setF F.PWR_STATUS_STATE 3

/-- Power-up goes on at step 4, or at step 3 for supplies that are off, once nothing holds the device in reset (R351, R352). -/
def State.goOn (s : State) : State :=
  if s.power.coreLow ∨ s.power.porstLow ∨ s.power.stage ≠ .held then s else s.attempt

/-- POR (R347, R351): VDD_REST has stayed above 3.06 V for 10 µs, and the Rest domain leaves power-on reset. -/
def execPor (s : State) : Res :=
  if s.power.stage = .unreleased then
    let t : State := { pending := s.pending, choice := s.choice, link := { perstLow := s.link.perstLow }
                       power := { stage := .crystal, first := true, good := s.power.good } }
    .next (t.setF F.PWR_STATUS_STATE 3)
  else .next s

/-- PORST_N is high: BOOTSEL is sampled and the supplies are switched on (R348). -/
def State.sampleBoot (s : State) (bootsel : Nat) : State :=
  ({ s with boot := { s.boot with bootsel := bootsel } }).attempt

/-- CRYSTAL_READY (R347): the crystal oscillator reports ready; porst: PORST_N is low, and the device waits. -/
def execCrystalReady (porst : Bool) (bootsel : BitVec 2) (s : State) : Res :=
  if s.power.stage = .crystal then
    .next (if porst then s.modPower fun x => { x with stage := .porst, porstLow := true } else s.sampleBoot bootsel.toNat)
  else .next s

/-- CRYSTAL_TIMEOUT (R360): the crystal is not ready 1 s after POR; power-up goes on. -/
def execCrystalTimeout (porst : Bool) (bootsel : BitVec 2) (s : State) : Res :=
  if s.power.stage = .crystal then
    let t := (s.foldUnc).modPower fun x => { x with crystalBad := true }
    .next (if porst then t.modPower fun x => { x with stage := .porst, porstLow := true } else t.sampleBoot bootsel.toNat)
  else .next s

/-- COLD_RESET (R350, R352): PORST_N has been low for 10 µs; the domains stay in reset while it is low. -/
def execColdReset (s : State) : Res :=
  if s.power.stage = .unreleased ∨ s.power.stage = .crystal ∨ s.power.stage = .porst then .next s
  else .next (s.coldReset.modPower fun x => { x with porstLow := true, under := none })

/-- PORST_N_RELEASE (R352): PORST_N goes high. Without a COLD_RESET before it, the low lasted from 1 to 10 µs: all but the Rest domain was held
in reset for so long, and starts again (DEDUCED, log entry 87); a shorter low is ignored, and no command tells of it. -/
def execPorstNRelease (bootsel : BitVec 2) (s : State) : Res :=
  let t := s.modPower fun x => { x with porstLow := false }
  if s.power.stage = .porst then .next (t.sampleBoot bootsel.toNat)
  else if s.power.porstLow then .next t.goOn
  else if s.power.stage = .unreleased ∨ s.power.stage = .crystal ∨ s.power.lines = [] then .next t
  else .next t.briefReset.goOn

/-- Whether the JTAG port runs (R372): from the end of step 3 of power-up, while VDD_IO powers its pins (R363). -/
def State.jtagRuns (s : State) : Bool :=
  (match s.power.stage with | .oscillator | .domains | .up | .held => true | _ => false) && s.power.lines.contains 5

/-- CHIP_RESET (R350, R372): the JTAG instruction. -/
def execChipReset (s : State) : Res :=
  if s.jtagRuns then .next (s.coldReset.modPower fun x => { x with jtag := .chipReset, under := none }).goOn else .next s

/-- CORE_SUPPLY_RETURN (R351): after a reset by VDD_CORE the supply has stayed above 0.660 V for 10 µs. -/
def execCoreSupplyReturn (s : State) : Res := .next (s.modPower fun x => { x with coreLow := false }).goOn

/-- SUPPLY_RESET_LEVEL (R300, R350): VDD_REST (rest) or VDD_CORE is at its reset level. -/
def execSupplyResetLevel (rest : Bool) (s : State) : Res :=
  if rest then .next (({ pending := s.pending, choice := s.choice, link := { perstLow := s.link.perstLow } } : State).setF
    F.PWR_STATUS_STATE 3)
  else if s.power.lines.contains 0 then .next (s.coldReset.modPower fun x => { x with coreLow := true })
  else .next s

/-- SYSTEM_PLL_UNLOCK (R360): a cold reset that PWR_FAULT records. -/
def execSystemPllUnlock (s : State) : Res :=
  if s.on F.CLK_REF_STATUS_SYS_LOCK then
    .next ((((s.setF F.PWR_FAULT_WHAT 0x21).bump F.PWR_FAULT_SPLL_RST).coldReset).modPower fun x => { x with under := none }).goOn
  else .next s

/-- SPLL_RST_CLEAR (R360): the device has stayed ACTIVE for 1 s without a System PLL reset. -/
def execSpllRstClear (s : State) : Res := if s.f F.PWR_STATUS_STATE = 0 then .next (s.clr F.PWR_FAULT_SPLL_RST) else .next s

/-- THERMAL_TRIP (R350, R360): a sensor has been at 115 °C or more for 100 µs: the outputs park and REST is forced, with no handshake and no
save. It is a cause of a cold reset, so that what a cold reset clears is cleared (DEDUCED, log entry 56). VDDQ stays on for a DRAM in
self-refresh. -/
def execThermalTrip (s : State) : Res :=
  if s.power.stage ∈ [.unreleased, .crystal, .porst, .held] then .next s
  else
    let first := s.power.first
    let held : Bool := if s.resting then s.power.lines.contains 3 && !s.power.mine.contains 3 else s.on F.MEM_CFG_POP
    let t := (s.coldReset.setF F.PWR_FAULT_WHAT 0x20).keepLines (if held then [3] else [])
    .next ((t.zeroBanks fun _ => true).modPower fun x =>
      { x with tripped := true, stage := .rest, since := s.now, window := s.now + restCycles 3, first := first, under := none })

/-! ### The Service Cores and their loader (R355 to R359) -/

/-- Offset of the image in SRAM, and the size of its header. -/
def imageBase : Nat := 0x1000

/-- The words of the image in SRAM that are marked uncorrectable. -/
def State.imageMarks (s : State) : List Nat :=
  let words := (32 + s.mail (imageBase + 8) 4 + 7) / 8
  (s.poison.filter fun p => !p.1 && decide (imageBase ≤ p.2) && decide (p.2 < imageBase + 8 * words)).map (·.2)

/-- What the checks of the image header find in SRAM: 0 valid, 1 MAGIC, 3 LENGTH, 2 CRC (R355, R359). An image with an
uncorrectable word counts as one whose CRC fails (DESIGN CHOICE, log entry 73). -/
def State.imageCode (s : State) : Nat :=
  let len := s.mail (imageBase + 8) 4
  if s.mail imageBase 4 ≠ 0x4653564D ∨ s.mail (imageBase + 4) 2 ≠ 1 then 1
  else if len = 0 ∨ 1048544 < len then 3
  else if s.imageMarks ≠ [] then 2
  else if crc32 ((List.range len).map fun i => s.sramByte (imageBase + 32 + i)) ≠ s.mail (imageBase + 0x10) 4 then 2
  else 0

/-- An image runs: src as the mailbox codes it, with its version. -/
def State.runImage (s : State) (src ver : Nat) : State :=
  let t := ((s.setMail 0 1 3).setMail 1 1 src).setMail 4 4 ver
  let from_ := if src = 1 then 1 else 2
  ({ t with boot := { t.boot with running := true, loading := false, again := false, stopped := false, waiting := false, source := from_,
                                  used := from_ } }).noteWake

/-- The loader waits for the host, who may have written DOORBELL already; after a halt or a wake with SRAM as the source last used, with
FAULT_N asserted (R359, R362). -/
def State.waitHost (s : State) : State :=
  let t := s.setMail 0 1 1
  let b := t.boot
  ({ t with boot := { b with loading := false, waiting := b.waiting || (b.again && b.source == 1), again := false } }).takeDoorbell

/-- The loader stops. -/
def State.stopLoader (s : State) : State :=
  let t := s.setMail 0 1 5
  { t with boot := { t.boot with loading := false, stopped := true, again := false, running := false } }

/-- The bytes that begin a read of a flash copy (R357): the quad-output fast read command and three address bytes, of copy A at 0x00_0000 or
copy B at 0x80_0000. -/
def flashRead (b : Bool) : List Byte := [0x6B, if b then 0x80 else 0x00, 0x00, 0x00]

/-- The cycles between the address and the data, and the frequency of SPI_CLK, in Hz (R357). -/
def flashDummy : Nat := 8
def flashClock : Nat := 25000000

/-- The reads of flash that the loader issues in turn while it loads: copy A, then copy B. -/
def State.flashReads (s : State) : List (List Byte) :=
  if s.boot.loading ∧ (s.boot.source = 2 ∨ (s.boot.again ∧ s.boot.bootsel = 2)) then [flashRead false, flashRead true] else []

/-- The flash copies are tried, A before B; a and b: what the checks of each find, as CODE codes it. -/
def State.loadFlash (s : State) (a b ver : Nat) : State :=
  if a = 0 then s.runImage 2 ver
  else if b = 0 then s.runImage 3 ver
  else
    let t := s.setMail 2 1 b
    if s.boot.bootsel = 2 then t.waitHost else t.stopLoader

/-- IMAGE_LOADED (R357, R359): the loader has read its source. a, b: what the checks of flash copies A and B find (0 valid, 1 MAGIC, 2
CRC, 3 LENGTH, 4 NO_FLASH); ver: FW_VER of the flash image used. -/
def execImageLoaded (a b : Fin 5) (ver : BitVec 32) (s : State) : Res :=
  if ¬ s.boot.loading then .next s
  else if s.boot.source = 2 then .next (s.loadFlash a b ver.toNat)
  else
    let code := s.imageCode
    let s := s.imageMarks.foldl (fun t a => t.readChecked false a .clean 5) s
    if code = 0 then .next (s.runImage 1 (s.mail (imageBase + 0xC) 4))
    else
      let t := s.setMail 2 1 code
      if s.boot.stopped then .next t.stopLoader
      else if s.boot.again ∧ s.boot.bootsel = 2 then
        .next (if a = 0 then t.runImage 2 ver.toNat else if b = 0 then t.runImage 3 ver.toNat else t.waitHost)
      else .next t.waitHost

/-- The Service Cores halt (R31, R358): code 5 WATCHDOG, 6 ECC. The journal and the sessions are lost, the servo is lost, and the loader
boots again, or stops at the fourth halt within 60 s. -/
def State.halted (s : State) (code : Nat) : State :=
  let t := (s.setMail 3 1 (min 255 (s.mail 3 1 + 1))).setMail 2 1 code
  let t := ((t.setMail 8 6 (s.now % second)).setMail 14 6 (s.now / second)).setMail 0 1 4
  let halts := s.now :: s.boot.halts.filter fun h => decide (s.now ≤ h + 60 * second)
  let t := { t with boot := { t.boot with running := false, halts := halts, loading := true, again := true, source := s.boot.used } }
  let t := t.clr F.LNK_JNL_ESEQ
  let t := { t with link := { t.link with journal := [] }
                    ports := t.ports.map fun (p : Nat × PortSt) =>
                      (p.1, { p.2 with opened := false, held := [], gap := none, exec := none, mask := 0, notes := [], waiting := [] }) }
  let t := t.loseServo
  if 4 ≤ halts.length then t.stopLoader else t

/-- WATCHDOG_EXPIRY (R358). -/
def execWatchdogExpiry (s : State) : Res := if s.boot.running then .next (s.halted 5) else .next s

/-- SERVICE_CORE_ECC_ERROR (R358, R361). -/
def execServiceCoreEccError (s : State) : Res :=
  if s.boot.running then .next ((s.drawn.coreEcc .uncorrected s.free.toNat).halted 6) else .next s

/-- FAULT_N is asserted (R362); before POR is released too, from the moment VDD_REST reaches 1.2 V (R347, R363). -/
def State.faultN (s : State) : Bool :=
  s.power.stage == .unreleased || (s.power.first && s.power.stage != .up) || s.on F.PWR_FAULT_WAKE || s.power.tripped ||
    s.power.crystalBad || s.boot.stopped || s.boot.waiting || decide (3 ≤ s.f F.PWR_FAULT_SPLL_RST)

end Sys2Proof.Machine
end

