-- ==== Sys2Proof/Machine/BusView.lean ====
section
/-! DEFINITION. What a register reads as (chapter 16): the stored word with the fields that hardware shows as sampled. -/

namespace Sys2Proof.Machine

/-! ### Sampled fields -/

/-- w with field x shown as v. -/
def shown (x : Fld) (v : Nat) (w : Word) : Word := BitVec.ofNat 64 (setBits w.toNat x.hi x.lo v)

/-- MK_STATUS.LEVEL of channel n. -/
def State.laneLevels (s : State) (n : Nat) : Nat := ((List.range 4).map fun l => (s.laneValue n l).toNat * 2 ^ l).sum

/-- Word j (0–3) of a journal entry (R280). -/
def JEntry.word (e : JEntry) (j : Nat) : Nat :=
  if j = 0 then e.hsn + e.dsn * 2 ^ 32
  else if j = 1 then e.opcode + e.status * 2 ^ 16 + e.port * 2 ^ 32 + (e.done.toNat + 2 * e.replayed.toNat) * 2 ^ 40 + e.session * 2 ^ 48
  else
    let sec := e.time / second % 2 ^ 48
    if j = 2 then e.time % second + sec % 2 ^ 16 * 2 ^ 48 else sec / 2 ^ 16 + e.eseq * 2 ^ 32

/-- Word i of the journal window: word i mod 4 of the entry whose ESEQ modulo 256 is i / 4. -/
def State.journalWord (s : State) (i : Nat) : Nat :=
  match s.link.journal.find? fun e => e.eseq % 256 == i / 4 with
  | some e => e.word (i % 4)
  | none => 0

/-- Word i of core k's instruction memory as the host reads it (R53). -/
def State.imemView (s : State) (k i : Nat) : Word := if s.st k < 2 then 0 else s.rw .CORE_IMEM k i

/-- Member (i, j) of family r as requester q reads it, with no effect (R330). -/
def State.view (s : State) (q : Requester) (r : Reg) (i j : Nat) : Word :=
  let w := s.rw r i j
  let core := fun (v : Word) => if s.st i = 0 then (0 : Word) else v
  match r with
  | .DEV_ID => shown ⟨.DEV_ID, 31, 24⟩ ((Config.stepMajor + 1) * 16 + Config.stepMinor) w
  | .TM_NOW_SEC => BitVec.ofNat 64 (s.now / second)
  | .TM_NOW_FRAC => sget (fun _ => 0) s.time.latches (reqCode q)
  | .TM_UNC => shown F.TM_UNC_DTIME_UNC s.uncRead w
  | .TM_HO_REMAIN | .TM_HO_BUILD => s.foldSlew.rw r
  | .PTP_PSTAT => shown F.PTP_PSTAT_L1STATE (s.l1State i) w
  | .PWR_REQ => shown F.PWR_REQ_GO (s.f F.PWR_STATUS_IN_PROGRESS) w
  | .PWR_RMEM_DATA => s.restRead (s.f F.PWR_RMEM_ADDR_WORD)
  | .BG_RESV => BitVec.ofNat 64 s.bgResv
  | .BG_STATUS => shown F.BG_STATUS_WAITING (min 255 s.waitingCount) w
  | .EVF_STATUS => shown F.EVF_STATUS_OVR_ANY
      ((anyN 6 fun n => s.rw .EVF_OVR n != 0) || s.rw .EVF_OVR6 != 0).toNat w
  | .EVF_CIN_CNT => BitVec.ofNat 64 s.cinCount
  | .BUF_POOL => BitVec.ofNat 64 (s.freePages true * 2 ^ 32 + s.freePages false)
  | .CAL_B_MAIN => s.readBank i 0
  | .CAL_B_MK => s.readBank i 1
  | .CAL_B_SLICE => s.readBank i (2 + j)
  | .LNK_JWIN => BitVec.ofNat 64 (s.journalWord i)
  | .MK_STATUS => shown F.MK_STATUS_LEVEL (s.laneLevels i) w
  | .CH_DAC_STATUS => shown F.CH_DAC_STATUS_OUT_STATE (s.outState i) w
  | .VOICE_CTL | .VOICE_STATUS | .VOICE_POS | .VOICE_KERF_SEC | .VOICE_KERF_FRAC | .VOICE_SEGTAB | .VOICE_SEGTAB_ACT | .VOICE_JT_STAT
  | .VOICE_TROUBLE | .VOICE_LOCK | .VOICE_JT => core w
  | .VOICE_Q => match (s.voice i).queue[j / 2]? with | some e => e.word (j % 2 == 1) | none => 0
  | .CORE_PC => core (shown F.CORE_PC_PC (s.pc i) w)
  | .CORE_QUEUE => core (shown F.CORE_QUEUE_QFILL (s.qfill i) w)
  | .CORE_GREG => if j = 0 then 0 else core w
  | .CORE_DMEM_DATA => if s.st i < 2 then 0 else s.dmemWord i (s.f F.CORE_DMEM_ADDR_WORD i)
  | .CORE_IMEM => s.imemView i j
  | .CORE_CTL => core (shown F.CORE_CTL_STOP (s.core i).stopLater.toNat w)
  | .CORE_STATUS | .CORE_START_SEC | .CORE_START_FRAC | .CORE_START_EVT | .CORE_FAULT | .CORE_BUDGET
  | .CORE_DMEM_ADDR | .CORE_LOCK | .CORE_HDR | .CORE_STACK | .CORE_COST => core w
  | _ => w

/-- The word that member (i, j) of r holds, for a write to be compared with (R331, R337): calibration results lie in their banks, and
TM_UNC holds its base. -/
def State.heldWord (s : State) (r : Reg) (i j : Nat) : Word :=
  match r with
  | .CAL_B_MAIN => s.readBank i 0
  | .CAL_B_MK => s.readBank i 1
  | .CAL_B_SLICE => s.readBank i (2 + j)
  | .TM_UNC => shown F.TM_UNC_DTIME_UNC s.uncBase (s.rw .TM_UNC)
  | r => s.rw r i j

end Sys2Proof.Machine
end

