-- ==== Sys2Proof/Machine/BusCheck.lean ====
section
/-! DEFINITION. The checks on an access (R333 to R342): the region, PL0-only registers, spent fuses, locks, write-once fields and
the event fabric's locks; and what a refused access leaves. -/

namespace Sys2Proof.Machine

/-- The registers that accept writes from PL0 only (R335). -/
def pl0Reg : Reg → Bool
  | .GLB_PROT0 | .GLB_PROTA | .GLB_PROT11 | .GLB_SCLVL | .GLB_ONCE | .PRT_BIND0 | .PRT_BIND => true
  | _ => false

/-- Bits of a word that a mask names, taken from new, the others from old. -/
def merge (mask : Nat) (new old : Word) : Word :=
  (new &&& BitVec.ofNat 64 mask) ||| (old &&& ~~~(BitVec.ofNat 64 mask))

/-- Whether two words differ in a mask. -/
def differ (mask : Nat) (a b : Word) : Bool := (a ^^^ b) &&& BitVec.ofNat 64 mask != 0

/-! ### The event fabric's locks (R201) -/

/-- LK_ROUTE of channel c. -/
def State.routeLocked (s : State) (c : Nat) : Bool := s.on F.EC_CTL_LK_ROUTE c

/-- Whether a selection field, hi..lo, names a channel with LK_ROUTE: an 8-bit field with bit 7 set names none. -/
def State.namesLocked (s : State) (hi lo v : Nat) : Bool := !(hi - lo == 7 && bit v 7) && s.routeLocked (v % 128)

/-- Whether the fabric's locks refuse a PL1 or PL2 write of w over old to member i of r. -/
def State.fabricRefuses (s : State) (r : Reg) (i : Nat) (old w : Word) : Bool :=
  match r with
  | .EC_SRC_A | .EC_SRC_B => s.routeLocked i && differ (r.spec.rwl &&& (2 ^ 64 - 1 - r.spec.rsvd)) old w
  | .EC_CTL => s.routeLocked i && differ 1 old w
  | .EVF_IRQ_SEL | .EVF_WAKE_SEL | .EVR_CFG | .TO_CFG | .CORE_START_EVT =>
    (routeFields r).any fun p =>
      let a := bits old.toNat p.1 p.2
      let b := bits w.toNat p.1 p.2
      a != b && (s.namesLocked p.1 p.2 a || s.namesLocked p.1 p.2 b)
  | .EVT_FIRE => anyN 64 fun b => bit w.toNat b && s.on F.EC_CTL_LK_FIRE (64 * i + b)
  | _ => false

/-! ### The checks (R337) -/

/-- What the checks of a write leave: the first cause that refuses it, and the word to apply, in which refused fields hold what they
held; none when nothing is written. -/
structure Checked where
  cause : Option Cause
  word : Option Word
  deriving DecidableEq, Repr

/-- A write of w to member (i, j) of r, at offset off, from requester q. A lock refuses the whole write of a register that holds RWL fields
only. -/
def State.checkWrite (s : State) (q : Requester) (r : Reg) (i j off : Nat) (w : Word) : Checked :=
  let lv := s.level q
  let old := s.heldWord r i j
  let isLock := off == lockOf off
  if s.access lv (regionOf off) ≠ 2 then ⟨some .region, none⟩
  else if lv ≠ 0 ∧ (pl0Reg r ∨ (isLock ∧ bit old.toNat 0 ∧ ¬ bit w.toNat 0)) then ⟨some .pl0Only, none⟩
  else if (r = .PRT_BIND ∧ s.on F.GLB_ONCE_P0_ONLY_PL0 ∧ bits w.toNat 2 1 = 0) ∨
      (r = .PRT_FI ∧ s.on F.GLB_ONCE_FI_DIS ∧ bit w.toNat 0) then ⟨some .fuse, none⟩
  else
    let locked := lv != 0 && s.lockBit off && differ r.spec.rwl old w
    let w1 := if locked then merge r.spec.rwl old w else w
    let spent := r.spec.wonce != 0 && s.bus.once && differ r.spec.wonce old w1
    let others := r.spec.rw ||| r.spec.w1c ||| r.spec.w1s ||| r.spec.wo ||| r.spec.wonce
    let w2 := if spent then merge r.spec.wonce old w1 else w1
    let cause := if locked then some Cause.lock else if spent then some .wonce else none
    if lv ≠ 0 ∧ s.fabricRefuses r i old w2 then ⟨some (cause.getD .fabric), none⟩
    else ⟨cause, if locked ∧ others = 0 then none else some w2⟩

end Sys2Proof.Machine
end

