-- ==== Sys2Proof/Machine/Bus.lean ====
section
/-! DEFINITION. Writes and reads of BAR0 (chapter 16): what a write that the checks pass does to its register, stopped domains, the
32-bit halves, and the clearing of counters. -/

namespace Sys2Proof.Machine

/-! ### Counters (R343) -/

/-- Clear fields of member i of a register. -/
def State.clrAll (s : State) (l : List Fld) (i : Nat) : State := l.foldl (fun t x => t.clr x i) s

/-- A write of n to GLB_CNT_CLR. -/
def State.clearGlobal (s : State) (n : Nat) : State :=
  let t := forN 17 (fun k u => if bit n 63 ∨ bit n k then u.clr (troubleFld k) (k / 4) else u) s
  if bit n 63 ∨ bit n 8 then forN 4 (fun q u => u.clr F.SP_STATUS_UNLK_CNT q) t else t

/-- The CNT_CLR bit of a register and the counts of the block that it clears. -/
def blockCounts : Reg → Option (Nat × List Fld)
  | .TI_CNT => some (0, [F.TI_CNT_HELD])
  | .EC_CTL => some (16, [F.EC_CTL_REFR_CNT])
  | .CAL_CNT => some (0, [F.CAL_CNT_CAL_COUNT])
  | .MEM_ECC_CNT => some (0, [F.MEM_ECC_CNT_SRAM_CE, F.MEM_ECC_CNT_DRAM_CE, F.MEM_ECC_CNT_AWC])
  | .MEM_SRAM_STAT => some (0, [F.MEM_SRAM_STAT_LATE_LINE])
  | .DDR_STAT => some (16, [F.DDR_STAT_PREEMPT])
  | .STM_CNT => some (0, [F.STM_CNT_SHAV, F.STM_CNT_DROP, F.STM_CNT_GAPS])
  | .REFILL_STAT => some (8, [F.REFILL_STAT_MISS_BLK, F.REFILL_STAT_UNDERRUN, F.REFILL_STAT_WITHDRAWN])
  | .PRT_CNT => some (0, [F.PRT_CNT_DROP, F.PRT_CNT_SEQGAP, F.PRT_CNT_FOREIGN])
  | .PRT_FI_CNT => some (0, [F.PRT_FI_CNT_DROPPED, F.PRT_FI_CNT_CORRUPTED, F.PRT_FI_CNT_REORDERED])
  | .ETH_STAT => some (4, [F.ETH_STAT_FEC_UNC])
  | .CH_DPCNT => some (0, [F.CH_DPCNT_COMP_SAT, F.CH_DPCNT_DP_SAT, F.CH_DPCNT_COVER_BRK])
  | .CH_DAC_CNT => some (0, [F.CH_DAC_CNT_CARRY_HOLD, F.CH_DAC_CNT_SC_EPIS, F.CH_DAC_CNT_RANGE_CHG])
  | .VOICE_TROUBLE => some (0, [F.VOICE_TROUBLE_LATE_JUMP, F.VOICE_TROUBLE_JUMP_MISS, F.VOICE_TROUBLE_SEG_ERR_CNT])
  | .CORE_QUEUE => some (32, [F.CORE_QUEUE_STARVE_CNT])
  | .EVF_CIN_CNT => some (0, [])
  | _ => none

/-- A word n written to member i of r clears the counts of its block when its CNT_CLR bit is 1; EVF_CIN_CNT clears those of the selected
input (R195). -/
def State.clearBlock (s : State) (r : Reg) (i n : Nat) : State :=
  match blockCounts r with
  | some (b, l) =>
    if ¬ bit n b then s
    else if r = .EVF_CIN_CNT then s.modInput (s.f F.EVF_CIN_SEL_INPUT) fun x => { x with coincide := 0, overrun := 0 }
    else s.clrAll l i
  | none => s

/-! ### Registers with rules of their own -/

/-- Fault injection of port p ends: the held groups are released (R283). -/
def State.endInjection (s : State) (p : Nat) : State :=
  let g := (s.port p).rxGroup
  let t := s.modPort p fun x => { x with rxGroup := [], ready := x.ready ++ g.reverse }
  (if g.isEmpty then t else t.bump F.PRT_FI_CNT_REORDERED p).releaseTx p

/-- A passing write of PRT_FIp (R283): the write that sets EN starts the counts of frames offered. -/
def State.writeFi (s : State) (p : Nat) (w : Word) : State :=
  let was := s.on F.PRT_FI_EN p
  let t := s.setRw .PRT_FI w p
  if bit w.toNat 0 then (if was then t else t.modPort p fun x => { x with rxCount := 0, txCount := 0 })
  else t.endInjection p

/-- A change of the binding of port p waits for the command in execution (R271): old is the PRT_BIND word in force until then. -/
def State.rebind (s : State) (p : Nat) (old : Word) : State :=
  s.modPort p fun x => { x with bind := some (x.bind.getD old) }

/-- A passing write of PRT_BINDp; r is PRT_BIND0, or PRT_BIND with index i. -/
def State.writeBind (s : State) (r : Reg) (i : Nat) (w : Word) : State :=
  let p := if r = .PRT_BIND0 then 0 else i + 1
  let old := s.rw r i
  let mask := if p = 0 then 6 else 0xFFFF00000007
  let t := s.setRw r w i
  if differ mask old w then t.rebind p old else t

/-- A passing write of GLB_ONCE (R339, R340); a spending FI_DIS ends the injection of every port. -/
def State.writeOnce (s : State) (w : Word) : State :=
  let t := s.setRw .GLB_ONCE w
  if s.bus.once then t
  else
    let t := { t with bus := { t.bus with once := true } }
    if bit w.toNat 1 then forN 5 (fun p u => (u.clr F.PRT_FI_EN p).endInjection p) t else t

/-- A passing write of STM_CFGb (R116): fields other than EN are written with EN = 0. -/
def State.writeStmCfg (s : State) (b : Nat) (w : Word) : State :=
  if s.on F.STM_CFG_EN b then
    if bit w.toNat 0 then s else (s.disableStream b).setRw .STM_CFG w b
  else
    let t := s.setRw .STM_CFG (w &&& ~~~1#64) b
    if bit w.toNat 0 then t.enableStream b else t

/-- A passing write of STM_RINGb: the reference of an enabled binding follows its handle (R124). -/
def State.writeStmRing (s : State) (b : Nat) (w : Word) : State :=
  let old := s.f F.STM_RING_HANDLE b
  let t := s.setRw .STM_RING w b
  if ¬ s.on F.STM_CFG_EN b ∨ old = t.f F.STM_RING_HANDLE b then t
  else
    let t := if t.liveHandle old then t.dropRef none old else t
    if t.liveHandle (t.f F.STM_RING_HANDLE b) then t.addRef (t.f F.STM_RING_HANDLE b) else t

/-- A passing write of BUF_CMD (R130): GO reads 1 until the result stands. -/
def State.writeBufCmd (s : State) (stored w : Word) : State :=
  let t := s.setRw .BUF_CMD stored
  if bit w.toNat 63 then (t.flag F.BUF_CMD_GO).bufCommand else t

/-- A passing write of CH_CTL of channel n (R132, R134, R138). -/
def State.writeChCtl (s : State) (n : Nat) (stored w : Word) : State :=
  let was := s.on F.CH_CTL_EN n
  let t := (s.setRw .CH_CTL stored n).setB F.CH_CTL_EN was n
  let t := if bit w.toNat 0 then (if was then t else t.enableChannel n)
    else if was then t.disableChannel n
    else t.modChan n fun c => { c with again := false }
  if bit w.toNat 1 then t.ncoResync n else t

/-- A passing write of EC_SRC_A or EC_SRC_B (R190, R199). -/
def State.writeSrc (s : State) (r : Reg) (c : Nat) (w : Word) : State :=
  if anyN 4 fun j => bit w.toNat (16 * j + 15) && decide (640 ≤ bits w.toNat (16 * j + 9) (16 * j)) then s.flag F.EVF_STATUS_SRC_ERR
  else (s.guarded r w c).2

/-- A passing write of EVR_CFG (R197, R199). -/
def State.writeRelay (s : State) (r : Nat) (w : Word) : State :=
  let mode := s.f F.EVR_CFG_MODE r
  match s.guarded .EVR_CFG w r with
  | (true, t) => t.afterRelayWrite r .EVR_CFG mode
  | (false, t) => t

/-- A passing write of CORE_QUEUE (R39). -/
def State.writeCoreQueue (s : State) (k : Nat) (stored : Word) : State :=
  if 32 < bits stored.toNat 13 8 then s.setRw .CORE_QUEUE (shown F.CORE_QUEUE_QLOW (s.f F.CORE_QUEUE_QLOW k) stored) k
  else s.setRw .CORE_QUEUE stored k

/-- WORD of core k advances after an access of CORE_DMEM_DATA (R53). -/
def State.nextDmem (s : State) (k : Nat) : State := s.tick F.CORE_DMEM_ADDR_WORD k

/-- A passing write of CORE_DMEM_DATA. -/
def State.writeDmem (s : State) (k : Nat) (w : Word) : State :=
  if s.st k < 2 then s else (s.setDmem k (s.f F.CORE_DMEM_ADDR_WORD k) w).nextDmem k

/-- A passing write of the header, the cost table or the instruction memory of core k: only in HALT (R53). -/
def State.writeImage (s : State) (r : Reg) (k j : Nat) (w : Word) : State :=
  if s.st k = 2 then s.setRw r w k j else s.ignoreCmd k

/-- A passing write of the peer address of Ethernet port i + 1 (R271). -/
def State.writePeer (s : State) (r : Reg) (i : Nat) (w : Word) : State :=
  let t := s.setRw r w i
  if s.rw r i = w then t else t.rebind (i + 1) (s.rw .PRT_BIND i)

/-! ### Applying a write -/

/-- The word to store when w is written over old (R9): RW, RWL and WONCE bits take w, W1C bits written 1 clear, and W1S and RO bits hold.
WO bits read 0. -/
def storedWord (x : RegSpec) (old w : Word) : Word :=
  let m := BitVec.ofNat 64 (x.rw ||| x.rwl ||| x.wonce)
  let c := BitVec.ofNat 64 x.w1c
  let o := BitVec.ofNat 64 x.wo
  (old &&& ~~~(m ||| c ||| o)) ||| (w &&& m) ||| (old &&& c &&& ~~~w)

/-- Whether a word for REFILL_CTL keeps LWM at HWM or below; one that does not is ignored (R109). -/
def refillLegal (w : Nat) : Bool :=
  decide (bits w F.REFILL_CTL_LWM.hi F.REFILL_CTL_LWM.lo ≤ bits w F.REFILL_CTL_HWM.hi F.REFILL_CTL_HWM.lo)

/-- What a write of w to member (i, j) of r does: stored is the word its access codes give. e and ecc: what a core's fetch and a memory
word meet. -/
def State.act (s : State) (r : Reg) (i j : Nat) (stored w : Word) (e ecc : Ecc) : State :=
  match r with
  | .GLB_ONCE => s.writeOnce stored
  | .GLB_PROT0 | .GLB_PROTA | .GLB_PROT11 => s.keepTable.setRw r stored i
  | .GLB_SCLVL => if bits w.toNat 1 0 = 3 ∨ bits w.toNat 3 2 = 3 then s else s.setRw r stored
  | .GLB_CNT_CLR => s.clearGlobal w.toNat
  | .PWR_REQ => s.writePwrReq stored w
  | .PWR_DOM_ON0 => s.writeDomOn 0 stored
  | .PWR_DOM_ON1 => s.writeDomOn 1 stored
  | .PWR_FAULT => let t := s.setRw r stored; if bit w.toNat 15 then t.setF F.PWR_FAULT_WHAT 0xFF else t
  | .PWR_RMEM_DATA => s.writeRest w
  | .CLK_REF_CFG => s.writeRefCfg stored
  | .REF_MON => if refMonLegal w.toNat then s.setRw r stored else s
  | .REF_LOCKDET | .SP_LOCKDET => if lockdetLegal w.toNat then s.setRw r stored i else s
  | .CLK_RELEASE => forN 4 (fun q t => if bit w.toNat q then t.spRelease q else t) s
  | .SP_CTL => s.writeSpCtl i stored w
  | .SP_FREQ => s.writeSpFreq i stored
  | .AUX_CTL => s.writeAuxCtl i stored w
  | .AUX_FREQ | .AUX_PT_N | .AUX_PT_T => s.writeAuxPoint r i j stored
  | .CO_CFG => s.writeCoCfg i stored
  | .TM_CMD => s.writeTmCmd stored w
  | .TM_UNC => (s.setRw r stored).setUnc (bits stored.toNat 47 0)
  | .TM_HO_CFG => s.writeHoCfg stored
  | .PTP_CFG | .PTP_PORT => (s.setRw r stored i).ptpConfigured
  | .CD_CFG => s.writeCdCfg i stored w
  | .TI_CFG => s.writeTiCfg i stored
  | .TO_CFG => s.writeToCfg i stored
  | .EVF_IRQ_SEL | .EVF_WAKE_SEL | .CORE_START_EVT => s.setRouted r stored i j
  | .EVT_FIRE => s.fireBits i w.toNat
  | .EC_SRC_A | .EC_SRC_B => s.writeSrc r i stored
  | .EC_CTL => let x := s.guarded r stored i; if x.1 then x.2.clearBlock r i w.toNat else x.2
  | .EVR_CFG => s.writeRelay i stored
  | .EVR_PARAM | .EVR_START_SEC | .EVR_START_FRAC => (s.setRw r stored i).afterRelayWrite i r 0
  | .CAL_STORE => if bit w.toNat 63 then s.requestStore else s
  | .CAL_CTL => s.writeCalCtl i stored w
  | .CAL_B_MAIN => s.writeBank i 0 w
  | .CAL_B_MK => s.writeBank i 1 w
  | .CAL_B_SLICE => s.writeBank i (2 + j) w
  | .MEM_CFG => s.writeMemCfg stored
  | .MEM_FREQ => s.writeMemFreq stored w
  | .MEM_TRAIN => s.writeMemTrain stored w
  | .MEM_POOL => s.writeMemPool stored
  | .STM_CFG => s.writeStmCfg i stored
  | .STM_RING => s.writeStmRing i stored
  | .REFILL_CTL => if refillLegal stored.toNat then (s.setRw r stored i).refill i else s
  | .BUF_CMD => s.writeBufCmd stored w
  | .PRT_BIND0 | .PRT_BIND => s.writeBind r i stored
  | .PRT_FI => s.writeFi i stored
  | .P0_RSP_IDX | .P0_QCFG => (s.setRw r stored).flushRing.flushNotes 0
  | .ETH_CFG | .ETH_MAC => (s.setRw r stored i).flushNotes (i + 1)
  | .ETH_PEER_HI | .ETH_PEER_LO => s.writePeer r i stored
  | .MSIX_TAB => s.writeMsix i stored
  | .CH_CTL => s.writeChCtl i stored w
  | .CH_CFG | .CH_EPOCH_SEC | .CH_EPOCH_FRAC | .CH_GROUP => s.writeStatic r i stored
  | .CH_COMP => s.writeRuntime r i j 15 0 stored
  | .CH_SLOT => s.writeSlot i j stored
  | .CH_NCO_FW => s.writeRuntime r i j 47 0 stored
  | .CH_NCO_PH => s.writeRuntime r i j 31 0 stored
  | .CH_TRIM => s.writeTrim i stored
  | .CH_TRIM_AUTO => s.writeRuntime r i j 30 0 stored
  | .CH_DAC_CTL => s.writeMute i stored
  | .CH_DAC_CFG => s.writeDacCfg i stored
  | .CH_DAC_RANGE => s.writeRange i stored
  | .MK_CFG => s.writeRuntime r i j 14 0 stored
  | .VOICE_SEGTAB => s.writeSegtab i stored
  | .VOICE_JT => s.writeJt i j stored ecc
  | .CORE_CTL => (s.setRw r stored i).coreCtl i w.toNat e ecc
  | .CORE_QUEUE => (s.writeCoreQueue i stored).clearBlock r i w.toNat
  | .CORE_DMEM_ADDR => s.setRw r (stored &&& ~~~7#64) i
  | .CORE_DMEM_DATA => s.writeDmem i w
  | .CORE_HDR | .CORE_COST | .CORE_IMEM => s.writeImage r i j stored
  | .CORE_LOCK => (s.keepLock i).setRw r stored i
  | _ => (s.setRw r stored i j).clearBlock r i w.toNat

/-! ### Stopped domains and the device state (R289, R291) -/

/-- The power domain that holds the registers at an offset: none in the Rest domain and the service blocks. -/
def domainOf (off : Nat) : Option Nat :=
  if off < 0x20000 then none
  else if 0x21000 ≤ off ∧ off < 0x21400 then some (60 + (off - 0x21000) / 0x100)
  else if 0x21800 ≤ off ∧ off < 0x22000 then some (60 + (off - 0x21800) / 0x200)
  else if 0x23000 ≤ off ∧ off < 0x23800 then some (70 + (off - 0x23000) / 0x400)
  else if 0x51000 ≤ off ∧ off < 0x53000 then some (32 + (off - 0x51000) / 0x200)
  else if 0x60200 ≤ off ∧ off < 0x60300 then some (56 + (off - 0x60200) / 0x40)
  else if 0x70000 ≤ off ∧ off < 0x70140 then some (64 + (off - 0x70000) / 0x40)
  else if 0x71000 ≤ off ∧ off < 0x72000 then some 64
  else if 0x72000 ≤ off ∧ off < 0x72100 then some (65 + (off - 0x72000) / 0x40)
  else if 0x100000 ≤ off ∧ off < 0x200000 then
    let n := (off - 0x100000) / 0x10000
    some (if 0x8000 ≤ off % 0x10000 then n else if 0x1000 ≤ off % 0x10000 ∧ off % 0x10000 < 0x2000 then 32 + n else 16 + n)
  else if 0x200000 ≤ off ∧ off < 0x400000 then some ((off - 0x200000) / 0x8000 / 4)
  else if 0x400000 ≤ off ∧ off < 0x800000 then some ((off - 0x400000) / 0x10000 / 4)
  else none

/-- Whether the registers at an offset lie in a domain that an entry handshake has stopped. -/
def State.stoppedAt (s : State) (off : Nat) : Bool := match domainOf off with | some d => s.frozen d | none => false

/-- The reserved bits of member i of a register that a write may not change (R331): those of its family, the unused rest of GLB_TRB4, and
what DIVIDE leaves of EVR_PARAM. -/
def State.rsvdMask (s : State) (r : Reg) (i : Nat) : Nat :=
  if r = .GLB_TRB ∧ i = 4 then 2 ^ 48 - 1
  else if r = .EVR_PARAM ∧ s.f F.EVR_CFG_MODE i = 2 then 0xFFFFFFFFFFFF0000
  else r.spec.rsvd

/-- Whether an offset lies in the control block or the instruction memory of a core that is OFF, or in the slice of its voice (R52,
R108), or among the registers of a channel whose datapath domain is OFF and so holds nothing (R289; DEDUCED, log entry 73). -/
def State.offCore (s : State) (off : Nat) : Bool :=
  if 0x100000 ≤ off ∧ off < 0x200000 then
    if 0x8000 ≤ off % 0x10000 then
      decide (off % 0x10000 < 0xC000) && s.st (4 * ((off - 0x100000) / 0x10000) + (off % 0x10000 - 0x8000) / 0x1000) == 0
    else !s.dom (16 + (off - 0x100000) / 0x10000)
  else if 0x200000 ≤ off ∧ off < 0x400000 then s.st ((off - 0x200000) / 0x8000) == 0
  else decide (0x400000 ≤ off) && s.st ((off - 0x400000) / 0x10000) == 0

/-- A write gave a reserved field a new value (R331). -/
def State.noteReserved (s : State) (q : Requester) (off : Nat) : State :=
  let t := s.flag F.GLB_STATUS_RSVD_WR
  if t.on F.GLB_CFG_RSVD_REC then t.setRw .GLB_RSVD_LAST (BitVec.ofNat 64 (2 ^ 63 + reqCode q * 2 ^ 57 + off)) else t

/-- A 64-bit write of w at offset off by requester q, with the answer whether protection refused it (R326, R331, R337, R341). -/
def State.busWrite (s : State) (q : Requester) (off : Nat) (w : Word) (e ecc : Ecc) : Bool × State :=
  if ¬ s.bound q ∨ s.resting then (false, s)
  else if s.dozing ∧ off ≠ 0x10000 then (false, s.flag F.PWR_STATUS_STOPPED_WR)
  else match Reg.ofOffset off with
    | none => (false, s)
    | some (r, i, j) =>
      let c := s.checkWrite q r i j off w
      let t := match c.cause with | some k => s.refuseAccess q k false 0 off | none => s
      match c.word with
      | none => (c.cause.isSome, t)
      | some v =>
        if t.offCore off then (c.cause.isSome, t)
        else if t.stoppedAt off then (c.cause.isSome, t.flag F.PWR_STATUS_STOPPED_WR)
        else
          let u := t.act r i j (storedWord r.spec (t.rw r i j) v) v e ecc
          (c.cause.isSome, if differ (t.rsvdMask r i) (t.heldWord r i j) v then u.noteReserved q off else u)

/-! ### Reads (R328, R330) -/

/-- Whether BAR0 answers a read of an offset in the present device state (R289). -/
def State.answers (s : State) (q : Requester) (off : Nat) : Bool :=
  s.bound q && !s.resting && (!s.dozing || (q == .port0 && decide (off < 0x20000)))

/-- What a read does beside its value (R330); e: what a memory word meets. -/
def State.readEffect (s : State) (q : Requester) (r : Reg) (i j : Nat) (e : Ecc) : State :=
  match r with
  | .TM_NOW_SEC =>
    let l := sput (fun _ => 0#64) s.time.latches (reqCode q) (BitVec.ofNat 64 (s.now % second))
    { s with time := { s.time with latches := l } }
  | .PWR_RMEM_DATA => s.readRest e
  | .CORE_DMEM_DATA =>
    if s.st i < 2 then s
    else
      let t := s.coreEcc e (8 * s.f F.CORE_DMEM_ADDR_WORD i)
      (if e.bad then t.flag F.CORE_STATUS_DMEM_UE i else t).nextDmem i
  | .CORE_IMEM =>
    if s.st i < 2 then s
    else
      let t := s.coreEcc e (8 * j)
      if e.bad then t.flag F.CORE_STATUS_DMEM_UE i else t
  | _ => s

/-- A 64-bit read at offset off by requester q: its value and the state after it. One that DOZE does not answer sets STOPPED_WR (R289). -/
def State.busRead (s : State) (q : Requester) (off : Nat) (e : Ecc) : Word × State :=
  if ¬ s.answers q off then (0, if s.bound q ∧ s.dozing then s.flag F.PWR_STATUS_STOPPED_WR else s)
  else match Reg.ofOffset off with
    | none => (0, s)
    | some (r, i, j) =>
      if s.access (s.level q) (regionOf off) = 0 then (0, s.refuseAccess q .region true 0 off)
      else (s.view q r i j, s.readEffect q r i j e)

/-- The device keeps what a read returned, for statements to name. -/
def State.give (s : State) (q : Requester) (v : Word) : State :=
  { s with bus := { s.bus with got := sput (fun _ => 0) s.bus.got (reqCode q) v } }

/-! ### Shadows (R328, R329) -/

def State.readShadow (s : State) (q : Requester) : Option (Nat × Half) := sget (fun _ => none) s.bus.reads (reqCode q)
def State.writeShadow (s : State) (q : Requester) : Option (Nat × Half) := sget (fun _ => none) s.bus.writes (reqCode q)
def State.setReadShadow (s : State) (q : Requester) (v : Option (Nat × Half)) : State :=
  { s with bus := { s.bus with reads := sput (fun _ => none) s.bus.reads (reqCode q) v } }
def State.setWriteShadow (s : State) (q : Requester) (v : Option (Nat × Half)) : State :=
  { s with bus := { s.bus with writes := sput (fun _ => none) s.bus.writes (reqCode q) v } }

/-- The next BAR0 access of q, act: its shadows end, and a low word that the access does not complete is discarded with HALF_DROP. -/
def State.nextAccess (s : State) (q : Requester) (act : State → State) : State :=
  let t := act ((s.setReadShadow q none).setWriteShadow q none)
  if (s.writeShadow q).isSome then t.flag F.GLB_STATUS_HALF_DROP else t

/-- A 64-bit write as the next access of q. -/
def State.put (s : State) (q : Requester) (off : Nat) (w : Word) (e ecc : Ecc) : State :=
  s.nextAccess q fun t => (t.busWrite q off w e ecc).2

/-- A 32-bit write of a high word with no low word held: the low word is the register's own, its W1C, W1S and WO bits taken as 0. -/
def State.putLone (s : State) (q : Requester) (off : Nat) (h : Half) (e ecc : Ecc) : State :=
  let low : Half := match Reg.ofOffset off with
    | some (r, i, j) => ((s.view q r i j) &&& ~~~(BitVec.ofNat 64 (r.spec.w1c ||| r.spec.w1s ||| r.spec.wo))).setWidth 32
    | none => 0
  (s.busWrite q off (h ++ low) e ecc).2

/-- A 32-bit write of the high word of the register at off (R329). -/
def State.putHigh (s : State) (q : Requester) (off : Nat) (h : Half) (e ecc : Ecc) : State :=
  match s.writeShadow q with
  | some (o, l) =>
    if o = off then (((s.setReadShadow q none).setWriteShadow q none).busWrite q off (h ++ l) e ecc).2
    else s.nextAccess q fun t => t.putLone q off h e ecc
  | none => s.nextAccess q fun t => t.putLone q off h e ecc

/-- A write as the next access of q, 64 bits or a high half. -/
def State.putData (s : State) (q : Requester) (off : Nat) (d : WriteData) (e ecc : Ecc) : State :=
  match d with
  | .full w => s.put q off w e ecc
  | .high h => s.putHigh q off h e ecc

/-- A read as the next access of q (R328). -/
def State.get (s : State) (q : Requester) (off : Nat) (part : ReadPart) (e : Ecc) : State :=
  let high := fun (t : State) => let x := t.busRead q off e; x.2.give q (x.1 >>> 32)
  match part, s.readShadow q with
  | .full, _ => s.nextAccess q fun t => let x := t.busRead q off e; x.2.give q x.1
  | .low, _ =>
    s.nextAccess q fun t =>
      let x := t.busRead q off e
      (x.2.give q (x.1 &&& 0xFFFFFFFF#64)).setReadShadow q (some (off, x.1.extractLsb' 32 32))
  | .high, some (o, h) => s.nextAccess q fun t => if o = off then t.give q (h.setWidth 64) else high t
  | .high, none => s.nextAccess q high

end Sys2Proof.Machine
end

