-- ==== Sys2Proof/Machine/Mlp.lean ====
section
/-! DEFINITION. The link protocol (chapter 13): the commands of MLP, sequence numbers, sessions, the journal, image loading, and the
receive side of fault injection. -/

namespace Sys2Proof.Machine

/-! ### Commands as messages (R272, R275) -/

def MlpOp.code : MlpOp → Nat
  | .ping => 1 | .openSession => 2 | .journalRead _ _ => 3 | .noteRead _ _ => 4
  | .regRead _ _ _ => 0x10 | .regWrite _ _ _ _ => 0x11 | .memRead _ _ _ _ => 0x20 | .memWrite _ _ _ _ => 0x21
  | .imageLoad _ _ _ => 0x30 | .noteCfg _ => 0x40 | .dsGet _ => 0x50 | .dsSet _ _ => 0x51

/-- The opcodes of Table: MLP commands. -/
def mlpCodes : List Nat := [1, 2, 3, 4, 0x10, 0x11, 0x20, 0x21, 0x30, 0x40, 0x50, 0x51]

/-- The opcode that a message names: that of its command, or another one that the table does not hold (R275). -/
def MlpMsg.code (m : MlpMsg) : Nat :=
  match m.head.code with
  | some c => if mlpCodes.contains c.toNat then m.op.code else c.toNat
  | none => m.op.code

/-- Whether the command's kind is OOB. -/
def MlpOp.isOob (o : MlpOp) : Bool := decide (o.code < 0x10)

/-- Whether a message is answered with OPCODE at once: FLAGS.OOB is not that of the command's kind, or the opcode is unknown (R275). -/
def MlpMsg.misnamed (m : MlpMsg) : Bool := m.head.oob != m.op.isOob || !mlpCodes.contains m.code

/-- Length of the command's payload in bytes. -/
def MlpOp.size : MlpOp → Nat
  | .ping | .openSession => 0
  | .journalRead _ _ | .noteRead _ _ => 8
  | .regRead _ _ _ => 12
  | .regWrite _ _ vals _ => 12 + 8 * vals.length
  | .memRead _ _ _ _ => 24
  | .memWrite _ _ _ vals => 24 + 8 * vals.length
  | .imageLoad _ _ image => 8 + 8 * image.length
  | .noteCfg _ => 4
  | .dsGet _ => 2
  | .dsSet _ data => 2 + data.length

def bytesOf (ws : List Word) : List Byte := ws.flatMap fun w => leBytes 8 w.toNat

/-- The bytes of a message (R272): its header with its CRC, then its payload. -/
def MlpOut.bytes (m : MlpOut) : List Byte :=
  let head := leBytes 2 0x4C4D ++ leBytes 1 1 ++ leBytes 1 (if m.note then 3 else 2) ++ leBytes 2 m.code ++
    leBytes 2 (m.oob.toNat + 2 * m.replay.toNat) ++ leBytes 4 m.hsn ++ leBytes 4 m.dsn ++ leBytes 4 m.payload.length ++
    leBytes 2 m.status ++ leBytes 2 m.session ++ leBytes 4 0
  head ++ leBytes 4 (crc32 (head ++ leBytes 4 0 ++ m.payload)) ++ m.payload

/-- The bytes of a journal entry (R280). -/
def JEntry.bytes (e : JEntry) : List Byte := (List.range 4).flatMap fun j => leBytes 8 (e.word j)

/-! ### Responses (R273, R274, R278) -/

/-- Most bytes of response payload that a command on port p can take: on PORT0 the tail or the response buffer, elsewhere the datagram. -/
def State.replyLimit (s : State) (p room n : Nat) : Nat :=
  if p = 0 then (if n ≤ 32 then 32 else min room 262144)
  else
    let four := s.f F.ETH_PEER_HI_ADDR (p - 1) == 0 && s.f F.ETH_PEER_LO_ADDR (p - 1) / 2 ^ 32 == 0xFFFF
    s.f F.ETH_CFG_MTU (p - 1) - (if four then 60 else 80)

/-- What a command answers: its status and payload, and the state it leaves. -/
structure Reply where
  status : Nat := 0
  payload : List Byte := []
  state : State

/-- A payload that does not fit is truncated, with status LENGTH. -/
def Reply.fit (r : Reply) (p room : Nat) : Reply :=
  let n := r.state.replyLimit p room r.payload.length
  if r.payload.length ≤ n then r else { r with status := 4, payload := r.payload.take n }

/-- An OOB response: DSN 0, not journaled. -/
def State.replyOob (s : State) (p : Nat) (m : MlpMsg) (status : Nat) (payload : List Byte) : State :=
  s.transmit p { note := false, code := m.code, hsn := m.head.hsn.toNat, status := status, session := s.session p, oob := true,
                 payload := payload }

/-! ### Bindings and sessions (R271, R279) -/

/-- The waiting binding change of port p applies: held commands and queued notifications go, and the session ends. -/
def State.applyBind (s : State) (p : Nat) : State :=
  if (s.port p).bind.isSome ∧ (s.port p).exec = none then
    ((s.modPort p fun x => { x with bind := none, opened := false, held := [], gap := none, mask := 0, waiting := [] }).nextSession p).clr
      F.PRT_SEQ_LAST_DSN p
  else s

/-- OPEN (R277, R279, R281). -/
def State.openSession (s : State) (p hsn : Nat) : State :=
  ((((s.modPort p fun x => { x with opened := true, held := [], gap := none, mask := 6 }).nextSession p).setF
    F.PRT_SEQ_NEXT_HSN hsn p).noteBind p)

/-- An OOB command executes on arrival (R275, R279). -/
def State.runOob (s : State) (p : Nat) (hsn : Nat) (o : MlpOp) : Reply :=
  match o with
  | .ping =>
    let t := s.now
    ⟨0, leBytes 2 (s.session p) ++ leBytes 1 (s.portLevel p) ++ leBytes 1 (s.port p).held.length ++
      leBytes 4 (s.f F.PRT_SEQ_NEXT_HSN p) ++ leBytes 4 (s.f F.PRT_SEQ_LAST_DSN p) ++ leBytes 4 (s.f F.LNK_JNL_ESEQ) ++
      leBytes 8 (t % second) ++ leBytes 8 (t / second), s⟩
  | .openSession =>
    let t := s.openSession p hsn
    ⟨0, leBytes 2 (t.session p) ++ leBytes 2 0 ++ leBytes 4 (t.f F.PRT_SEQ_LAST_DSN p), t⟩
  | .journalRead first count =>
    if count = 0 ∨ 32 < count.toNat then ⟨5, [], s⟩
    else ⟨0, (s.link.journal.reverse.filter fun e => decide ((e.eseq + 2 ^ 32 - first.toNat) % 2 ^ 32 < count.toNat)).flatMap JEntry.bytes, s⟩
  | .noteRead first count =>
    if count = 0 ∨ 16 < count.toNat then ⟨5, [], s⟩
    else ⟨0, ((s.port p).notes.reverse.filter fun m => decide ((m.dsn + 2 ^ 32 - first.toNat) % 2 ^ 32 < count.toNat)).flatMap fun m =>
      (m.bytes ++ List.replicate 32 0#8).take 64, s⟩
  | _ => ⟨3, [], s⟩

/-! ### Register and memory commands (R275) -/

/-- What the later accesses of a run meet: table and locks as they stand, since each is applied in a core cycle of its own (R336, R338). -/
def State.laterCycle (s : State) : State := { s with bus := { s.bus with table := none, locks := [] } }

/-- After a run an access of the core cycle in which the run's first one, which left t, was applied still meets what that cycle began with. -/
def State.sameCycle (s t : State) : State := { s with bus := { s.bus with table := t.bus.table, locks := t.bus.locks } }

/-- The values of n registers from offset off, read in order. -/
def State.readRun (s : State) (q : Requester) (off : Nat) (e : Ecc) : Nat → List Word × State
  | 0 => ([], s)
  | n + 1 =>
    let t := s.get q off .full e
    let x := t.laterCycle.readRun q (off + 8) e n
    (sget (fun _ => 0#64) t.bus.got (reqCode q) :: x.1, x.2.sameCycle t)

/-- Registers from offset off are written in order, each in a core cycle of its own (R336); the answer counts the ignored writes. -/
def State.writeRun (s : State) (q : Requester) (off : Nat) (e : Ecc) : List Word → Nat × State
  | [] => (0, s)
  | w :: ws =>
    let x := s.busWrite q off w .clean e
    let y := x.2.laterCycle.writeRun q (off + 8) e ws
    (x.1.toNat + y.1, y.2.sameCycle x.2)

/-- Whether a run of n registers at off lies in BAR0. -/
def runOk (off n : Nat) : Bool := off % 8 == 0 && decide (1 ≤ n) && decide (n ≤ 64) && decide (off + 8 * n ≤ 2 ^ 24)

/-- Whether a memory command's region, address and length are good. -/
def State.spanGood (s : State) (region addr len : Nat) : Bool :=
  decide (region ≤ 1) && addr % 8 == 0 && len % 8 == 0 && decide (addr + len ≤ if region = 1 then s.dramBytes else sramBytes)

/-- The words of a region from addr on as a MEM_READ meets them: whether one was uncorrected, and the state; e: what the first meets. -/
def State.memRun (s : State) (d : Bool) (addr : Nat) (e : Ecc) : Nat → Bool × State
  | 0 => (false, s)
  | n + 1 =>
    let bad := (foundEcc d (s.poisoned d addr) e).bad
    let x := (s.readChecked d addr e 2).memRun d (addr + 8) .clean n
    (bad || x.1, x.2)

def State.memRead (s : State) (q : Requester) (region addr len : Nat) (e : Ecc) : Reply :=
  if ¬ s.spanGood region addr len then ⟨5, [], s⟩
  else if s.access (s.level q) (88 + region) = 0 then
    ⟨0, List.replicate len 0#8, s.refuseAccess q .region true (1 + region) addr⟩
  else
    let d := region == 1
    let x := s.memRun d addr e (len / 8)
    ⟨if x.1 then 9 else 0, (List.range len).map fun i => s.byte d (addr + i), x.2⟩

def State.memWrite (s : State) (q : Requester) (region addr len : Nat) (vals : List Word) : Reply :=
  if ¬ s.spanGood region addr len then ⟨5, [], s⟩
  else if 8 * vals.length ≠ len then ⟨4, [], s⟩
  else if s.access (s.level q) (88 + region) ≠ 2 then ⟨0, [], s.refuseAccess q .region false (1 + region) addr⟩
  else ⟨0, [], (s.writeWords (region == 1) addr vals).takeDoorbell⟩

/-! ### Images (R41, R46, R275) -/

/-- n bytes of an image at a byte offset, little-endian. -/
def imgAt (image : List Word) (off : Nat) : Nat → Nat
  | 0 => 0
  | n + 1 => bits (image.getD (off / 8) 0).toNat (8 * (off % 8) + 7) (8 * (off % 8)) + 256 * imgAt image (off + 1) n

/-- Whether the image's parts lie inside it and its CRC is right (R41). -/
def imgGood (image : List Word) : Bool :=
  let size := 8 * image.length
  let u := fun (o : Nat) => imgAt image o 4
  let inside := fun (o n : Nat) => decide (o + n ≤ size)
  decide (64 ≤ size) && inside (u 0x10) (u 0x14) && inside (u 0x18) (u 0x1C) && inside (u 0x20) (32 * imgAt image 0x24 2) &&
    decide (imgAt image 0x2C 2 ≤ 16) && inside (u 0x28) (8 * imgAt image 0x2C 2) &&
    crcWords (image.set 7 (image.getD 7 0 &&& 0xFFFFFFFF#64)) == u 0x3C

/-- n words of an image from a byte offset. -/
def imgWords (image : List Word) (off n : Nat) : List Word := (List.range n).map fun i => BitVec.ofNat 64 (imgAt image (off + 8 * i) 8)

/-- The header and cost-table words of an image and the registers that take them (step 4). -/
def headWrites (k : Nat) (image : List Word) : List (Nat × Word) :=
  let cost := imgWords image (imgAt image 0x20 4) (4 * imgAt image 0x24 2)
  ((List.range 8).map fun i => (Reg.CORE_HDR.addr k i, image.getD i 0)) ++
    (List.range cost.length).map fun i => (Reg.CORE_COST.addr k i, cost.getD i 0)

/-- ARM_ERR that the checks of R46 which need no reservation find on an image for core k. -/
def State.imageArmCode (s : State) (k : Nat) (image : List Word) : Nat :=
  let t := (headWrites k image).foldl (fun u p => u.setWord p.1 p.2) s
  let c := t.armCode k
  if c = 9 then 0 else c

/-- The register writes of steps 2 to 5 of the loading procedure. -/
def imageWrites (k : Nat) (image : List Word) : List (Nat × Word) :=
  let text := imgWords image (imgAt image 0x10 4) (imgAt image 0x14 4 / 8)
  let data := imgWords image (imgAt image 0x18 4) (imgAt image 0x1C 4 / 8)
  let jt := imgWords image (imgAt image 0x28 4) (imgAt image 0x2C 2)
  ((List.range text.length).map fun i => (Reg.CORE_IMEM.addr k i, text.getD i 0)) ++
    (Reg.CORE_DMEM_ADDR.addr k 0, 0) :: (data.map fun w => (Reg.CORE_DMEM_DATA.addr k 0, w)) ++ headWrites k image ++
    (List.range jt.length).map fun i => (Reg.VOICE_JT.addr k i, jt.getD i 0)

/-- The response payload of IMAGE_LOAD. -/
def State.imageReply (s : State) (k : Nat) : List Byte :=
  leBytes 8 (s.rw .CORE_STATUS k).toNat ++ leBytes 2 (s.f F.VOICE_JT_STAT_LOADED k) ++ leBytes 6 0

/-- Steps 2 to 5 on core k, once the checks pass; otherwise the status that says which failed. An image that passes R46's
checks and fails one of R41 has no code of R46 to show, so ARM_ERR is free then. -/
def State.loadImage (s : State) (q : Requester) (k : Nat) (image : List Word) : Reply :=
  if 64 ≤ k then ⟨5, [], s⟩
  else if s.st k ≠ 2 then ⟨7, s.imageReply k, s⟩
  else
    let c := s.imageArmCode k image
    if 8 ≤ image.length ∧ c ≠ 0 then
      let t := s.setF F.CORE_STATUS_ARM_ERR c k
      ⟨8, t.imageReply k, t⟩
    else if ¬ imgGood image then
      let t := s.drawn.setF F.CORE_STATUS_ARM_ERR s.free.toNat k
      ⟨8, t.imageReply k, t⟩
    else
      let t := ((imageWrites k image).foldl (fun u p => (u.busWrite q p.1 p.2 .clean .clean).2) s.laterCycle).sameCycle s
      ⟨0, t.imageReply k, t⟩

/-- Whether the image's jump-table entries of core k are loaded. -/
def State.imageLoaded (s : State) (k : Nat) : Bool :=
  let n := s.hdr k 5 47 32
  !anyN n fun i => !bit (s.f F.VOICE_JT_STAT_LOADED k) i

/-- Step 7: the core is armed. -/
def State.imageArm (s : State) (q : Requester) (k : Nat) : State :=
  (s.busWrite q (Reg.CORE_CTL.addr k 0) (s.rw .CORE_CTL k ||| 2#64) .clean .clean).2

/-! ### Datasets (R275) -/

/-- What PTP_DS_GET returns: the fields the spec gives, what was written, or what the standard lays out. The port identity that parentDS
begins with is not received by any command and is drawn. -/
def State.dsGet (s : State) (p id : Nat) : Reply :=
  if id = 0x2004 then ⟨0, s.portDs (p - 1), s⟩
  else if id = 0x2002 then ⟨0, (Config.dataset s.choice id ++ List.replicate 10 0).take 10 ++ s.parentTail, s.drawn⟩
  else if s.dataset id = [] then ⟨0, Config.dataset s.choice id, s.drawn⟩ else ⟨0, s.dataset id, s⟩

/-! ### Sequenced commands (R277 to R280) -/

/-- A sequenced command of port p, but for the wait of an IMAGE_LOAD with ARM. -/
def State.performMlp (s : State) (p : Fin 5) (m : MlpMsg) : Reply :=
  let q := portReq p
  if m.op.isOob ∨ (p ≠ 0 ∧ m.op.code = 0x30) then ⟨3, [], s⟩
  else if ¬ m.head.fits then ⟨4, [], s⟩
  else
    match m.op with
    | .regRead off n e =>
      if runOk off.toNat n.toNat then let x := s.readRun q off.toNat e n.toNat; ⟨0, bytesOf x.1, x.2⟩ else ⟨5, [], s⟩
    | .regWrite off n vals e =>
      if ¬ runOk off.toNat n.toNat then ⟨5, [], s⟩
      else if vals.length ≠ n.toNat then ⟨4, [], s⟩
      else
        let t := s.nextAccess q id
        let x := t.writeRun q off.toNat e vals
        ⟨0, leBytes 4 x.1, x.2⟩
    | .memRead r a l e => s.memRead q r.toNat a.toNat l.toNat e
    | .memWrite r a l vals => s.memWrite q r.toNat a.toNat l.toNat vals
    | .imageLoad k _ image => s.loadImage q k.toNat image
    | .noteCfg mask => ⟨0, [], s.modPort p fun x => { x with mask := mask.toNat }⟩
    | .dsGet id => s.dsGet p id.toNat
    | .dsSet id data => if s.level q = 2 then ⟨6, [], s⟩ else ⟨0, [], (s.setDataset id.toNat data).ptpConfigured⟩
    | _ => ⟨3, [], s⟩

/-- The journal entry of a command that begins (R280). -/
def State.journalBegin (s : State) (p : Nat) (m : MlpMsg) : Nat × State :=
  let n := (s.link.written + 1) % 2 ^ 32
  let e : JEntry := { eseq := n, hsn := m.head.hsn.toNat, opcode := m.op.code, port := p, session := s.session p }
  (n, { s with link := { s.link with journal := (e :: s.link.journal).take 256, written := s.link.written + 1 } }.setF F.LNK_JNL_ESEQ n)

/-- A journal entry changes. -/
def State.modEntry (s : State) (eseq : Nat) (g : JEntry → JEntry) : State :=
  { s with link := { s.link with journal := s.link.journal.map fun e => if e.eseq = eseq then g e else e } }

/-- A sequenced command of port p completes with r: it takes its DSN, the journal records it, NEXT_HSN counts, and its response goes out
unless a reset of PORT0 came between. -/
def Reply.complete (r : Reply) (p : Nat) (hsn op session eseq : Nat) (mute : Bool) : State :=
  let s := r.state
  let d := s.nextDsn p
  let t := (s.setF F.PRT_SEQ_LAST_DSN d p).modEntry eseq fun e => { e with done := true, dsn := d, status := r.status, time := s.now }
  let t := if t.session p = session then t.setF F.PRT_SEQ_NEXT_HSN (hsn + 1) p else t
  let t := if mute then t
    else t.transmit p { note := false, code := op, hsn := hsn, dsn := d, status := r.status, session := session, payload := r.payload }
  t.applyBind p

/-- A sequenced command whose turn it is executes. -/
def State.execute (s : State) (p : Fin 5) (m : MlpMsg) : State :=
  let (eseq, s) := s.journalBegin p m
  let session := s.session p
  let hsn := m.head.hsn.toNat
  let r := s.performMlp p m
  match m.op with
  | .imageLoad k true _ =>
    if r.status ≠ 0 then (r.fit p m.head.room.toNat).complete p hsn m.op.code session eseq false
    else r.state.modPort p fun x =>
      { x with exec := some { hsn := hsn, core := k.toNat, session := session, eseq := eseq, until_ := s.now + second / 500 } }
  | _ => (r.fit p m.head.room.toNat).complete p hsn m.op.code session eseq false

/-- The gap timer of port p (R277): it runs while commands are held behind a missing one, and so not while a command executes. -/
def State.gapTimer (s : State) (p : Nat) : State :=
  s.modPort p fun x => { x with gap := if x.held.isEmpty || x.exec.isSome then none else some (x.gap.getD s.now) }

/-- The held commands of port p that have become due execute in HSN order; the gap timer runs while some stay. -/
def State.dueHeld (s : State) (p : Fin 5) : Nat → State
  | 0 => s.gapTimer p
  | n + 1 =>
    let x := s.port p
    match x.held.find? fun m => m.head.hsn.toNat == s.f F.PRT_SEQ_NEXT_HSN p with
    | some m =>
      if x.exec.isSome ∨ ¬ x.opened then s.gapTimer p
      else
        let t := s.modPort p fun y => { y with held := x.held.erase m, gap := none }
        (t.execute p m).dueHeld p n
    | none => s.gapTimer p

/-- A held command (R277): a second copy of a held HSN replaces the first, and the oldest starts the gap timer. -/
def State.hold (s : State) (p : Nat) (m : MlpMsg) : State :=
  (s.modPort p fun x => { x with held := (x.held.filter fun y => y.head.hsn != m.head.hsn) ++ [m] }).gapTimer p

/-- Whether port p executes the command with HSN hsn of its present session. -/
def State.executes (s : State) (p hsn : Nat) : Bool :=
  (s.port p).exec.any fun x => x.session == s.session p && x.hsn == hsn

/-- A command already behind NEXT_HSN (R277): its response is replayed, or it is STALE. -/
def State.behind (s : State) (p : Nat) (m : MlpMsg) : State :=
  match s.link.journal.find? fun e => e.port == p && e.session == s.session p && e.hsn == m.head.hsn.toNat with
  | some e =>
    if e.done then
      (s.modEntry e.eseq fun y => { y with replayed := true }).transmit p
        { note := false, code := e.opcode, hsn := e.hsn, dsn := e.dsn, status := e.status, session := e.session, replay := true }
    else s
  | none => s.replyOob p m 2 []

/-- A sequenced command arrives (R277). One of a new session whose turn it is waits while a command of the old one executes (R279). -/
def State.sequence (s : State) (p : Fin 5) (m : MlpMsg) : State :=
  let d := (m.head.hsn.toNat + 2 ^ 32 - s.f F.PRT_SEQ_NEXT_HSN p) % 2 ^ 32
  if ¬ (s.port p).opened then s.replyOob p m 1 []
  else if d = 0 then
    if s.executes p m.head.hsn.toNat then s
    else if (s.port p).exec.isSome then s.hold p m
    else ((s.modPort p fun x => { x with gap := none }).execute p m).dueHeld p 18
  else if d ≤ 16 then s.hold p m
  else if d < 2 ^ 31 then s.dropMessage p
  else s.behind p m

/-- A message that the port accepts is treated (R275, R279, R284): while SC1 is halted only PING is answered, by the port hardware. One with
a wrong flag or an unknown opcode is answered OPCODE as an OOB response and is not sequenced (DESIGN CHOICE, log entry 45). -/
def State.treatMlp (s : State) (p : Fin 5) (m : MlpMsg) : State :=
  let s := s.applyBind p
  if ¬ s.boot.running then
    if m.op = .ping ∧ ¬ m.misnamed then
      let answer := leBytes 2 0 ++ leBytes 1 (s.portLevel p) ++ leBytes 1 0 ++ leBytes 4 (s.f F.PRT_SEQ_NEXT_HSN p) ++
        leBytes 4 (s.f F.PRT_SEQ_LAST_DSN p) ++ leBytes 4 0 ++ leBytes 8 (s.now % second) ++ leBytes 8 (s.now / second)
      s.transmit p { note := false, code := 1, hsn := m.head.hsn.toNat, oob := true, payload := answer }
    else s
  else if m.misnamed then s.replyOob p m 3 []
  else if m.head.oob then
    let r : Reply := if ¬ m.head.fits then ⟨4, [], s⟩ else s.runOob p m.head.hsn.toNat m.op
    let r := r.fit p m.head.room.toNat
    r.state.replyOob p m r.status r.payload
  else s.sequence p m

/-! ### Streams from a port (R118, R270, R272) -/

/-- A stream packet of port p is treated; on PORT0 its entry is acknowledged. -/
def State.treatStream (s : State) (p : Nat) (m : StreamMsg) : State :=
  let t := match s.streamBinding p m with
    | some b => if s.streamPort p m.udp.toNat b then s.streamRx b false m else s.dropPacket b
    | none => s
  if p = 0 then t.offerTx 0 (.streamAck false) else t

/-! ### The receive injector (R283) -/

/-- Length of a frame in bytes; on PORT0 it is a ring entry with its payload: an entry of 64 bytes, of which 32 are the MLP header. -/
def RxFrame.size (p : Nat) : RxFrame → Nat
  | .mlp m => (if p = 0 then 64 else 32) + m.op.size
  | .stream m => (if p = 0 then 64 else 0) + 32 + 8 * m.payload.length
  | .bad n => if p = 0 then 32 + max 32 n else n

/-- Bit b of a stream packet inverted. -/
def StreamMsg.flip (m : StreamMsg) (b : Nat) : StreamMsg :=
  let x := fun (w : Word) => w ^^^ BitVec.ofNat 64 (2 ^ (b % 64))
  match b / 64 with
  | 0 => { m with h0 := x m.h0 }
  | 1 => { m with h1 := x m.h1 }
  | 2 => { m with h2 := x m.h2 }
  | 3 => { m with h3 := x m.h3 }
  | k + 4 => { m with payload := m.payload.modify k x }

/-- A corrupted frame: the CRC of an MLP message finds it, and a datagram's stream packet goes on with the inverted bit. -/
def RxFrame.corrupt (f : RxFrame) (p b : Nat) : RxFrame :=
  match f with
  | .stream m => if p = 0 then .bad (32 + 32 + 8 * m.payload.length) else .stream (m.flip b)
  | .mlp m => .bad (32 + m.op.size)
  | .bad n => .bad n

/-- The receive group of port p is released in reverse order. -/
def State.releaseRx (s : State) (p : Nat) : State :=
  let g := (s.port p).rxGroup
  if g.isEmpty then s
  else (s.modPort p fun x => { x with rxGroup := [], ready := x.ready ++ g.reverse }).bump F.PRT_FI_CNT_REORDERED p

/-- A received frame is offered to the injector of port p. -/
def State.offerRx (s : State) (p : Nat) (f : RxFrame) : State :=
  let on : Bool := s.injects p 0 && (match f with | .stream _ => s.on F.PRT_FI_STRM p | _ => true)
  if ¬ on then s.modPort p fun x => { x with ready := x.ready ++ [f] }
  else
    let k := (s.port p).rxCount + 1
    let s := s.modPort p fun x => { x with rxCount := k }
    match s.injected p k (f.size p) with
    | none => (s.bump F.PRT_FI_CNT_DROPPED p).dropMessage p
    | some hit =>
      let s := if hit then s.bump F.PRT_FI_CNT_CORRUPTED p else s
      let f := if hit then f.corrupt p (s.f F.PRT_FI_CORR_BIT p) else f
      if s.reorderWidth p = 0 then s.modPort p fun x => { x with ready := x.ready ++ [f] }
      else
        let t := s.modPort p fun x => { x with rxGroup := x.rxGroup ++ [f], rxAt := if x.rxGroup.isEmpty then s.now else x.rxAt }
        if s.reorderWidth p ≤ (t.port p).rxGroup.length then t.releaseRx p else t

/-- A frame that has passed the injector is treated. -/
def State.treat (s : State) (p : Fin 5) (f : RxFrame) : State :=
  match f with
  | .mlp m => s.treatMlp p m
  | .stream m => s.treatStream p m
  | .bad _ => s.dropMessage p

/-- The frames that wait at the ports are treated, port by port. -/
def State.drainPorts (s : State) : Nat → State
  | 0 => s
  | n + 1 =>
    match (List.finRange 5).find? fun (p : Fin 5) => !(s.port p).ready.isEmpty with
    | none => s
    | some (p : Fin 5) =>
      match (s.port p).ready with
      | [] => s
      | f :: rest => ((s.modPort p fun x => { x with ready := rest }).treat p f).drainPorts n

/-- The ports work off what they have received; a treated command can release at most one group of each port. -/
def State.settlePorts (s : State) : State := s.drainPorts 256

/-! ### Waiting image loads (R275) -/

/-- The IMAGE_LOAD in execution on port p completes when its entries are loaded or its time is over. -/
def State.imageDone (s : State) (p : Fin 5) : State :=
  match (s.port p).exec with
  | none => s
  | some x =>
    let ok := s.imageLoaded x.core
    if ¬ ok ∧ s.now < x.until_ then s
    else
      let t := s.modPort p fun y => { y with exec := none }
      let t := if ok then t.imageArm (portReq p) x.core else t
      let r : Reply := ⟨if ok then 0 else 7, t.imageReply x.core, t⟩
      ((r.complete p x.hsn 0x30 x.session x.eseq x.mute).dueHeld p 18)

/-- Image loads that have become due complete, and the ports go on. -/
def State.serveImages (s : State) : State :=
  if (s.port 0).exec.isSome then (s.imageDone 0).settlePorts else s

/-! ### Arrival (R270, R273) -/

/-- A frame from the bound partner, or a stream frame, comes in on port p; on PORT0 the device fetches it from the ring. -/
def State.arrive (s : State) (p : Fin 5) (f : RxFrame) : State :=
  if ¬ s.receives p then s
  else if p = 0 then ((s.tick F.P0_CMD_IDX_HEAD).offerRx 0 f).settlePorts
  else (s.offerRx p f).settlePorts

/-- An MLP command arrives: one for an unbound port is foreign, and one in a datagram that the port does not take is discarded (R269). -/
def State.receive (s : State) (p : Fin 5) (m : MlpMsg) : State :=
  if ¬ s.receives p ∨ ¬ s.takesFrame p m.head.frame then s
  else if ¬ s.portBound p then s.bump F.PRT_CNT_FOREIGN p
  else s.arrive p (.mlp m)

end Sys2Proof.Machine
end

