-- ==== Sys2Proof/Machine/BusRows.lean ====
section
/-! DEFINITION. The commands that are writes and reads of registers. Each goes through the same checks as any write (R337); a row that is
named for one command bit or one field carries the rest of the word as an operand. -/

namespace Sys2Proof.Machine

/-- A 64-bit write at an offset, as the next access of q. -/
def State.hostPut (s : State) (q : Requester) (off : Nat) (w : Word) : Res := .next (s.put q off w .clean .clean)

/-- Such a write where it may end fault injection: the frames that it releases are treated (R283). -/
def State.hostPutPorts (s : State) (q : Requester) (off : Nat) (w : Word) : Res := .next (s.put q off w .clean .clean).settlePorts

/-- w with bits hi..lo set to v. -/
def force (w : Word) (hi lo v : Nat) : Word := BitVec.ofNat 64 (setBits w.toNat hi lo v)

/-! ### Cores (R44 to R47, R377) -/

/-- ARM (R46). -/
def execArm (k : Fin 64) (q : Requester) (w : Word) (s : State) : Res := s.hostPut q (Reg.CORE_CTL.addr k 0) (force w 1 1 1)
/-- START (R47). -/
def execStart (k : Fin 64) (q : Requester) (w : Word) (s : State) : Res := s.hostPut q (Reg.CORE_CTL.addr k 0) (force w 2 2 1)
/-- STOP (R44). -/
def execStop (k : Fin 64) (q : Requester) (w : Word) (s : State) : Res := s.hostPut q (Reg.CORE_CTL.addr k 0) (force w 3 3 1)
/-- RESUME (R44). -/
def execResume (k : Fin 64) (q : Requester) (w : Word) (s : State) : Res := s.hostPut q (Reg.CORE_CTL.addr k 0) (force w 4 4 1)
/-- RESET (R44). -/
def execReset (k : Fin 64) (q : Requester) (w : Word) (s : State) : Res := s.hostPut q (Reg.CORE_CTL.addr k 0) (force w 5 5 1)
/-- STEP (R377); e and ecc: what the fetch and a data word meet. -/
def execStep (k : Fin 64) (q : Requester) (w : Word) (e ecc : Ecc) (s : State) : Res :=
  .next (s.put q (Reg.CORE_CTL.addr k 0) (force w 6 6 1) e ecc)
/-- CORE_DMEM_ACCESS (R53). -/
def execCoreDmemAccess (k : Fin 64) (q : Requester) (write : Bool) (w : Word) (part : ReadPart) (e : Ecc) (s : State) : Res :=
  let off := Reg.CORE_DMEM_DATA.addr k 0
  if write then s.hostPut q off w else .next (s.get q off part e)

/-! ### Voices and streams -/

/-- VOICE_JT_WRITE (R101); ecc: what the snapshot meets. -/
def execVoiceJtWrite (v : Fin 64) (n : Fin 16) (q : Requester) (w : Word) (ecc : Ecc) (s : State) : Res :=
  .next (s.put q (Reg.VOICE_JT.addr v n) w .clean ecc)
/-- VOICE_SEGTAB_WRITE (R82). -/
def execVoiceSegtabWrite (v : Fin 64) (q : Requester) (w : Word) (s : State) : Res := s.hostPut q (Reg.VOICE_SEGTAB.addr v 0) w
/-- STM_CFG_ENABLE (R116). -/
def execStmCfgEnable (b : Fin 64) (q : Requester) (w : Word) (s : State) : Res := s.hostPut q (Reg.STM_CFG.addr b 0) (force w 0 0 1)

/-- BUF_CMD with GO and OP. -/
def State.hostBuf (s : State) (q : Requester) (op : Nat) (w : Word) : Res :=
  s.hostPut q (Reg.BUF_CMD.addr 0 0) (force (force w 57 56 op) 63 63 1)
/-- HOST_BUF_ALLOC (R130). -/
def execHostBufAlloc (q : Requester) (w : Word) (s : State) : Res := s.hostBuf q 0 w
/-- HOST_BUF_FREE (R130). -/
def execHostBufFree (q : Requester) (w : Word) (s : State) : Res := s.hostBuf q 1 w
/-- HOST_BUF_ATTACH (R130). -/
def execHostBufAttach (q : Requester) (w : Word) (s : State) : Res := s.hostBuf q 2 w
/-- HOST_BUF_QUERY (R130). -/
def execHostBufQuery (q : Requester) (w : Word) (s : State) : Res := s.hostBuf q 3 w

/-! ### Channels -/

/-- CH_ENABLE (R132). -/
def execChEnable (n : Fin 16) (q : Requester) (w : Word) (s : State) : Res := s.hostPut q (Reg.CH_CTL.addr n 0) (force w 0 0 1)
/-- CH_DISABLE (R134). -/
def execChDisable (n : Fin 16) (q : Requester) (w : Word) (s : State) : Res := s.hostPut q (Reg.CH_CTL.addr n 0) (force w 0 0 0)
/-- NCO_RESYNC (R138). -/
def execNcoResync (n : Fin 16) (q : Requester) (w : Word) (s : State) : Res := s.hostPut q (Reg.CH_CTL.addr n 0) (force w 1 1 1)
/-- CH_SLOT_WRITE (R139). -/
def execChSlotWrite (n : Fin 16) (p : Fin 8) (q : Requester) (w : Word) (s : State) : Res := s.hostPut q (Reg.CH_SLOT.addr n p) w
/-- RANGE_REQUEST (R166). -/
def execRangeRequest (n : Fin 16) (q : Requester) (w : Word) (s : State) : Res := s.hostPut q (Reg.CH_DAC_RANGE.addr n 0) w
/-- MUTE_WRITE (R168). -/
def execMuteWrite (n : Fin 16) (q : Requester) (w : Word) (s : State) : Res := s.hostPut q (Reg.CH_DAC_CTL.addr n 0) w

/-! ### The event fabric -/

/-- EVT_FIRE_WRITE (R193). -/
def execEvtFireWrite (i : Fin 2) (q : Requester) (w : Word) (s : State) : Res := s.hostPut q (Reg.EVT_FIRE.addr i 0) w
/-- EC_SRC_WRITE (R190, R199): EC_SRC_B when b, else EC_SRC_A. -/
def execEcSrcWrite (c : Fin 128) (b : Bool) (q : Requester) (w : Word) (s : State) : Res :=
  s.hostPut q ((if b then Reg.EC_SRC_B else .EC_SRC_A).addr c 0) w
/-- EC_CTL_WRITE (R199, R201). -/
def execEcCtlWrite (c : Fin 128) (q : Requester) (w : Word) (s : State) : Res := s.hostPut q (Reg.EC_CTL.addr c 0) w
/-- EVR_CFG_WRITE (R197, R199). -/
def execEvrCfgWrite (r : Fin 8) (q : Requester) (w : Word) (s : State) : Res := s.hostPut q (Reg.EVR_CFG.addr r 0) w
/-- EVR_PARAM_WRITE (R197). -/
def execEvrParamWrite (r : Fin 8) (q : Requester) (w : Word) (s : State) : Res := s.hostPut q (Reg.EVR_PARAM.addr r 0) w
/-- EVR_START_WRITE (R197): EVR_START_FRAC when frac, else EVR_START_SEC. -/
def execEvrStartWrite (r : Fin 8) (frac : Bool) (q : Requester) (w : Word) (s : State) : Res :=
  s.hostPut q ((if frac then Reg.EVR_START_FRAC else .EVR_START_SEC).addr r 0) w

/-! ### Clocks -/

/-- REF_SOURCE_WRITE (R207). -/
def execRefSourceWrite (q : Requester) (w : Word) (s : State) : Res := s.hostPut q (Reg.CLK_REF_CFG.addr 0 0) w
/-- SP_RETUNE (R210). -/
def execSpRetune (j : Fin 4) (q : Requester) (w : Word) (s : State) : Res := s.hostPut q (Reg.SP_CTL.addr j 0) (force w 16 16 1)
/-- SP_BMEAS (R216). -/
def execSpBmeas (j : Fin 4) (q : Requester) (w : Word) (s : State) : Res := s.hostPut q (Reg.SP_CTL.addr j 0) (force w 4 4 1)
/-- SP_POLICY_WRITE (R217): POLICY = REALIGN. -/
def execSpPolicyWrite (j : Fin 4) (q : Requester) (w : Word) (s : State) : Res := s.hostPut q (Reg.SP_CTL.addr j 0) (force w 0 0 0)
/-- CLK_RELEASE (R217). -/
def execClkRelease (q : Requester) (w : Word) (s : State) : Res := s.hostPut q (Reg.CLK_RELEASE.addr 0 0) w
/-- AUX_RETUNE (R221). -/
def execAuxRetune (i : Fin 2) (q : Requester) (w : Word) (s : State) : Res := s.hostPut q (Reg.AUX_CTL.addr i 0) (force w 8 8 1)
/-- AUX_ARM (R222). -/
def execAuxArm (i : Fin 2) (q : Requester) (w : Word) (s : State) : Res := s.hostPut q (Reg.AUX_CTL.addr i 0) (force w 9 9 1)
/-- AUX_RAMP_STOP (R222): RMODE = OFF. -/
def execAuxRampStop (i : Fin 2) (q : Requester) (w : Word) (s : State) : Res := s.hostPut q (Reg.AUX_CTL.addr i 0) (force w 5 4 0)
/-- CO_ENABLE (R223). -/
def execCoEnable (j : Fin 8) (q : Requester) (w : Word) (s : State) : Res := s.hostPut q (Reg.CO_CFG.addr j 0) (force w 0 0 1)

/-! ### Device time -/

/-- TM_CMD with GO and OP. -/
def State.hostTime (s : State) (q : Requester) (op : Nat) (w : Word) : Res :=
  s.hostPut q (Reg.TM_CMD.addr 0 0) (force (force w 3 0 op) 63 63 1)
/-- SET (R230). -/
def execSet (q : Requester) (w : Word) (s : State) : Res := s.hostTime q 0 w
/-- SET_AT_PPS (R230). -/
def execSetAtPps (q : Requester) (w : Word) (s : State) : Res := s.hostTime q 1 w
/-- ADJ (R230). -/
def execAdj (q : Requester) (w : Word) (s : State) : Res := s.hostTime q 2 w
/-- ALIGN_PPS (R230). -/
def execAlignPps (q : Requester) (w : Word) (s : State) : Res := s.hostTime q 3 w
/-- TIME_STEP (R236). -/
def execTimeStep (q : Requester) (w : Word) (s : State) : Res := s.hostTime q 4 w
/-- CANCEL (R230). -/
def execCancel (q : Requester) (w : Word) (s : State) : Res := s.hostTime q 5 w
/-- TM_NOW_READ (R229). -/
def execTmNowRead (q : Requester) (part : ReadPart) (s : State) : Res := .next (s.get q (Reg.TM_NOW_SEC.addr 0 0) part .clean)
/-- HO_POLICY_WRITE (R237). -/
def execHoPolicyWrite (q : Requester) (w : Word) (s : State) : Res := s.hostPut q (Reg.TM_HO_CFG.addr 0 0) w
/-- CD_START (R242), on port i + 1. -/
def execCdStart (i : Fin 4) (q : Requester) (w : Word) (s : State) : Res := s.hostPut q (Reg.CD_CFG.addr i 0) (force w 0 0 1)
/-- CD_STOP (R242). -/
def execCdStop (i : Fin 4) (q : Requester) (w : Word) (s : State) : Res := s.hostPut q (Reg.CD_CFG.addr i 0) (force w 1 1 1)

/-! ### Memory -/

/-- MEM_POOL_WRITE (R246). -/
def execMemPoolWrite (q : Requester) (w : Word) (s : State) : Res := s.hostPut q (Reg.MEM_POOL.addr 0 0) w
/-- MEM_CFG_WRITE (R349). -/
def execMemCfgWrite (q : Requester) (w : Word) (s : State) : Res := s.hostPut q (Reg.MEM_CFG.addr 0 0) w
/-- MEM_FREQ_REQUEST (R262). -/
def execMemFreqRequest (q : Requester) (w : Word) (s : State) : Res := s.hostPut q (Reg.MEM_FREQ.addr 0 0) (force w 63 63 1)
/-- MEM_TRAIN_REQUEST (R263). -/
def execMemTrainRequest (q : Requester) (w : Word) (s : State) : Res := s.hostPut q (Reg.MEM_TRAIN.addr 0 0) (force w 63 63 1)

/-- A host access through BAR2 (false) or BAR4 (true) that protection lets pass is served (R246, R265). The completion of a read that meets
an uncorrected word has its EP bit set (R361). -/
def State.serveWindow (s : State) (four write : Bool) (x : Nat) (be : BitVec 8) (data : Word) (e : Ecc) : State :=
  if write then (s.barAccess four true x be data e).takeDoorbell
  else
    let bad := match s.barAddr four (x / 8 * 8) with | some a => (foundEcc four (s.poisoned four a) e).bad | none => false
    let t := (s.barAccess four false x be data e).give .port0 (match s.barAddr four (x / 8 * 8) with | some a => s.readWord four a | none => 0)
    { t with bus := { t.bus with poisoned := bad, aer := t.bus.aer || bad } }

/-- The BAR4 accesses that wait for the DRAM PLL are served, in order. -/
def State.serveHeld (s : State) : State :=
  s.mem.held.foldl (fun t h => t.serveWindow true h.write h.at_ h.be h.data h.ecc) (s.modMem fun m => { m with held := [] })

/-- DRAM_PLL_RELOCK (R360): within 10 µs service resumes with one PERIODIC step; otherwise every channel has gone to UNTRAINED and its
contents are undefined. The BAR4 accesses that waited are served (DESIGN CHOICE, log entry 85). -/
def execDramPllRelock (s : State) : Res :=
  let t := s.pllExpire.flag F.CLK_REF_STATUS_DRAM_LOCK
  match s.mem.pllLost with
  | some _ =>
    let t := t.modMem fun m => { m with pllLost := none }
    let t := if s.pllOverdue then t.nextTrain
      else t.askTrain ⟨false, (List.range 4).filter fun c => t.ddr c == 4, t.on F.MEM_STATUS_FREQ_ACT⟩
    .next t.tryTrain.serveHeld
  | none => .next t

/-- A host access through BAR2 (false) or BAR4 (true): bytes be of the word at offset x (R246, R265, R289, R334, R341). While the DRAM PLL is
out of lock a BAR4 access waits (R360). -/
def State.window (s : State) (four write : Bool) (x : Nat) (be : BitVec 8) (data : Word) (e : Ecc) : State :=
  let ask := s.access (s.level .port0) (if four then 89 else 88)
  let space := if four then 2 else 1
  let a := (s.barAddr four (x / 8 * 8)).getD (x / 8 * 8)
  if s.resting then s
  else if s.dozing then (let t := s.flag F.PWR_STATUS_STOPPED_WR; if write then t else t.give .port0 0)
  else if write ∧ ask ≠ 2 then s.refuseAccess .port0 .region false space a
  else if ¬ write ∧ ask = 0 then (s.refuseAccess .port0 .region true space a).give .port0 0
  else if four ∧ s.mem.pllLost.isSome then s.modMem fun m => { m with held := m.held ++ [⟨write, x, be, data, e⟩] }
  else s.serveWindow four write x be data e

/-- BAR2_ACCESS (R246). -/
def execBar2Access (write : Bool) (x : BitVec 27) (be : BitVec 8) (data : Word) (e : Ecc) (s : State) : Res :=
  .next (s.window false write x.toNat be data e)
/-- BAR4_ACCESS (R265). -/
def execBar4Access (write : Bool) (x : BitVec 32) (be : BitVec 8) (data : Word) (e : Ecc) (s : State) : Res :=
  .next (s.window true write x.toNat be data e)
/-- DOORBELL (R356): the host writes 1 to the 32-bit word at offset 0x18 of the mailbox. -/
def execDoorbell (e : Ecc) (s : State) : Res := .next (s.window false true 0x18 0x0F#8 1 e)

/-! ### Ports -/

/-- P0_CMD_TAIL_WRITE (R273): the entries up to TAIL follow as MLP commands and stream packets of PORT0. -/
def execP0CmdTailWrite (q : Requester) (tail : BitVec 16) (s : State) : Res :=
  s.hostPut q (Reg.P0_CMD_IDX.addr 0 0) (force (s.rw .P0_CMD_IDX) 15 0 tail.toNat)
/-- P0_RSP_HEAD_WRITE (R273): freed entries let waiting notifications out. -/
def execP0RspHeadWrite (q : Requester) (head : BitVec 16) (s : State) : Res :=
  s.hostPut q (Reg.P0_RSP_IDX.addr 0 0) (force (s.rw .P0_RSP_IDX) 15 0 head.toNat)
/-- PRT_BIND_WRITE (R271). -/
def execPrtBindWrite (p : Fin 5) (q : Requester) (w : Word) (s : State) : Res :=
  s.hostPut q (if p = 0 then Reg.PRT_BIND0.addr 0 0 else Reg.PRT_BIND.addr (p - 1 : Nat) 0) w
/-- PRT_FI_WRITE (R283). -/
def execPrtFiWrite (p : Fin 5) (q : Requester) (w : Word) (s : State) : Res := s.hostPutPorts q (Reg.PRT_FI.addr p 0) w

/-! ### Power and calibration -/

/-- PWR_REQ with GO and TARGET. -/
def State.hostPower (s : State) (q : Requester) (target : Nat) (w : Word) : Res :=
  s.hostPut q (Reg.PWR_REQ.addr 0 0) (force (force w 2 0 target) 63 63 1)
/-- PWR_REQ_ACTIVE (R290). -/
def execPwrReqActive (q : Requester) (w : Word) (s : State) : Res := s.hostPower q 0 w
/-- PWR_REQ_TRIM (R290). -/
def execPwrReqTrim (q : Requester) (w : Word) (s : State) : Res := s.hostPower q 1 w
/-- PWR_REQ_DOZE (R290). -/
def execPwrReqDoze (q : Requester) (w : Word) (s : State) : Res := s.hostPower q 2 w
/-- PWR_REQ_REST (R290). -/
def execPwrReqRest (q : Requester) (w : Word) (s : State) : Res := s.hostPower q 3 w
/-- PWR_DOM_ON_WRITE (R288): PWR_DOM_ON1 when one, else PWR_DOM_ON0. -/
def execPwrDomOnWrite (one : Bool) (q : Requester) (w : Word) (s : State) : Res :=
  s.hostPut q ((if one then Reg.PWR_DOM_ON1 else .PWR_DOM_ON0).addr 0 0) w
/-- PWR_RMEM_ACCESS (R295). -/
def execPwrRmemAccess (q : Requester) (write : Bool) (w : Word) (e : Ecc) (s : State) : Res :=
  let off := Reg.PWR_RMEM_DATA.addr 0 0
  if write then s.hostPut q off w else .next (s.get q off .full e)
/-- CAL_START (R314). -/
def execCalStart (n : Fin 16) (q : Requester) (w : Word) (s : State) : Res := s.hostPut q (Reg.CAL_CTL.addr n 0) (force w 0 0 1)
/-- CAL_ABORT (R316). -/
def execCalAbort (n : Fin 16) (q : Requester) (w : Word) (s : State) : Res := s.hostPut q (Reg.CAL_CTL.addr n 0) (force w 3 3 1)
/-- CAL_FLIP (R319). -/
def execCalFlip (n : Fin 16) (q : Requester) (w : Word) (s : State) : Res := s.hostPut q (Reg.CAL_CTL.addr n 0) (force w 2 2 1)
/-- CAL_BANK_WRITE (R319): word j of the window, MAIN, MK, then the slices. -/
def execCalBankWrite (n : Fin 16) (j : Fin 10) (q : Requester) (w : Word) (s : State) : Res :=
  s.hostPut q (Reg.CAL_B_MAIN.addr n 0 + 8 * j) w
/-- CAL_STORE (R322). -/
def execCalStore (q : Requester) (w : Word) (s : State) : Res := s.hostPut q (Reg.CAL_STORE.addr 0 0) (force w 63 63 1)

/-! ### Any register -/

/-- REGISTER_WRITE (R337); a write of a high half completes a REGISTER_WRITE_LOW (R329). -/
def execRegisterWrite (q : Requester) (off : BitVec 24) (d : WriteData) (e ecc : Ecc) (s : State) : Res :=
  .next (s.putData q (off.toNat / 8 * 8) d e ecc).settlePorts
/-- REGISTER_READ_LOW (R328), and the reads beside it. -/
def execRegisterReadLow (q : Requester) (off : BitVec 24) (part : ReadPart) (e : Ecc) (s : State) : Res :=
  .next (s.get q (off.toNat / 8 * 8) part e)
/-- REGISTER_WRITE_LOW (R329). An unbound port is no requester (R333). -/
def execRegisterWriteLow (q : Requester) (off : BitVec 24) (h : Half) (s : State) : Res :=
  if ¬ s.bound q then .next s
  else .next (s.nextAccess q fun t => t.setWriteShadow q (some (off.toNat / 8 * 8, h)))
/-- BAD_ACCESS (R326). -/
def execBadAccess (q : Requester) (write : Bool) (s : State) : Res :=
  if ¬ s.bound q ∨ s.resting then .next s
  else .next (s.nextAccess q fun t => let u := t.flag F.GLB_STATUS_SIZE_ERR; if write then u else u.give q 0)
/-- GLB_CNT_CLR (R343). -/
def execGlbCntClr (q : Requester) (w : Word) (s : State) : Res := s.hostPut q (Reg.GLB_CNT_CLR.addr 0 0) w
/-- BLOCK_CNT_CLR (R343): the register at off is written back with its CNT_CLR bit at 1, its W1C bits at 0. -/
def execBlockCntClr (q : Requester) (off : BitVec 24) (s : State) : Res :=
  match Reg.ofOffset (off.toNat / 8 * 8) with
  | some (r, i, j) =>
    match blockCounts r with
    | some (b, _) => s.hostPut q (off.toNat / 8 * 8) (force (s.rw r i j &&& ~~~(BitVec.ofNat 64 r.spec.w1c)) b b 1)
    | none => .next s
  | none => .next s
/-- GLB_ONCE_WRITE (R339). -/
def execGlbOnceWrite (q : Requester) (w : Word) (s : State) : Res := s.hostPutPorts q (Reg.GLB_ONCE.addr 0 0) w
/-- GLB_PROT_WRITE (R336). -/
def execGlbProtWrite (i : Fin 12) (q : Requester) (w : Word) (s : State) : Res := s.hostPut q (0x100 + 8 * i) w

end Sys2Proof.Machine
end

