-- ==== Sys2Proof/Machine/LinkRows.lean ====
section
/-! DEFINITION. The commands of the links (chapters 05, 11, 13 and 17): MLP commands, stream packets, timers of a port, resets and training
of PORT0, Ethernet, and the end of a cable measurement. -/

namespace Sys2Proof.Machine

/-! ### MLP commands (R275) -/

/-- A command arrives on port p, and image loads that it lets go on complete. -/
def State.hostMlp (s : State) (p : Fin 5) (h : MlpHead) (o : MlpOp) : Res := .next (s.receive p ⟨h, o⟩).serveImages

/-- PING (R275). -/
def execPing (p : Fin 5) (h : MlpHead) (s : State) : Res := s.hostMlp p h .ping
/-- OPEN (R277, R279). -/
def execOpen (p : Fin 5) (h : MlpHead) (s : State) : Res := s.hostMlp p h .openSession
/-- JOURNAL_READ (R280). -/
def execJournalRead (p : Fin 5) (h : MlpHead) (first count : BitVec 32) (s : State) : Res := s.hostMlp p h (.journalRead first count)
/-- NOTE_READ (R281). -/
def execNoteRead (p : Fin 5) (h : MlpHead) (first count : BitVec 32) (s : State) : Res := s.hostMlp p h (.noteRead first count)
/-- REG_READ (R275); e: what the memory words it reads meet. -/
def execRegRead (p : Fin 5) (h : MlpHead) (off : BitVec 64) (count : BitVec 32) (e : Ecc) (s : State) : Res :=
  s.hostMlp p h (.regRead off count e)
/-- REG_WRITE (R275). -/
def execRegWrite (p : Fin 5) (h : MlpHead) (off : BitVec 64) (count : BitVec 32) (vals : List Word) (e : Ecc) (s : State) : Res :=
  s.hostMlp p h (.regWrite off count vals e)
/-- MEM_READ (R275); e: what its first word meets. -/
def execMemRead (p : Fin 5) (h : MlpHead) (region addr len : BitVec 64) (e : Ecc) (s : State) : Res :=
  s.hostMlp p h (.memRead region addr len e)
/-- MEM_WRITE (R275). -/
def execMemWrite (p : Fin 5) (h : MlpHead) (region addr len : BitVec 64) (vals : List Word) (s : State) : Res :=
  s.hostMlp p h (.memWrite region addr len vals)
/-- IMAGE_LOAD (R275). -/
def execImageLoad (p : Fin 5) (h : MlpHead) (core : Byte) (arm : Bool) (image : List Word) (s : State) : Res :=
  s.hostMlp p h (.imageLoad core arm image)
/-- NOTE_CFG (R281). -/
def execNoteCfg (p : Fin 5) (h : MlpHead) (mask : BitVec 32) (s : State) : Res := s.hostMlp p h (.noteCfg mask)
/-- PTP_DS_GET (R275). -/
def execPtpDsGet (p : Fin 5) (h : MlpHead) (id : BitVec 16) (s : State) : Res := s.hostMlp p h (.dsGet id)
/-- PTP_DS_SET (R275). -/
def execPtpDsSet (p : Fin 5) (h : MlpHead) (id : BitVec 16) (data : List Byte) (s : State) : Res := s.hostMlp p h (.dsSet id data)

/-- JT_PRELOAD_DONE (R101, R114): an IMAGE_LOAD that waits for the entry may complete. -/
def execJtPreloadDone (v : Fin 64) (n : Fin 16) (ecc : Ecc) (s : State) : Res := .next (s.jtPreloaded v n ecc).serveImages

/-- MLP_DISCARD (R270, R272): a message with a wrong header or CRC is discarded, and one from another source than the partner is
foreign. -/
def execMlpDiscard (p : Fin 5) (d : Discard) (s : State) : Res :=
  if ¬ s.receives p then .next s
  else if d.foreign ∧ p ≠ 0 then .next (s.bump F.PRT_CNT_FOREIGN p)
  else .next (s.arrive p (.bad d.len.toNat))

/-! ### Streams (R118, R270) -/

/-- STREAM_PACKET_RX: a packet arrives on port src, or for src = 5 a ring writer has completed a slot of a RING binding, whose header
meets payload.ecc. peer: the bound partner sent it. The UDP port it was sent to on PORT1 to PORT4 must be an enabled binding's. -/
def execStreamPacketRx (src : Fin 6) (peer : Bool) (h0 h1 h2 h3 : Word) (payload : StreamBody) (s : State) : Res :=
  if src = 5 then
    let b := bits h0.toNat 23 16
    if b < 64 ∧ s.on F.STM_CFG_EN b ∧ s.f F.STM_CFG_SRC b = 6 then .next (s.ringRx b (bits h0.toNat 63 32) payload.ecc)
    else .next s
  else
    let p : Fin 5 := Fin.ofNat 5 src.val
    if ¬ s.receives p ∨ ¬ s.takesFrame p payload.frame ∨
        (p ≠ 0 ∧ ¬ anyN 64 fun b => s.on F.STM_CFG_EN b && s.streamPort p payload.udp.toNat b) then .next s
    else if p ≠ 0 ∧ s.on F.ETH_CFG_STRM_PEER_ONLY (p - 1 : Nat) ∧ ¬ (peer ∧ s.portBound p) then .next (s.bump F.PRT_CNT_FOREIGN p)
    else .next (s.arrive p (.stream ⟨payload.udp, h0, h1, h2, h3, payload.words⟩))

/-! ### Timers of a port -/

/-- Microseconds in DTIME units, n of them, rounded up. -/
def micros (n : Nat) : Nat := (n * second + 999999) / 1000000

/-- SEQGAP_TIMEOUT (R277): the gap timer of port p expires. -/
def execSeqgapTimeout (p : Fin 5) (s : State) : Res :=
  match (s.port p).gap with
  | none => .next s
  | some t0 =>
    let s := s.reach (t0 + micros (s.f F.PRT_CFG_GAP_TMO p))
    let next := s.f F.PRT_SEQ_NEXT_HSN p
    let ahead := ((s.port p).held.map fun m => (m.head.hsn.toNat + 2 ^ 32 - next) % 2 ^ 32).foldl max 0
    let t := ((s.modPort p fun x => { x with held := [], gap := none }).bump F.PRT_CNT_SEQGAP p).trouble .linkSeqgap
    .next (t.postNote p 1 true (leBytes 4 next ++ leBytes 4 (next + ahead)))

/-- REORDER_TIMEOUT (R283): the group of port p is released 100 µs after its first frame; tx: the transmit group. -/
def execReorderTimeout (p : Fin 5) (tx : Bool) (s : State) : Res :=
  let x := s.port p
  if tx then
    if x.txGroup.isEmpty then .next s else .next ((s.reach (x.txAt + micros 100)).releaseTx p)
  else if x.rxGroup.isEmpty then .next s
  else .next ((s.reach (x.rxAt + micros 100)).releaseRx p).settlePorts

/-- IRQ_COALESCE_TIMEOUT (R282): COAL_US after the first entry since its last request, the response ring requests its vector. -/
def execIrqCoalesceTimeout (s : State) : Res :=
  match (s.port 0).coalAt with
  | some t =>
    if s.on F.P0_IRQ_EN ∧ s.on F.P0_IRQ_COAL_US then .next (s.reach (t + micros (s.f F.P0_IRQ_COAL_US))).ringRequest else .next s
  | none => .next s

/-- BINDING_APPLY (R271): the waiting change of port p applies, when no command is in execution there. -/
def execBindingApply (p : Fin 5) (s : State) : Res := .next (s.applyBind p)

/-! ### PORT0 (R268, R353) -/

/-- What R268 resets: the rings, what is held or waits, and the response of a command in execution; and PORT0's configuration space, AER
within it (R353). -/
def State.resetPort0 (s : State) : State :=
  let t := ((((s.setRw .P0_CMDQ_BASE 0).setRw .P0_RSPQ_BASE 0).setRw .P0_QCFG 0).setRw .P0_CMD_IDX 0).setRw .P0_RSP_IDX 0
  let t := t.modPort 0 fun x =>
    { x with held := [], gap := none, waiting := [], unsent := [], coal := 0, coalAt := none, exec := x.exec.map fun e => { e with mute := true } }
  let t := t.flag F.P0_LINK_RST_SEEN
  { t with bus := { t.bus with aer := false }, link := { t.link with cfg := {} } }

/-- PORT0 has no link. -/
def State.dropLink0 (s : State) : State := ((s.clr F.P0_LINK_UP).clr F.P0_LINK_WIDTH).clr F.P0_LINK_SPEED

/-- PORT0_RESET (R268, R353): a Function Level Reset leaves the link as it is; after the others PORT0 trains anew, once PERST_N is high. -/
def execPort0Reset (kind : PortReset) (s : State) : Res :=
  let t := s.resetPort0
  match kind with
  | .flr => .next t
  | .perst => .next { t.dropLink0 with link := { t.link with perstLow := true, training := false } }
  | _ => .next { t.dropLink0 with link := { t.link with training := s.power.stage == .up && !s.link.perstLow } }

/-- PERST_N_RELEASE (R353): link training starts when step 6 of power-up has ended. -/
def execPerstNRelease (s : State) : Res :=
  .next { s with link := { s.link with perstLow := false, training := s.power.stage == .up } }

/-- PCIE_LINK_UP (R353): PORT0's training completes with a width and a speed. -/
def execPcieLinkUp (width speed : BitVec 4) (s : State) : Res :=
  if s.link.training then
    let t := ((s.flag F.P0_LINK_UP).setF F.P0_LINK_WIDTH width.toNat).setF F.P0_LINK_SPEED speed.toNat
    .next { t with link := { t.link with training := false } }
  else .next s

/-- What PORT0 says of itself (R267): Vendor ID, Device ID, Revision ID, and class code. -/
def State.pcieIdentity (s : State) : Nat × Nat × Nat × Nat := (0x1F6A, 0x9616, bits (s.view .port0 .DEV_ID 0 0).toNat 31 24, 0x118000)

/-- The BARs of PORT0 (R267): number, bits of address, prefetchable, and size. -/
def pcieBars : List (Nat × Nat × Bool × Nat) :=
  [(0, 64, false, 16 * 2 ^ 20), (2, 64, true, 128 * 2 ^ 20), (4, 64, true, 4 * 2 ^ 30)]

/-- Whether PORT0 answers a configuration request with Configuration Request Retry Status (R353): until the Global block is ready, at most
1 ms after ACTIVE was reached. -/
def State.configRetries (s : State) : Bool :=
  s.power.stage != .up || decide (s.now < s.at F.PWR_ACT_SEC_SEC F.PWR_ACT_FRAC_FRAC + Config.globalReady.val)

/-! ### Ethernet (R269) -/

/-- ETH_LINK_UP: port p + 1 gains block lock. What waited to be sent goes out. -/
def execEthLinkUp (p : Fin 4) (s : State) : Res :=
  if s.dom (65 + p) then
    let t := (((s.flag F.ETH_STAT_BLOCK_LOCK p).flag F.ETH_STAT_UP p).clr F.ETH_STAT_RX_LOS p).clr F.ETH_STAT_MOD_ABS p
    .next (t.flushNotes (p.val + 1))
  else .next s

/-- ETH_LINK_DOWN: port p + 1 loses block lock; the module reports loss of signal or its absence, and the FEC counts the codewords that
it could not correct. -/
def execEthLinkDown (p : Fin 4) (loss : EthLoss) (s : State) : Res :=
  let t := (((s.clr F.ETH_STAT_UP p).clr F.ETH_STAT_BLOCK_LOCK p).setB F.ETH_STAT_RX_LOS loss.signal p).setB F.ETH_STAT_MOD_ABS loss.absent p
  .next (if s.f F.ETH_CFG_FEC p = 0 then t else t.bumpBy F.ETH_STAT_FEC_UNC loss.uncorrected.toNat p)

/-- Whether port p + 1 receives frames of the protocols that the hardware answers. -/
def State.ethHears (s : State) (p : Nat) : Bool := s.active && s.on F.ETH_CFG_EN p && s.on F.ETH_STAT_UP p && !s.frozen (65 + p)

/-- ARP_RX (R269): a request for an IPv4 address; the port answers for its own. -/
def execArpRx (p : Fin 4) (target : BitVec 32) (s : State) : Res :=
  if s.ethHears p ∧ s.on F.ETH_CFG_IP4_EN p ∧ s.f F.ETH_IP4_ADDR p = target.toNat then .next (s.sendFrame (p.val + 1) .arp) else .next s

/-- Low half of the link-local address that belongs to a station address: its modified EUI-64. -/
def eui64 (mac : Nat) : Nat :=
  let u := mac / 2 ^ 24
  setBits u 17 17 (1 - bits u 17 17) * 2 ^ 40 + 0xFFFE * 2 ^ 24 + mac % 2 ^ 24

/-- ND_RX (R269): a solicitation for an IPv6 address; the port answers for its static and its link-local address. -/
def execNdRx (p : Fin 4) (hi lo : Word) (s : State) : Res :=
  let own := decide (s.rw .ETH_IP6_HI p = hi ∧ s.rw .ETH_IP6_LO p = lo) ||
    decide (hi = 0xFE80000000000000#64 ∧ lo.toNat = eui64 (s.f F.ETH_MAC_MAC p))
  if s.ethHears p ∧ s.on F.ETH_CFG_IP6_EN p ∧ own then .next (s.sendFrame (p.val + 1) .neighbour) else .next s

/-- ICMP_ECHO_RX (R269): an echo request to an address of the port; fragments are discarded. -/
def execIcmpEchoRx (p : Fin 4) (v6 frag : Bool) (s : State) : Res :=
  if s.ethHears p ∧ ¬ frag ∧ s.on (if v6 then F.ETH_CFG_IP6_EN else F.ETH_CFG_IP4_EN) p then .next (s.sendFrame (p.val + 1) .echo)
  else .next s

/-! ### Cable delay (R242, R243) -/

/-- A valid result reaches the trim of channel n: SC0 writes AUTO unless the step is too great or protection ignores the write. A value
outside AUTO's 31 bits is not given, and free. -/
def State.useCable (s : State) (port n : Nat) (delay : Int) : State :=
  if ¬ s.on F.CD_MAP_EN n ∨ s.f F.CD_MAP_PORT n ≠ port then s
  else
    let auto := s.autoTrim n delay
    let step := s.f F.CD_MAP_STEP_MAX n
    let now := signed 31 (s.f F.CH_TRIM_AUTO_AUTO n)
    if step ≠ 0 ∧ step < (auto - now).natAbs then s.flag F.CD_MAP_REJ n
    else
      let fits := decide (-(2 ^ 30) ≤ auto) && decide (auto < 2 ^ 30)
      let v := if fits then wrap 31 auto else s.free.toNat % 2 ^ 31
      let s := if fits then s else s.drawn
      let x := s.busWrite .sc0 (Reg.CH_TRIM_AUTO.addr n 0) (BitVec.ofNat 64 v) .clean .clean
      if x.1 then x.2.flag F.CD_MAP_REJ n else x.2

/-- CD_RESULT (R242, R243): the measurement of port i + 1 ends, and each channel mapped to it uses a valid result. -/
def execCdResult (i : Fin 4) (s : State) : Res :=
  match s.cableEnd i with
  | none => .next s
  | some (t, none) => .next t
  | some (t, some d) => .next (forN 16 (fun n u => u.useCable (i.val + 1) n d) t)

end Sys2Proof.Machine
end

