-- ==== Sys2Proof/Machine/Delivery.lean ====
section
/-! DEFINITION. The consumer inputs of the event fabric (R194, R195). -/

namespace Sys2Proof.Machine

/-- The channel of an 8-bit selection field, whose bit 7 is NONE. -/
def selected (v : Nat) : Option Nat := if bit v 7 then none else some (v % 128)

/-- The channel that consumer input i selects, with the selections of R196 in force. -/
def State.selection (s : State) (i : Nat) : Option Nat :=
  if i < 128 then (if i % 2 = 0 then (s.core (i / 2)).ei0 else (s.core (i / 2)).ei1).sel
  else if i < 192 then (s.voice (i - 128)).armed.bind fun a => selected a.ec
  else if i < 256 then
    match (s.voice (i - 192)).item with
    | some it => (match it.kind, it.cond with | .wait, some (.waitEvent c) => some c | _, _ => none)
    | none => none
  else if i < 320 then some (s.eff (Reg.CORE_START_EVT.addr (i - 256) 0) 6 0)
  else if i < 336 then some (s.eff (Reg.TO_CFG.addr (i - 320) 0) 14 8)
  else if i < 400 then
    let b := (i - 336) % 8 * 8
    selected (s.eff (Reg.EVF_IRQ_SEL.addr ((i - 336) / 8) 0) (b + 7) b)
  else if i < 408 then selected (s.eff (Reg.EVF_WAKE_SEL.addr 0 0) ((i - 400) * 8 + 7) ((i - 400) * 8))
  else selected (s.eff (Reg.EVR_CFG.addr (i - 408) 0) 15 8)

/-- Whether the device is in DOZE or REST, or entering either (R297). -/
def State.asleep (s : State) : Bool :=
  !s.active || (match s.power.entry with | some h => h.target == 2 || h.target == 3 | none => false)

/-- Whether input i, which has a selection, is live: the Live column of R194; in DOZE and REST only wake inputs are (R202). -/
def State.live (s : State) (i : Nat) : Bool :=
  if 400 ≤ i ∧ i < 408 then bit (s.f F.PWR_WAKE_EN_EN) (i - 399) && s.asleep
  else if ¬ s.active then false
  else if i < 256 then true
  else if i < 320 then s.st (i - 256) == 3 && s.f F.CORE_CTL_START_SRC (i - 256) == 1
  else if i < 336 then s.on F.TO_CFG_EN (i - 320) && s.on F.TO_CFG_SRC_EVT (i - 320)
  else if i < 400 then true
  else s.f F.EVR_CFG_MODE (i - 408) == 1 || s.f F.EVR_CFG_MODE (i - 408) == 2

/-- Whether input i is busy: the Busy column of R194. -/
def State.busy (s : State) (i : Nat) : Bool :=
  if i < 128 then (if i % 2 = 0 then (s.core (i / 2)).ei0 else (s.core (i / 2)).ei1).latch
  else if i < 192 then (s.voice (i - 128)).pending.isSome
  else if i < 336 then false
  else if i < 400 then bit (s.f F.EVF_IRQ_PEND_PEND) (i - 336)
  else if i < 408 then false
  else s.f F.EVR_CFG_MODE (i - 408) == 1 && (s.relay (i - 408)).held.isSome

/-- The WAIT EVENT that voice v holds takes an event at or after its kerf instant as its condition (R99). -/
def State.meetWait (s : State) (v t : Nat) : State :=
  match (s.voice v).item with
  | some it =>
    match it.seen, s.voiceChan v with
    | none, some n =>
      if (s.chan n).grid.placeAt it.start ≤ t then s.modVoice v fun x => { x with item := some { it with seen := some t } } else s
    | _, _ => s
  | none => s

/-- The jump input of voice v takes an event whose release instant, its reference time plus 6.5 ns, is at or after the arming instant
(R102); JUMP_ACCEPT follows. -/
def State.meetJump (s : State) (v t : Nat) : State :=
  match (s.voice v).armed, (s.voice v).jumpSeen with
  | some a, none =>
    if a.armed * 2000000000 ≤ t * 2000000000 + 13 * second then s.modVoice v fun x => { x with jumpSeen := some t } else s
  | _, _ => s

/-- The consumer at input i takes an event with reference time t. -/
def State.consume (s : State) (i t : Nat) : State :=
  if i < 128 then s.modCore (i / 2) fun c =>
    if i % 2 = 0 then { c with ei0 := { c.ei0 with latch := true } } else { c with ei1 := { c.ei1 with latch := true } }
  else if i < 192 then s.meetJump (i - 128) t
  else if i < 256 then s.meetWait (i - 192) t
  else if i < 320 then s.startSource (i - 256)
  else if i < 336 then s.trigEvent (i - 320) t
  else if i < 400 then
    (s.setF F.EVF_IRQ_PEND_PEND (setBits (s.f F.EVF_IRQ_PEND_PEND) (i - 336) (i - 336) 1)).requestVector (i - 336)
  else if i < 408 then s.wakeBy (2 + (i - 400)) t true
  else s.relayTake (i - 408) t

/-- Whether reference times a and b lie less than 2.5 ns apart. -/
def coincide (a b : Nat) : Bool := decide ((max a b - min a b) * 10000000000 < 25 * second)

/-- A live input meets an event with reference time t (R195): it merges, is lost to overrun, or is taken. -/
def State.arriveAt (s : State) (i t : Nat) : State :=
  let merges : Bool := match (s.input i).window with | some w => coincide w t | none => false
  if merges then (s.modInput i fun x => { x with coincide := min (x.coincide + 1) 0xFFFF }).trouble .coincide
  else
    let s := s.modInput i fun x => { x with window := some t }
    if s.busy i then (((s.modInput i fun x => { x with overrun := min (x.overrun + 1) 0xFFFF }).flagOverrun i).trouble .overrun)
    else s.consume i t

/-- The start input of core k meets an event outside ARMED (R45; only in ACTIVE and TRIM, R202): START_MISS sets, unless the event starts the
core again in the cycle in which it left ARMED. -/
def State.missStart (s : State) (k t : Nat) : State :=
  let same : Bool := match (s.input (256 + k)).window with
    | some w => decide ((max w t - min w t) * 1200000000 < second) | none => false
  if s.f F.CORE_CTL_START_SRC k == 1 && s.st k != 3 && !same then s.flag F.CORE_STATUS_START_MISS k else s

/-- EVENT_DELIVERY (R195): the n-th event on its way reaches consumer input i, when i selects its channel. The fabric is self-timed, so
the sender of the command chooses which event reaches which input next. -/
def execEventDelivery (n : Nat) (i : Fin 416) (s : State) : Res :=
  match s.fabric.flight[n]? with
  | none => .next s
  | some e =>
    if s.selection i ≠ some e.chan ∨ e.reached.contains i.val then .next s
    else
      let e' : Flight := { e with reached := e.reached ++ [i.val] }
      let t : State := { s with fabric := { s.fabric with flight := s.fabric.flight.set n e' } }
      if t.live i then .next (t.arriveAt i e.time)
      else if s.active ∧ 256 ≤ i.val ∧ i.val < 320 then .next (t.missStart (i - 256 : Nat) e.time)
      else .next t

end Sys2Proof.Machine
end

