-- ==== Sys2Proof/Machine/Dispatch.lean ====
section
/-! DEFINITION. One arm per command: the meaning it calls. -/

namespace Sys2Proof.Machine

open Sys2Proof

def exec (i : Instr) (s : State) : Host.Outcome State Fault Refusal :=
  match i with
  | .arm k q w => Sys2Proof.Machine.execArm k q w s
  | .start k q w => Sys2Proof.Machine.execStart k q w s
  | .stop k q w => Sys2Proof.Machine.execStop k q w s
  | .resume k q w => Sys2Proof.Machine.execResume k q w s
  | .reset k q w => Sys2Proof.Machine.execReset k q w s
  | .step k q w e ecc => Sys2Proof.Machine.execStep k q w e ecc s
  | .timeStart k => Sys2Proof.Machine.execTimeStart k s
  | .admissionGrant k => Sys2Proof.Machine.execAdmissionGrant k s
  | .admissionTimeout k => Sys2Proof.Machine.execAdmissionTimeout k s
  | .clusterFillDone c => Sys2Proof.Machine.execClusterFillDone c s
  | .qstallResume k => Sys2Proof.Machine.execQstallResume k s
  | .budgetGrant k => Sys2Proof.Machine.execBudgetGrant k s
  | .budgetTimeout k => Sys2Proof.Machine.execBudgetTimeout k s
  | .evtWaitTimeout k => Sys2Proof.Machine.execEvtWaitTimeout k s
  | .bufOpComplete k => Sys2Proof.Machine.execBufOpComplete k s
  | .add k e d a b => Sys2Proof.Machine.execAdd k e d a b s
  | .sub k e d a b => Sys2Proof.Machine.execSub k e d a b s
  | .and k e d a b => Sys2Proof.Machine.execAnd k e d a b s
  | .or k e d a b => Sys2Proof.Machine.execOr k e d a b s
  | .xor k e d a b => Sys2Proof.Machine.execXor k e d a b s
  | .shl k e d a b => Sys2Proof.Machine.execShl k e d a b s
  | .shr k e d a b => Sys2Proof.Machine.execShr k e d a b s
  | .sra k e d a b => Sys2Proof.Machine.execSra k e d a b s
  | .mul k e d a b => Sys2Proof.Machine.execMul k e d a b s
  | .addi k e d a imm => Sys2Proof.Machine.execAddi k e d a imm s
  | .andi k e d a imm => Sys2Proof.Machine.execAndi k e d a imm s
  | .ori k e d a imm => Sys2Proof.Machine.execOri k e d a imm s
  | .xori k e d a imm => Sys2Proof.Machine.execXori k e d a imm s
  | .shli k e d a imm => Sys2Proof.Machine.execShli k e d a imm s
  | .shri k e d a imm => Sys2Proof.Machine.execShri k e d a imm s
  | .srai k e d a imm => Sys2Proof.Machine.execSrai k e d a imm s
  | .ldi k e d imm => Sys2Proof.Machine.execLdi k e d imm s
  | .ldih k e d imm => Sys2Proof.Machine.execLdih k e d imm s
  | .ld k e ecc d a off => Sys2Proof.Machine.execLd k e ecc d a off s
  | .st k e a b off => Sys2Proof.Machine.execSt k e a b off s
  | .dtrdSec k e d => Sys2Proof.Machine.execDtrdSec k e d s
  | .dtrdFrac k e d => Sys2Proof.Machine.execDtrdFrac k e d s
  | .beq k e a b tgt => Sys2Proof.Machine.execBeq k e a b tgt s
  | .bne k e a b tgt => Sys2Proof.Machine.execBne k e a b tgt s
  | .blt k e a b tgt => Sys2Proof.Machine.execBlt k e a b tgt s
  | .bge k e a b tgt => Sys2Proof.Machine.execBge k e a b tgt s
  | .bltu k e a b tgt => Sys2Proof.Machine.execBltu k e a b tgt s
  | .bgeu k e a b tgt => Sys2Proof.Machine.execBgeu k e a b tgt s
  | .bbs k e a b tgt => Sys2Proof.Machine.execBbs k e a b tgt s
  | .bbc k e a b tgt => Sys2Proof.Machine.execBbc k e a b tgt s
  | .beqi k e a imm tgt => Sys2Proof.Machine.execBeqi k e a imm tgt s
  | .bnei k e a imm tgt => Sys2Proof.Machine.execBnei k e a imm tgt s
  | .blti k e a imm tgt => Sys2Proof.Machine.execBlti k e a imm tgt s
  | .bgei k e a imm tgt => Sys2Proof.Machine.execBgei k e a imm tgt s
  | .bltui k e a imm tgt => Sys2Proof.Machine.execBltui k e a imm tgt s
  | .bgeui k e a imm tgt => Sys2Proof.Machine.execBgeui k e a imm tgt s
  | .bbsi k e a imm tgt => Sys2Proof.Machine.execBbsi k e a imm tgt s
  | .bbci k e a imm tgt => Sys2Proof.Machine.execBbci k e a imm tgt s
  | .goto k e tgt => Sys2Proof.Machine.execGoto k e tgt s
  | .call k e tgt => Sys2Proof.Machine.execCall k e tgt s
  | .ret k e => Sys2Proof.Machine.execRet k e s
  | .end_ k e => Sys2Proof.Machine.execEnd k e s
  | .nop k e => Sys2Proof.Machine.execNop k e s
  | .play k e seg kerf => Sys2Proof.Machine.execPlay k e seg kerf s
  | .loop k e count len => Sys2Proof.Machine.execLoop k e count len s
  | .jump k e mode discard ec entry => Sys2Proof.Machine.execJump k e mode discard ec entry s
  | .jumpDisarm k e none_ => Sys2Proof.Machine.execJumpDisarm k e none_ s
  | .waitTrig k e arg => Sys2Proof.Machine.execWaitTrig k e arg s
  | .waitEvent k e arg => Sys2Proof.Machine.execWaitEvent k e arg s
  | .waitTime k e a b => Sys2Proof.Machine.execWaitTime k e a b s
  | .waitKerf k e arg => Sys2Proof.Machine.execWaitKerf k e arg s
  | .setf k e a => Sys2Proof.Machine.execSetf k e a s
  | .setp k e add phase => Sys2Proof.Machine.execSetp k e add phase s
  | .rampf k e a b => Sys2Proof.Machine.execRampf k e a b s
  | .mark k e lane mode offset width => Sys2Proof.Machine.execMark k e lane mode offset width s
  | .trigo k e line => Sys2Proof.Machine.execTrigo k e line s
  | .bufAlloc k e d a region => Sys2Proof.Machine.execBufAlloc k e d a region s
  | .bufAttach k e d a => Sys2Proof.Machine.execBufAttach k e d a s
  | .bufFree k e a => Sys2Proof.Machine.execBufFree k e a s
  | .bufFence k e a => Sys2Proof.Machine.execBufFence k e a s
  | .bufGet k e ecc d a b daddr nw => Sys2Proof.Machine.execBufGet k e ecc d a b daddr nw s
  | .bufPut k e ecc d a b daddr nw => Sys2Proof.Machine.execBufPut k e ecc d a b daddr nw s
  | .evtFire k e ec => Sys2Proof.Machine.execEvtFire k e ec s
  | .evtWaitArm k e d eca ecb => Sys2Proof.Machine.execEvtWaitArm k e d eca ecb s
  | .evtWait k e d eca ecb tmo => Sys2Proof.Machine.execEvtWait k e d eca ecb tmo s
  | .budget k e d cls phase => Sys2Proof.Machine.execBudget k e d cls phase s
  | .windowClose v e => Sys2Proof.Machine.execWindowClose v e s
  | .kerf v => Sys2Proof.Machine.execKerf v s
  | .grainStart v late => Sys2Proof.Machine.execGrainStart v late s
  | .grainFetchIssue v e addr => Sys2Proof.Machine.execGrainFetchIssue v e addr s
  | .refillGrainArrive v e addr => Sys2Proof.Machine.execRefillGrainArrive v e addr s
  | .waitRelease v e => Sys2Proof.Machine.execWaitRelease v e s
  | .jumpAccept v => Sys2Proof.Machine.execJumpAccept v s
  | .jumpLand v => Sys2Proof.Machine.execJumpLand v s
  | .voiceJtWrite v n q w ecc => Sys2Proof.Machine.execVoiceJtWrite v n q w ecc s
  | .jtPreloadDone v n ecc => Sys2Proof.Machine.execJtPreloadDone v n ecc s
  | .voiceSegtabWrite v q w => Sys2Proof.Machine.execVoiceSegtabWrite v q w s
  | .markAction v => Sys2Proof.Machine.execMarkAction v s
  | .markPulseEnd v => Sys2Proof.Machine.execMarkPulseEnd v s
  | .rampEnd v => Sys2Proof.Machine.execRampEnd v s
  | .streamPacketRx src peer h0 h1 h2 h3 payload => Sys2Proof.Machine.execStreamPacketRx src peer h0 h1 h2 h3 payload s
  | .streamBlockCheck v e => Sys2Proof.Machine.execStreamBlockCheck v e s
  | .stmCfgEnable b q w => Sys2Proof.Machine.execStmCfgEnable b q w s
  | .hostBufAlloc q w => Sys2Proof.Machine.execHostBufAlloc q w s
  | .hostBufFree q w => Sys2Proof.Machine.execHostBufFree q w s
  | .hostBufAttach q w => Sys2Proof.Machine.execHostBufAttach q w s
  | .hostBufQuery q w => Sys2Proof.Machine.execHostBufQuery q w s
  | .chEnable n q w => Sys2Proof.Machine.execChEnable n q w s
  | .chDisable n q w => Sys2Proof.Machine.execChDisable n q w s
  | .channelStart n => Sys2Proof.Machine.execChannelStart n s
  | .channelStop n => Sys2Proof.Machine.execChannelStop n s
  | .runtimeBoundary n => Sys2Proof.Machine.execRuntimeBoundary n s
  | .chSlotWrite n p q w => Sys2Proof.Machine.execChSlotWrite n p q w s
  | .voiceJoin v => Sys2Proof.Machine.execVoiceJoin v s
  | .ncoResync n q w => Sys2Proof.Machine.execNcoResync n q w s
  | .ncoReset n => Sys2Proof.Machine.execNcoReset n s
  | .rangeRequest n q w => Sys2Proof.Machine.execRangeRequest n q w s
  | .rangeChangeStart n => Sys2Proof.Machine.execRangeChangeStart n s
  | .rangeDone n => Sys2Proof.Machine.execRangeDone n s
  | .muteWrite n q w => Sys2Proof.Machine.execMuteWrite n q w s
  | .scEngage n p => Sys2Proof.Machine.execScEngage n p s
  | .scEpisode n p => Sys2Proof.Machine.execScEpisode n p s
  | .scRelease n => Sys2Proof.Machine.execScRelease n s
  | .dacBiasSettled n => Sys2Proof.Machine.execDacBiasSettled n s
  | .trigInEdge n t rising held => Sys2Proof.Machine.execTrigInEdge n t rising held s
  | .tiCfgApply n => Sys2Proof.Machine.execTiCfgApply n s
  | .trigOutPulse m => Sys2Proof.Machine.execTrigOutPulse m s
  | .trigOutPulseEnd m => Sys2Proof.Machine.execTrigOutPulseEnd m s
  | .eventPass n => Sys2Proof.Machine.execEventPass n s
  | .eventDelivery n i1 => Sys2Proof.Machine.execEventDelivery n i1 s
  | .evtFireWrite i1 q w => Sys2Proof.Machine.execEvtFireWrite i1 q w s
  | .routingApply n => Sys2Proof.Machine.execRoutingApply n s
  | .relayDelayOutput r => Sys2Proof.Machine.execRelayDelayOutput r s
  | .relayTimerOutput r => Sys2Proof.Machine.execRelayTimerOutput r s
  | .evrCfgWrite r q w => Sys2Proof.Machine.execEvrCfgWrite r q w s
  | .evrParamWrite r q w => Sys2Proof.Machine.execEvrParamWrite r q w s
  | .evrStartWrite r frac q w => Sys2Proof.Machine.execEvrStartWrite r frac q w s
  | .ecSrcWrite c b q w => Sys2Proof.Machine.execEcSrcWrite c b q w s
  | .ecCtlWrite c q w => Sys2Proof.Machine.execEcCtlWrite c q w s
  | .refInputLost x => Sys2Proof.Machine.execRefInputLost x s
  | .refGateEnd a b => Sys2Proof.Machine.execRefGateEnd a b s
  | .refQualified x => Sys2Proof.Machine.execRefQualified x s
  | .refSourceWrite q w => Sys2Proof.Machine.execRefSourceWrite q w s
  | .refPllLock j => Sys2Proof.Machine.execRefPllLock j s
  | .spRetune j q w => Sys2Proof.Machine.execSpRetune j q w s
  | .spBandSelect q => Sys2Proof.Machine.execSpBandSelect q s
  | .spLockDeclared q => Sys2Proof.Machine.execSpLockDeclared q s
  | .spAlignDone q => Sys2Proof.Machine.execSpAlignDone q s
  | .spindleUnlock q rail => Sys2Proof.Machine.execSpindleUnlock q rail s
  | .spBmeas j q w => Sys2Proof.Machine.execSpBmeas j q w s
  | .spBmeasDone q flo fhi => Sys2Proof.Machine.execSpBmeasDone q flo fhi s
  | .clkRelease q w => Sys2Proof.Machine.execClkRelease q w s
  | .spPolicyWrite j q w => Sys2Proof.Machine.execSpPolicyWrite j q w s
  | .channelUnpark n => Sys2Proof.Machine.execChannelUnpark n s
  | .systemPllUnlock => Sys2Proof.Machine.execSystemPllUnlock s
  | .dramPllUnlock => Sys2Proof.Machine.execDramPllUnlock s
  | .dramPllRelock => Sys2Proof.Machine.execDramPllRelock s
  | .auxRetune i1 q w => Sys2Proof.Machine.execAuxRetune i1 q w s
  | .auxArm i1 q w => Sys2Proof.Machine.execAuxArm i1 q w s
  | .auxRampStart i1 => Sys2Proof.Machine.execAuxRampStart i1 s
  | .auxRampPoint i1 => Sys2Proof.Machine.execAuxRampPoint i1 s
  | .auxRampStop i1 q w => Sys2Proof.Machine.execAuxRampStop i1 q w s
  | .coEnable j q w => Sys2Proof.Machine.execCoEnable j q w s
  | .coDlyApply j => Sys2Proof.Machine.execCoDlyApply j s
  | .set q w => Sys2Proof.Machine.execSet q w s
  | .setAtPps q w => Sys2Proof.Machine.execSetAtPps q w s
  | .adj q w => Sys2Proof.Machine.execAdj q w s
  | .alignPps q w => Sys2Proof.Machine.execAlignPps q w s
  | .timeStep q w => Sys2Proof.Machine.execTimeStep q w s
  | .cancel q w => Sys2Proof.Machine.execCancel q w s
  | .ppsCmdTimeout => Sys2Proof.Machine.execPpsCmdTimeout s
  | .ppsInEdge t rising => Sys2Proof.Machine.execPpsInEdge t rising s
  | .ppsMiss => Sys2Proof.Machine.execPpsMiss s
  | .tmNowRead q part => Sys2Proof.Machine.execTmNowRead q part s
  | .second => Sys2Proof.Machine.execSecond s
  | .slewComplete => Sys2Proof.Machine.execSlewComplete s
  | .hoPolicyWrite q w => Sys2Proof.Machine.execHoPolicyWrite q w s
  | .ptpSyncRx h twoStep origin t => Sys2Proof.Machine.execPtpSyncRx h twoStep origin t s
  | .ptpFollowUpRx h origin => Sys2Proof.Machine.execPtpFollowUpRx h origin s
  | .ptpDelayReqRx h t => Sys2Proof.Machine.execPtpDelayReqRx h t s
  | .ptpDelayRespRx h t4 => Sys2Proof.Machine.execPtpDelayRespRx h t4 s
  | .ptpAnnounceRx h prio1 cls acc var prio2 gm steps => Sys2Proof.Machine.execPtpAnnounceRx h prio1 cls acc var prio2 gm steps s
  | .ptpManagementRx h get => Sys2Proof.Machine.execPtpManagementRx h get s
  | .ptpAnnounceTimeout => Sys2Proof.Machine.execPtpAnnounceTimeout s
  | .ptpSyncTx i1 => Sys2Proof.Machine.execPtpSyncTx i1 s
  | .ptpAnnounceTx i1 => Sys2Proof.Machine.execPtpAnnounceTx i1 s
  | .ptpDelayReqTx i1 => Sys2Proof.Machine.execPtpDelayReqTx i1 s
  | .cdStart i1 q w => Sys2Proof.Machine.execCdStart i1 q w s
  | .cdStop i1 q w => Sys2Proof.Machine.execCdStop i1 q w s
  | .cdRepeat i1 => Sys2Proof.Machine.execCdRepeat i1 s
  | .cdResult i1 => Sys2Proof.Machine.execCdResult i1 s
  | .cdxRx i1 t1 t2 t3 t => Sys2Proof.Machine.execCdxRx i1 t1 t2 t3 t s
  | .bar2Access write x be data e => Sys2Proof.Machine.execBar2Access write x be data e s
  | .bar4Access write x be data e => Sys2Proof.Machine.execBar4Access write x be data e s
  | .memPoolWrite q w => Sys2Proof.Machine.execMemPoolWrite q w s
  | .memCfgWrite q w => Sys2Proof.Machine.execMemCfgWrite q w s
  | .bankFillDone g => Sys2Proof.Machine.execBankFillDone g s
  | .scrubStep d a e => Sys2Proof.Machine.execScrubStep d a e s
  | .trefiTick c b rank => Sys2Proof.Machine.execTrefiTick c b rank s
  | .refreshSetDone c b rank urgent => Sys2Proof.Machine.execRefreshSetDone c b rank urgent s
  | .memFreqRequest q w => Sys2Proof.Machine.execMemFreqRequest q w s
  | .freqChangeDone => Sys2Proof.Machine.execFreqChangeDone s
  | .memTrainRequest q w => Sys2Proof.Machine.execMemTrainRequest q w s
  | .trainStepDone fail => Sys2Proof.Machine.execTrainStepDone fail s
  | .periodicTrain c => Sys2Proof.Machine.execPeriodicTrain c s
  | .dramFillDone c => Sys2Proof.Machine.execDramFillDone c s
  | .ping p h => Sys2Proof.Machine.execPing p h s
  | .open_ p h => Sys2Proof.Machine.execOpen p h s
  | .journalRead p h first count => Sys2Proof.Machine.execJournalRead p h first count s
  | .noteRead p h first count => Sys2Proof.Machine.execNoteRead p h first count s
  | .regRead p h off count e => Sys2Proof.Machine.execRegRead p h off count e s
  | .regWrite p h off count vals e => Sys2Proof.Machine.execRegWrite p h off count vals e s
  | .memRead p h region addr len e => Sys2Proof.Machine.execMemRead p h region addr len e s
  | .memWrite p h region addr len vals => Sys2Proof.Machine.execMemWrite p h region addr len vals s
  | .imageLoad p h core arm image => Sys2Proof.Machine.execImageLoad p h core arm image s
  | .noteCfg p h mask => Sys2Proof.Machine.execNoteCfg p h mask s
  | .ptpDsGet p h id => Sys2Proof.Machine.execPtpDsGet p h id s
  | .ptpDsSet p h id data => Sys2Proof.Machine.execPtpDsSet p h id data s
  | .mlpDiscard p foreign => Sys2Proof.Machine.execMlpDiscard p foreign s
  | .seqgapTimeout p => Sys2Proof.Machine.execSeqgapTimeout p s
  | .p0CmdTailWrite q tail => Sys2Proof.Machine.execP0CmdTailWrite q tail s
  | .p0RspHeadWrite q head => Sys2Proof.Machine.execP0RspHeadWrite q head s
  | .port0Reset kind => Sys2Proof.Machine.execPort0Reset kind s
  | .perstNRelease => Sys2Proof.Machine.execPerstNRelease s
  | .prtBindWrite p q w => Sys2Proof.Machine.execPrtBindWrite p q w s
  | .bindingApply p => Sys2Proof.Machine.execBindingApply p s
  | .irqCoalesceTimeout => Sys2Proof.Machine.execIrqCoalesceTimeout s
  | .prtFiWrite p q w => Sys2Proof.Machine.execPrtFiWrite p q w s
  | .reorderTimeout p tx => Sys2Proof.Machine.execReorderTimeout p tx s
  | .arpRx p target => Sys2Proof.Machine.execArpRx p target s
  | .ndRx p hi lo => Sys2Proof.Machine.execNdRx p hi lo s
  | .icmpEchoRx p v6 frag => Sys2Proof.Machine.execIcmpEchoRx p v6 frag s
  | .pwrReqActive q w => Sys2Proof.Machine.execPwrReqActive q w s
  | .pwrReqTrim q w => Sys2Proof.Machine.execPwrReqTrim q w s
  | .pwrReqDoze q w => Sys2Proof.Machine.execPwrReqDoze q w s
  | .pwrReqRest q w => Sys2Proof.Machine.execPwrReqRest q w s
  | .handshakeRetry => Sys2Proof.Machine.execHandshakeRetry s
  | .pwrDomOnWrite one q w => Sys2Proof.Machine.execPwrDomOnWrite one q w s
  | .wake src t fresh => Sys2Proof.Machine.execWake src t fresh s
  | .pgGood line => Sys2Proof.Machine.execPgGood line s
  | .pgTimeout => Sys2Proof.Machine.execPgTimeout s
  | .oscReady => Sys2Proof.Machine.execOscReady s
  | .oscTimeout => Sys2Proof.Machine.execOscTimeout s
  | .wakeRetry => Sys2Proof.Machine.execWakeRetry s
  | .wakeDone u => Sys2Proof.Machine.execWakeDone u s
  | .pgLoss line => Sys2Proof.Machine.execPgLoss line s
  | .brownoutWarn rest => Sys2Proof.Machine.execBrownoutWarn rest s
  | .brownoutClear rest => Sys2Proof.Machine.execBrownoutClear rest s
  | .supplyResetLevel rest => Sys2Proof.Machine.execSupplyResetLevel rest s
  | .govEval temps mons rest => Sys2Proof.Machine.execGovEval temps mons rest s
  | .govTrimEnter => Sys2Proof.Machine.execGovTrimEnter s
  | .govThrottleDouble => Sys2Proof.Machine.execGovThrottleDouble s
  | .govThrottleHalve => Sys2Proof.Machine.execGovThrottleHalve s
  | .coefUpdate core vr sr dr => Sys2Proof.Machine.execCoefUpdate core vr sr dr s
  | .hwGuardEngage => Sys2Proof.Machine.execHwGuardEngage s
  | .hwGuardRelease => Sys2Proof.Machine.execHwGuardRelease s
  | .thermalTrip => Sys2Proof.Machine.execThermalTrip s
  | .pwrRmemAccess q write w e => Sys2Proof.Machine.execPwrRmemAccess q write w e s
  | .calStart n q w => Sys2Proof.Machine.execCalStart n q w s
  | .calAbort n q w => Sys2Proof.Machine.execCalAbort n q w s
  | .calFlip n q w => Sys2Proof.Machine.execCalFlip n q w s
  | .calTempCheck n => Sys2Proof.Machine.execCalTempCheck n s
  | .calRunStart n => Sys2Proof.Machine.execCalRunStart n s
  | .calStepDone n => Sys2Proof.Machine.execCalStepDone n s
  | .calDone n => Sys2Proof.Machine.execCalDone n s
  | .calBankWrite n j q w => Sys2Proof.Machine.execCalBankWrite n j q w s
  | .calStore q w => Sys2Proof.Machine.execCalStore q w s
  | .calStoreDone => Sys2Proof.Machine.execCalStoreDone s
  | .registerWrite q off d e ecc => Sys2Proof.Machine.execRegisterWrite q off d e ecc s
  | .registerReadLow q off part e => Sys2Proof.Machine.execRegisterReadLow q off part e s
  | .registerWriteLow q off h => Sys2Proof.Machine.execRegisterWriteLow q off h s
  | .badAccess q write => Sys2Proof.Machine.execBadAccess q write s
  | .coreDmemAccess k q write w part e => Sys2Proof.Machine.execCoreDmemAccess k q write w part e s
  | .glbCntClr q w => Sys2Proof.Machine.execGlbCntClr q w s
  | .blockCntClr q off => Sys2Proof.Machine.execBlockCntClr q off s
  | .glbOnceWrite q w => Sys2Proof.Machine.execGlbOnceWrite q w s
  | .glbProtWrite i1 q w => Sys2Proof.Machine.execGlbProtWrite i1 q w s
  | .por => Sys2Proof.Machine.execPor s
  | .crystalReady porst bootsel => Sys2Proof.Machine.execCrystalReady porst bootsel s
  | .crystalTimeout porst bootsel => Sys2Proof.Machine.execCrystalTimeout porst bootsel s
  | .coldReset => Sys2Proof.Machine.execColdReset s
  | .chipReset => Sys2Proof.Machine.execChipReset s
  | .doorbell e => Sys2Proof.Machine.execDoorbell e s
  | .imageLoaded a b ver => Sys2Proof.Machine.execImageLoaded a b ver s
  | .watchdogExpiry => Sys2Proof.Machine.execWatchdogExpiry s
  | .spllRstClear => Sys2Proof.Machine.execSpllRstClear s
  | .voiceSample n => Sys2Proof.Machine.execVoiceSample n s
  | .dacSample n => Sys2Proof.Machine.execDacSample n s
  | .auxLockDeclared i1 => Sys2Proof.Machine.execAuxLockDeclared i1 s
  | .auxLossOfLock i1 => Sys2Proof.Machine.execAuxLossOfLock i1 s
  | .refInputValid x => Sys2Proof.Machine.execRefInputValid x s
  | .currentLimitReleased n p => Sys2Proof.Machine.execCurrentLimitReleased n p s
  | .coreSupplyReturn => Sys2Proof.Machine.execCoreSupplyReturn s
  | .porstNRelease bootsel => Sys2Proof.Machine.execPorstNRelease bootsel s
  | .serviceCoreEccError => Sys2Proof.Machine.execServiceCoreEccError s
  | .pcieLinkUp width speed => Sys2Proof.Machine.execPcieLinkUp width speed s
  | .ethLinkUp p => Sys2Proof.Machine.execEthLinkUp p s
  | .ethLinkDown p signal => Sys2Proof.Machine.execEthLinkDown p signal s
  | .cdExchangeTx i1 t => Sys2Proof.Machine.execCdExchangeTx i1 t s
  | .relayDivideOutput r => Sys2Proof.Machine.execRelayDivideOutput r s

end Sys2Proof.Machine
end

