-- ==== Sys2Proof/Machine/Idle.lean ====
section
/-! DEFINITION. What the device does of itself while no command waits. -/

namespace Sys2Proof.Machine

/-- Two cycles of the 2.4 GHz Reference PLL output, one of the core clock (R227): late events have left the fabric. -/
def State.coreCycle (s : State) : State :=
  let t := s.time.cycle.cycle
  { s with time := t, fabric := { s.fabric with flight := dropLate t.dtime.toNat s.fabric.flight } }

/-- A cycle of the Rest clock in REST (R234). While REF_A is counted, its edges in the cycle advance DTIME by 2^48 / REFA_FREQ each, with
an exact residue; how many came no command tells, and their number is drawn. Otherwise DTIME advances by 2^33 units, corrected by the rate
of the Rest oscillator once that has been measured. -/
def State.restCycle (s : State) : State :=
  if s.on F.TM_REST_CFG_REFA_CORR ∧ s.time.refA ∧ s.time.restFreq ≠ 0 then
    let sum := s.time.restRes + s.free.toNat % 2 ^ 16 * 2 ^ 64
    let t := (s.reach (s.now + sum / s.time.restFreq)).drawn
    { t with time := { t.time with restRes := sum % s.time.restFreq } }
  else s.reach (s.now + if s.time.measured then Config.restStep s.power.saves else 2 ^ 33)

/-- One cycle passes (DESIGN CHOICE, log entry 3): none in OFF and one of the Rest clock in REST, and else one of the core clock, in which
DTIME counts (R227), cores in EVWAIT with a latch set leave it (R76), a Spindle PLL that reported LOST reacquires (R213), image loads that are
due complete (R275), and a DRAM PLL out of lock for 10 µs leaves the channels UNTRAINED (R360). -/
def State.idle (s : State) : State :=
  if s.off then s
  else if s.resting then s.restCycle
  else ((forN 4 (fun q t => t.reacquire q) (forN 64 (fun k t => t.wakeEvt k) s.coreCycle)).serveImages).pllExpire

end Sys2Proof.Machine
end

