-- ==== Sys2Proof/Machine/Encode.lean ====
section
/-! DEFINITION. The Novdex instruction words (R54 to R77) written from their operands: which operands have an encoding, and the word. -/

namespace Sys2Proof.Machine

/-- Operands that the fields of an instruction word can hold (R59, R61, R68, R70): shift counts and bit numbers below 64 in immediate
forms, a WIDTH only with the pulse mode, and no WAIT form beside the four. -/
def CoreOp.ok : CoreOp → Bool
  | .ri .shli _ _ imm | .ri .shri _ _ imm | .ri .srai _ _ imm => decide (imm.toNat < 64)
  | .bi .bs _ imm _ | .bi .bc _ imm _ => decide (imm.toNat < 64)
  | .mark _ mode _ width => mode == 2 || width == 0
  | .waitOther => false
  | _ => true

/-- OPCODE of a format RR instruction. -/
def RR.code : RR → Nat
  | .add => 0x08 | .sub => 0x09 | .and => 0x0A | .or => 0x0B | .xor => 0x0C | .shl => 0x0D | .shr => 0x0E | .sra => 0x0F | .mul => 0x10

/-- OPCODE of a format RI instruction. -/
def RI.code : RI → Nat
  | .addi => 0x11 | .andi => 0x12 | .ori => 0x13 | .xori => 0x14 | .shli => 0x15 | .shri => 0x16 | .srai => 0x17

/-- COND of a branch (R61). -/
def Cond.code : Cond → Nat
  | .eq => 0 | .ne => 1 | .lt => 2 | .ge => 3 | .ltu => 4 | .geu => 5 | .bs => 6 | .bc => 7

/-- OPCODE and the register fields D, A and B in their places (R54, R55), the rest added. -/
def encoded (op d a b rest : Nat) : Nat := op * 2 ^ 56 + d * 2 ^ 51 + a * 2 ^ 46 + b * 2 ^ 41 + rest

/-- The instruction word of o. -/
def encodeCore : CoreOp → Nat
  | .nop => encoded 0x01 0 0 0 0
  | .rr o d a b => encoded o.code d a b 0
  | .ri o d a imm => encoded o.code d a 0 imm.toNat
  | .ldi d imm => encoded 0x18 d 0 0 imm.toNat
  | .ldih d imm => encoded 0x19 d 0 0 imm.toNat
  | .ld d a off => encoded 0x1A d a 0 off.toNat
  | .st a b off => encoded 0x1B 0 a b off.toNat
  | .dtrdSec d => encoded 0x1C d 0 0 0
  | .dtrdFrac d => encoded 0x1C d 0 0 1
  | .br c a b tgt => encoded 0x20 (4 * c.code) a b tgt
  | .bi c a imm tgt => encoded 0x21 (4 * c.code) a 0 (imm.toNat * 2 ^ 16 + tgt)
  | .goto_ tgt => encoded 0x22 0 0 0 tgt
  | .call tgt => encoded 0x23 0 0 0 tgt
  | .ret => encoded 0x24 0 0 0 0
  | .end_ => encoded 0x25 0 0 0 0
  | .play (.imm k) (.imm g) => encoded 0x40 0 0 0 (k.toNat * 2 ^ 16 + g.toNat)
  | .play (.imm k) (.reg g) => encoded 0x40 16 g 0 (k.toNat * 2 ^ 16)
  | .play (.reg k) (.imm g) => encoded 0x40 8 0 k g.toNat
  | .play (.reg k) (.reg g) => encoded 0x40 24 g k 0
  | .loop (.imm n) len => encoded 0x41 0 0 0 (n.toNat * 2 ^ 8 + len.toNat)
  | .loop (.reg n) len => encoded 0x41 16 n 0 len.toNat
  | .jump mode discard ec entry => encoded 0x42 (8 * mode + 4 * discard.toNat) 0 0 (ec.toNat * 2 ^ 8 + entry)
  | .jumpDisarm none_ => encoded 0x42 24 0 0 (none_.toNat * 2 ^ 15)
  | .waitTrig arg => encoded 0x43 0 0 0 arg.toNat
  | .waitEvent arg => encoded 0x43 4 0 0 arg.toNat
  | .waitTime a b => encoded 0x43 8 a b 0
  | .waitKerf arg => encoded 0x43 12 0 0 arg.toNat
  | .waitOther => encoded 0x43 16 0 0 0
  | .setf a => encoded 0x48 0 a 0 0
  | .setp add (.imm p) => encoded 0x49 (16 * add.toNat) 0 0 p.toNat
  | .setp add (.reg r) => encoded 0x49 (16 * add.toNat + 8) r 0 0
  | .rampf a b => encoded 0x4A 0 a b 0
  | .mark lane mode offset width => encoded 0x50 (8 * lane + 2 * mode) 0 0 (offset.toNat * 2 ^ 20 + width.toNat)
  | .trigo line => encoded 0x51 (2 * line) 0 0 0
  | .bufAlloc d a region => encoded 0x58 d a 0 region
  | .bufAttach d a => encoded 0x58 d a 0 3
  | .bufFree a => encoded 0x59 0 a 0 0
  | .bufFence a => encoded 0x5A 0 a 0 0
  | .bufGet d a b daddr nw => encoded 0x5B d a b (daddr.toNat * 2 ^ 16 + nw.toNat)
  | .bufPut d a b daddr nw => encoded 0x5C d a b (daddr.toNat * 2 ^ 16 + nw.toNat)
  | .evtFire (.imm c) => encoded 0x60 0 0 0 c.toNat
  | .evtFire (.reg r) => encoded 0x60 16 r 0 0
  | .evtWaitArm d eca ecb => encoded 0x61 d 16 0 (ecb.toNat * 2 ^ 32 + eca.toNat * 2 ^ 24)
  | .evtWait d eca ecb tmo => encoded 0x61 d 0 0 (ecb.toNat * 2 ^ 32 + eca.toNat * 2 ^ 24 + tmo.toNat)
  | .budget d cls phase => encoded 0x68 d 0 0 (cls * 2 ^ 40 + phase)

end Sys2Proof.Machine
end

