-- ==== Sys2Proof/Safety.lean ====
section
/-! DEFINITION. The terms in which claims speak of the machine: an answer with a next state, what a core meets when it issues, what a
fault, an emission and a register write leave, which registers and memories stay as they were, and the canonical form of the stores. -/

namespace Sys2Proof.Machine

/-- A command answers a next state of which P holds. -/
def Gives (r : Res) (P : State → Prop) : Prop := ∃ t, r = .next t ∧ P t

/-! ### Cores -/

/-- Core k is in RUN, nothing blocks it, and its fetch (which meets e) finds the word of instruction o (R32, R33, R54). -/
abbrev Issues (s : State) (k : Nat) (e : Ecc) (o : CoreOp) : Prop :=
  s.st k = 5 ∧ (s.core k).blocked = false ∧ s.pc k < s.textWords k ∧ e.bad = false ∧
    decodeCore (s.rw .CORE_IMEM k (s.pc k)).toNat = .op o

/-- The state after the fetch of core k: a corrected error is counted (R34). -/
def State.fetched (s : State) (k : Nat) (e : Ecc) : State := s.coreEcc e (s.pc k * 8)

/-- From s to t, core k took the fault with this code at its instruction (R51): nothing of the instruction happened. -/
def Faulted (s t : State) (k code : Nat) : Prop :=
  t.st k = 10 ∧ t.f F.CORE_FAULT_CODE k = code ∧ t.f F.CORE_FAULT_FPC k = s.pc k % 8192 ∧ t.pc k = s.pc k ∧
    (∀ r, t.greg k r = s.greg k r) ∧ t.dmem = s.dmem ∧ t.voices = s.voices

/-- A branch, call or return of core k to tgt under condition c (R56): taken inside the text, taken beyond it, and not taken. -/
def Branches (s : State) (k tgt : Nat) (e : Ecc) (c : Prop) (r : Res) : Prop :=
  (c → tgt < s.textWords k → r = .next ((s.fetched k e).setPc k tgt)) ∧
  (c → s.textWords k ≤ tgt → Gives r fun t => Faulted s t k 2) ∧
  (¬ c → r = .next ((s.fetched k e).setPc k (s.pc k + 1)))

/-- From s to t, core k emitted descriptor d at this instant and moved on (R36, R63). -/
def Emitted (s t : State) (k : Nat) (d : Desc) : Prop :=
  (∃ q : QEntry, (t.voice k).queue = (s.voice k).queue ++ [q] ∧ q.desc = d ∧ q.written = s.now) ∧ t.pc k = s.pc k + 1 ∧
    t.st k = 5 ∧ (∀ r, t.greg k r = s.greg k r) ∧ t.dmem = s.dmem ∧ t.sram = s.sram ∧ t.dram = s.dram

/-- The queue of core k has room, and no LOOP waits for the rest of its body (R36, R66). -/
abbrev Room (s : State) (k : Nat) : Prop := s.qfill k < 32 ∧ (s.voice k).openBody = 0

/-! ### Register access -/

/-- A write of w to member (i, j) of register r by q is admitted: the device takes accesses, no check refuses any bit of the word, the
register's domain runs, and q holds no half of another access (R326 to R341). -/
abbrev Admits (s : State) (q : Requester) (r : Reg) (i j : Nat) (w : Word) : Prop :=
  s.bound q = true ∧ s.active = true ∧ s.checkWrite q r i j (r.addr i j) w = ⟨none, some w⟩ ∧ s.offCore (r.addr i j) = false ∧
    s.stoppedAt (r.addr i j) = false ∧ s.readShadow q = none ∧ s.writeShadow q = none

/-- s with member (i, j) of r holding what its access codes make of a write of w (R9). -/
def State.wrote (s : State) (r : Reg) (i j : Nat) (w : Word) : State := s.setRw r (storedWord r.spec (s.rw r i j) w) i j

/-- Field x of member (i, j), one higher unless it stands at all ones. -/
def State.upped (s : State) (x : Fld) (i : Nat := 0) (j : Nat := 0) : Nat := min (s.f x i j + 1) (2 ^ (x.hi + 1 - x.lo) - 1)

/-- Source src fired at DTIME x, when the device state lets it (R191). -/
def FiredAt (s t : State) (src x : Nat) : Prop := s.mayFire src = true → (⟨.source src, x⟩ : Fired) ∈ t.fabric.fired

/-- From s to t, DTIME went on to the first edge of the Reference PLL output at or after the instant x of the happening, which lies within
one period of x, unless x had passed (R227). -/
def Reached (s t : State) (x : Nat) : Prop :=
  x + 117282 ≤ 2 ^ 96 → s.time.residue < 2400000000 →
    (x ≤ s.now → t.now = s.now) ∧ (s.now < x → x ≤ t.now ∧ t.now < x + 117282)

/-- Every register word at an offset outside lo..hi − 1, and all of waveform SRAM, DRAM and data memory, read in t as in s. -/
def Outside (lo hi : Nat) (s t : State) : Prop :=
  (∀ off, off < lo ∨ hi ≤ off → t.word off = s.word off) ∧ t.sram = s.sram ∧ t.dram = s.dram ∧ t.dmem = s.dmem

/-- All register words and all of SRAM, DRAM and data memory read in t as in s. -/
def SameWords (s t : State) : Prop := Outside 0 0 s t

/-! ### Ports -/

/-- Port p treats an MLP message as it arrives and can answer it: it receives, takes the frame and is bound, the Service Cores run, no frame
waits, no command is in execution, no change of its binding waits, nothing injects faults, and responses up to 1,024 bytes fit (R269 to
R275). -/
abbrev Quiet (s : State) (p : Fin 5) (h : MlpHead) : Prop :=
  s.receives p = true ∧ s.takesFrame p h.frame = true ∧ s.portBound p = true ∧ s.boot.running = true ∧ (∀ q : Fin 5, (s.port q).ready = []) ∧ (s.port 0).exec = none ∧
    (s.port p).exec = none ∧ (s.port p).bind = none ∧ s.on F.PRT_FI_EN p = false ∧ s.canSend p = true ∧ h.fits = true ∧ h.code = none ∧
    (p = 0 → 1024 ≤ h.room.toNat) ∧ (p ≠ 0 → 1280 ≤ s.f F.ETH_CFG_MTU (p - 1 : Nat))

/-- Port p is quiet, its session is open with nothing held, and the command is the next of its sequence (R277). -/
abbrev InTurn (s : State) (p : Fin 5) (h : MlpHead) : Prop :=
  Quiet s p h ∧ h.oob = false ∧ (s.port p).opened = true ∧ (s.port p).held = [] ∧ h.hsn.toNat = s.f F.PRT_SEQ_NEXT_HSN p

/-- From s to t, port p sent one message m. -/
def Answered (s t : State) (p : Nat) (m : MlpOut) : Prop := (t.port p).sent = (s.port p).sent ++ [.mlp m]

/-- The response to an OOB command of port p with header h, or one outside the sequence (R275, R277). -/
def oobReply (s : State) (p : Nat) (h : MlpHead) (op status : Nat) (payload : List Byte) : MlpOut :=
  { note := false, code := op, hsn := h.hsn.toNat, status := status, session := s.session p, oob := true, payload := payload }

/-- The response to an earlier command, sent again (R277). -/
def replayOf (e : JEntry) : MlpOut :=
  { note := false, code := e.opcode, hsn := e.hsn, dsn := e.dsn, status := e.status, session := e.session, replay := true }

/-- From s to t, the command of port p with header h completed (R277, R278, R280): it took the next DSN, NEXT_HSN counts, the journal tells
of it, and its response went out. -/
def Completed (s t : State) (p : Nat) (h : MlpHead) (op status : Nat) (payload : List Byte) : Prop :=
  let d := (s.f F.PRT_SEQ_LAST_DSN p + 1) % 2 ^ 32
  t.f F.PRT_SEQ_LAST_DSN p = d ∧ t.f F.PRT_SEQ_NEXT_HSN p = (h.hsn.toNat + 1) % 2 ^ 32 ∧
    (∃ e, t.link.journal.head? = some e ∧ e.done = true ∧ e.hsn = h.hsn.toNat ∧ e.dsn = d ∧ e.opcode = op ∧ e.status = status ∧
      e.port = p ∧ e.session = s.session p) ∧
    Answered s t p { note := false, code := op, hsn := h.hsn.toNat, dsn := d, status := status, session := s.session p, payload := payload }

/-! ### Canonical form -/

/-- Waveform SRAM and DRAM are in canonical form (R245, R254). -/
def Memory.wf (s : State) : Bool := swf zeroByte s.sram && swf s.mem.dramDefault s.dram

/-- Registers, SRAM, DRAM and data memory are in canonical form, so that equal machines are equal data. -/
def State.canonical (s : State) : Bool := swf resetAt s.regs && Memory.wf s && swf (fun _ => 0#64) s.dmem

end Sys2Proof.Machine
end

