-- ==== Sys2Proof/Certificates/Slice0/Obligations.lean ====
section
/-! DEFINITION. The statements about the machine, for the provers. A conclusion that a command answers a next state is an equation
exec c s = .next t or Gives (exec c s) P. Every statement about a command of the device's own doing rests on log entries 1 and 2: the row is
the happening, and the queue's order its order. -/

open Sys2Proof Sys2Proof.Machine

/-! ### The step -/

/-- A command at the front of the queue runs on the state with the queue's rest (the block's interface). -/
def Obligations.StepRunsTheFrontCommand : Prop :=
  ∀ (c : Instr) (rest : List Instr) (s : State),
    step { s with pending := c :: rest } = exec c { s with pending := rest }

/-- The model's choice (log entry 3): with no command waiting one core cycle passes, in which DTIME counts two edges of the Reference PLL
output (R227); in REST one cycle of the Rest clock passes, by 2^33 units while no rate of it has been measured and REF_A is not counted (R234);
in OFF nothing changes.
DTIME gains exactly 2^48 units in 2.4 × 10^9 edges of the Reference PLL output (R227): the residue is the error of the count. -/
def Obligations.EmptyQueueIsOneCoreCycle : Prop :=
  (∀ s : State, s.pending = [] →
    (s.off = true → step s = .next s) ∧
    (s.off = false → s.resting = true → s.on F.TM_REST_CFG_REFA_CORR = false → s.time.measured = false → s.now + 2 ^ 33 < 2 ^ 96 →
      Gives (step s) fun t => t.now = s.now + 2 ^ 33 ∧ SameWords s t) ∧
    (s.off = false → s.resting = false → s.time.residue < 2400000000 → s.now + 2 * 117282 < 2 ^ 96 → Gives (step s) fun t =>
      t.now * 2400000000 + t.time.residue = s.now * 2400000000 + s.time.residue + 2 * 2 ^ 48 ∧ t.pending = [])) ∧
  (∀ t : TimeSt, t.residue < 2400000000 → t.dtime.toNat + 117282 < 2 ^ 96 →
    t.cycle.residue < 2400000000 ∧
      t.cycle.dtime.toNat * 2400000000 + t.cycle.residue = t.dtime.toNat * 2400000000 + t.residue + 2 ^ 48)

/-! ### Canonical form -/

/-- The state after reset has its stores in canonical form.
After reset, registers read what the spec's tables give, for one register of each block.
The model's choices in it: log entry 9. -/
def Obligations.ResetState : Prop :=
  (State.reset.canonical = true) ∧
  (State.reset.f F.DEV_ID_VENDOR = 0x4D56 ∧ State.reset.f F.DEV_ID_PART = 0x9616 ∧ State.reset.f F.DEV_CAP_CORES = 64 ∧
  State.reset.f F.DEV_CAP_CHANNELS = 16 ∧ State.reset.f F.DEV_CAP_SRAM_BANKS = 48 ∧
  State.reset.rw .PWR_DOM_ON0 = 0xFFFFFFFFFFFFFFFF#64 ∧ State.reset.rw .PWR_DOM_ON1 = 0xFF#64 ∧
  (∀ q : Fin 4, State.reset.rw .SP_FREQ q = 0x14000000#64) ∧
  State.reset.rw .TM_UNC = 0xFFFFFFFFFFFF#64 ∧ (∀ n : Fin 16, State.reset.rw .CH_CTL n = 0#64) ∧
  (∀ k : Fin 64, State.reset.st k = 0) ∧ (∀ (k : Fin 64) (r : Fin 32), State.reset.greg k r = 0#64))

/-- Every step keeps registers, waveform SRAM, DRAM and data memory in canonical form. -/
def Obligations.StepKeepsCanonical : Prop :=
  ∀ s t : State, s.canonical = true → step s = .next t → t.canonical = true

/-! ### Instruction words -/

/-- Every instruction whose operands have an encoding decodes from its word with every operand as it was (R54 to R77). -/
def Obligations.DecodeOfEncode : Prop :=
  ∀ o : CoreOp, o.ok = true → decodeCore (encodeCore o) = .op o

/-! ### Core instructions (R55, R59 to R62) -/

/-- The register instructions of format RR write gd and go on (R59).
The instructions with an immediate (R59): ADDI and LDI extend its sign, ANDI, ORI and XORI do not, shifts count below 64, and LDIH
replaces the top 16 bits.
g0 reads 0 and discards what is written to it, another register reads what was written, and no other register changes (R55). -/
def Obligations.ArithmeticInstructions : Prop :=
  (∀ (k : Fin 64) (e : Ecc) (d a b : Fin 32) (s : State),
    let x := s.greg k a
    let y := s.greg k b
    let done := fun (w : Word) => (Host.Outcome.next (((s.fetched k e).setGreg k d w).setPc k (s.pc k + 1)) : Res)
    (Issues s k e (.rr .add d a b) → exec (.add k e d a b) s = done (x + y)) ∧
    (Issues s k e (.rr .sub d a b) → exec (.sub k e d a b) s = done (x - y)) ∧
    (Issues s k e (.rr .and d a b) → exec (.and k e d a b) s = done (x &&& y)) ∧
    (Issues s k e (.rr .or d a b) → exec (.or k e d a b) s = done (x ||| y)) ∧
    (Issues s k e (.rr .xor d a b) → exec (.xor k e d a b) s = done (x ^^^ y)) ∧
    (Issues s k e (.rr .shl d a b) → exec (.shl k e d a b) s = done (x <<< (y.toNat % 64))) ∧
    (Issues s k e (.rr .shr d a b) → exec (.shr k e d a b) s = done (x >>> (y.toNat % 64))) ∧
    (Issues s k e (.rr .sra d a b) → exec (.sra k e d a b) s = done (x.sshiftRight (y.toNat % 64))) ∧
    (Issues s k e (.rr .mul d a b) → exec (.mul k e d a b) s = done (x * y))) ∧
  (∀ (k : Fin 64) (e : Ecc) (d a : Fin 32) (imm : BitVec 32) (l : BitVec 48) (h : BitVec 16) (s : State),
    let x := s.greg k a
    let n := imm.toNat % 64
    let done := fun (w : Word) => (Host.Outcome.next (((s.fetched k e).setGreg k d w).setPc k (s.pc k + 1)) : Res)
    (Issues s k e (.ri .addi d a imm) → exec (.addi k e d a imm) s = done (x + imm.signExtend 64)) ∧
    (Issues s k e (.ri .andi d a imm) → exec (.andi k e d a imm) s = done (x &&& imm.setWidth 64)) ∧
    (Issues s k e (.ri .ori d a imm) → exec (.ori k e d a imm) s = done (x ||| imm.setWidth 64)) ∧
    (Issues s k e (.ri .xori d a imm) → exec (.xori k e d a imm) s = done (x ^^^ imm.setWidth 64)) ∧
    (Issues s k e (.ri .shli d a imm) → exec (.shli k e d a imm) s = done (x <<< n)) ∧
    (Issues s k e (.ri .shri d a imm) → exec (.shri k e d a imm) s = done (x >>> n)) ∧
    (Issues s k e (.ri .srai d a imm) → exec (.srai k e d a imm) s = done (x.sshiftRight n)) ∧
    (Issues s k e (.ldi d l) → exec (.ldi k e d l) s = done (l.signExtend 64)) ∧
    (Issues s k e (.ldih d h) → exec (.ldih k e d h) s = done (h ++ (s.greg k d).extractLsb' 0 48))) ∧
  (∀ (s : State) (k : Fin 64) (r r' : Fin 32) (w : Word),
    s.greg k 0 = 0 ∧ s.setGreg k 0 w = s ∧
    (r ≠ 0 → (s.setGreg k r w).greg k r = w) ∧ (r' ≠ r → (s.setGreg k r w).greg k r' = s.greg k r') ∧
    (∀ k' : Fin 64, k' ≠ k → (s.setGreg k r w).greg k' r' = s.greg k' r'))

/-- The frame of the register instructions, branches, GOTO and NOP that complete: every register word but gd and the counter of corrected
errors, data memory, SRAM, DRAM, the voices, the fabric, the buffers and the other cores are as they were. -/
def Obligations.RegisterInstructionFrame : Prop :=
  ∀ (k : Fin 64) (e : Ecc) (d a b : Fin 32) (imm : BitVec 32) (u : BitVec 30) (l : BitVec 48) (h : BitVec 16) (tgt : Fin 8192)
    (i : Instr) (s t : State),
    i ∈ [.add k e d a b, .sub k e d a b, .and k e d a b, .or k e d a b, .xor k e d a b, .shl k e d a b, .shr k e d a b,
      .sra k e d a b, .mul k e d a b, .addi k e d a imm, .andi k e d a imm, .ori k e d a imm, .xori k e d a imm, .shli k e d a imm,
      .shri k e d a imm, .srai k e d a imm, .ldi k e d l, .ldih k e d h, .beq k e a b tgt, .bne k e a b tgt, .blt k e a b tgt,
      .bge k e a b tgt, .bltu k e a b tgt, .bgeu k e a b tgt, .bbs k e a b tgt, .bbc k e a b tgt, .beqi k e a u tgt,
      .bnei k e a u tgt, .blti k e a u tgt, .bgei k e a u tgt, .bltui k e a u tgt, .bgeui k e a u tgt, .bbsi k e a u tgt,
      .bbci k e a u tgt, .goto k e tgt, .nop k e] →
    s.st k = 5 → exec i s = .next t → t.st k = 5 →
    (∀ off, off ≠ Reg.CORE_GREG.addr k d → off ≠ Reg.GLB_TRB.addr 1 0 → t.word off = s.word off) ∧ t.dmem = s.dmem ∧
      t.sram = s.sram ∧ t.dram = s.dram ∧ t.voices = s.voices ∧ t.fabric = s.fabric ∧ t.buffers = s.buffers ∧
      (∀ k' : Nat, k' ≠ k → t.core k' = s.core k')

/-- LD reads and ST writes the data word at ga + OFF16, a multiple of 8 below 0x8000 (R33, R59).
An unaligned data address is DMEM_ALIGN, one at or beyond 0x8000 DMEM_RANGE, the lower code when both, and an uncorrected word of LD is
ECC_UE_DMEM (R33, R34, R51). -/
def Obligations.LoadsAndStores : Prop :=
  (∀ (k : Fin 64) (e ecc : Ecc) (d a b : Fin 32) (off : BitVec 16) (i : Fin 4096) (s : State),
    (s.greg k a + off.signExtend 64).toNat = 8 * i.val →
    (Issues s k e (.ld d a off) → ecc.bad = false →
      exec (.ld k e ecc d a off) s =
        .next ((((s.fetched k e).coreEcc ecc (8 * i)).setGreg k d (s.dmemWord k i)).setPc k (s.pc k + 1))) ∧
    (Issues s k e (.st a b off) → Gives (exec (.st k e a b off) s) fun t =>
      t.dmemWord k i = s.greg k b ∧ t.pc k = s.pc k + 1 ∧ t.st k = 5 ∧ (∀ r, t.greg k r = s.greg k r) ∧
      (∀ (k' : Fin 64) (j : Fin 4096), (k' ≠ k ∨ j ≠ i) → t.dmemWord k' j = s.dmemWord k' j) ∧
      (∀ o, o ≠ Reg.GLB_TRB.addr 1 0 → t.word o = s.word o) ∧ t.sram = s.sram ∧ t.dram = s.dram)) ∧
  (∀ (k : Fin 64) (e ecc : Ecc) (d a b : Fin 32) (off : BitVec 16) (s : State),
    let addr := (s.greg k a + off.signExtend 64).toNat
    let code := if addr % 8 ≠ 0 then 7 else 8
    (Issues s k e (.ld d a off) → (addr % 8 ≠ 0 ∨ 0x8000 ≤ addr) →
      Gives (exec (.ld k e ecc d a off) s) fun t => Faulted s t k code) ∧
    (Issues s k e (.st a b off) → (addr % 8 ≠ 0 ∨ 0x8000 ≤ addr) →
      Gives (exec (.st k e a b off) s) fun t => Faulted s t k code) ∧
    (Issues s k e (.ld d a off) → addr % 8 = 0 → addr < 0x8000 → ecc.bad = true →
      Gives (exec (.ld k e ecc d a off) s) fun t => Faulted s t k 9))

/-- COND selects the comparison (R61). Format BR compares ga with gb, format BI ga with IMM30, its sign extended; BS and BC test bit
gb[5:0], or IMM30[5:0] with IMM30[29:6] reserved. -/
def Obligations.BranchConditions : Prop :=
  (∀ (k : Fin 64) (e : Ecc) (a b : Fin 32) (imm : BitVec 30) (tgt : Fin 8192) (s : State),
    let x := s.greg k a
    let y := s.greg k b
    let z := imm.signExtend 64
    let go := Branches s k tgt e
    (Issues s k e (.br .eq a b tgt) → go (x = y) (exec (.beq k e a b tgt) s)) ∧
    (Issues s k e (.br .ne a b tgt) → go (x ≠ y) (exec (.bne k e a b tgt) s)) ∧
    (Issues s k e (.br .lt a b tgt) → go (x.toInt < y.toInt) (exec (.blt k e a b tgt) s)) ∧
    (Issues s k e (.br .ge a b tgt) → go (y.toInt ≤ x.toInt) (exec (.bge k e a b tgt) s)) ∧
    (Issues s k e (.br .ltu a b tgt) → go (x.toNat < y.toNat) (exec (.bltu k e a b tgt) s)) ∧
    (Issues s k e (.br .geu a b tgt) → go (y.toNat ≤ x.toNat) (exec (.bgeu k e a b tgt) s)) ∧
    (Issues s k e (.br .bs a b tgt) → go (x.getLsbD (y.toNat % 64) = true) (exec (.bbs k e a b tgt) s)) ∧
    (Issues s k e (.br .bc a b tgt) → go (x.getLsbD (y.toNat % 64) = false) (exec (.bbc k e a b tgt) s)) ∧
    (Issues s k e (.bi .eq a imm tgt) → go (x = z) (exec (.beqi k e a imm tgt) s)) ∧
    (Issues s k e (.bi .ne a imm tgt) → go (x ≠ z) (exec (.bnei k e a imm tgt) s)) ∧
    (Issues s k e (.bi .lt a imm tgt) → go (x.toInt < z.toInt) (exec (.blti k e a imm tgt) s)) ∧
    (Issues s k e (.bi .ge a imm tgt) → go (z.toInt ≤ x.toInt) (exec (.bgei k e a imm tgt) s)) ∧
    (Issues s k e (.bi .ltu a imm tgt) → go (x.toNat < z.toNat) (exec (.bltui k e a imm tgt) s)) ∧
    (Issues s k e (.bi .geu a imm tgt) → go (z.toNat ≤ x.toNat) (exec (.bgeui k e a imm tgt) s)) ∧
    (Issues s k e (.bi .bs a imm tgt) → go (x.getLsbD (imm.toNat % 64) = true) (exec (.bbsi k e a imm tgt) s)) ∧
    (Issues s k e (.bi .bc a imm tgt) → go (x.getLsbD (imm.toNat % 64) = false) (exec (.bbci k e a imm tgt) s))) ∧
  (∀ (w : Nat) (c : Cond) (a b : Fin 32) (imm : BitVec 30) (tgt : Fin 8192),
    (decodeCore w = .op (.br c a b tgt) → c.code = bits w 55 53) ∧ (decodeCore w = .op (.bi c a imm tgt) → c.code = bits w 55 53)) ∧
  (∀ w : Nat, bits w 63 56 = 0x21 → 6 ≤ bits w 55 53 → bits w 45 22 ≠ 0 → decodeCore w = .fault 4)

/-- A target is an absolute instruction index, one at or beyond TEXT_LEN / 8 is IMEM_RANGE at the branch, call or return itself, and a branch
that is not taken never faults on its target (R56). -/
def Obligations.TargetsInTheText : Prop :=
  ∀ (k : Fin 64) (e : Ecc) (a b : Fin 32) (imm : BitVec 30) (tgt : Fin 8192) (s : State),
    let x := s.greg k a
    let y := s.greg k b
    let z := imm.signExtend 64
    let sp := s.f F.CORE_STATUS_SP k
    let back := s.f F.CORE_STACK_RET k (sp - 1)
    let rows : List (Instr × CoreOp × Bool) :=
      [(.beq k e a b tgt, .br .eq a b tgt, Cond.eq.holds x y), (.bne k e a b tgt, .br .ne a b tgt, Cond.ne.holds x y),
       (.blt k e a b tgt, .br .lt a b tgt, Cond.lt.holds x y), (.bge k e a b tgt, .br .ge a b tgt, Cond.ge.holds x y),
       (.bltu k e a b tgt, .br .ltu a b tgt, Cond.ltu.holds x y), (.bgeu k e a b tgt, .br .geu a b tgt, Cond.geu.holds x y),
       (.bbs k e a b tgt, .br .bs a b tgt, Cond.bs.holds x y), (.bbc k e a b tgt, .br .bc a b tgt, Cond.bc.holds x y),
       (.beqi k e a imm tgt, .bi .eq a imm tgt, Cond.eq.holds x z), (.bnei k e a imm tgt, .bi .ne a imm tgt, Cond.ne.holds x z),
       (.blti k e a imm tgt, .bi .lt a imm tgt, Cond.lt.holds x z), (.bgei k e a imm tgt, .bi .ge a imm tgt, Cond.ge.holds x z),
       (.bltui k e a imm tgt, .bi .ltu a imm tgt, Cond.ltu.holds x z), (.bgeui k e a imm tgt, .bi .geu a imm tgt, Cond.geu.holds x z),
       (.bbsi k e a imm tgt, .bi .bs a imm tgt, Cond.bs.holds x z), (.bbci k e a imm tgt, .bi .bc a imm tgt, Cond.bc.holds x z),
       (.goto k e tgt, .goto_ tgt, true)]
    (∀ p ∈ rows, Issues s k e p.2.1 → Branches s k tgt e (p.2.2 = true) (exec p.1 s)) ∧
    (Issues s k e (.call tgt) → s.textWords k ≤ tgt → Gives (exec (.call k e tgt) s) fun t => Faulted s t k 2) ∧
    (Issues s k e (.call tgt) → tgt.val < s.textWords k → sp < 8 → Gives (exec (.call k e tgt) s) fun t => t.pc k = tgt) ∧
    (Issues s k e .ret → 0 < sp → s.textWords k ≤ back → Gives (exec (.ret k e) s) fun t => Faulted s t k 2) ∧
    (Issues s k e .ret → 0 < sp → back < s.textWords k → Gives (exec (.ret k e) s) fun t => t.pc k = back)

/-- GOTO, CALL, RET, END and NOP (R62): CALL pushes PC + 1, RET pops it, END is DONE and fires.
What a fetch stops on, whatever instruction command was sent (R33, R34, R51, R54): PC at or beyond the text is IMEM_RANGE, an
uncorrected word ECC_UE_IMEM, a word that is no instruction the decoder's code, and a WAIT of KIND 4 to 7 DESC_INVALID (R68).
CALL with eight entries on the stack and RET with none fault (R51, R62). -/
def Obligations.ControlInstructions : Prop :=
  (∀ (k : Fin 64) (e : Ecc) (tgt : Fin 8192) (s : State),
    let sp := s.f F.CORE_STATUS_SP k
    (Issues s k e (.goto_ tgt) → tgt.val < s.textWords k → exec (.goto k e tgt) s = .next ((s.fetched k e).setPc k tgt)) ∧
    (Issues s k e (.call tgt) → tgt.val < s.textWords k → sp < 8 → s.pc k < 8192 → Gives (exec (.call k e tgt) s) fun t =>
      t.pc k = tgt ∧ t.f F.CORE_STATUS_SP k = sp + 1 ∧ t.f F.CORE_STACK_RET k sp = s.pc k + 1 ∧ t.st k = 5 ∧
      (∀ r, t.greg k r = s.greg k r) ∧ t.dmem = s.dmem) ∧
    (Issues s k e .ret → 0 < sp → s.f F.CORE_STACK_RET k (sp - 1) < s.textWords k → Gives (exec (.ret k e) s) fun t =>
      t.pc k = s.f F.CORE_STACK_RET k (sp - 1) ∧ t.f F.CORE_STATUS_SP k = sp - 1 ∧ t.st k = 5 ∧
      (∀ r, t.greg k r = s.greg k r) ∧ t.dmem = s.dmem) ∧
    (Issues s k e .end_ → s.active = true → Gives (exec (.end_ k e) s) fun t =>
      t.st k = 9 ∧ t.pc k = s.pc k + 1 ∧ (⟨.source (9 * k + 6), s.now⟩ : Fired) ∈ t.fabric.fired ∧
      (∀ r, t.greg k r = s.greg k r) ∧ t.dmem = s.dmem ∧ t.voices = s.voices) ∧
    (Issues s k e .nop → exec (.nop k e) s = .next ((s.fetched k e).setPc k (s.pc k + 1)))) ∧
  ((∀ (k : Fin 64) (e ecc : Ecc) (o : CoreOp) (code : Nat) (s : State), s.st k = 5 → (s.core k).blocked = false →
    (s.textWords k ≤ s.pc k → Gives (s.issue k e o ecc) fun t => Faulted s t k 2) ∧
    (s.pc k < s.textWords k → e.bad = true → Gives (s.issue k e o ecc) fun t => Faulted s t k 1) ∧
    (s.pc k < s.textWords k → e.bad = false → decodeCore (s.rw .CORE_IMEM k (s.pc k)).toNat = .fault code →
      (code = 3 ∨ code = 4) ∧ Gives (s.issue k e o ecc) fun t => Faulted s t k code) ∧
    (s.pc k < s.textWords k → e.bad = false → decodeCore (s.rw .CORE_IMEM k (s.pc k)).toNat = .op .waitOther →
      Gives (s.issue k e o ecc) fun t => Faulted s t k 0x0A)) ∧
  (∀ (k : Fin 64) (e : Ecc) (tgt : Fin 8192) (s : State),
    let sp := s.f F.CORE_STATUS_SP k
    (Issues s k e (.call tgt) → tgt.val < s.textWords k → 8 ≤ sp → Gives (exec (.call k e tgt) s) fun t => Faulted s t k 5) ∧
    (Issues s k e .ret → sp = 0 → Gives (exec (.ret k e) s) fun t => Faulted s t k 6)))

/-! ### Descriptors (R36, R63 to R71) -/

/-- The emissions whose checks pass put one descriptor at the end of the voice's queue, stamped with this instant and with the operands read
now, and PC goes on (R63 to R71).
The model's choices in it: log entries 21, 82. -/
def Obligations.Emissions : Prop :=
  ∀ (k : Fin 64) (e ee : Ecc) (a b : Fin 32) (seg kerf : Operand 16) (count : Operand 24) (len : BitVec 5) (mode : Fin 3)
    (discard n add : Bool) (ec : BitVec 8) (entry : Fin 16) (arg : BitVec 16) (phase : Operand 32) (lane lm : Fin 4)
    (out : Fin 16) (offset : BitVec 28) (width : BitVec 16) (s : State),
    let c := s.oper k count
    let g := s.oper k seg % 2 ^ 16
    let ws := s.readEntry k g
    let x := s.greg k a
    let y := s.greg k b
    (Issues s k e (.play kerf seg) → s.qfill k < 32 → issueChecks (s.entryCount k) g (wordOf ws 0) = true →
      (s.entryInDram ws = false ∨ s.hasSlot k = true ∨ s.canSlot k = true ∧ s.hdrDramv k = true) →
      Gives (exec (.play k ⟨e, ee⟩ seg kerf) s) fun t => Emitted s t k (.play (s.oper k kerf % 2 ^ 16) g) ∧
        (s.entryInDram ws = true → t.hasSlot k = true)) ∧
    (Issues s k e (.loop count len) → Room s k → 1 ≤ c → c < 2 ^ 24 → 1 ≤ len.toNat → len.toNat ≤ 16 →
      Gives (exec (.loop k e count len) s) fun t => Emitted s t k (.loop c len.toNat)) ∧
    (Issues s k e (.jump mode discard ec entry) → Room s k → bit (s.f F.VOICE_JT_STAT_LOADED k) entry = true →
      (ec.getLsbD 7 = true ∨ s.on F.EC_CTL_LK_CORE (ec.toNat % 128) = false) →
      Gives (exec (.jump k e mode discard ec entry) s) fun t => Emitted s t k (.jump mode discard ec.toNat entry)) ∧
    (Issues s k e (.jumpDisarm n) → Room s k → Gives (exec (.jumpDisarm k e n) s) fun t => Emitted s t k (.jump 3 false 0 0)) ∧
    (Issues s k e (.waitTrig arg) → s.qfill k < 32 → arg.toNat < 16 →
      Gives (exec (.waitTrig k e arg) s) fun t => Emitted s t k (.waitTrig arg.toNat)) ∧
    (Issues s k e (.waitEvent arg) → s.qfill k < 32 → arg.toNat < 128 → s.on F.EC_CTL_LK_CORE arg.toNat = false →
      Gives (exec (.waitEvent k e arg) s) fun t => Emitted s t k (.waitEvent arg.toNat)) ∧
    (Issues s k e (.waitTime a b) → s.qfill k < 32 → x.toNat < 2 ^ 48 → y.toNat < 2 ^ 48 →
      Gives (exec (.waitTime k e a b) s) fun t => Emitted s t k (.waitTime (x.toNat * 2 ^ 48 + y.toNat))) ∧
    (Issues s k e (.waitKerf arg) → s.qfill k < 32 → arg.toNat < 16 → arg.toNat ≠ k.val % 16 →
      Gives (exec (.waitKerf k e arg) s) fun t => Emitted s t k (.waitKerf arg.toNat)) ∧
    (Issues s k e (.setf a) → s.qfill k < 32 →
      Gives (exec (.setf k e a) s) fun t => Emitted s t k (.setf (x.toNat % 2 ^ 48))) ∧
    (Issues s k e (.setp add phase) → s.qfill k < 32 →
      Gives (exec (.setp k e add phase) s) fun t => Emitted s t k (.setp add (s.oper k phase % 2 ^ 32))) ∧
    (Issues s k e (.rampf a b) → s.qfill k < 32 →
      Gives (exec (.rampf k e a b) s) fun t => Emitted s t k (.rampf (y.toNat % 2 ^ 32) (x.toNat % 2 ^ 48))) ∧
    (Issues s k e (.mark lane lm offset width) → s.qfill k < 32 → (s.voiceChan k).isSome = true → (lm = 2 → width ≠ 0) →
      Gives (exec (.mark k e lane lm offset width) s) fun t => Emitted s t k (.mark lane lm offset.toNat width.toNat)) ∧
    (Issues s k e (.trigo out) → s.qfill k < 32 → Gives (exec (.trigo k e out) s) fun t => Emitted s t k (.trigo out))

/-- A field value that R63 to R71 do not allow is DESC_INVALID, as are LOOP, JUMP and BUF.FREE inside an open loop body; nothing is queued.
An emission that finds 32 descriptors in the queue leaves the core in QSTALL at its instruction with the queue as it was; QSTALL_RESUME
completes it once an entry has freed (R36).
The model's choices in it: log entry 21. -/
def Obligations.EmissionFaultsAndStalls : Prop :=
  (∀ (k : Fin 64) (e ee : Ecc) (a b : Fin 32) (seg kerf : Operand 16) (count : Operand 24) (len : BitVec 5) (mode : Fin 3)
    (discard n : Bool) (ec : BitVec 8) (entry : Fin 16) (arg : BitVec 16) (lane lm : Fin 4) (offset : BitVec 28) (width : BitVec 16)
    (s : State),
    let c := s.oper k count
    let g := s.oper k seg % 2 ^ 16
    let ws := s.readEntry k g
    let inLoop := 0 < (s.voice k).openBody
    let bad := fun (r : Res) => Gives r fun t => Faulted s t k 0x0A
    (Issues s k e (.play kerf seg) → issueChecks (s.entryCount k) g (wordOf ws 0) = false → bad (exec (.play k ⟨e, ee⟩ seg kerf) s)) ∧
    (Issues s k e (.play kerf seg) → issueChecks (s.entryCount k) g (wordOf ws 0) = true → s.entryInDram ws = true →
      s.hasSlot k = false → (16 ≤ s.slotCount ∨ s.hdrDramv k = false) →
      Gives (exec (.play k ⟨e, ee⟩ seg kerf) s) fun t => Faulted s t k 0x0B) ∧
    (Issues s k e (.loop count len) → (c = 0 ∨ 2 ^ 24 ≤ c ∨ len.toNat = 0 ∨ 16 < len.toNat ∨ inLoop) →
      bad (exec (.loop k e count len) s)) ∧
    (Issues s k e (.jump mode discard ec entry) →
      (bit (s.f F.VOICE_JT_STAT_LOADED k) entry = false ∨ (ec.getLsbD 7 = false ∧ s.on F.EC_CTL_LK_CORE (ec.toNat % 128) = true) ∨
        inLoop) → bad (exec (.jump k e mode discard ec entry) s)) ∧
    (Issues s k e (.jumpDisarm n) → inLoop → bad (exec (.jumpDisarm k e n) s)) ∧
    (Issues s k e (.waitTrig arg) → 16 ≤ arg.toNat → bad (exec (.waitTrig k e arg) s)) ∧
    (Issues s k e (.waitEvent arg) → (128 ≤ arg.toNat ∨ s.on F.EC_CTL_LK_CORE arg.toNat = true) →
      bad (exec (.waitEvent k e arg) s)) ∧
    (Issues s k e (.waitTime a b) → (2 ^ 48 ≤ (s.greg k a).toNat ∨ 2 ^ 48 ≤ (s.greg k b).toNat) →
      bad (exec (.waitTime k e a b) s)) ∧
    (Issues s k e (.waitKerf arg) → (16 ≤ arg.toNat ∨ arg.toNat = k.val % 16) → bad (exec (.waitKerf k e arg) s)) ∧
    (Issues s k e (.mark lane lm offset width) → ((s.voiceChan k).isSome = false ∨ (lm = 2 ∧ width = 0)) →
      bad (exec (.mark k e lane lm offset width) s)) ∧
    (Issues s k e (.bufFree a) → inLoop → bad (exec (.bufFree k e a) s))) ∧
  ((∀ (k : Fin 64) (e : Ecc) (a : Fin 32) (out : Fin 16) (s : State), 32 ≤ s.qfill k →
    (Issues s k e (.setf a) → Gives (exec (.setf k e a) s) fun t =>
      t.st k = 7 ∧ t.pc k = s.pc k ∧ t.voices = s.voices ∧
        ∃ q : QEntry, (t.core k).stalled = some q ∧ q.desc = .setf ((s.greg k a).toNat % 2 ^ 48)) ∧
    (Issues s k e (.trigo out) → Gives (exec (.trigo k e out) s) fun t =>
      t.st k = 7 ∧ t.pc k = s.pc k ∧ t.voices = s.voices ∧ ∃ q : QEntry, (t.core k).stalled = some q ∧ q.desc = .trigo out)) ∧
  (∀ (k : Fin 64) (q : QEntry) (s : State), (s.core k).stalled = some q → s.st k = 7 →
    (s.qfill k < 32 → Gives (exec (.qstallResume k) s) fun t => Emitted s t k q.desc ∧ (t.core k).stalled = none) ∧
    (32 ≤ s.qfill k → exec (.qstallResume k) s = .next s)))

/-! ### Buffers, events and budget of a core (R49, R72 to R77) -/

/-- BUF.ALLOC, ATTACH, FREE, FENCE, GET and PUT (R72, R73, R125): gd receives the handle or the status, words are copied, and the core stays
blocked on the instruction until it completes.
The model's choices in it: log entries 22, 23, 24, 72. -/
def Obligations.BufferInstructions : Prop :=
  ∀ (k : Fin 64) (e : Ecc) (d a b : Fin 32) (region : Fin 3) (daddr : BitVec 12) (nw : BitVec 8) (s : State), d ≠ 0 →
    let h := s.greg k a
    let off := s.greg k b
    let n := nw.toNat + 1
    let m := bit h.toNat 23
    let at_ := s.bufferBase h.toNat + off.toNat
    let waits := fun (t : State) => (t.core k).blocked = true ∧ t.pc k = s.pc k ∧ t.st k = 5
    let copies := daddr.toNat + n ≤ 4096 ∧ s.holds k h.toNat = true ∧ off.toNat % 8 = 0 ∧ off.toNat + 8 * n ≤ s.bufferSize h.toNat
    (Issues s k e (.bufAlloc d a region) → 0 < h.toNat → h.toNat ≤ 2 ^ 30 → s.heldCount k < 16 →
      Gives (exec (.bufAlloc k e d a region) s) fun t => waits t ∧
        (t.greg k d = bufStatus 1 ∨
          ∃ (i : Nat) (x : BufferSt), t.greg k d = BitVec.ofNat 64 (handleOf i x) ∧ t.buffer i = x ∧ (s.buffer i).life = .free ∧
            x.life = .live ∧ x.progs = [k.val] ∧ x.pages = (h.toNat + 4095) / 4096 ∧ s.fits x.dram x.page x.pages = true ∧
            (region = 0 → x.dram = false) ∧ (region = 1 → x.dram = true))) ∧
    (Issues s k e (.bufAlloc d a region) → (h.toNat = 0 ∨ 2 ^ 30 < h.toNat) →
      Gives (exec (.bufAlloc k e d a region) s) fun t => waits t ∧ t.greg k d = bufStatus 4 ∧ t.buffers = s.buffers) ∧
    (Issues s k e (.bufAttach d a) → s.liveHandle h.toNat = true → s.heldCount k < 16 →
      Gives (exec (.bufAttach k e d a) s) fun t => waits t ∧ t.greg k d = h ∧ t.holds k h.toNat = true) ∧
    (Issues s k e (.bufAttach d a) → s.liveHandle h.toNat = false →
      Gives (exec (.bufAttach k e d a) s) fun t => waits t ∧ t.greg k d = bufStatus 3 ∧ t.buffers = s.buffers) ∧
    (Issues s k e (.bufFree a) → Room s k → s.holds k h.toNat = true →
      Gives (exec (.bufFree k e a) s) fun t => Emitted s t k (.bufFree h.toNat) ∧
        (t.buffer (indexOf h.toNat)).descs = (s.buffer (indexOf h.toNat)).descs + 1 ∧
        (t.buffer (indexOf h.toNat)).progs = (s.buffer (indexOf h.toNat)).progs.erase k.val) ∧
    (Issues s k e (.bufFence a) → s.holds k h.toNat = true →
      exec (.bufFence k e a) s = .next ((s.fetched k e).modCore k fun c => { c with blocked := true })) ∧
    (Issues s k e (.bufFence a) → s.holds k h.toNat = false → Gives (exec (.bufFence k e a) s) fun t => Faulted s t k 0x0C) ∧
    (Issues s k e (.bufGet d a b daddr nw) → copies → (∀ i < n, s.poisoned m (at_ + 8 * i) = false) →
      Gives (exec (.bufGet k e .clean d a b daddr nw) s) fun t => waits t ∧ t.greg k d = 0 ∧
        (∀ i < n, t.dmemWord k (daddr.toNat + i) = s.readWord m (at_ + 8 * i)) ∧
        (∀ j < 4096, (j < daddr.toNat ∨ daddr.toNat + n ≤ j) → t.dmemWord k j = s.dmemWord k j) ∧ t.sram = s.sram ∧ t.dram = s.dram) ∧
    (Issues s k e (.bufPut d a b daddr nw) → copies →
      Gives (exec (.bufPut k e .clean d a b daddr nw) s) fun t => waits t ∧ t.greg k d = 0 ∧
        (∀ i < n, t.readWord m (at_ + 8 * i) = s.dmemWord k (daddr.toNat + i)) ∧
        (∀ x, (x < at_ ∨ at_ + 8 * n ≤ x) → t.byte m x = s.byte m x) ∧ (∀ x, t.byte (!m) x = s.byte (!m) x) ∧ t.dmem = s.dmem) ∧
    (Issues s k e (.bufGet d a b daddr nw) → 4096 < daddr.toNat + n →
      Gives (exec (.bufGet k e .clean d a b daddr nw) s) fun t => Faulted s t k 8)

/-- EVT.FIRE, EVT.WAIT in both forms, and BUDGET (R49, R74 to R77).
DTRD SEC writes the seconds of DTIME and latches its fraction, which DTRD FRAC writes (R60). -/
def Obligations.TimeEventAndBudgetInstructions : Prop :=
  (∀ (k : Fin 64) (e : Ecc) (d : Fin 32) (ec : Operand 7) (eca ecb : BitVec 8) (tmo : BitVec 24) (cls : Fin 4) (p : Fin 16)
    (s : State), d ≠ 0 →
    let c := s.oper k ec % 128
    let sel := fun (x : BitVec 8) => if x.getLsbD 7 then none else some (x.toNat % 128)
    let hears := fun (i : EventIn) (x : BitVec 8) => i.latch = true ∧ i.sel = sel x
    let on0 := hears (s.core k).ei0 eca
    let on1 := hears (s.core k).ei1 ecb
    let cost := s.phaseCost k
    let now := s.f F.CORE_BUDGET_PHASE k
    let ends := fun (t : State) => t.pc k = s.pc k + 1 ∧ t.st k = 5
    (Issues s k e (.evtFire ec) → s.on F.EC_CTL_LK_CORE c = false → s.active = true →
      Gives (exec (.evtFire k e ec) s) fun t => ends t ∧ t.fabric.fired = s.fabric.fired ++ [⟨.channel c, s.now⟩]) ∧
    (Issues s k e (.evtFire ec) → s.on F.EC_CTL_LK_CORE c = true → Gives (exec (.evtFire k e ec) s) fun t => Faulted s t k 0x0D) ∧
    (Issues s k e (.evtWaitArm d eca ecb) → s.deniedWait eca ecb = false →
      Gives (exec (.evtWaitArm k e d eca ecb) s) fun t => ends t ∧ t.greg k d = 0 ∧ (t.core k).ei0.sel = sel eca ∧
        (t.core k).ei1.sel = sel ecb) ∧
    (Issues s k e (.evtWait d eca ecb tmo) → s.deniedWait eca ecb = false → (on0 ∨ on1) →
      Gives (exec (.evtWait k e d eca ecb tmo) s) fun t => ends t ∧
        ((t.greg k d).getLsbD 0 = true ↔ on0) ∧ ((t.greg k d).getLsbD 1 = true ↔ on1) ∧ t.greg k d < 4 ∧
        (t.core k).ei0.latch = false ∧ (t.core k).ei1.latch = false) ∧
    (Issues s k e (.evtWait d eca ecb tmo) → s.deniedWait eca ecb = false → ¬ on0 → ¬ on1 →
      Gives (exec (.evtWait k e d eca ecb tmo) s) fun t => t.st k = 6 ∧ t.pc k = s.pc k ∧ t.greg k d = s.greg k d ∧
        ((t.core k).deadline = none ↔ tmo = 0)) ∧
    (s.st k = 6 → (s.core k).gd = d → ((s.core k).ei0.latch = true ∨ (s.core k).ei1.latch = true) →
      Gives (exec (.evtWait k e d eca ecb tmo) s) fun t => ends t ∧
        t.greg k d = BitVec.ofNat 64 ((s.core k).ei0.latch.toNat + 2 * (s.core k).ei1.latch.toNat)) ∧
    (Issues s k e (.budget d cls p) → cls.val = s.hdrClass k → cls ≠ 3 → p.val < s.costCount k → (cls = 0 ∨ cost p ≤ cost now) →
      Gives (exec (.budget k e d cls p) s) fun t => ends t ∧ t.greg k d = 0 ∧ t.f F.CORE_BUDGET_PHASE k = p) ∧
    (Issues s k e (.budget d cls p) → cls.val = s.hdrClass k → cls ≠ 3 → p.val < s.costCount k → cls ≠ 0 → cost now < cost p →
      Gives (exec (.budget k e d cls p) s) fun t => t.st k = 8 ∧ t.pc k = s.pc k ∧ t.f F.CORE_BUDGET_ADMIT k = 3 ∧
        (t.core k).phase = p) ∧
    (Issues s k e (.budget d cls p) → (cls.val ≠ s.hdrClass k ∨ cls = 3) → Gives (exec (.budget k e d cls p) s) fun t => Faulted s t k 0x0E) ∧
    (Issues s k e (.budget d cls p) → cls.val = s.hdrClass k → cls ≠ 3 → s.costCount k ≤ p →
      Gives (exec (.budget k e d cls p) s) fun t => Faulted s t k 0x0F)) ∧
  (∀ (k : Fin 64) (e : Ecc) (d : Fin 32) (s : State),
    (Issues s k e (.dtrdSec d) → Gives (exec (.dtrdSec k e d) s) fun t =>
      (d ≠ 0 → t.greg k d = BitVec.ofNat 64 (s.now / 2 ^ 48)) ∧ (t.core k).dtrd = s.now % 2 ^ 48 ∧ t.pc k = s.pc k + 1 ∧
      (∀ r, r ≠ d → t.greg k r = s.greg k r) ∧ t.dmem = s.dmem) ∧
    (Issues s k e (.dtrdFrac d) →
      exec (.dtrdFrac k e d) s = .next (((s.fetched k e).setGreg k d (BitVec.ofNat 64 (s.core k).dtrd)).setPc k (s.pc k + 1))))

/-! ### Commands to a core, admission and waits (R44 to R49, R72, R76, R377) -/

/-- ARM checks the image and arms (R46), START starts (R47), and each is ignored or counted where R44 and R45 say so. A word carries no
other command.
STOP halts with PC in place, releases what R44 says and with FLUSH drops uncommitted descriptors; RESUME goes on; RESET clears the
core; STEP performs one instruction in HALT (R44, R377). A word carries no other command.
The model's choices in it: log entries 18, 19, 20, 72, 73. -/
def Obligations.CoreControl : Prop :=
  (∀ (k : Fin 64) (q : Requester) (w : Word) (s : State), bits w.toNat 6 1 = 0 →
    (let w' := force w 1 1 1
     let u := s.wrote .CORE_CTL k 0 w'
     Admits s q .CORE_CTL k 0 w' →
      (s.st k = 2 → u.armCode k = 0 → ¬ (u.f F.CORE_CTL_START_SRC k = 2 ∧ s.startTime k < s.now) →
        Gives (exec (.arm k q w) s) fun t => t.st k = 3 ∧ t.pc k = s.hdrEntry k ∧ t.f F.CORE_STATUS_ARM_ERR k = 0 ∧
          t.f F.CORE_BUDGET_CLASS k = s.hdrClass k ∧ t.f F.CORE_BUDGET_PHASE k = 0 ∧
          (s.hdrClass k = 0 → t.f F.CORE_BUDGET_ADMIT k = 1 ∧
            t.f F.CORE_BUDGET_RESV_MW k = s.phaseMax k (s.phaseCost k) % 2 ^ 16) ∧
          (s.hdrClass k ≠ 0 → (s.core k).resv = none → t.f F.CORE_BUDGET_ADMIT k = 0) ∧
          (∀ r, s.hdrClass k ≠ 0 → (s.core k).resv = some r → t.f F.CORE_BUDGET_ADMIT k = 1)) ∧
      (s.st k = 2 → u.armCode k ≠ 0 → Gives (exec (.arm k q w) s) fun t =>
        t.st k = 2 ∧ t.f F.CORE_STATUS_ARM_ERR k = u.armCode k ∧ t.pc k = s.pc k) ∧
      (s.st k ≠ 2 → Gives (exec (.arm k q w) s) fun t => t.st k = s.st k ∧ t.on F.CORE_STATUS_CMD_IGNORED k = true)) ∧
    (let w' := force w 2 2 1
     Admits s q .CORE_CTL k 0 w' → bits w.toNat 9 8 = 0 →
      (s.st k = 3 → s.f F.CORE_BUDGET_CLASS k = 0 → Gives (exec (.start k q w) s) fun t => t.st k = 5 ∧ t.pc k = s.pc k) ∧
      (s.st k = 3 → s.f F.CORE_BUDGET_CLASS k ≠ 0 → Gives (exec (.start k q w) s) fun t =>
        t.st k = 4 ∧ t.f F.CORE_BUDGET_ADMIT k = 3 ∧ (k.val ∈ t.power.gov.std ∨ BgTask.core k.val ∈ t.power.gov.bg)) ∧
      (s.st k ≠ 3 → Gives (exec (.start k q w) s) fun t => t.st k = s.st k ∧ t.on F.CORE_STATUS_START_MISS k = true)) ∧
    (let w' := force w 2 2 1
     Admits s q .CORE_CTL k 0 w' → bits w.toNat 9 8 ≠ 0 →
      Gives (exec (.start k q w) s) fun t => t.st k = s.st k ∧ t.on F.CORE_STATUS_CMD_IGNORED k = true)) ∧
  (∀ (k : Fin 64) (q : Requester) (w : Word) (e ecc : Ecc) (d a b : Fin 32) (s : State), bits w.toNat 6 1 = 0 →
    (Admits s q .CORE_CTL k 0 (force w 3 3 1) →
      (s.st k ∈ [3, 4, 5, 6, 7, 8] → (s.core k).blocked = false → Gives (exec (.stop k q w) s) fun t =>
        t.st k = 2 ∧ t.pc k = s.pc k ∧ (∀ r, t.greg k r = s.greg k r) ∧ (t.core k).stalled = none ∧
        (s.st k = 3 ∨ (s.core k).resv = none → t.f F.CORE_BUDGET_ADMIT k = 0) ∧
        (∀ r, s.st k ≠ 3 → (s.core k).resv = some r → t.f F.CORE_BUDGET_ADMIT k = 1) ∧
        (t.voice k).queue = if bit w.toNat 7 then (s.voice k).queue.filter (·.committed) else (s.voice k).queue) ∧
      (s.st k ∈ [5, 6, 7, 8] → (s.core k).blocked = true → Gives (exec (.stop k q w) s) fun t =>
        t.st k = s.st k ∧ (t.core k).stopLater = true) ∧
      (s.st k ∉ [3, 4, 5, 6, 7, 8] → Gives (exec (.stop k q w) s) fun t =>
        t.st k = s.st k ∧ t.on F.CORE_STATUS_CMD_IGNORED k = true)) ∧
    (Admits s q .CORE_CTL k 0 (force w 4 4 1) →
      (s.st k = 2 → s.f F.CORE_BUDGET_CLASS k = 0 → Gives (exec (.resume k q w) s) fun t => t.st k = 5 ∧ t.pc k = s.pc k) ∧
      (s.st k = 2 → s.f F.CORE_BUDGET_CLASS k ≠ 0 → Gives (exec (.resume k q w) s) fun t =>
        t.st k = 4 ∧ t.pc k = s.pc k ∧ t.f F.CORE_BUDGET_ADMIT k = 3) ∧
      (s.st k ≠ 2 → Gives (exec (.resume k q w) s) fun t => t.st k = s.st k ∧ t.on F.CORE_STATUS_CMD_IGNORED k = true)) ∧
    (Admits s q .CORE_CTL k 0 (force w 5 5 1) →
      (s.st k ∈ [2, 9, 10] → Gives (exec (.reset k q w) s) fun t =>
        t.st k = 2 ∧ t.pc k = s.hdrEntry k % 8192 ∧ (∀ r, t.greg k r = 0) ∧ t.f F.CORE_STATUS_SP k = 0 ∧
        t.f F.CORE_STATUS_ARM_ERR k = 0 ∧ t.f F.CORE_FAULT_CODE k = 0 ∧ t.f F.CORE_BUDGET_ADMIT k = 0 ∧
        (t.core k).ei0.sel = none ∧ (t.core k).ei1.sel = none ∧ (t.core k).dtrd = 0 ∧
        (t.voice k).queue = (s.voice k).queue.filter (·.committed) ∧ (t.voice k).level = 0 ∧ t.dmem = s.dmem) ∧
      (s.st k ∉ [2, 9, 10] → Gives (exec (.reset k q w) s) fun t =>
        t.st k = s.st k ∧ t.on F.CORE_STATUS_CMD_IGNORED k = true)) ∧
    (Admits s q .CORE_CTL k 0 (force w 6 6 1) →
      (s.st k = 2 → s.pc k < s.textWords k → e.bad = false → d ≠ 0 →
        decodeCore (s.rw .CORE_IMEM k (s.pc k)).toNat = .op (.rr .add d a b) →
        Gives (exec (.step k q w e ecc) s) fun t =>
          t.st k = 2 ∧ t.pc k = s.pc k + 1 ∧ t.greg k d = s.greg k a + s.greg k b) ∧
      (s.st k = 2 → s.pc k < s.textWords k → e.bad = false → 32 ≤ s.qfill k →
        decodeCore (s.rw .CORE_IMEM k (s.pc k)).toNat = .op (.setf a) →
        Gives (exec (.step k q w e ecc) s) fun t => t.st k = 2 ∧ t.pc k = s.pc k ∧ t.voices = s.voices) ∧
      (s.st k ≠ 2 → Gives (exec (.step k q w e ecc) s) fun t => t.st k = s.st k ∧ t.on F.CORE_STATUS_CMD_IGNORED k = true)))

/-- BUDGET_GRANT, BUDGET_TIMEOUT, EVT_WAIT_TIMEOUT and BUF_OP_COMPLETE end the wait of an instruction with its result in gd (R49, R72,
R76).
TIME_START, ADMISSION_GRANT, ADMISSION_TIMEOUT and CLUSTER_FILL_DONE (R35, R47, R48).
The model's choices in it: log entries 22, 72. -/
def Obligations.CoreStartsAndWaits : Prop :=
  (∀ (k : Fin 64) (d : Fin 32) (x : Nat) (s : State), d ≠ 0 → (s.core k).gd = d →
    let ends := fun (t : State) => t.st k = 5 ∧ t.pc k = s.pc k + 1
    (s.st k = 8 → s.grantable k = true → Gives (exec (.budgetGrant k) s) fun t =>
      ends t ∧ t.greg k d = 0 ∧ t.f F.CORE_BUDGET_ADMIT k = 2 ∧ t.f F.CORE_BUDGET_PHASE k = (s.core k).phase % 16) ∧
    (s.st k = 8 → s.mayTimeOut k = true → Gives (exec (.budgetTimeout k) s) fun t =>
      ends t ∧ t.greg k d = 1 ∧ Reached s t (s.admitLimit k) ∧ t.f F.CORE_BUDGET_ADMIT k = 2 ∧
      t.f F.CORE_BUDGET_PHASE k = s.f F.CORE_BUDGET_PHASE k) ∧
    (s.st k = 6 → (s.core k).deadline = some x → (s.core k).latched = 0 → Gives (exec (.evtWaitTimeout k) s) fun t =>
      ends t ∧ t.greg k d = 0 ∧ Reached s t x ∧ (t.core k).deadline = none) ∧
    (s.st k = 6 → (s.core k).deadline = some x → (s.core k).latched ≠ 0 → Gives (exec (.evtWaitTimeout k) s) fun t =>
      ends t ∧ t.greg k d = BitVec.ofNat 64 (s.core k).latched ∧ t.now = s.now) ∧
    ((s.core k).blocked = true → (s.core k).stopLater = false → Gives (exec (.bufOpComplete k) s) fun t =>
      t.st k = s.st k ∧ t.pc k = s.pc k + 1 ∧ (t.core k).blocked = false) ∧
    ((s.core k).blocked = true → (s.core k).stopLater = true → s.st k = 5 → Gives (exec (.bufOpComplete k) s) fun t =>
      t.st k = 2 ∧ t.pc k = s.pc k + 1 ∧ (t.core k).blocked = false)) ∧
  (∀ (k : Fin 64) (c : Fin 16) (s : State),
    (s.f F.CORE_CTL_START_SRC k = 2 → s.st k = 3 → Gives (exec (.timeStart k) s) fun t =>
      Reached s t (s.startTime k) ∧ t.st k = (if s.f F.CORE_BUDGET_CLASS k = 0 then 5 else 4)) ∧
    (s.f F.CORE_CTL_START_SRC k = 2 → s.st k ≠ 3 → Gives (exec (.timeStart k) s) fun t =>
      t.st k = s.st k ∧ t.on F.CORE_STATUS_START_MISS k = true) ∧
    (s.st k = 4 → s.grantable k = true → Gives (exec (.admissionGrant k) s) fun t =>
      t.st k = 5 ∧ t.pc k = s.pc k ∧ t.f F.CORE_BUDGET_ADMIT k = 2 ∧
      t.f F.CORE_BUDGET_RESV_MW k = s.taskCost (.core k) % 2 ^ 16 ∧ t.power.gov.std = s.power.gov.std.erase k) ∧
    (s.st k = 4 → s.grantable k = false → exec (.admissionGrant k) s = .next s) ∧
    (s.st k = 4 → s.mayTimeOut k = true → Gives (exec (.admissionTimeout k) s) fun t =>
      Reached s t (s.admitLimit k) ∧ t.f F.CORE_BUDGET_ADMIT k = 4 ∧ t.on F.CORE_STATUS_ADMIT_REFUSED k = true ∧
      t.st k = (if (s.core k).fromStart then 3 else 2)) ∧
    Gives (exec (.clusterFillDone c) s) fun t => ∀ i : Fin 4, s.st (4 * c.val + i.val) = 1 →
      t.st (4 * c.val + i.val) = 2 ∧ t.pc (4 * c.val + i.val) = s.hdrEntry (4 * c.val + i.val) % 8192)

/-- The commands to a core, QSTALL_RESUME, the buffer instructions, EVT.FIRE, EVT.WAIT, BUDGET and DTRD answer a next state in which they have
had their effect, under the conditions of their rules on the state and the operands alone; no other core moves (R36, R44 to R47, R49, R60,
R72, R74 to R77, R377).
The model's choices in it: log entries 18, 19, 20, 22, 23, 24, 72, 73. -/
def Obligations.CoreCommandsComplete : Prop :=
  (∀ (k : Fin 64) (q : Requester) (w : Word) (e ecc : Ecc) (f : RR) (d a b : Fin 32) (x : QEntry) (s : State), bits w.toNat 6 1 = 0 →
    let only := fun (t : State) => ∀ l : Fin 64, l ≠ k → t.st l = s.st l ∧ t.pc l = s.pc l
    (Admits s q .CORE_CTL k 0 (force w 1 1 1) → s.st k = 2 → (s.wrote .CORE_CTL k 0 (force w 1 1 1)).armCode k = 0 →
      bits w.toNat 9 8 ≠ 2 → ∃ t, exec (.arm k q w) s = .next t ∧ t.st k = 3 ∧ t.pc k = s.hdrEntry k ∧ only t) ∧
    (Admits s q .CORE_CTL k 0 (force w 2 2 1) → s.st k = 3 → bits w.toNat 9 8 = 0 →
      ∃ t, exec (.start k q w) s = .next t ∧ t.st k = (if s.f F.CORE_BUDGET_CLASS k = 0 then 5 else 4) ∧ t.pc k = s.pc k ∧ only t) ∧
    (Admits s q .CORE_CTL k 0 (force w 3 3 1) → s.st k ∈ [3, 4, 5, 6, 7, 8] → (s.core k).blocked = false →
      ∃ t, exec (.stop k q w) s = .next t ∧ t.st k = 2 ∧ t.pc k = s.pc k ∧ only t) ∧
    (Admits s q .CORE_CTL k 0 (force w 4 4 1) → s.st k = 2 →
      ∃ t, exec (.resume k q w) s = .next t ∧ t.st k = (if s.f F.CORE_BUDGET_CLASS k = 0 then 5 else 4) ∧ t.pc k = s.pc k ∧ only t) ∧
    (Admits s q .CORE_CTL k 0 (force w 5 5 1) → s.st k ∈ [2, 9, 10] →
      ∃ t, exec (.reset k q w) s = .next t ∧ t.st k = 2 ∧ t.pc k = s.hdrEntry k % 8192 ∧ (∀ r, t.greg k r = 0) ∧ only t) ∧
    (Admits s q .CORE_CTL k 0 (force w 6 6 1) → s.st k = 2 → s.pc k < s.textWords k → e.bad = false →
      decodeCore (s.rw .CORE_IMEM k (s.pc k)).toNat = .op (.rr f d a b) →
      ∃ t, exec (.step k q w e ecc) s = .next t ∧ t.st k = 2 ∧ t.pc k = s.pc k + 1 ∧
        t.greg k d = (if d = 0 then 0 else f.eval (s.greg k a) (s.greg k b)) ∧ only t) ∧
    ((s.core k).stalled = some x → s.st k = 7 → s.qfill k < 32 →
      ∃ t, exec (.qstallResume k) s = .next t ∧ t.st k = 5 ∧ t.pc k = s.pc k + 1 ∧ (t.core k).stalled = none ∧ only t)) ∧
  (∀ (k : Fin 64) (e : Ecc) (d a b : Fin 32) (region : Fin 3) (daddr : BitVec 12) (nw : BitVec 8) (s : State),
    let only := fun (t : State) => ∀ l : Fin 64, l ≠ k → t.st l = s.st l ∧ t.pc l = s.pc l
    let waits := fun (t : State) => (t.core k).blocked = true ∧ t.pc k = s.pc k ∧ t.st k = 5 ∧ only t
    (Issues s k e (.bufAlloc d a region) → ∃ t, exec (.bufAlloc k e d a region) s = .next t ∧ waits t) ∧
    (Issues s k e (.bufAttach d a) → ∃ t, exec (.bufAttach k e d a) s = .next t ∧ waits t) ∧
    (Issues s k e (.bufFree a) → Room s k → s.holds k (s.greg k a).toNat = true →
      ∃ t, exec (.bufFree k e a) s = .next t ∧ Emitted s t k (.bufFree (s.greg k a).toNat) ∧ only t) ∧
    (Issues s k e (.bufFence a) → s.holds k (s.greg k a).toNat = true → ∃ t, exec (.bufFence k e a) s = .next t ∧ waits t) ∧
    (Issues s k e (.bufGet d a b daddr nw) → daddr.toNat + nw.toNat < 4096 →
      ∃ t, exec (.bufGet k e .clean d a b daddr nw) s = .next t ∧ waits t) ∧
    (Issues s k e (.bufPut d a b daddr nw) → daddr.toNat + nw.toNat < 4096 →
      ∃ t, exec (.bufPut k e .clean d a b daddr nw) s = .next t ∧ waits t)) ∧
  (∀ (k : Fin 64) (e : Ecc) (d : Fin 32) (ec : Operand 7) (eca ecb : BitVec 8) (tmo : BitVec 24) (cls : Fin 4) (p : Fin 16) (s : State),
    let only := fun (t : State) => ∀ l : Fin 64, l ≠ k → t.st l = s.st l ∧ t.pc l = s.pc l
    let ends := fun (t : State) => t.pc k = s.pc k + 1 ∧ t.st k = 5 ∧ only t
    (Issues s k e (.evtFire ec) → s.on F.EC_CTL_LK_CORE (s.oper k ec % 128) = false →
      ∃ t, exec (.evtFire k e ec) s = .next t ∧ ends t) ∧
    (Issues s k e (.evtWaitArm d eca ecb) → s.deniedWait eca ecb = false → ∃ t, exec (.evtWaitArm k e d eca ecb) s = .next t ∧ ends t) ∧
    (Issues s k e (.evtWait d eca ecb tmo) → s.deniedWait eca ecb = false →
      ∃ t, exec (.evtWait k e d eca ecb tmo) s = .next t ∧ (ends t ∨ (t.st k = 6 ∧ t.pc k = s.pc k ∧ only t))) ∧
    (Issues s k e (.budget d cls p) → cls.val = s.hdrClass k → cls ≠ 3 → p.val < s.costCount k → cls = 0 →
      ∃ t, exec (.budget k e d cls p) s = .next t ∧ ends t ∧ t.f F.CORE_BUDGET_PHASE k = p) ∧
    (Issues s k e (.dtrdSec d) → ∃ t, exec (.dtrdSec k e d) s = .next t ∧ ends t) ∧
    (Issues s k e (.dtrdFrac d) → ∃ t, exec (.dtrdFrac k e d) s = .next t ∧ ends t))

/-! ### Voices (chapters 04 and 08) -/

/-- KERF (R38, R78): the item taken begins at its kerf instant and its first sample lies KERF samples later, or the voice starves and
plays an idle grain; the kerf's DTIME is recorded. No jump lands there first (R106).
GRAIN_START, GRAIN_FETCH_ISSUE and REFILL_GRAIN_ARRIVE (R93, R109, R143): grains begin in turn, a fetch from SRAM is issued or skipped as
covered, and the oldest grain in flight arrives with what DRAM held.
The model's choices in it: log entries 25, 33, 72. -/
def Obligations.KerfsAndGrains : Prop :=
  (∀ (v : Fin 64) (late : List LateLine) (n : Nat) (p : Int) (s : State), s.voiceChan v = some n → (s.voice v).kerfAt = some p →
    (∀ it, (s.voice v).item = some it → it.closed = true) → (∀ j q, (s.voice v).pending = some j → j.land = some q → p < q) →
    s.posTime v p < 2 ^ 96 →
    (∀ (tk : Taken) (more : List Taken) (h seg : Nat), (s.voice v).taken = tk :: more → tk.item = .play h seg →
      tk.failed = false → s.earlyClose v n = none → Gives (exec (.kerf ⟨v, late⟩) s) fun t => Reached s t (s.posTime v p) ∧
        t.at F.VOICE_KERF_SEC_SEC F.VOICE_KERF_FRAC_FRAC v = s.posTime v p ∧ (t.voice v).taken = more ∧
        ∃ it, (t.voice v).item = some it ∧ it.kind = .play ∧ it.seg = seg ∧ it.words = tk.words ∧ it.start = p ∧
          it.first = p + h * 1024 ∧ it.len = segLen (wordOf tk.words 0) ∧ (t.voice v).kerfAt = it.stop) ∧
    ((s.voice v).taken = [] → Gives (exec (.kerf ⟨v, late⟩) s) fun t =>
      t.on F.CORE_STATUS_STARVED v = (s.on F.CORE_STATUS_STARVED v || !(s.voice v).starved) ∧ (t.voice v).starved = true ∧
        (t.voice v).kerfAt = some (p + 512 * 1024) ∧ ∃ it, (t.voice v).item = some it ∧ it.kind = .idle ∧ it.start = p)) ∧
  (∀ (v : Fin 64) (n : Nat) (late : List LateLine) (e : Ecc) (addr : BitVec 37) (it : Item) (s : State), s.voiceChan v = some n →
    (s.voice v).item = some it → (it.kind = .play ∨ it.kind = .target) →
    let x := s.voice v
    let a := it.first / 1024 + 512 * (x.fetched : Int)
    let at_ := it.first + 512 * 1024 * it.next
    let dram := s.entryInDram it.words
    let covered := s.coveredRun v n a (a + grainLen it.len x.fetched)
    let spans := s.grainSpans it.words it.len x.fetched
    let i := x.slots.findIdx (· == .flying)
    ((it.len = 0 ∨ it.next < grains it.len) → (∀ j q, x.pending = some j → j.land = some q → at_ < q) →
      Gives (exec (.grainStart v late) s) fun t =>
        (t.voice v).item = some { it with next := it.next + 1 } ∧ t.f F.VOICE_POS_GRAIN v = it.next % 2 ^ 19 ∧
        Reached s t ((s.chan n).grid.placeAt at_).toNat) ∧
    ((it.len = 0 ∨ x.fetched < grains it.len) → x.fetched ≤ it.next → Gives (exec (.grainFetchIssue v e addr) s) fun t =>
      (t.voice v).fetched = x.fetched + 1 ∧
      (dram = false → covered = true → x.fetched ∈ (t.voice v).covered) ∧
      (dram = true ∨ covered = false → (t.voice v).covered = x.covered) ∧
      (dram = false → covered = false → spans ≠ [] → e = .clean → s.poisoned false addr.toNat = false →
        (0, x.fetched, s.copyOf spans) ∈ (t.voice v).lines)) ∧
    (∀ y, .flying ∈ x.slots → (s.dramAhead v)[i]? = some y → s.mem.pllLost = none → e = .clean → s.poisoned true addr.toNat = false →
      Gives (exec (.refillGrainArrive v e addr) s) fun t =>
        ∃ more, (t.voice v).slots =
            x.slots.set i (.here s.now (s.copyOf (s.grainSpans y.words (segLen (wordOf y.words 0)) y.grain))) ++ more ∧
          ∀ z ∈ more, z = .flying ∨ z = .covered))

/-- WAIT_RELEASE (R99, R100): a WAIT TIME releases at T, or at its kerf when T lies before it and is then late; a WAIT whose event was seen
places its kerf 9 ns after the reference time.
WINDOW_CLOSE (R43, R94, R95): the window of the item in play closes at its instant and takes a PLAY that was written before it, and that is
committed or meets a core whose voice plays the queue, with a snapshot of its entry; before the first item it places the first kerf (R81).
The window of a WAIT TIME that was taken ahead closes 512 voice samples before T, also before the kerf at which it begins (R96).
The model's choices in it: log entry 25. -/
def Obligations.WindowsAndWaits : Prop :=
  (∀ (v : Fin 64) (e : SnapshotRead) (n : Nat) (it : Item) (s : State), s.voiceChan v = some n → (s.voice v).item = some it →
    it.kind = .wait → it.again = false → (s.voice v).kerfAt = none →
    let g := (s.chan n).grid
    (∀ t0, it.cond = some (.waitTime t0) → g.before t0 it.start = false → Gives (exec (.waitRelease v e) s) fun t =>
      (t.voice v).kerfAt = some (g.place t0) ∧ Reached s t t0) ∧
    (∀ t0, it.cond = some (.waitTime t0) → g.before t0 it.start = true → Gives (exec (.waitRelease v e) s) fun t =>
      (t.voice v).kerfAt = some it.start ∧ t.on F.VOICE_STATUS_WAIT_LATE v = true) ∧
    (∀ (l r : Nat), (it.cond = some (.waitTrig l) ∨ it.cond = some (.waitEvent l)) → it.seen = some r →
      Gives (exec (.waitRelease v e) s) fun t => (t.voice v).kerfAt = some (g.placeRef r 90)) ∧
    (∀ (l r : Nat), it.cond = some (.waitKerf l) → it.seen = some r →
      Gives (exec (.waitRelease v e) s) fun t => (t.voice v).kerfAt = some (g.place r)) ∧
    (∀ l, it.cond = some (.waitTrig l) → it.seen = none → exec (.waitRelease v e) s = .next s)) ∧
  (∀ (v : Fin 64) (e : Ecc) (late : Bool) (n : Nat) (s : State), s.voiceChan v = some n → s.on F.CH_STATUS_RUN n = true →
    let x := s.voice v
    let g := (s.chan n).grid
    (∀ (it : Item) (p : Int), x.item = some it → it.closed = false → it.closes g = some p → it.again = false →
      Gives (exec (.windowClose v ⟨e, late⟩) s) fun t => Reached s t (s.posTime v p) ∧
        ∃ it', (t.voice v).item = some it' ∧ it'.closed = true ∧ it'.kind = it.kind ∧ it'.first = it.first ∧ it'.len = it.len) ∧
    (∀ (it : Item) (p : Int) (i : QEntry) (h seg : Nat), x.item = some it → it.closed = false → it.closes g = some p →
      it.again = false → x.taken = [] → x.loop = none → x.queue[x.cur]? = some i → i.desc = .play h seg →
      g.before i.written p = true → (i.committed = true ∨ s.playsQueue v = true ∧ g.before x.takesFrom p = true) →
        segMode (wordOf (s.readEntry v seg) 0) ≠ 5 →
      s.snapshotOk v n seg (s.readEntry v seg) .clean = true →
      Gives (exec (.windowClose v ⟨.clean, late⟩) s) fun t =>
        ∃ tk, (t.voice v).taken = [tk] ∧ tk.acts = [] ∧ tk.item = .play h seg ∧ tk.failed = false ∧
          tk.words = s.readEntry v seg ∧ (t.voice v).cur = x.cur + 1) ∧
    (∀ (it : Item) (p q : Int) (k : Taken), x.item = some it → it.closed = true → s.earlyClose v n = some (p, q) →
      x.taken.getLast? = some k → Gives (exec (.windowClose v ⟨e, late⟩) s) fun t => Reached s t (s.posTime v p) ∧
        ∃ k', (t.voice v).taken[x.taken.length - 1]? = some k' ∧ k'.closed = true ∧ k'.item = k.item) ∧
    (∀ p0 b : Int, x.item = none → x.since = some p0 → x.kerfAt = none → x.taken = [] → s.firstKerf v n p0 = some b →
      Gives (exec (.windowClose v ⟨e, late⟩) s) fun t => (t.voice v).kerfAt = some b ∧ Reached s t (s.posTime v (b - 512 * 1024))))

/-- JUMP_ACCEPT and JUMP_LAND (R102 to R105): an armed jump becomes pending with its release instant, and lands in its target entry, or
is a miss when the entry is not loaded.
The model's choices in it: log entries 25, 72, 82. -/
def Obligations.Jumps : Prop :=
  ∀ (v : Fin 64) (n : Nat) (a : Armed) (j : Pending) (r : Nat) (p : Int) (s : State),
    ((s.voice v).armed = some a → (s.voice v).pending = none → bit a.ec 7 = false → (s.voice v).jumpSeen = some r → a.entry < 16 →
      Gives (exec (.jumpAccept v) s) fun t => (t.voice v).armed = none ∧ t.on F.VOICE_JT_STAT_ARMED v = false ∧
        t.on F.VOICE_JT_STAT_PEND v = true ∧ t.f F.VOICE_JT_STAT_PEND_ENTRY v = a.entry ∧
        ∃ y, (t.voice v).pending = some y ∧ y.entry = a.entry ∧ y.rel = r * 10000000000 + 65 * second ∧
          (a.mode = 2 → y.land = some ((s.voiceGrid v).immediate y.rel))) ∧
    ((s.voice v).armed = some a → (s.voice v).pending = none → bit a.ec 7 = true → Gives (exec (.jumpAccept v) s) fun t =>
      (t.voice v).armed = none ∧ ∃ y, (t.voice v).pending = some y ∧ y.rel = a.armed * 10000000000) ∧
    (s.voiceChan v = some n → (s.voice v).pending = some j → j.land = some p → (s.voice v).armed = none →
      bit (s.f F.VOICE_JT_STAT_LOADED v) j.entry = true → Gives (exec (.jumpLand v) s) fun t =>
        (t.voice v).pending = none ∧ t.on F.VOICE_JT_STAT_PEND v = false ∧ (j.discard = true → (t.voice v).queue = []) ∧
        ∃ it, (t.voice v).item = some it ∧ it.kind = .target ∧ it.start = p ∧ it.words = (s.jtEntry v j.entry).words ∧
          it.first = p + (if j.mode = 2 then 0 else bits (s.rw .VOICE_JT v j.entry).toNat 47 32) * 1024) ∧
    (s.voiceChan v = some n → (s.voice v).pending = some j → j.land = some p → (s.voice v).armed = none →
      bit (s.f F.VOICE_JT_STAT_LOADED v) j.entry = false → Gives (exec (.jumpLand v) s) fun t =>
        (t.voice v).pending = none ∧ (t.voice v).item = (s.voice v).item ∧ (t.voice v).queue = (s.voice v).queue ∧
        t.on F.VOICE_STATUS_JUMP_MISS v = true ∧
        t.f F.VOICE_TROUBLE_JUMP_MISS v = min (s.f F.VOICE_TROUBLE_JUMP_MISS v + 1) 65535)

/-- VOICE_JT_WRITE, JT_PRELOAD_DONE and VOICE_SEGTAB_WRITE (R82, R101): a write unloads the entry, a VALID one is snapshotted and loads when
its preload is done, and a segment table acts at once only while the voice has no item or kerf.
The model's choices in it: log entries 5, 19, 72, 82. -/
def Obligations.VoiceTables : Prop :=
  ∀ (v : Fin 64) (n : Fin 16) (q : Requester) (w : Word) (ecc : Ecc) (s : State),
    let seg := bits w.toNat 15 0
    let ws := s.readEntry v seg
    let top := bits w.toNat 26 5 * 32 + (bits w.toNat 63 48 + 1) * 32
    (Admits s q .VOICE_JT v n w → Gives (exec (.voiceJtWrite v n q w ecc) s) fun t =>
      t.rw .VOICE_JT v n = w ∧ bit (t.f F.VOICE_JT_STAT_LOADED v) n = false ∧
      (bit w.toNat 63 = false → t.jtEntry v n = {})) ∧
    (Admits s q .VOICE_JT v n w → bit w.toNat 63 = true → (s.jtEntry v n).refs = [] → s.entryInDram ws = false →
      s.snapshotOk v ((s.voiceChan v).getD (v.val / 4)) seg ws .clean = true →
      Gives (exec (.voiceJtWrite v n q w .clean) s) fun t => (t.jtEntry v n).words = ws ∧ (t.jtEntry v n).loading = true) ∧
    ((s.jtEntry v n).loading = true → ((s.jtEntry v n).dram = true → s.mem.pllLost = none) → ecc.bad = false →
      (s.copyOf (s.grainSpans (s.jtEntry v n).words (segLen (wordOf (s.jtEntry v n).words 0)) 0)).bad = [] →
        Gives (exec (.jtPreloadDone v n ecc) s) fun t =>
      bit (t.f F.VOICE_JT_STAT_LOADED v) n = true ∧ (t.jtEntry v n).loading = false ∧
        (t.jtEntry v n).data = s.copyOf (s.grainSpans (s.jtEntry v n).words (segLen (wordOf (s.jtEntry v n).words 0)) 0)) ∧
    ((s.jtEntry v n).loading = true → ((s.jtEntry v n).dram = true → s.mem.pllLost = none) → ecc.bad = true →
      Gives (exec (.jtPreloadDone v n ecc) s) fun t =>
      t.f F.VOICE_JT_STAT_LOADED v = s.f F.VOICE_JT_STAT_LOADED v ∧ t.jtEntry v n = {}) ∧
    (Admits s q .VOICE_SEGTAB v 0 w → top ≤ 96 * 2 ^ 20 → (s.voice v).item = none → (s.voice v).kerfAt = none →
      Gives (exec (.voiceSegtabWrite v q w) s) fun t => t.rw .VOICE_SEGTAB v = w ∧ t.rw .VOICE_SEGTAB_ACT v = w) ∧
    (Admits s q .VOICE_SEGTAB v 0 w → top ≤ 96 * 2 ^ 20 → (s.voice v).item ≠ none →
      Gives (exec (.voiceSegtabWrite v q w) s) fun t => t.rw .VOICE_SEGTAB v = w ∧
        t.rw .VOICE_SEGTAB_ACT v = s.rw .VOICE_SEGTAB_ACT v ∧ (t.voice v).segNew = some w) ∧
    (Admits s q .VOICE_SEGTAB v 0 w → 96 * 2 ^ 20 < top → Gives (exec (.voiceSegtabWrite v q w) s) fun t =>
      t.rw .VOICE_SEGTAB v = s.rw .VOICE_SEGTAB v ∧ t.on F.VOICE_STATUS_SEGTAB_ERR v = true)

/-- MARK_ACTION, MARK_PULSE_END and RAMP_END (R69, R176): the earliest action acts on its lane by its mode, the earliest pulse ends, and a
ramp that has added its steps ends.
The model's choices in it: log entries 31, 76. -/
def Obligations.MarksAndRamps : Prop :=
  ∀ (v : Fin 64) (n : Nat) (a : MarkAct) (p : Pulse) (s : State),
    (s.voiceChan v = some n → (s.voice v).firstMark = some a → Gives (exec (.markAction v) s) fun t =>
      Reached s t (nearestTime a.time) ∧ (t.voice v).acts = (s.voice v).acts.erase a ∧
      (a.mode = 0 → bit (t.voice v).level a.lane = true) ∧
      (a.mode = 1 → bit (t.voice v).level a.lane = false ∧ ∀ y ∈ (t.voice v).pulses, y.lane ≠ a.lane) ∧
      (a.mode = 2 → (t.voice v).pulses = (s.voice v).pulses ++ [⟨a.lane, a.at_ + a.width * 1024, a.grid⟩]) ∧
      (a.mode = 3 → bit (t.voice v).level a.lane = !bit (s.voice v).level a.lane) ∧
      (∀ l, l ≠ a.lane → bit (t.voice v).level l = bit (s.voice v).level l)) ∧
    (s.voiceChan v = some n → (s.voice v).firstEnd = some p → Gives (exec (.markPulseEnd v) s) fun t =>
      Reached s t (nearestTime p.time) ∧ (t.voice v).pulses = (s.voice v).pulses.erase p ∧
      (t.voice v).level = (s.voice v).level) ∧
    ((s.voice v).ramping = true → (s.voice v).rampLeft = some 0 → Gives (exec (.rampEnd v) s) fun t =>
      (t.voice v).ramping = false ∧ (t.voice v).fw = (s.voice v).fw ∧ SameWords s t)

/-! ### Streams and host buffers (chapter 05) -/

/-- STREAM_PACKET_RX (R116 to R118): a packet that its binding takes, at the port and the UDP port that the binding has as its source,
stands in slot SEQ mod NSLOT, and any other is dropped, counted and marked. On a RING source only an uncorrectable header is counted
(R20, R361).
The model's choices in it: log entries 50, 75, 82. -/
def Obligations.StreamPackets : Prop :=
  ∀ (src : Fin 6) (peer : Bool) (udp : BitVec 16) (h0 h1 h2 h3 : Word) (payload : List Word) (e : Ecc) (frame : EthFrame) (b : Nat)
    (s : State),
    let m : StreamMsg := ⟨udp, h0, h1, h2, h3, payload⟩
    let r := exec (.streamPacketRx src peer h0 h1 h2 h3 ⟨udp, payload, e, frame⟩) s
    let d := s.ringDram b
    let a := s.slotAddr b m.seq
    let taken := s.streamPort src.val udp.toNat b && s.takesPacket b m
    let dropped := fun (t : State) => t.on F.STM_STAT_BAD_PKT b = true ∧ t.f F.STM_CNT_DROP b = s.upped F.STM_CNT_DROP b ∧
      t.sram = s.sram ∧ t.dram = s.dram ∧ t.bindings = s.bindings
    let holds := fun (t : State) (m : StreamMsg) => ∃ pk ∈ (t.binding b).packets, pk.seq = m.seq ∧ pk.arrived = s.now ∧
      pk.nsamp = s.stmSamples b ∧ pk.ptime = m.ptime ∧ pk.start = bit m.h0.toNat 24 ∧ pk.stop = bit m.h0.toNat 25
    (src ≠ 5 → s.receives src = true → s.takesFrame src frame = true → (src ≠ 0 → s.on F.ETH_CFG_STRM_PEER_ONLY (src.val - 1) = false) →
      s.injects src 0 = false →
      (src ≠ 0 → ∃ i : Fin 64, s.on F.STM_CFG_EN i = true ∧ s.streamPort src.val udp.toNat i = true) →
      (∀ p : Fin 5, (s.port p).ready = []) → s.streamBinding src m = some b →
      (taken = true → Gives r fun t => holds t m ∧ t.readWord d a = h0 ∧ t.readWord d (a + 8) = h1 ∧
        t.readWord d (a + 16) = h2 ∧ t.readWord d (a + 24) = h3 ∧
        (∀ i < payload.length, i < s.stmSamples b * s.stmBytes b / 8 → t.readWord d (a + 32 + 8 * i) = payload.getD i 0) ∧
        (∀ x, (x < a ∨ a + s.slotBytes b ≤ x) → t.byte d x = s.byte d x) ∧ (∀ x, t.byte (!d) x = s.byte (!d) x)) ∧
      (taken = false → Gives r dropped)) ∧
    (src ≠ 5 → src ≠ 0 → s.takesFrame src frame = false → r = .next s) ∧
    (src = 5 → b = bits h0.toNat 23 16 → b < 64 → s.on F.STM_CFG_EN b = true → s.f F.STM_CFG_SRC b = 6 →
      let q := bits h0.toNat 63 32
      let m' := s.slotPacket b q
      (e = .clean → (∀ i < 4, s.poisoned d (s.slotAddr b q + 8 * i) = false) →
        (s.takesPacket b m' = true → Gives r fun t => holds t m') ∧ (s.takesPacket b m' = false → r = .next s)) ∧
      (e.bad = true → Gives r dropped))

/-- STREAM_BLOCK_CHECK (R119 to R121): at its check instant a block that arrived before plays from its slot, and one that did not is a gap,
counted once for its packet.
STM_CFG_ENABLE (R116, R124, R127): a binding whose fields are legal is enabled with an empty ring and references its handle;
otherwise EN stays 0 with CFG_ERR.
The model's choices in it: log entries 32, 34. -/
def Obligations.StreamBindings : Prop :=
  (∀ (v : Fin 64) (e : BlockRead) (n b : Nat) (it : Item) (pos : Int) (pl : Placement) (s : State),
    s.voiceChan v = some n → (s.voice v).item = some it → it.binding = some b → (s.voice v).stream.block = some pos →
    (it.len = 0 ∨ pos < it.first / 1024 + it.len) →
    s.blockCovered v it pos = false → (s.voice v).stream.placement pos = some pl →
    let r := exec (.streamBlockCheck v e) s
    let g := (s.chan n).grid
    let size := max 1 (s.stmSamples b)
    let seq := wrap 32 (pl.seq + (pos - pl.begin_) / size)
    let check := pos - s.stmLead b
    let addr := s.slotAddr b seq + 32 + ((pos - pl.begin_) % size).toNat * s.stmBytes b
    (∀ pk, s.packet b seq = some pk → g.before pk.arrived (check * 1024) = true → e.ecc = .clean →
      s.poisoned (s.ringDram b) e.addr.toNat = false → Gives r fun t =>
      Reached s t (g.voiceAt check).toNat ∧ t.f F.STM_STAT_STATE b = 2 ∧ (t.voice v).stream.gap = none ∧
      (t.voice v).stream.decided.head? =
        some (pos, some (addr, s.copyOf [(s.ringDram b, addr, 64 * s.stmBytes b)]))) ∧
    (s.packet b seq = none → s.f F.STM_CFG_POLICY b ≠ 2 → (s.voice v).stream.gap = none → s.gapShared v b seq = true → Gives r fun t =>
      t.f F.STM_CNT_GAPS b = s.f F.STM_CNT_GAPS b ∧ (t.voice v).stream.gap = some seq) ∧
    (s.packet b seq = none → s.f F.STM_CFG_POLICY b ≠ 2 → (s.voice v).stream.gap = none → s.gapShared v b seq = false → Gives r fun t =>
      Reached s t (g.voiceAt check).toNat ∧ t.f F.STM_STAT_STATE b = 3 ∧ t.f F.STM_CNT_GAPS b = s.upped F.STM_CNT_GAPS b ∧
      (t.voice v).stream.gap = some seq ∧ (t.voice v).stream.decided.head? = some (pos, none))) ∧
  (∀ (b : Fin 64) (q : Requester) (w : Word) (s : State),
    let w' := force w 0 0 1
    let u := s.setRw .STM_CFG (w &&& ~~~1#64) b
    let h := s.f F.STM_RING_HANDLE b
    Admits s q .STM_CFG b 0 w' → s.on F.STM_CFG_EN b = false →
    (u.stmLegal b = true → Gives (exec (.stmCfgEnable b q w) s) fun t =>
      t.rw .STM_CFG b = w' ∧ t.binding b = {} ∧ (t.buffer (indexOf h)).refs = (s.buffer (indexOf h)).refs + 1) ∧
    (u.stmLegal b = false → Gives (exec (.stmCfgEnable b q w) s) fun t =>
      t.rw .STM_CFG b = w &&& ~~~1#64 ∧ t.on F.STM_STAT_CFG_ERR b = true ∧ t.buffers = s.buffers))

/-- HOST_BUF_ALLOC, FREE, ATTACH and QUERY (R123 to R125, R130): the result stands in BUF_RES, and GO reads 0 again.
The model's choices in it: log entries 23, 24, 72. -/
def Obligations.HostBuffers : Prop :=
  ∀ (q : Requester) (w : Word) (s : State),
    let arg := bits w.toNat 31 0
    let region := bits w.toNat 33 32
    let b := s.buffer (indexOf arg)
    let word := fun (op : Nat) => force (force w 57 56 op) 63 63 1
    let done := fun (t : State) (status handle : Nat) =>
      t.on F.BUF_CMD_GO = false ∧ t.f F.BUF_RES_STATUS = status ∧ t.f F.BUF_RES_HANDLE = handle
    (Admits s q .BUF_CMD 0 0 (word 0) →
      (region = 3 → Gives (exec (.hostBufAlloc q w) s) fun t => done t 8 0 ∧ t.buffers = s.buffers) ∧
      (region ≠ 3 → (arg = 0 ∨ 262144 < arg) → Gives (exec (.hostBufAlloc q w) s) fun t => done t 4 0 ∧ t.buffers = s.buffers) ∧
      (region ≠ 3 → 0 < arg → arg ≤ 262144 → s.alloc region arg (fun x => { x with host := 1 }) = none →
        Gives (exec (.hostBufAlloc q w) s) fun t => done t 1 0 ∧ t.buffers = s.buffers) ∧
      (region ≠ 3 → 0 < arg → arg ≤ 262144 → s.alloc region arg (fun x => { x with host := 1 }) ≠ none →
        Gives (exec (.hostBufAlloc q w) s) fun t => ∃ (i : Nat) (x : BufferSt), done t 0 (handleOf i x % 2 ^ 32) ∧ t.buffer i = x ∧
          (s.buffer i).life = .free ∧ x.life = .live ∧ x.host = 1 ∧ x.pages = arg ∧ s.fits x.dram x.page arg = true ∧
          (region = 0 → x.dram = false) ∧ (region = 1 → x.dram = true) ∧ (∀ j, j ≠ i → t.buffer j = s.buffer j))) ∧
    (Admits s q .BUF_CMD 0 0 (word 1) →
      (s.liveHandle arg = true → 0 < b.host → Gives (exec (.hostBufFree q w) s) fun t => done t 0 arg ∧
        t.buffer (indexOf arg) = (let x : BufferSt := { b with host := b.host - 1 }; if b.life = .live ∧ x.idle = true then x.retire s.now else x)) ∧
      ((s.liveHandle arg = false ∨ b.host = 0) → Gives (exec (.hostBufFree q w) s) fun t => done t 6 arg ∧ t.buffers = s.buffers)) ∧
    (Admits s q .BUF_CMD 0 0 (word 2) →
      (s.liveHandle arg = true → Gives (exec (.hostBufAttach q w) s) fun t => done t 0 arg ∧
        t.buffer (indexOf arg) = { b with host := b.host + 1, life := .live, after := none }) ∧
      (s.liveHandle arg = false → Gives (exec (.hostBufAttach q w) s) fun t => done t 3 arg ∧ t.buffers = s.buffers)) ∧
    (Admits s q .BUF_CMD 0 0 (word 3) →
      (s.liveHandle arg = true → Gives (exec (.hostBufQuery q w) s) fun t => done t 0 arg ∧ t.buffers = s.buffers ∧
        t.f F.BUF_INFO_STATE = (if b.life = .live then 1 else 2) ∧ t.f F.BUF_INFO_REFS = b.refs % 2 ^ 16 ∧
        t.f F.BUF_ADDR_REGION = b.dram.toNat) ∧
      (s.liveHandle arg = false → Gives (exec (.hostBufQuery q w) s) fun t => done t 0 arg ∧ t.rw .BUF_INFO = 0 ∧ t.rw .BUF_ADDR = 0))

/-! ### Channels (chapter 06) -/

/-- CH_ENABLE, CH_DISABLE, CHANNEL_START, CHANNEL_STOP and CHANNEL_UNPARK (R132, R134, R217): a configuration that passes its checks starts
at the first grid boundary at least 2 µs ahead, and a channel stops at the next boundary.
The model's choices in it: log entries 37, 38. -/
def Obligations.ChannelLife : Prop :=
  ∀ (n : Fin 16) (q : Requester) (w : Word) (k : Int) (s : State),
    let c := s.chan n
    let at_ := fun (k : Int) => (c.grid.voiceAt (512 * k)).toNat
    (Admits s q .CH_CTL n 0 (force w 0 0 1) → bit w.toNat 1 = false → s.on F.CH_CTL_EN n = false → c.stop = none →
      (s.chanCode n = 0 → Gives (exec (.chEnable n q w) s) fun t => t.on F.CH_CTL_EN n = true ∧ t.f F.CH_STATUS_CFG_CODE n = 0 ∧
        (t.chan n).grid = s.gridOf n ∧ (t.chan n).start = some (max 0 ((s.gridOf n).boundary2us (exactly s.now))) ∧
        t.on F.CH_STATUS_RUN n = s.on F.CH_STATUS_RUN n) ∧
      (s.chanCode n ≠ 0 → Gives (exec (.chEnable n q w) s) fun t => t.on F.CH_CTL_EN n = false ∧
        t.f F.CH_STATUS_CFG_CODE n = s.chanCode n ∧ t.on F.CH_STATUS_CFG_ERR n = true ∧ t.chan n = c)) ∧
    (Admits s q .CH_CTL n 0 (force w 0 0 0) → bit w.toNat 1 = false → s.on F.CH_CTL_EN n = true →
      (s.on F.CH_STATUS_RUN n = true → Gives (exec (.chDisable n q w) s) fun t =>
        t.on F.CH_CTL_EN n = false ∧ t.on F.CH_STATUS_RUN n = true ∧ (t.chan n).stop = some (c.grid.boundaryPast s.now)) ∧
      (s.on F.CH_STATUS_RUN n = false → Gives (exec (.chDisable n q w) s) fun t =>
        t.on F.CH_CTL_EN n = false ∧ t.on F.CH_STATUS_RUN n = false ∧ (t.chan n).start = none)) ∧
    (c.start = some k → Gives (exec (.channelStart n) s) fun t => Reached s t (at_ k) ∧ t.on F.CH_STATUS_RUN n = true ∧
      (t.chan n).start = none ∧ (t.chan n).nextVoice = 512 * k ∧
      (∀ v : Fin 64, s.voiceChan v = some n.val → (t.voice v).since = some (512 * k * 1024))) ∧
    (c.stop = some k → c.again = false → Gives (exec (.channelStop n) s) fun t => Reached s t (at_ k) ∧
      t.on F.CH_STATUS_RUN n = false ∧ (t.chan n).stop = none ∧
      (t.chan n).stopDac = some (if c.restart then c.nextDac else c.grid.dacOfPlace (512 * k * 1024)) ∧
      (∀ v : Fin 64, s.voiceChan v = some n.val → (t.voice v).item = none)) ∧
    (s.on F.CH_STATUS_RUN n = true → c.unlocked = true → s.f F.SP_STATUS_STATE (n.val / 4) = 4 → c.restart = false →
      Gives (exec (.channelUnpark n) s) fun t => Reached s t (at_ (c.grid.boundary2us (exactly (s.sp (n.val / 4)).since))) ∧
        (t.chan n).unlocked = false) ∧
    (s.on F.CH_STATUS_RUN n = true → c.unlocked = false → c.brown = true → s.on F.PWR_STATUS_BO_ACTIVE = false →
      Gives (exec (.channelUnpark n) s) fun t => Reached s t (at_ (c.grid.boundary2us (exactly c.brownClear))) ∧ (t.chan n).brown = false)

/-- CH_SLOT_WRITE, RUNTIME_BOUNDARY, VOICE_JOIN, NCO_RESYNC and NCO_RESET (R135, R138 to R140): while EN = 1 a slot acts as it was until its
run-time boundary, and the accumulator resets at CH_NCO_EPOCH or, when that is near or past, at the run-time boundary with NCO_LATE.
The model's choices in it: log entries 37, 72. -/
def Obligations.ChannelSettings : Prop :=
  ∀ (n : Fin 16) (p : Fin 8) (v : Fin 64) (q : Requester) (w : Word) (k : Int) (s : State),
    let c := s.chan n
    let epoch := s.at F.CH_NCO_EPOCH_SEC_SEC F.CH_NCO_EPOCH_FRAC_FRAC n
    let taken := ∃ (i : Fin 4) (j : Fin 8), (4 * (n.val / 4) + i.val ≠ n ∨ j ≠ p) ∧ s.on F.CH_SLOT_EN (4 * (n.val / 4) + i.val) j = true ∧
      s.f F.CH_SLOT_VQ (4 * (n.val / 4) + i.val) j = bits w.toNat 11 8
    let bad := (bit w.toNat 15 = true ∧ taken) ∨ bits w.toNat 5 4 = 3 ∨ 2 ≤ bits w.toNat 1 0
    (Admits s q .CH_SLOT n p w →
      (¬ bad → Gives (exec (.chSlotWrite n p q w) s) fun t => t.rw .CH_SLOT n p = w ∧
        (s.on F.CH_CTL_EN n = true → t.slotInForce n p = s.slotInForce n p) ∧
        (s.on F.CH_CTL_EN n = false → c.held = [] → t.slotInForce n p = bits w.toNat 15 0)) ∧
      (bad → Gives (exec (.chSlotWrite n p q w) s) fun t => t.rw .CH_SLOT n p = s.rw .CH_SLOT n p ∧ t.on F.CH_STATUS_XB_ERR n = true)) ∧
    (s.nextBoundary n = some k → Gives (exec (.runtimeBoundary n) s) fun t => Reached s t (c.grid.voiceAt (512 * k)).toNat ∧
      (t.chan n).held = c.held.filter (fun h => h.boundary != k) ∧
      (s.on F.CH_STATUS_RUN n = true → (t.chan n).sets.head? = some (t.dacSet n (c.grid.dacOfPlace (512 * k * 1024))))) ∧
    ((s.voice v).join = some (n.val, k) → s.slotNaming v = some (n.val, p.val) → Gives (exec (.voiceJoin v) s) fun t =>
      Reached s t (c.grid.voiceAt (512 * k)).toNat ∧ t.voiceChan v = some n.val ∧ (t.voice v).join = none ∧
      (s.on F.CH_STATUS_RUN n = true → (t.voice v).since = some (512 * k * 1024))) ∧
    (Admits s q .CH_CTL n 0 (force w 1 1 1) → bit w.toNat 0 = true → s.on F.CH_CTL_EN n = true →
      Gives (exec (.ncoResync n q w) s) fun t => t.on F.CH_CTL_NCO_RESYNC n = true ∧ ∃ r, (t.chan n).ncoReset = some r ∧
        (r.late = true ↔ ((epoch : Int) - s.now) * c.grid.vden < 64 * c.grid.vnum) ∧
        r.at_ = if r.late then c.grid.dacOfPlace (512 * c.grid.runtime s.now * 1024) else c.grid.dacFrom epoch) ∧
    (∀ r, c.ncoReset = some r → Gives (exec (.ncoReset n) s) fun t =>
      Reached s t (c.grid.dacAt r.at_).toNat ∧ (t.chan n).ncoReset = none ∧
      ((∀ (m : Fin 16) (y : NcoReset), (s.chan m).ncoReset = some y → y.by_ = n.val → y = r) → t.on F.CH_CTL_NCO_RESYNC n = false) ∧
      (c.nextNco ≤ r.at_ → (t.chan n).ncoZero = some r.at_) ∧ (r.late = true → t.on F.CH_STATUS_NCO_LATE n = true))

/-! ### The output (chapter 07) -/

/-- RANGE_REQUEST, RANGE_CHANGE_START, RANGE_DONE, MUTE_WRITE, SC_ENGAGE, SC_EPISODE, CURRENT_LIMIT_RELEASED, SC_RELEASE and
DAC_BIAS_SETTLED (R164, R166 to R168, R171). -/
def Obligations.RangesAndLimits : Prop :=
  ∀ (n : Fin 16) (p : Bool) (q : Requester) (w : Word) (d : Int) (t0 : Nat) (s : State),
    let c := s.chan n
    let next := bits w.toNat 1 0
    let mute := fun (t : State) => t.inForce n (Reg.CH_DAC_CTL.addr n 0) 0 0
    (Admits s q .CH_DAC_RANGE n 0 w →
      (s.on F.CH_CTL_EN n = false → Gives (exec (.rangeRequest n q w) s) fun t =>
        t.f F.CH_DAC_RANGE_RANGE_NEXT n = next ∧ t.f F.CH_DAC_RANGE_RANGE_ACT n = next) ∧
      (s.on F.CH_CTL_EN n = true → next ≠ s.f F.CH_DAC_RANGE_RANGE_ACT n → Gives (exec (.rangeRequest n q w) s) fun t =>
        t.f F.CH_DAC_RANGE_RANGE_NEXT n = next ∧ t.f F.CH_DAC_RANGE_RANGE_ACT n = s.f F.CH_DAC_RANGE_RANGE_ACT n ∧
        t.on F.CH_DAC_RANGE_RC_PEND n = true)) ∧
    (s.on F.CH_CTL_EN n = false → exec (.rangeChangeStart n) s = .next s) ∧
    (c.rangeAt = some d → s.on F.CH_CTL_EN n = true → Gives (exec (.rangeChangeStart n) s) fun t => Reached s t (s.pinTime n d) ∧
      t.f F.CH_DAC_RANGE_RANGE_ACT n = s.f F.CH_DAC_RANGE_RANGE_NEXT n ∧ t.on F.CH_DAC_RANGE_RC_PEND n = false ∧
      t.on F.CH_DAC_STATUS_RANGE_BUSY n = true ∧ (t.chan n).rangeAt = none ∧ (t.chan n).rangeTo = some (d + c.out.rangeSamples)) ∧
    (c.rangeTo = some d → s.on F.CH_DAC_STATUS_RANGE_BUSY n = true → Gives (exec (.rangeDone n) s) fun t =>
      Reached s t (s.pinTime n d) ∧ t.on F.CH_DAC_STATUS_RANGE_BUSY n = false ∧
      t.f F.CH_DAC_CNT_RANGE_CHG n = s.upped F.CH_DAC_CNT_RANGE_CHG n ∧
      (bit (s.f F.EVF_CHEV_CMASK (n.val / 8)) (8 * (n.val % 8)) = true → FiredAt s t (592 + n.val) (s.pinTime n d))) ∧
    (Admits s q .CH_DAC_CTL n 0 w → Gives (exec (.muteWrite n q w) s) fun t => t.rw .CH_DAC_CTL n = w ∧
      (s.on F.CH_CTL_EN n = true → mute t = mute s) ∧
      (s.on F.CH_CTL_EN n = false → c.held = [] → mute t = bits w.toNat 0 0)) ∧
    (c.leg p = none → Gives (exec (.scEngage n p) s) fun t => (t.chan n).leg p = some s.now ∧ (t.chan n).leg (!p) = c.leg (!p)) ∧
    (c.leg p = some t0 → s.on F.CH_DAC_STATUS_SC_ACTIVE n = false → Gives (exec (.scEpisode n p) s) fun t =>
      Reached s t (t0 + nanos 20) ∧ t.on F.CH_DAC_STATUS_SC_FLAG n = true ∧ t.on F.CH_DAC_STATUS_SC_ACTIVE n = true ∧
      t.f F.CH_DAC_CNT_SC_EPIS n = s.upped F.CH_DAC_CNT_SC_EPIS n) ∧
    Gives (exec (.currentLimitReleased n p) s) (fun t => (t.chan n).leg p = none ∧ (t.chan n).leg (!p) = c.leg (!p) ∧
      (c.leg p ≠ none → (t.chan n).released = s.now) ∧ SameWords s t) ∧
    (s.on F.CH_DAC_STATUS_SC_ACTIVE n = true → c.legP = none → c.legN = none → Gives (exec (.scRelease n) s) fun t =>
      Reached s t (c.released + nanos 1000) ∧ t.on F.CH_DAC_STATUS_SC_ACTIVE n = false ∧
      t.f F.CH_DAC_STATUS_SC_FLAG n = s.f F.CH_DAC_STATUS_SC_FLAG n) ∧
    (s.dom (32 + n) = true → Gives (exec (.dacBiasSettled n) s) fun t => (t.chan n).bias = true ∧
      (c.bias = false → Reached s t (c.biasFrom + biasTime)))

/-- VOICE_SAMPLE and DAC_SAMPLE (R28, R141, R163): the next composed sample goes to the elastic buffer, and the next slot of the coarse buffer
is presented under the condition of R28 that governs its DAC sample. With R = 1, the resampler bypassed and no NCO the datapath carries twice
the composed sum (R148, R149).
The model's choices in it: log entries 35, 36, 68. -/
def Obligations.Samples : Prop :=
  ∀ (n : Fin 16) (q : DacSlot) (s : State),
    let c := s.chan n
    let m := c.nextVoice
    let u := forN (41 - c.ahead) (fun _ t => t.pushSlot n) s
    let k := s.condAt n q.index
    (s.on F.CH_STATUS_RUN n = true → c.restart = false → Gives (exec (.voiceSample n) s) fun t =>
      Reached s t (c.grid.voiceAt m).toNat ∧ (t.chan n).nextVoice = m + 1 ∧
      (t.chan n).sums = (if c.unlocked then [] else c.sums ++ [(m, (t.composedOut n m).i, (t.composedOut n m).q)]) ∧
      -32768 ≤ (t.composedOut n m).i ∧ (t.composedOut n m).i < 32768) ∧
    (s.parkedAt n c.nextDac = false → c.restart = false → (s.on F.CH_STATUS_RUN n = true → c.unlocked = false → s.needs n ≤ c.nextVoice) →
      (u.chan n).line[40]? = some q → s.parkedAt n q.index = false →
      Gives (exec (.dacSample n) s) fun t => (t.chan n).nextDac = (if q.wait = 0 then q.index + 1 else q.index) ∧ (t.chan n).shown = true ∧
        (t.chan n).cond = k ∧ (k = 8 → c.carried = true → (t.chan n).code = (u.chan n).corrected.1) ∧
        (k ≠ 6 → k ≠ 8 → (t.chan n).code = c.code)) ∧
    (s.f F.CH_CFG_R n = 1 → s.on F.CH_CFG_RHO_BYP n = true → s.on F.CH_CFG_NCO_EN n = false →
      (s.nextWord n).1 = 2 * (c.sum c.nextNco).1)

/-! ### Triggers (chapter 08) -/

/-- TRIG_IN_EDGE, TI_CFG_APPLY, TRIG_OUT_PULSE and TRIG_OUT_PULSE_END (R181 to R185): an accepted edge is timestamped less SKEW, fires and
meets the WAIT TRIGs of its line; a pulse rises and falls at steps of 9.6 GHz.
The model's choices in it: log entry 31. -/
def Obligations.Triggers : Prop :=
  ∀ (n : Fin 16) (t0 held f rise fall : Nat) (rising : Bool) (p : Int × Int) (s : State), t0 < 2 ^ 96 →
    let cfg := s.tiCfg n t0
    let first := s.firstPulse n
    let ts := wrap 96 (t0 - signed 11 (bits cfg 42 32) * 256)
    (s.active = true → tiSelects cfg rising held = true → (∀ l, (s.trigIn n).last = some l → tiIgnored cfg l t0 = false) →
      Gives (exec (.trigInEdge n t0 rising held) s) fun t => Reached s t t0 ∧ t.at F.TI_TS_SEC_SEC F.TI_TS_FRAC_FRAC n = ts ∧
        t.f F.TI_TS_SEC_ESEQ n = (s.f F.TI_TS_SEC_ESEQ n + 1) % 2 ^ 16 ∧ (t.trigIn n).last = some t0 ∧ FiredAt s t (576 + n) ts ∧
        (∀ (v : Fin 64) (it : Item) (c : Nat), (s.voice v).item = some it → it.kind = .wait → it.cond = some (.waitTrig n) →
          it.seen = none → s.voiceChan v = some c → (s.chan c).grid.placeAt it.start ≤ ts →
          (t.voice v).item = some { it with seen := some ts })) ∧
    (∀ l, s.active = true → tiSelects cfg rising held = true → (s.trigIn n).last = some l → tiIgnored cfg l t0 = true →
      Gives (exec (.trigInEdge n t0 rising held) s) fun t => Reached s t t0 ∧ t.f F.TI_CNT_HELD n = s.upped F.TI_CNT_HELD n ∧
        t.trigIns = s.trigIns ∧ t.voices = s.voices) ∧
    (tiSelects cfg rising held = false → Gives (exec (.trigInEdge n t0 rising held) s) fun t => Reached s t t0 ∧ SameWords s t) ∧
    Gives (exec (.tiCfgApply n) s) (fun t => t.tiCfg n s.now =
        (match ((s.trigIn n).waiting s.now).drop 1 with | y :: _ => y.2.toNat | [] => (s.rw .TI_CFG n).toNat) ∧
      (t.trigIn n).last = (s.trigIn n).last ∧ SameWords s t) ∧
    (first = some (p, rise, fall) → Gives (exec (.trigOutPulse n) s) fun t => Reached s t (stepTime rise) ∧
      (t.trigOut n).due = (s.trigOut n).due.erase p ∧
      (t.trigOut n).fall = some (match (s.trigOut n).fall with | none => fall | some f => max f fall) ∧
      (s.on F.TO_CFG_EN n = true → t.trigOutPin n = !s.on F.TO_CFG_POL n)) ∧
    ((s.trigOut n).fall = some f → (∀ p' x y, first = some (p', x, y) → f < x) →
      Gives (exec (.trigOutPulseEnd n) s) fun t => Reached s t (stepTime f) ∧ t.trigOutPin n = s.on F.TO_CFG_POL n ∧
        (t.trigOut n).due = (s.trigOut n).due) ∧
    ((s.trigOut n).fall = some f → first = some (p, rise, fall) → rise ≤ f →
      Gives (exec (.trigOutPulseEnd n) s) fun t => t.now = s.now ∧ (t.trigOut n).fall = some (max f fall))

/-! ### The event fabric (chapter 09) -/

/-- EVENT_PASS, EVENT_DELIVERY and ROUTING_APPLY (R190, R195, R196, R200): a firing passes every channel that lists its source, an event
that its input selects is taken, merged or lost, and a change settles.
EVT_FIRE_WRITE, EC_SRC_WRITE and EC_CTL_WRITE (R190, R193, R196, R199): the channels whose bits are set fire now; a producer field acts
as it was until it settles; a source of 640 or above is SRC_ERR, and a write that closes a loop is LOOP_REJ.
The model's choices in it: log entries 27, 28, 29, 72. -/
def Obligations.EventFabric : Prop :=
  (∀ (n src c l x : Nat) (i : Fin 416) (e : Flight) (u : Unsettled) (s : State),
    let put := fun (t : State) => t.fabric.flight[n]? = some { e with reached := e.reached ++ [i.val] }
    let ok := s.fabric.flight[n]? = some e ∧ s.selection i = some e.chan ∧ e.reached.contains i.val = false ∧ s.live i = true
    (s.fabric.fired[n]? = some ⟨.source src, x⟩ → Gives (exec (.eventPass n) s) fun t =>
      t.fabric.fired = s.fabric.fired.eraseIdx n ∧
      (∀ k : Fin 128, s.lists k src = true → s.on F.EC_CTL_LOOP_PERMIT k = false → (⟨k, x, []⟩ : Flight) ∈ t.fabric.flight) ∧
      (∀ g ∈ t.fabric.flight, g ∈ s.fabric.flight ∨ (g.time = x ∧ g.reached = [] ∧ s.lists g.chan src = true))) ∧
    (s.fabric.fired[n]? = some ⟨.channel c, x⟩ → s.on F.EC_CTL_LOOP_PERMIT c = false → Gives (exec (.eventPass n) s) fun t =>
      t.fabric.fired = s.fabric.fired.eraseIdx n ∧ t.fabric.flight = s.fabric.flight ++ [⟨c, x, []⟩]) ∧
    (s.fabric.fired[n]? = some ⟨.channel c, x⟩ → c < 128 → s.on F.EC_CTL_LOOP_PERMIT c = true →
      sget (fun _ => none) s.fabric.refr c = some l → (x - l) * 1000000000 < 8 * second → Gives (exec (.eventPass n) s) fun t =>
        t.fabric.flight = s.fabric.flight ∧ t.f F.EC_CTL_REFR_CNT c = s.upped F.EC_CTL_REFR_CNT c ∧ t.on F.EVF_STATUS_REFR = true) ∧
    (ok → (∀ w, (s.input i).window = some w → coincide w e.time = false) → s.busy i = false →
      (i.val < 128 → Gives (exec (.eventDelivery n i) s) fun t => put t ∧ (t.input i).window = some e.time ∧
        (if i.val % 2 = 0 then (t.core (i.val / 2)).ei0 else (t.core (i.val / 2)).ei1).latch = true) ∧
      (336 ≤ i.val → i.val < 400 → Gives (exec (.eventDelivery n i) s) fun t => put t ∧
        bit (t.f F.EVF_IRQ_PEND_PEND) (i.val - 336) = true) ∧
      (408 ≤ i.val → s.f F.EVR_CFG_MODE (i.val - 408) = 1 → Gives (exec (.eventDelivery n i) s) fun t => put t ∧
        (t.relay (i.val - 408)).held = some (e.time + s.relayPeriod (i.val - 408)))) ∧
    (ok → (∃ w, (s.input i).window = some w ∧ coincide w e.time = true) → Gives (exec (.eventDelivery n i) s) fun t => put t ∧
      (t.input i).coincide = min ((s.input i).coincide + 1) 0xFFFF ∧ t.cores = s.cores ∧ t.voices = s.voices) ∧
    (ok → (∀ w, (s.input i).window = some w → coincide w e.time = false) → s.busy i = true →
      Gives (exec (.eventDelivery n i) s) fun t => put t ∧ (t.input i).overrun = min ((s.input i).overrun + 1) 0xFFFF ∧
        t.cores = s.cores ∧ t.voices = s.voices) ∧
    (s.fabric.unsettled[n]? = some u →
      (∀ m u', m ≠ n → s.fabric.unsettled[m]? = some u' → ¬ (u'.addr = u.addr ∧ u'.hi = u.hi ∧ u'.lo = u.lo)) →
      Gives (exec (.routingApply n) s) fun t => t.fabric.unsettled = s.fabric.unsettled.eraseIdx n ∧
        t.eff u.addr u.hi u.lo = bits (s.word u.addr).toNat u.hi u.lo ∧ SameWords s t)) ∧
  (∀ (i : Fin 2) (c : Fin 128) (b : Bool) (l : Nat) (q : Requester) (w : Word) (s : State),
    let r := if b then Reg.EC_SRC_B else .EC_SRC_A
    let legal := ∀ j : Fin 4, bit w.toNat (16 * j + 15) = true → bits w.toNat (16 * j + 9) (16 * j) < 640
    (Admits s q .EVT_FIRE i 0 w → Gives (exec (.evtFireWrite i q w) s) fun t =>
      (∀ k : Fin 64, bit w.toNat k = true → (⟨.channel (64 * i + k), s.now⟩ : Fired) ∈ t.fabric.fired) ∧
      (∀ f ∈ t.fabric.fired, f ∈ s.fabric.fired ∨
        ∃ k : Fin 64, bit w.toNat k = true ∧ f = ⟨.channel (64 * i.val + k.val), s.now⟩)) ∧
    (Admits s q r c 0 w →
      (legal → (s.setRouted r w c 0).loopAt = none → Gives (exec (.ecSrcWrite c b q w) s) fun t =>
        t.rw r c = w ∧ ∀ j : Fin 4, t.eff (r.addr c 0) (16 * j + 15) (16 * j) = s.eff (r.addr c 0) (16 * j + 15) (16 * j)) ∧
      (¬ legal → Gives (exec (.ecSrcWrite c b q w) s) fun t =>
        t.rw r c = s.rw r c ∧ t.on F.EVF_STATUS_SRC_ERR = true ∧ t.fabric = s.fabric) ∧
      (legal → (s.setRouted r w c 0).loopAt = some l → Gives (exec (.ecSrcWrite c b q w) s) fun t =>
        t.rw r c = s.rw r c ∧ t.on F.EVF_STATUS_LOOP_REJ = true ∧ t.f F.EVF_LOOP_LAST_EC = l % 128 ∧ t.fabric = s.fabric)) ∧
    (Admits s q .EC_CTL c 0 w →
      let x := storedWord Reg.EC_CTL.spec (s.rw .EC_CTL c) w
      ((s.setRouted .EC_CTL x c 0).loopAt = none → bit w.toNat 16 = false → Gives (exec (.ecCtlWrite c q w) s) fun t =>
        t.rw .EC_CTL c = x ∧ t.f F.EC_CTL_LOOP_PERMIT c = bits w.toNat 0 0 ∧ t.f F.EC_CTL_LK_FIRE c = bits w.toNat 3 3) ∧
      ((s.setRouted .EC_CTL x c 0).loopAt = none → bit w.toNat 16 = true → Gives (exec (.ecCtlWrite c q w) s) fun t =>
        t.f F.EC_CTL_REFR_CNT c = 0 ∧ t.f F.EC_CTL_LOOP_PERMIT c = bits w.toNat 0 0) ∧
      ((s.setRouted .EC_CTL x c 0).loopAt = some l → Gives (exec (.ecCtlWrite c q w) s) fun t =>
        t.rw .EC_CTL c = s.rw .EC_CTL c ∧ t.on F.EVF_STATUS_LOOP_REJ = true)))

/-- RELAY_DELAY_OUTPUT, RELAY_DIVIDE_OUTPUT, RELAY_TIMER_OUTPUT and the writes of EVR_CFG, EVR_PARAM and EVR_START (R197).
The model's choices in it: log entry 30. -/
def Obligations.Relays : Prop :=
  ∀ (r : Fin 8) (x l : Nat) (more : List Nat) (frac : Bool) (q : Requester) (w : Word) (s : State),
    let start := fun (t : State) => t.at F.EVR_START_SEC_SEC F.EVR_START_FRAC_FRAC r
    let restarts := fun (t : State) => (t.relay r).next = some (nextInstant (start t) (t.relayPeriod r) (s.now + ns100))
    ((s.relay r).held = some x → Gives (exec (.relayDelayOutput r) s) fun t =>
      Reached s t x ∧ (t.relay r).held = none ∧ FiredAt s t (608 + r) x ∧ SameWords s t) ∧
    ((s.relay r).due = x :: more → Gives (exec (.relayDivideOutput r) s) fun t =>
      Reached s t x ∧ (t.relay r).due = more ∧ FiredAt s t (608 + r) x ∧ SameWords s t) ∧
    ((s.relay r).next = some x → s.active = true → x < 2 ^ 96 → Gives (exec (.relayTimerOutput r) s) fun t =>
      Reached s t x ∧ (t.relay r).next = some (x + s.relayPeriod r) ∧ FiredAt s t (608 + r) x ∧
      t.at F.EVR_TS_SEC_SEC F.EVR_TS_FRAC_FRAC r = x) ∧
    (Admits s q .EVR_CFG r 0 w →
      ((s.setRouted .EVR_CFG w r 0).loopAt = none → Gives (exec (.evrCfgWrite r q w) s) fun t => t.rw .EVR_CFG r = w ∧
        (t.relay r).held = none ∧ (t.relay r).count = 0 ∧ (bits w.toNat 1 0 ≠ 3 → (t.relay r).next = none) ∧
        (bits w.toNat 1 0 = 3 → s.f F.EVR_CFG_MODE r ≠ 3 → restarts t) ∧
        t.eff (Reg.EVR_CFG.addr r 0) 15 8 = s.eff (Reg.EVR_CFG.addr r 0) 15 8) ∧
      ((s.setRouted .EVR_CFG w r 0).loopAt = some l → Gives (exec (.evrCfgWrite r q w) s) fun t =>
        t.rw .EVR_CFG r = s.rw .EVR_CFG r ∧ t.on F.EVF_STATUS_LOOP_REJ = true ∧ t.fabric = s.fabric)) ∧
    (Admits s q .EVR_PARAM r 0 w → Gives (exec (.evrParamWrite r q w) s) fun t => t.rw .EVR_PARAM r = w ∧
      (s.f F.EVR_CFG_MODE r = 2 → (t.relay r).count = 0) ∧ (s.f F.EVR_CFG_MODE r = 3 → restarts t) ∧
      (s.f F.EVR_CFG_MODE r = 1 → t.fabric = s.fabric)) ∧
    (let y := if frac then Reg.EVR_START_FRAC else .EVR_START_SEC
     Admits s q y r 0 w → Gives (exec (.evrStartWrite r frac q w) s) fun t => t.rw y r = w ∧
      (s.f F.EVR_CFG_MODE r = 3 → restarts t) ∧ (s.f F.EVR_CFG_MODE r ≠ 3 → t.fabric = s.fabric))

/-! ### Clocks (chapter 10) -/

/-- REF_INPUT_LOST, REF_INPUT_VALID, REF_GATE_END, REF_QUALIFIED, REF_SOURCE_WRITE and REF_PLL_LOCK (R204 to R208, R235): validity and
qualification of the inputs, the source in use, COAST, lock and the recorded return, which a lock after a switch is not.
The model's choices in it: log entries 39, 72, 77, 82. -/
def Obligations.ReferenceClock : Prop :=
  ∀ (x : Fin 2) (q : Requester) (w : Word) (f j : BitVec 32) (jump : BitVec 64) (s : State), s.resting = false →
    let st := s.f F.CLK_REF_STATUS_STATE
    let sole := s.f F.CLK_REF_CFG_MODE = 0 ∧ s.f F.CLK_REF_CFG_MAN_SRC = x
    let e := s.time.returns % 8
    (s.refValid x = true → Gives (exec (.refInputLost x) s) fun t => t.refValid x = false ∧ t.refQual x = false ∧
      (if x = 0 then t.on F.CLK_REF_STATUS_A_LOST else t.on F.CLK_REF_STATUS_B_LOST) = true ∧
      (sole → st = 2 → t.f F.CLK_REF_STATUS_STATE = 3 ∧ t.on F.CLK_REF_STATUS_COASTED = true ∧ FiredAt s t 620 s.now)) ∧
    (s.refEn x = true → (s.refIn x).fault = false → s.refValid x = false → Gives (exec (.refInputValid x) s) fun t =>
      t.refValid x = true ∧ t.refQual x = s.refQual x ∧ t.f F.CLK_REF_STATUS_STATE = st) ∧
    ((s.refEn x = false ∨ (s.refIn x).fault = true) → Gives (exec (.refInputValid x) s) fun t => t.refValid x = false) ∧
    (f.toInt.natAbs ≤ s.f F.REF_MON_FWIN * 1000 → s.refEn 0 = true → (s.refIn 0).edges = true →
      Gives (exec (.refGateEnd (some f) none) s) fun t => t.f F.REF_MEAS_FOFF_A = f.toNat ∧ t.refValid 0 = true) ∧
    (s.f F.REF_MON_FWIN * 1000 < j.toInt.natAbs → Gives (exec (.refGateEnd none (some j)) s) fun t =>
      t.f F.REF_MEAS_FOFF_B = j.toNat ∧ t.refValid 1 = false) ∧
    (s.refValid x = true → s.refQual x = false → Gives (exec (.refQualified x) s) fun t => t.refQual x = true ∧
      Reached s t ((s.refIn x).since + s.f F.REF_MON_QUAL * second / 100) ∧ (sole → st = 0 → t.f F.CLK_REF_STATUS_STATE = 1 ∧
        t.f F.CLK_REF_STATUS_SRC_ACT = x)) ∧
    (let u := s.setRw .CLK_REF_CFG w
     Admits s q .CLK_REF_CFG 0 0 w → u.refEn x = true → (s.refIn x).edges = true → (s.refIn x).fault = false →
      u.f F.CLK_REF_CFG_MODE = 0 → u.f F.CLK_REF_CFG_MAN_SRC = x → u.refQual x = true → st = 2 →
        Gives (exec (.refSourceWrite q w) s) fun t => t.rw .CLK_REF_CFG = w ∧
        t.f F.CLK_REF_STATUS_SRC_ACT = x ∧ t.f F.CLK_REF_STATUS_STATE = 2) ∧
    (s.refPick = some x.val → st = 1 → Gives (exec (.refPllLock jump) s) fun t => Reached s t (s.refLockFrom x) ∧
      t.f F.CLK_REF_STATUS_STATE = 2 ∧ t.clock.everLocked = true ∧ t.time.returns = s.time.returns) ∧
    (s.refPick = some x.val → st = 3 → s.clock.switching = true → Gives (exec (.refPllLock jump) s) fun t =>
      t.f F.CLK_REF_STATUS_STATE = 2 ∧ t.f F.CLK_REF_STATUS_SRC_ACT = x ∧ t.time.returns = s.time.returns) ∧
    (s.refPick = some x.val → st = 3 → s.clock.switching = false →
      Gives (exec (.refPllLock jump) s) fun t => Reached s t (s.refLockFrom x) ∧ t.f F.CLK_REF_STATUS_STATE = 2 ∧
      t.f F.CLK_REF_STATUS_SRC_ACT = x ∧ t.f F.TM_RETLOG_C_JUMP e = wrap 64 (s.reduceJump x jump.toInt) ∧
      t.f F.TM_RETLOG_A_SRC e = x ∧ t.time.returns = s.time.returns + 1 ∧ FiredAt s t 621 t.now)

/-- The Spindle PLL rows (R209 to R217): RETUNE, band, lock, ALIGN, loss of lock, band measurement, release and policy.
The model's choices in it: log entries 39, 77, 82. -/
def Obligations.Spindles : Prop :=
  ∀ (j : Fin 4) (q : Requester) (w : Word) (b : Nat) (rail : Bool) (flo fhi : BitVec 24) (s : State),
    let st := fun (t : State) => t.f F.SP_STATUS_STATE j
    let x := s.sp j
    (Admits s q .SP_CTL j 0 (force w 16 16 1) → bit w.toNat 4 = false → st s ≠ 6 →
      (freqLegal (s.rw .SP_FREQ j).toNat = true → st s ≠ 0 → Gives (exec (.spRetune j q w) s) fun t =>
        st t = 1 ∧ (t.sp j).applied = s.rw .SP_FREQ j ∧ t.f F.SP_FDAC_FDAC j = fdacReport (s.rw .SP_FREQ j).toNat) ∧
      (freqLegal (s.rw .SP_FREQ j).toNat = false → Gives (exec (.spRetune j q w) s) fun t =>
        st t = st s ∧ t.sp j = x ∧ t.on F.SP_STATUS_FREQ_ERR j = true)) ∧
    (st s = 1 → x.measuring = false → x.stuck = false →
      (firstN 64 (s.bandCovers j) = some b → Gives (exec (.spBandSelect j) s) fun t => st t = 2 ∧ t.f F.SP_STATUS_BAND_ACT j = b) ∧
      (firstN 64 (s.bandCovers j) = none → Gives (exec (.spBandSelect j) s) fun t =>
        st t = 1 ∧ t.on F.SP_STATUS_NO_BAND j = true ∧ (t.sp j).stuck = true)) ∧
    (st s = 5 → ∀ y ∈ [Instr.spBandSelect j, .spLockDeclared j], Gives (exec y s) fun t => st t = if x.rail then 1 else 2) ∧
    (st s = 2 → Gives (exec (.spLockDeclared j) s) fun t => st t = 3 ∧
      Reached s t (x.acq + comparisons (s.f F.SP_LOCKDET_LK_CNT j)) ∧ (t.sp j).dither = s.on F.SP_CTL_DITHER j) ∧
    (st s = 3 → (x.relock = false ∨ s.on F.SP_CTL_POLICY j = false) → Gives (exec (.spAlignDone j) s) fun t =>
      st t = 4 ∧ (t.sp j).since = s.now ∧ (t.sp j).relock = false ∧ bit (t.f F.CLK_REF_STATUS_SP_LOCKED) j = true) ∧
    (st s = 3 → x.relock = true → s.on F.SP_CTL_POLICY j = true → Gives (exec (.spAlignDone j) s) fun t => st t = 6) ∧
    (st s = 4 → Gives (exec (.spindleUnlock j rail) s) fun t => st t = 5 ∧ t.on F.SP_STATUS_LOST j = true ∧
      t.f F.SP_STATUS_UNLK_CNT j = s.upped F.SP_STATUS_UNLK_CNT j ∧ (t.sp j).relock = true ∧ FiredAt s t (616 + j) s.now ∧
      (∀ i : Fin 4, s.on F.CH_STATUS_RUN (4 * j + i : Nat) = true → (t.chan (4 * j + i)).unlocked = true)) ∧
    ((st s = 2 ∨ st s = 3) → Gives (exec (.spindleUnlock j rail) s) fun t =>
      st t = 1 ∧ t.f F.SP_STATUS_UNLK_CNT j = s.f F.SP_STATUS_UNLK_CNT j) ∧
    (Admits s q .SP_CTL j 0 (force w 4 4 1) → bit w.toNat 16 = false → st s ≠ 6 →
      ((∃ i : Fin 4, s.on F.CH_CTL_EN (4 * j + i : Nat) = true) → Gives (exec (.spBmeas j q w) s) fun t =>
        t.on F.SP_STATUS_BMEAS_REJ j = true ∧ st t = st s ∧ t.sp j = x) ∧
      ((∀ i : Fin 4, s.on F.CH_CTL_EN (4 * j + i : Nat) = false) → st s ≠ 0 → Gives (exec (.spBmeas j q w) s) fun t =>
        st t = 1 ∧ t.on F.SP_BMEAS_DONE j = false ∧ (t.sp j).measuring = true)) ∧
    (x.measuring = true → Gives (exec (.spBmeasDone j flo fhi) s) fun t => st t = 1 ∧ t.on F.SP_BMEAS_DONE j = true ∧
      t.f F.SP_BMEAS_FLO j = flo.toNat ∧ t.f F.SP_BMEAS_FHI j = fhi.toNat ∧ (t.sp j).measuring = false) ∧
    (Admits s q .CLK_RELEASE 0 0 w →
      (bit w.toNat j = true → st s = 6 → Gives (exec (.clkRelease q w) s) fun t => st t = 4 ∧ (t.sp j).since = s.now) ∧
      (bit w.toNat j = false → Gives (exec (.clkRelease q w) s) fun t => st t = st s ∧ t.sp j = x)) ∧
    (Admits s q .SP_CTL j 0 (force w 0 0 0) → bit w.toNat 4 = false → bit w.toNat 16 = false →
      Gives (exec (.spPolicyWrite j q w) s) fun t => t.on F.SP_CTL_POLICY j = false ∧ (st s ≠ 6 → st t = st s) ∧
        (st s = 6 → st t = 4 ∧ (t.sp j).since = s.now))

/-- The auxiliary synthesizers and the CLKOUT pairs (R221 to R224).
The model's choices in it: log entries 40, 41, 42, 73, 82. -/
def Obligations.Synthesizers : Prop :=
  ∀ (i : Fin 2) (j : Fin 8) (q : Requester) (w : Word) (s : State),
    let x := s.aux i
    let ramp := fun (t : State) => t.f F.AUX_STATUS_RAMP i
    let start := s.at F.AUX_START_SEC_SEC F.AUX_START_FRAC_FRAC i
    let legal := auxLegal (s.rw .AUX_FREQ i).toNat = true
    let p := s.f F.AUX_STATUS_PT i
    (let u := s.wrote .AUX_CTL i 0 (force w 8 8 1)
     Admits s q .AUX_CTL i 0 (force w 8 8 1) → bit w.toNat 9 = false → s.on F.AUX_CTL_EN i = true → u.on F.AUX_CTL_EN i = true →
      (legal → u.f F.AUX_CTL_ADIV i ≤ 4 → s.f F.AUX_STATUS_STATE i ≠ 0 →
        Gives (exec (.auxRetune i q w) s) fun t => (t.aux i).word = nWord (s.rw .AUX_FREQ i).toNat ∧
        (t.aux i).adiv = u.f F.AUX_CTL_ADIV i ∧ t.f F.AUX_STATUS_STATE i = 1 ∧ ramp t = 0) ∧
      ((¬ legal ∨ 4 < u.f F.AUX_CTL_ADIV i) → u.f F.AUX_CTL_RMODE i ≠ 0 → Gives (exec (.auxRetune i q w) s) fun t =>
        t.aux i = x ∧ t.rw .AUX_STATUS i = s.rw .AUX_STATUS i)) ∧
    (let u := s.wrote .AUX_CTL i 0 (force w 9 9 1)
     Admits s q .AUX_CTL i 0 (force w 9 9 1) → bit w.toNat 8 = false → s.on F.AUX_CTL_EN i = true → u.on F.AUX_CTL_EN i = true →
      u.f F.AUX_CTL_RMODE i ≠ 0 →
      (u.rampLegal i = true → s.now ≤ start → Gives (exec (.auxArm i q w) s) fun t => ramp t = 1 ∧ (t.aux i).start = start) ∧
      (u.rampLegal i = true → start < s.now → Gives (exec (.auxArm i q w) s) fun t =>
        2 ≤ ramp t ∧ t.on F.AUX_STATUS_RAMP_LATE i = true ∧ (t.aux i).word = s.auxPoint i 0) ∧
      (u.rampLegal i = false → Gives (exec (.auxArm i q w) s) fun t =>
        ramp t = ramp s ∧ t.on F.AUX_STATUS_RAMP_ERR i = true ∧ t.aux i = x)) ∧
    (s.frozen (70 + i) = true → exec (.auxRampStart i) s = .next s ∧ exec (.auxRampPoint i) s = .next s) ∧
    (ramp s = 1 → s.frozen (70 + i) = false → Gives (exec (.auxRampStart i) s) fun t => Reached s t x.start ∧ (t.aux i).word = s.auxPoint i 0 ∧
      ramp t = (if s.f F.AUX_CTL_NPTS i = 0 ∧ s.f F.AUX_CTL_RMODE i ≠ 2 then 3 else 2) ∧
      t.f F.AUX_STATUS_PT i = min 1 (s.f F.AUX_CTL_NPTS i)) ∧
    (ramp s = 2 → s.frozen (70 + i) = false → Gives (exec (.auxRampPoint i) s) fun t => Reached s t (x.segStart + s.segDur i) ∧
      (t.aux i).word = s.auxPoint i p ∧
      (s.f F.AUX_CTL_RMODE i = 1 → p = s.f F.AUX_CTL_NPTS i → ramp t = 3) ∧
      (s.f F.AUX_CTL_RMODE i = 1 → p < s.f F.AUX_CTL_NPTS i → ramp t = 2 ∧ t.f F.AUX_STATUS_PT i = p + 1) ∧
      (s.f F.AUX_CTL_RMODE i = 2 → p = s.f F.AUX_CTL_NPTS i → ramp t = 2 ∧ t.f F.AUX_STATUS_PT i = 0)) ∧
    (Admits s q .AUX_CTL i 0 (force w 5 4 0) → bit w.toNat 8 = false → bit w.toNat 9 = false → s.on F.AUX_CTL_EN i = true →
      (s.wrote .AUX_CTL i 0 (force w 5 4 0)).on F.AUX_CTL_EN i = true → Gives (exec (.auxRampStop i q w) s) fun t =>
        ramp t = 0 ∧ t.f F.AUX_CTL_RMODE i = 0 ∧ t.f F.AUX_STATUS_STATE i = s.f F.AUX_STATUS_STATE i ∧
        (t.aux i).word = s.auxWordAt i s.now ∧ (t.aux i).adiv = x.adiv) ∧
    (s.f F.AUX_STATUS_STATE i = 1 → Gives (exec (.auxLockDeclared i) s) fun t => Reached s t (x.acq + comparisons 1024) ∧
      t.f F.AUX_STATUS_STATE i = 2 ∧ (t.aux i).held = false ∧ bit (t.f F.CLK_REF_STATUS_AUX_LOCKED) i = true) ∧
    (s.f F.AUX_STATUS_STATE i = 2 → Gives (exec (.auxLossOfLock i) s) fun t =>
      t.f F.AUX_STATUS_STATE i = 3 ∧ bit (t.f F.CLK_REF_STATUS_AUX_LOCKED) i = false) ∧
    (Admits s q .CO_CFG j 0 (force w 0 0 1) →
      (s.coLegal w.toNat = true → Gives (exec (.coEnable j q w) s) fun t => (t.clkout j).running = true ∧
        t.on F.CO_CFG_EN j = true ∧ t.f F.CO_CFG_SRC j = bits w.toNat 7 4 ∧ t.f F.CO_CFG_DIV_M1 j = bits w.toNat 27 16) ∧
      (s.coLegal w.toNat = false → Gives (exec (.coEnable j q w) s) fun t => t.clkout j = s.clkout j ∧
        t.on F.CO_CFG_ERR j = true ∧ t.f F.CO_CFG_SRC j = s.f F.CO_CFG_SRC j)) ∧
    Gives (exec (.coDlyApply j) s) fun t => (t.clkout j).dlyC = s.f F.CO_DLY_DLY_C j ∧ (t.clkout j).dlyF = s.f F.CO_DLY_DLY_F j ∧
      (t.clkout j).running = (s.clkout j).running ∧ SameWords s t

/-! ### Device time (chapter 11) -/

/-- SET, SET_AT_PPS, ADJ, ALIGN_PPS, TIME_STEP and CANCEL (R230, R231, R236): DTIME is set or moved by the argument or by REMAIN, the forms
tied to PPS_IN wait, and a command that does not apply is refused with its code.
The model's choices in it: log entries 42, 60, 82. -/
def Obligations.TimeCommands : Prop :=
  ∀ (q : Requester) (w : Word) (s : State),
    let word := fun (op : Nat) => force (force w 3 0 op) 63 63 1
    let may := fun (op : Nat) => Admits s q .TM_CMD 0 0 (word op)
    let arg := s.timeArg
    let idle := s.time.ppsWait = none
    let waits := fun (align : Bool) (t : State) => t.time.ppsWait = some ⟨align, s.f F.TM_ARG_SEC_SEC, s.now⟩ ∧
      t.on F.TM_CMD_GO = true ∧ t.time.dtime = s.time.dtime
    let refused := fun (code : Nat) (t : State) => t.f F.TM_STATUS_CMD_CODE = code ∧ t.on F.TM_STATUS_CMD_ERR = true ∧ t.time = s.time
    (may 0 → idle → s.servoOwns = false → Gives (exec (.set q w) s) fun t => t.now = arg ∧
      (arg ≠ s.now → t.on F.TM_STATUS_STEPPED = true ∧ ∀ j : Fin 4, s.f F.SP_STATUS_STATE j = 4 → t.f F.SP_STATUS_STATE j = 3)) ∧
    (may 1 → idle → s.servoOwns = false → Gives (exec (.setAtPps q w) s) (waits false)) ∧
    (may 2 → idle → s.servoOwns = false → Gives (exec (.adj q w) s) fun t => t.now = wrap 96 (s.now + signed 96 arg)) ∧
    (may 3 → idle → s.servoOwns = false → Gives (exec (.alignPps q w) s) (waits true)) ∧
    (may 0 → idle → s.servoOwns = true → Gives (exec (.set q w) s) (refused 6)) ∧
    (may 2 → idle → s.servoOwns = true → Gives (exec (.adj q w) s) (refused 6)) ∧
    (may 0 → ¬ idle → Gives (exec (.set q w) s) (refused 2)) ∧
    (may 4 → idle → s.remain = 0 → Gives (exec (.timeStep q w) s) (refused 3)) ∧
    (may 4 → idle → s.remain ≠ 0 → s.f F.CLK_REF_STATUS_STATE ≠ 2 → Gives (exec (.timeStep q w) s) (refused 4)) ∧
    (may 4 → idle → s.remain ≠ 0 → s.f F.CLK_REF_STATUS_STATE = 2 → Gives (exec (.timeStep q w) s) fun t =>
      t.remain = 0 ∧ t.now = wrap 96 (s.now + s.foldSlew.remain)) ∧
    (may 5 → ¬ idle → Gives (exec (.cancel q w) s) fun t =>
      t.time.ppsWait = none ∧ t.on F.TM_CMD_GO = false ∧ t.time.dtime = s.time.dtime) ∧
    (may 5 → idle → Gives (exec (.cancel q w) s) fun t => t.remain = 0 ∧ t.build = s.foldSlew.build ∧ t.time.dtime = s.time.dtime)

/-- PPS_CMD_TIMEOUT, PPS_IN_EDGE, PPS_MISS, TM_NOW_READ, SECOND, SLEW_COMPLETE and HO_POLICY_WRITE (R191, R229, R230, R232, R236, R237).
The model's choices in it: log entries 19, 31, 60, 82. -/
def Obligations.TimeEvents : Prop :=
  ∀ (q : Requester) (w : Word) (t0 l : Nat) (p : PpsWait) (rising : Bool) (s : State),
    let ts : Int := (t0 : Int) - signed 32 (s.f F.TM_PPS_CFG_COMP) * 256
    let taken := t0 < 2 ^ 96 ∧ s.on F.TM_PPS_CFG_EN = true ∧ rising = !s.on F.TM_PPS_CFG_EDGE
    let n := s.time.nextSecond
    let rate := s.f F.TM_HO_CFG_SLEW_RATE
    (s.time.ppsWait = some p → Gives (exec .ppsCmdTimeout s) fun t => Reached s t (p.written + 2 * second) ∧ t.time.ppsWait = none ∧
      t.on F.TM_CMD_GO = false ∧ t.f F.TM_STATUS_CMD_CODE = 5 ∧ t.on F.TM_STATUS_CMD_ERR = true) ∧
    (taken → s.time.ppsWait = none → Gives (exec (.ppsInEdge t0 rising) s) fun t => Reached s t t0 ∧
      t.at F.TM_PPS_SEC_SEC F.TM_PPS_FRAC_FRAC = wrap 96 ts ∧ t.f F.TM_PPS_SEC_ESEQ = (s.f F.TM_PPS_SEC_ESEQ + 1) % 2 ^ 16 ∧
      t.time.ppsLast = some (wrap 96 ts) ∧ FiredAt s t 625 t0) ∧
    (taken → s.time.ppsWait = some p → p.align = false → (second : Int) ≤ (ts - p.written) * 100000 →
      Gives (exec (.ppsInEdge t0 rising) s) fun t => t.time.ppsWait = none ∧
        t.now = wrap 96 ((s.reach t0).now + ((p.arg * second : Nat) - ts))) ∧
    (s.time.ppsLast = some l → s.on F.TM_STATUS_PPS_VALID = true → Gives (exec .ppsMiss s) fun t =>
      Reached s t (s.time.ppsEdge + 10001 * second / 10000) ∧ t.on F.TM_STATUS_PPS_MISS = true ∧ t.on F.TM_STATUS_PPS_VALID = false) ∧
    (s.answers q 0x30000 = true → s.access (s.level q) (regionOf 0x30000) ≠ 0 → s.readShadow q = none → s.writeShadow q = none →
      Gives (exec (.tmNowRead q .full) s) fun t => sget (fun _ => 0) t.bus.got (reqCode q) = BitVec.ofNat 64 (s.now / second) ∧
        sget (fun _ => 0) t.time.latches (reqCode q) = BitVec.ofNat 64 (s.now % second) ∧ SameWords s t) ∧
    Gives (exec .second s) (fun t => Reached s t (n * second) ∧ t.time.nextSecond = n + 1 ∧ FiredAt s t 626 (n * second) ∧
      SameWords s t) ∧
    (s.on F.TM_STATUS_SLEWING = true → rate ≠ 0 → Gives (exec .slewComplete s) fun t =>
      Reached s t (s.time.slewSince + (s.remain.natAbs * 10 ^ 15 + rate - 1) / rate) ∧ t.remain = 0 ∧
      t.on F.TM_STATUS_SLEWING = false ∧ t.f F.TM_HO_BUILD_BUILD = wrap 64 (s.build - s.remain)) ∧
    (Admits s q .TM_HO_CFG 0 0 w → Gives (exec (.hoPolicyWrite q w) s) fun t => t.rw .TM_HO_CFG = w ∧
      (bits w.toNat 1 0 = 0 → t.remain = 0) ∧ t.time.dtime = s.time.dtime)

/-- DTIME and PTP timestamps convert both ways rounding down, so that there and back is never later, and an offset is added modulo 2^96
(R228). -/
def Obligations.PtpTimestamps : Prop :=
  (∀ t : Nat, let p := ptpOfDtime t
    p.1 = t / 2 ^ 48 ∧ p.2.1 = t % 2 ^ 48 * 10 ^ 9 / 2 ^ 48 ∧ p.2.2 = t % 2 ^ 48 * 10 ^ 9 * 2 ^ 16 / 2 ^ 48 % 2 ^ 16 ∧ p.2.1 < 10 ^ 9 ∧
      dtimeOfPtp p.1 p.2.1 p.2.2 ≤ t) ∧
  (∀ sec ns sub : Nat, let t := dtimeOfPtp sec ns sub
    t = sec * 2 ^ 48 + (ns * 2 ^ 16 + sub) * 2 ^ 48 / (10 ^ 9 * 2 ^ 16) ∧
      (ns < 10 ^ 9 → sub < 2 ^ 16 → (ptpOfDtime t).1 = sec ∧ (ptpOfDtime t).2.1 * 2 ^ 16 + (ptpOfDtime t).2.2 ≤ ns * 2 ^ 16 + sub)) ∧
  (∀ (s : State) (d : Int), ((s.stepTime d).now : Int) = (s.now + d) % 2 ^ 96)

/-- What a port of the time service receives (R238 to R241): Sync, Follow_Up, Delay_Req, Delay_Resp, Announce, Management, and the end of
announceReceiptTimeout.
The model's choices in it: log entries 16, 17, 84. -/
def Obligations.PtpReceives : Prop :=
  ∀ (h : PtpHead) (get : Bool) (origin t4 : PtpTime) (t0 : Nat) (z : TwoStep) (t3 : Int) (prio1 cls acc prio2 : BitVec 8)
    (var steps : BitVec 16) (gm : BitVec 64) (s : State), s.ptpTakes h = true → t0 < 2 ^ 96 →
    let corr := subnsUnits h.corr.toInt
    let t2 := s.rxStamp h.port t0 - corr - s.asymmetry h.port
    let mpd := signed 64 (s.f F.PTP_MPD_MPD)
    let sent := fun (t : State) (f : PtpFrame) => t.time.ptp.sent = s.time.ptp.sent ++ [f]
    (s.portState h.port = 9 → Gives (exec (.ptpSyncRx h true origin t0) s) fun t => Reached s t t0 ∧
      t.time.ptp.waiting = some ⟨h.port, h.seq.toNat, t2⟩) ∧
    (s.portState h.port = 9 → Gives (exec (.ptpSyncRx h false origin t0) s) fun t =>
      t.f F.PTP_OFFSET_OFFSET = wrap 64 (t2 - ptpDtime origin - mpd)) ∧
    (s.time.ptp.waiting = some z → z.port = h.port → z.seq = h.seq.toNat → Gives (exec (.ptpFollowUpRx h origin) s) fun t =>
      t.f F.PTP_OFFSET_OFFSET = wrap 64 (z.t2 - corr - ptpDtime origin - mpd) ∧ t.time.ptp.waiting = none) ∧
    (s.portState h.port = 6 → s.ethSends (h.port.val + 1) = true → Gives (exec (.ptpDelayReqRx h t0) s) fun t => Reached s t t0 ∧
      sent t { port := h.port, kind := .delayResp, seq := h.seq.toNat, time := s.rxStamp h.port t0 }) ∧
    (s.portState h.port = 9 → s.time.ptp.reqTime = some t3 → s.time.ptp.reqSeq = h.seq.toNat →
      Gives (exec (.ptpDelayRespRx h t4) s) fun t => t.time.ptp.reqTime = none ∧
        t.f F.PTP_MPD_MPD = wrap 64 ((s.time.ptp.t2 - s.time.ptp.t1 + (ptpDtime t4 - t3 - corr + s.asymmetry h.port)) / 2)) ∧
    (2 ≤ s.f F.PTP_CFG_ROLE → s.on F.PTP_PORT_TX_ONLY h.port = false → s.time.ptp.parent = none →
      Gives (exec (.ptpAnnounceRx h prio1 cls acc var prio2 gm steps) s) fun t =>
        (∃ y, t.time.ptp.parent = some y ∧ y.port = h.port) ∧ t.portState h.port = 9 ∧ t.f F.PTP_STAT_CLASS = cls.toNat ∧
        t.f F.PTP_STAT_ACC = acc.toNat ∧ t.f F.PTP_STAT_STEPS = (steps.toNat + 1) % 2 ^ 16) ∧
    (s.ethSends (h.port.val + 1) = true → Gives (exec (.ptpManagementRx h get) s) fun t =>
      sent t { port := h.port, kind := if get then .managed else .refused, seq := h.seq.toNat }) ∧
    (s.time.ptp.parent ≠ none → Gives (exec .ptpAnnounceTimeout s) fun t =>
      Reached s t (s.time.ptp.annAt + s.f F.PTP_CFG_ANN_TMO * logSeconds s.logAnn) ∧ t.time.ptp.parent = none ∧ t.f F.PTP_STAT_RX_PORT = 0 ∧
      ((s.f F.PTP_STAT_SERVO = 1 ∨ s.f F.PTP_STAT_SERVO = 2) → t.f F.PTP_STAT_SERVO = 3 ∧ FiredAt s t 630 t.now))

/-- What a port sends, and cable-delay measurements (R238, R241, R242, R272).
The model's choices in it: log entries 43, 50, 82, 84. -/
def Obligations.PtpSendsAndCable : Prop :=
  ∀ (i : Fin 4) (q : Requester) (w : Word) (t0 o : Nat) (t1 t2 t3 : BitVec 64) (s : State), t0 < 2 ^ 96 →
    let x := s.cable i
    let n := fun (kind : Nat) => sget (fun _ => 0) s.time.ptp.seqs (4 * i.val + kind)
    let sent := fun (t : State) (fs : List PtpFrame) => t.time.ptp.sent = s.time.ptp.sent ++ fs
    let cdx := fun (t : State) (a b c : BitVec 64) => (t.port (i + 1)).sent = (s.port (i + 1)).sent ++ [.cdx a b c]
    let out := (s.txStamp i t0).toNat
    let hears := s.receives (i + 1) = true ∧ (s.on F.ETH_CFG_IP4_EN i = true ∨ s.on F.ETH_CFG_IP6_EN i = true)
    let due := fun (t : State) (kind : Nat) (l : Int) => match s.time.ptp.sentAt.find? fun p => p.1 == 4 * i.val + kind with
      | some p => Reached s t (p.2 + logSeconds l)
      | none => t.now = s.now
    (s.ethSends (i.val + 1) = true →
      (s.ptpRuns = true → s.portState i = 6 → Gives (exec (.ptpSyncTx i) s) fun t => due t 0 s.logSync ∧
        if s.on F.PTP_PORT_ONESTEP i then sent t [{ port := i, kind := .sync, seq := n 0, time := s.txStamp i t.now }]
        else sent t [{ port := i, kind := .sync, seq := n 0 }, { port := i, kind := .followUp, seq := n 0, time := s.txStamp i t.now }]) ∧
      (s.ptpRuns = true → s.portState i = 6 → s.f F.PTP_STAT_RX_PORT = 0 → Gives (exec (.ptpAnnounceTx i) s) fun t =>
        due t 1 s.logAnn ∧ t.f F.PTP_STAT_STEPS = 0 ∧ ∃ f : PtpFrame, sent t [f] ∧ f.kind = .announce ∧ f.seq = n 1 ∧
          f.cls = s.clockClass ∧ f.acc = s.clockAccuracy ∧ f.traceable = (s.clockClass == 6 || s.clockClass == 7) ∧
          f.props = s.timeProps) ∧
      (s.ptpRuns = true → s.portState i = 9 → Gives (exec (.ptpDelayReqTx i) s) fun t => due t 2 s.logDreq ∧
        sent t [{ port := i, kind := .delayReq, seq := n 2 }] ∧ t.time.ptp.reqTime = some (s.txStamp i t.now) ∧ t.time.ptp.reqSeq = n 2) ∧
      (s.boot.running = true → s.on F.CD_STAT_BUSY i = true → s.f F.CD_CFG_METHOD i < 2 → x.begun < s.cableN i →
        Gives (exec (.cdExchangeTx i t0) s) fun t =>
        let out := (s.txStamp i (max t0 x.next)).toNat
        Reached s t (max t0 x.next) ∧ (t.cable i).begun = x.begun + 1 ∧ (t.cable i).outs = x.outs ++ [out] ∧
        (t.cable i).next = max t0 x.next + (20 * second + 999999) / 1000000 ∧ cdx t (BitVec.ofNat 64 (out % second)) 0 0) ∧
      (hears → x.outs.find? (fun y => y % second == t1.toNat) = none → s.on F.ETH_CFG_CD_RESP i = true →
        Gives (exec (.cdxRx i t1 t2 t3 t0) s) fun t => t.cable i = x ∧ cdx t t1
          (BitVec.ofNat 64 ((s.rxStamp i t0).toNat % second)) (BitVec.ofNat 64 (out % second)))) ∧
    (hears → x.outs.find? (fun y => y % second == t1.toNat) = some o → Gives (exec (.cdxRx i t1 t2 t3 t0) s) fun t => Reached s t t0 ∧
      (t.cable i).done = x.done + 1 ∧ (t.cable i).outs = x.outs.erase o ∧
      (t.cable i).sum = x.sum + (s.rxStamp i t0 - o) - (if s.f F.CD_CFG_METHOD i = 1 then turnaround t2 t3 else 0)) ∧
    (Admits s q .CD_CFG i 0 (force w 0 0 1) → bit w.toNat 1 = false → s.on F.CD_STAT_BUSY i = false →
      Gives (exec (.cdStart i q w) s) fun t => t.on F.CD_STAT_BUSY i = true ∧
        t.cable i = { repeating := bits w.toNat 63 32 != 0, start := s.now, next := s.now }) ∧
    (Admits s q .CD_CFG i 0 (force w 1 1 1) → bit w.toNat 0 = false → Gives (exec (.cdStop i q w) s) fun t =>
      t.cable i = { x with repeating := false } ∧ t.on F.CD_STAT_BUSY i = s.on F.CD_STAT_BUSY i) ∧
    (s.boot.running = true → x.repeating = true → s.on F.CD_STAT_BUSY i = false → s.on F.CD_CFG_PERIOD i = true →
      Gives (exec (.cdRepeat i) s) fun t =>
      Reached s t (x.start + (s.f F.CD_CFG_PERIOD i * second + 999) / 1000) ∧ t.on F.CD_STAT_BUSY i = true ∧
      t.cable i = { repeating := true, start := t.now, next := t.now }) ∧
    (s.boot.running = true → s.on F.CD_STAT_BUSY i = true → s.f F.CD_CFG_METHOD i ≠ 2 →
      (s.cableN i ≤ x.done → x.failed = false → s.f F.CD_CFG_SPREAD_MAX i = 0 → Gives (exec (.cdResult i) s) fun t =>
        t.on F.CD_STAT_BUSY i = false ∧ t.f F.CD_RES_DELAY_FS i = wrap 64 (s.cableDelay i) ∧
        t.f F.CD_STAT_NRES i = (s.f F.CD_STAT_NRES i + 1) % 2 ^ 16) ∧
      (x.failed = true → Gives (exec (.cdResult i) s) fun t => t.on F.CD_STAT_BUSY i = false ∧ t.on F.CD_STAT_FAIL i = true ∧
        t.f F.CD_RES_DELAY_FS i = s.f F.CD_RES_DELAY_FS i))

/-! ### Memory (chapter 12) -/

/-- BAR2_ACCESS and BAR4_ACCESS (R246, R251, R265, R334, R341): a write that protection lets pass stores its enabled bytes, a read returns the
word, an offset out of range is BAR_OOR and reads 0, and a refused access is recorded. While the DRAM PLL is unlocked an access through
BAR4 waits (R360).
The model's choices in it: log entries 5, 85. -/
def Obligations.MemoryWindows : Prop :=
  (∀ (four : Bool) (x2 : BitVec 27) (x4 : BitVec 32) (be : BitVec 8) (data : Word) (e : Ecc) (s : State),
    s.resting = false → s.dozing = false → (four = true → s.mem.pllLost = none) →
    let r := fun (write : Bool) => if four then exec (.bar4Access write x4 be data e) s else exec (.bar2Access write x2 be data e) s
    let level := s.access (s.level .port0) (if four then 89 else 88)
    let addr := s.barAddr four ((if four then x4.toNat else x2.toNat) / 8 * 8)
    let got := fun (t : State) => sget (fun _ => 0) t.bus.got 0
    let keeps := fun (t : State) => t.sram = s.sram ∧ t.dram = s.dram
    (∀ a, addr = some a → level = 2 → s.boot.running = true →
      (be = 255#8 → Gives (r true) fun t => t.readWord four a = data ∧ t.poisoned four a = false) ∧
      (be ≠ 255#8 → be ≠ 0#8 → Gives (r true) fun t => t.readWord four a = mergeBytes be data (s.readWord four a) ∧
        t.poisoned four a = (foundEcc four (s.poisoned four a) e).bad) ∧
      Gives (r true) fun t => (∀ y, (y < a ∨ a + 8 ≤ y) → t.byte four y = s.byte four y) ∧ ∀ y, t.byte (!four) y = s.byte (!four) y) ∧
    (∀ a, addr = some a → level ≠ 0 → Gives (r false) fun t => got t = s.readWord four a ∧ keeps t) ∧
    (addr = none → level = 2 → s.boot.running = true → Gives (r true) fun t => t.on F.MEM_STATUS_BAR_OOR = true ∧ keeps t) ∧
    (addr = none → level ≠ 0 → Gives (r false) fun t => t.on F.MEM_STATUS_BAR_OOR = true ∧ got t = 0 ∧ keeps t) ∧
    (level ≠ 2 → Gives (r true) fun t => bit (t.rw .PROT_LAST).toNat 63 = true ∧ keeps t) ∧
    (level = 0 → Gives (r false) fun t => bit (t.rw .PROT_LAST).toNat 63 = true ∧ got t = 0 ∧ keeps t)) ∧
  (∀ (write : Bool) (x4 : BitVec 32) (be : BitVec 8) (data : Word) (e : Ecc) (s : State), s.resting = false → s.dozing = false →
    s.mem.pllLost ≠ none → s.access (s.level .port0) 89 = 2 →
    Gives (exec (.bar4Access write x4 be data e) s) fun t => t.mem.held = s.mem.held ++ [⟨write, x4.toNat, be, data, e⟩] ∧
      t.dram = s.dram ∧ t.sram = s.sram ∧ t.regs = s.regs)

/-- MEM_POOL_WRITE, MEM_CFG_WRITE, BANK_FILL_DONE, SCRUB_STEP, TREFI_TICK and REFRESH_SET_DONE (R246, R252, R253, R261, R349).
The model's choices in it: log entries 44, 78, 85. -/
def Obligations.MemoryUpkeep : Prop :=
  ∀ (q : Requester) (w : Word) (g : Fin 8) (d b rank urgent : Bool) (tick : RankTick) (a : BitVec 37) (e : Ecc) (c : Fin 4)
    (s : State),
    let free := ∀ p ∈ s.buffers, p.2.life = .free
    let off := ∀ c : Fin 4, s.ddr c = 0
    let fills := fun (x : Nat) => sramBank x ∈ s.power.fills ∧ sramBank x / 6 = g.val
    let i := 4 * c.val + 2 * b.toNat + rank.toNat
    let most := s.f F.MEM_MAINT_MAX_POSTPONE
    let j := 4 * c.val + 2 * b.toNat + tick.rank.toNat
    let calm := s.mem.pllLost = none
    let paid := if tick.done = true ∧ calm then s.debt j - 1 else s.debt j
    let owed := max paid (min (paid + 1) (max 1 most))
    let preempts := fun (urgent : Bool) (debt : Nat) (t : State) =>
      (urgent = true → s.dramOrder (.refresh debt) = some 1 → t.f F.DDR_STAT_PREEMPT c = s.upped F.DDR_STAT_PREEMPT c) ∧
      ((urgent = false ∨ debt < most) → t.f F.DDR_STAT_PREEMPT c = s.f F.DDR_STAT_PREEMPT c)
    (Admits s q .MEM_POOL 0 0 w →
      (free → bits w.toNat 31 0 ≤ 24576 → Gives (exec (.memPoolWrite q w) s) fun t => t.rw .MEM_POOL = w) ∧
      ((¬ free ∨ 24576 < bits w.toNat 31 0) → Gives (exec (.memPoolWrite q w) s) fun t =>
        t.rw .MEM_POOL = s.rw .MEM_POOL ∧ t.on F.MEM_STATUS_POOL_ERR = true)) ∧
    (Admits s q .MEM_CFG 0 0 w →
      (off → Gives (exec (.memCfgWrite q w) s) fun t => t.rw .MEM_CFG = w ∧
        (bits w.toNat 1 0 ≠ 0 → s.dom (56 + c) = true → t.ddr c = 1)) ∧
      (bits w.toNat 1 0 ≠ s.f F.MEM_CFG_POP → ¬ off → Gives (exec (.memCfgWrite q w) s) fun t =>
        t.rw .MEM_CFG = s.rw .MEM_CFG ∧ t.on F.MEM_STATUS_CFG_ERR = true)) ∧
    Gives (exec (.bankFillDone g) s) (fun t => (∀ x, fills x → t.sramByte x = 0) ∧ (∀ x, ¬ fills x → t.sramByte x = s.sramByte x) ∧
      (∀ k, k ∈ t.power.fills ↔ k ∈ s.power.fills ∧ k / 6 ≠ g.val) ∧ t.dram = s.dram ∧ t.regs = s.regs) ∧
    ((if d then s.on F.MEM_SCRUB_DRAM_EN else s.on F.MEM_SCRUB_SRAM_EN) = true → a.toNat < (if d then s.dramBytes else sramBytes) →
      s.on F.PWR_STATUS_BO_ACTIVE = false → s.scrubEnd d = s → s.inService d a.toNat = true → (d, a.toNat / 64) ∉ s.mem.scrubbed →
        s.scrubDue d = true →
      (.scrub ∈ s.power.gov.tasks → (∀ y, y / 64 = a.toNat / 64 → s.poisoned d y = false) → Gives (exec (.scrubStep d a e) s) fun t =>
        t.sram = s.sram ∧ t.dram = s.dram ∧
        (e = .corrected → (if d then t.f F.MEM_ECC_CNT_DRAM_CE else t.f F.MEM_ECC_CNT_SRAM_CE) =
          s.upped (if d then F.MEM_ECC_CNT_DRAM_CE else F.MEM_ECC_CNT_SRAM_CE)) ∧
        (e = .uncorrected → s.on F.MEM_ECC_LOG_VALID = false → t.on F.MEM_ECC_LOG_VALID = true ∧
          t.f F.MEM_ECC_LOG_REQ = 6 ∧ t.f F.MEM_ECC_LOG_ADDR = a.toNat / 8 * 8)) ∧
      (.scrub ∉ s.power.gov.tasks → s.admits = false → Gives (exec (.scrubStep d a e) s) fun t =>
        .scrub ∈ t.power.gov.bg ∧ Outside 0x10108 0x10110 s t)) ∧
    (s.refreshes c tick.rank = true → Gives (exec (.trefiTick c b tick) s) fun t => t.debt j = owed ∧
      (calm → preempts tick.urgent owed t) ∧ (¬ calm → t.f F.DDR_STAT_PREEMPT c = s.f F.DDR_STAT_PREEMPT c)) ∧
    (s.debt i ≠ 0 → calm → Gives (exec (.refreshSetDone c b rank urgent) s) fun t => t.debt i = s.debt i - 1 ∧
      preempts urgent (s.debt i - 1) t) ∧
    (¬ calm → exec (.refreshSetDone c b rank urgent) s = .next s)

/-- Set-point changes, training, fills and the DRAM PLL, without whose lock no command is issued (R262 to R264, R360).
The model's choices in it: log entries 44, 85. -/
def Obligations.DramService : Prop :=
  ∀ (q : Requester) (w : Word) (c : Fin 4) (r : TrainRun) (slow : Bool) (lost : Nat) (s : State),
    let wf := force w 63 63 1
    let act := s.on F.MEM_STATUS_FREQ_ACT
    let step := s.f F.MEM_TRAIN_STAT_STEP
    let calm := s.mem.run = none ∧ s.mem.change = none ∧ s.mem.waits = []
    let begins := fun (t : State) (chans : List Nat) => t.mem.run = some ⟨false, chans, act⟩ ∧ t.f F.MEM_TRAIN_STAT_STEP = 1 ∧
      t.on F.MEM_TRAIN_STAT_RUNNING = true
    let refused := fun (code : Nat) => Gives (exec (.memFreqRequest q w) s) fun t =>
      t.f F.MEM_STATUS_FREQ_CODE = code ∧ t.on F.MEM_STATUS_FREQ_ERR = true ∧ t.mem = s.mem ∧ t.on F.MEM_STATUS_FREQ_ACT = act
    (Admits s q .MEM_FREQ 0 0 wf →
      (s.on F.MEM_CFG_POP = false → refused 1) ∧
      (s.on F.MEM_CFG_POP = true → s.on F.MEM_STATUS_FREQ_BUSY = true → refused 2) ∧
      (s.on F.MEM_CFG_POP = true → s.on F.MEM_STATUS_FREQ_BUSY = false → bit w.toNat 0 ≠ act →
        (s.on F.DRAM_BACKED_VOICES = true → s.untrainedFor (bit w.toNat 0) ≠ [] → refused 3) ∧
        (s.on F.DRAM_BACKED_VOICES = false → Gives (exec (.memFreqRequest q w) s) fun t =>
          t.on F.MEM_STATUS_FREQ_BUSY = true ∧ t.mem.change = some (bit w.toNat 0) ∧
          (s.on F.MEM_TRAIN_STAT_RUNNING = true → t.mem.hold = true ∧ t.ddr c = s.ddr c) ∧
          (s.on F.MEM_TRAIN_STAT_RUNNING = false → t.mem.hold = false ∧ (1 ≤ s.ddr c → s.ddr c ≤ 4 → t.ddr c = 6))))) ∧
    (s.mem.change = some slow → s.mem.hold = false → Gives (exec .freqChangeDone s) fun t =>
      t.on F.MEM_STATUS_FREQ_ACT = slow ∧ t.on F.MEM_STATUS_FREQ_BUSY = false ∧ t.mem.change = none ∧
      (s.mem.run = none → s.mem.waits = [] → s.mem.asked = none → s.ddr c = 6 → s.trained c slow = true → c.val ∈ s.mem.filled →
        t.ddr c = 4)) ∧
    (let u := s.wrote .MEM_TRAIN 0 0 wf
     let chans := (List.range 4).filter fun k => bit (u.f F.MEM_TRAIN_CH) k && s.ddr k == 4
     Admits s q .MEM_TRAIN 0 0 wf → s.mem.pllLost = none →
      (u.on F.MEM_TRAIN_KIND = false → s.on F.DRAM_BACKED_VOICES = true → Gives (exec (.memTrainRequest q w) s) fun t =>
        t.on F.MEM_TRAIN_STAT_REFUSED = true ∧ t.mem = s.mem) ∧
      (u.on F.MEM_TRAIN_KIND = true → u.on F.MEM_TRAIN_SETPT = act → calm → step = 0 → chans ≠ [] →
        Gives (exec (.memTrainRequest q w) s) fun t => begins t chans)) ∧
    (s.ddr c = 4 → calm → step = 0 → s.mem.pllLost = none → Gives (exec (.periodicTrain c) s) fun t => begins t [c.val]) ∧
    (s.mem.pllLost ≠ none → exec (.trainStepDone slow) s = .next s ∧ exec (.dramFillDone c) s = .next s) ∧
    (s.mem.run = some r → s.mem.pllLost = none → 1 ≤ step → s.mem.hold = true → Gives (exec (.trainStepDone true) s) fun t =>
      t.on F.MEM_TRAIN_STAT_FAIL = true ∧ t.on F.MEM_TRAIN_STAT_ABORTED = true ∧ t.mem.asked = some r) ∧
    (s.mem.run = some r → s.mem.pllLost = none → r.full = true → (∀ k ∈ r.chans, k < 4) → s.mem.hold = false → s.on F.PWR_STATUS_BO_ACTIVE = false →
      (1 ≤ step → step < 8 → Gives (exec (.trainStepDone false) s) fun t => t.f F.MEM_TRAIN_STAT_STEP = step + 1 ∧ t.mem = s.mem) ∧
      (step = 8 → s.mem.waits = [] → Gives (exec (.trainStepDone false) s) fun t => t.f F.MEM_TRAIN_STAT_STEP = 0 ∧
        t.on F.MEM_TRAIN_STAT_RUNNING = false ∧ t.mem.run = none ∧ (c.val ∈ r.chans → t.trained c r.slow = true)) ∧
      (1 ≤ step → s.mem.waits = [] → Gives (exec (.trainStepDone true) s) fun t => t.on F.MEM_TRAIN_STAT_FAIL = true ∧
        t.on F.MEM_TRAIN_STAT_RUNNING = false ∧ t.mem.run = none ∧ t.f F.DDR_STAT_TRAINED c = s.f F.DDR_STAT_TRAINED c)) ∧
    (s.ddr c = 3 → s.mem.pllLost = none → Gives (exec (.dramFillDone c) s) fun t => t.ddr c = 4 ∧ c.val ∈ t.mem.filled ∧ t.sram = s.sram ∧
      (∀ x, dramChannel x = c.val → t.dramByte x = 0) ∧ (∀ x, dramChannel x ≠ c.val → t.dramByte x = s.dramByte x)) ∧
    (s.on F.CLK_REF_STATUS_DRAM_LOCK = true → Gives (exec .dramPllUnlock s) fun t =>
      t.on F.CLK_REF_STATUS_DRAM_LOCK = false ∧ t.mem.pllLost = some s.now ∧ t.dram = s.dram) ∧
    (s.mem.pllLost = some lost → s.mem.held = [] → (s.now - lost) * 100000 ≤ second → Gives (exec .dramPllRelock s) fun t =>
      t.on F.CLK_REF_STATUS_DRAM_LOCK = true ∧ t.mem.pllLost = none ∧ t.dram = s.dram) ∧
    (s.mem.pllLost = some lost → s.mem.held = [] → second < (s.now - lost) * 100000 → s.mem.run = none → s.mem.waits = [] →
      Gives (exec .dramPllRelock s) fun t =>
      t.on F.CLK_REF_STATUS_DRAM_LOCK = true ∧ t.mem.pllLost = none ∧ (1 < s.ddr c → t.mem.losses = s.mem.losses + 1) ∧
      (s.ddr c ≠ 0 → t.ddr c = 1))

/-- Device memory has one place for each byte, HASH or not (R254, R255): two addresses below the DRAM size lie apart. A request is cut into visits of
at most 256 bytes that stay in one 256-byte block and together are the request (R255, R260). Urgency does not fall as the deadline nears
(R258); a refresh at MAX_POSTPONE is served before everything else, and within one order two different visits are served one before the
other (R259). An SRAM bank with waiting requests serves one of them that no other comes before, by class and then by deadline or arrival
(R247). -/
def Obligations.DramPlacesAndOrder : Prop :=
  (∀ (a b : Nat) (s : State), a < s.dramBytes → b < s.dramBytes → s.dramPlace a = s.dramPlace b → a = b) ∧
  (∀ a n fuel : Nat, n + 255 ≤ 256 * fuel →
    ((visits a n fuel).map (·.2)).sum = n ∧
    ∀ v ∈ visits a n fuel, 0 < v.2 ∧ v.1 % 256 + v.2 ≤ 256 ∧ a ≤ v.1 ∧ v.1 + v.2 ≤ a + n) ∧
  (∀ t r r' : Int, 0 ≤ t → r ≤ r' → portUrgency t r' ≤ portUrgency t r) ∧
  (∀ (work : DramWork) (o debt : Nat) (s : State), s.dramOrder work = some o →
    1 ≤ o ∧ (debt ≠ 0 → s.f F.MEM_MAINT_MAX_POSTPONE ≤ debt → s.dramOrder (.refresh debt) = some 1) ∧
    (o = 1 → ∃ d, work = .refresh d ∧ s.f F.MEM_MAINT_MAX_POSTPONE ≤ d)) ∧
  (∀ x y z : DramVisit, (x.before y = true → y.before z = true → x.before z = true) ∧ x.before x = false ∧
    (x ≠ y → x.before y = true ∨ y.before x = true)) ∧
  (∀ (a : BankRequest) (l : List BankRequest), ∃ b, bankNext (a :: l) = some b ∧ b ∈ a :: l ∧ ∀ c ∈ a :: l, c.before b = false)

/-! ### Ports (chapter 13) -/

/-- PING, OPEN, JOURNAL_READ and NOTE_READ execute on arrival, outside the sequence (R275, R279, R281); an opcode that Table: MLP commands
does not hold, or FLAGS.OOB that is not as that table has it, is answered OPCODE (R275).
The model's choices in it: log entries 45, 48. -/
def Obligations.OutOfBandCommands : Prop :=
  (∀ (p : Fin 5) (h : MlpHead) (code : BitVec 16) (mask : BitVec 32) (s : State), Quiet s p h →
    (code.toNat ∉ mlpCodes → Gives (exec (.ping p { h with code := some code }) s) fun t =>
      Answered s t p (oobReply s p h code.toNat 3 []) ∧ (t.port p).held = (s.port p).held) ∧
    (h.oob = false → Gives (exec (.ping p h) s) fun t => Answered s t p (oobReply s p h 1 3 [])) ∧
    (h.oob = true → Gives (exec (.noteCfg p h mask) s) fun t => Answered s t p (oobReply s p h 0x40 3 []) ∧
      t.f F.PRT_SEQ_NEXT_HSN p = s.f F.PRT_SEQ_NEXT_HSN p ∧ (t.port p).mask = (s.port p).mask)) ∧
  (∀ (p : Fin 5) (h : MlpHead) (first count : BitVec 32) (s : State), Quiet s p h → h.oob = true →
    let reply := fun (t : State) (op status : Nat) (payload : List Byte) => Answered s t p (oobReply s p h op status payload)
    let entries := s.link.journal.countP fun e => decide ((e.eseq + 2 ^ 32 - first.toNat) % 2 ^ 32 < count.toNat)
    let notes := (s.port p).notes.countP fun m => decide ((m.dsn + 2 ^ 32 - first.toNat) % 2 ^ 32 < count.toNat)
    (Gives (exec (.ping p h) s) fun t => (∃ mid : List Byte, mid.length = 14 ∧
      reply t 1 0 (leBytes 2 (s.session p) ++ mid ++ leBytes 8 (s.now % second) ++ leBytes 8 (s.now / second))) ∧
      t.link.journal = s.link.journal ∧ (t.port p).held = (s.port p).held) ∧
    (Gives (exec (.open_ p h) s) fun t => t.session p = (s.session p + 1) % 2 ^ 16 ∧ (t.port p).opened = true ∧ (t.port p).held = [] ∧
      t.f F.PRT_SEQ_NEXT_HSN p = h.hsn.toNat ∧ (t.port p).mask = 6 ∧
      ∃ m, (t.port p).notes.head? = some m ∧ m.note = true ∧ m.code = 2 ∧ m.session = t.session p) ∧
    (1 ≤ count.toNat → count.toNat ≤ 32 → entries ≤ 32 → Gives (exec (.journalRead p h first count) s) fun t =>
      ∃ pl : List Byte, reply t 3 0 pl ∧ pl.length = 32 * entries) ∧
    ((count = 0 ∨ 32 < count.toNat) → Gives (exec (.journalRead p h first count) s) fun t => reply t 3 5 []) ∧
    (1 ≤ count.toNat → count.toNat ≤ 16 → notes ≤ 16 → Gives (exec (.noteRead p h first count) s) fun t =>
      ∃ pl : List Byte, reply t 4 0 pl ∧ pl.length = 64 * notes) ∧
    ((count = 0 ∨ 16 < count.toNat) → Gives (exec (.noteRead p h first count) s) fun t => reply t 4 5 []))

/-- REG_READ, REG_WRITE, MEM_READ, MEM_WRITE, IMAGE_LOAD, NOTE_CFG, PTP_DS_GET and PTP_DS_SET as the next command of their sequence
(R275, R278, R280): what they do, their status, and their response.
The model's choices in it: log entries 16, 46, 47. -/
def Obligations.SequencedCommands : Prop :=
  ∀ (p : Fin 5) (h : MlpHead) (off : BitVec 64) (r : Reg) (i j : Nat) (w : Word) (vals image : List Word) (addr len : BitVec 64)
    (dram : Bool) (e : Ecc) (c : Byte) (arm : Bool) (mask n : BitVec 32)
    (id : BitVec 16) (data : List Byte) (k : Fin 64) (x : Nat) (s : State),
    InTurn s p h →
    let q := portReq p
    let region : BitVec 64 := if dram then 1 else 0
    let good := s.spanGood region.toNat addr.toNat len.toNat = true
    let level := s.access (s.level q) (88 + region.toNat)
    let done := fun (op status : Nat) (payload : List Byte) (t : State) => Completed s t p h op status payload
    let kept := fun (t : State) => t.sram = s.sram ∧ t.dram = s.dram
    let ends := fun (t : State) (status : Nat) => ∃ payload, Completed s t 0 h 0x30 status payload
    (Reg.ofOffset off.toNat = some (r, i, j) → r ≠ .P0_CMD_IDX → r ≠ .LNK_JNL → r ≠ .LNK_JWIN → s.answers q off.toNat = true →
      off.toNat % 8 = 0 → s.access (s.level q) (regionOf off.toNat) ≠ 0 →
      Gives (exec (.regRead p h off 1 e) s) fun t =>
        done 0x10 0 (leBytes 8 (s.view q r i j).toNat) t ∧ kept t) ∧
    (runOk off.toNat n.toNat = true → Gives (exec (.regRead p h off n e) s) fun t => ∃ payload : List Byte,
      Completed s t p h 0x10 0 payload ∧ payload.length = 8 * n.toNat) ∧
    (off.toNat % 8 ≠ 0 → Gives (exec (.regRead p h off 1 e) s) fun t =>
        done 0x10 5 [] t ∧ t.dmem = s.dmem ∧ kept t) ∧
    (Admits s q .GLB_CFG 0 0 w → Gives (exec (.regWrite p h (BitVec.ofNat 64 (Reg.GLB_CFG.addr 0 0)) 1 [w] e) s) fun t =>
        done 0x11 0 (leBytes 4 0) t ∧
      t.rw .GLB_CFG = storedWord (Reg.spec .GLB_CFG) (s.rw .GLB_CFG) w) ∧
    (s.active = true → s.level q = 0 → s.power.entry = none → s.st k = 2 → 1 ≤ vals.length → vals.length ≤ 64 → x + vals.length ≤ 8192 →
      Gives (exec (.regWrite p h (BitVec.ofNat 64 (Reg.CORE_IMEM.addr k x)) (BitVec.ofNat 32 vals.length) vals e) s) fun t =>
        done 0x11 0 (leBytes 4 0) t ∧
        ∀ y < vals.length, t.rw .CORE_IMEM k (x + y) = vals.getD y 0) ∧
    (s.active = true → 0 < s.level q → Gives (exec (.regWrite p h (BitVec.ofNat 64 (Reg.GLB_ONCE.addr 0 0)) 1 [w] e) s) fun t =>
        done 0x11 0 (leBytes 4 1) t ∧
      t.rw .GLB_ONCE = s.rw .GLB_ONCE ∧ bit (t.rw .PROT_LAST).toNat 63 = true) ∧
    (vals.length ≠ 1 → Gives (exec (.regWrite p h 0 1 vals e) s) fun t =>
        done 0x11 4 [] t ∧ t.dmem = s.dmem ∧ kept t) ∧
    (good → level ≠ 0 → len.toNat ≤ 1024 → (∀ a, s.poisoned dram a = false) →
      (e.bad = false → Gives (exec (.memRead p h region addr len e) s) fun t =>
        done 0x20 0 ((List.range len.toNat).map fun x => s.byte dram (addr.toNat + x)) t ∧ kept t) ∧
      (e.bad = true → 8 ≤ len.toNat → Gives (exec (.memRead p h region addr len e) s) fun t =>
        done 0x20 9 ((List.range len.toNat).map fun x => s.byte dram (addr.toNat + x)) t ∧ kept t)) ∧
    (¬ good → Gives (exec (.memRead p h region addr len e) s) fun t =>
        done 0x20 5 [] t ∧ kept t) ∧
    (good → level = 2 → 8 * vals.length = len.toNat → Gives (exec (.memWrite p h region addr len vals) s) fun t =>
        done 0x21 0 [] t ∧
      (∀ x < vals.length, t.readWord dram (addr.toNat + 8 * x) = vals.getD x 0) ∧
      (∀ y, (y < addr.toNat ∨ addr.toNat + len.toNat ≤ y) → t.byte dram y = s.byte dram y) ∧ ∀ y, t.byte (!dram) y = s.byte (!dram) y) ∧
    (good → level ≠ 2 → 8 * vals.length = len.toNat → Gives (exec (.memWrite p h region addr len vals) s) fun t =>
        done 0x21 0 [] t ∧
      kept t ∧ bit (t.rw .PROT_LAST).toNat 63 = true) ∧
    (p = 0 → 64 ≤ c.toNat → Gives (exec (.imageLoad 0 h c arm image) s) fun t =>
        ends t 5 ∧ ∀ k, t.st k = s.st k) ∧
    (p = 0 → c.toNat < 64 → s.st c.toNat ≠ 2 → Gives (exec (.imageLoad 0 h c arm image) s) fun t =>
        ends t 7 ∧ ∀ k x, t.rw .CORE_IMEM k x = s.rw .CORE_IMEM k x) ∧
    (p = 0 → c.toNat < 64 → s.st c.toNat = 2 → (imgGood image = false ∨ s.imageArmCode c.toNat image ≠ 0) →
      Gives (exec (.imageLoad 0 h c arm image) s) fun t =>
        ends t 8 ∧
      ∀ k x, t.rw .CORE_IMEM k x = s.rw .CORE_IMEM k x) ∧
    (p = 0 → c.toNat < 64 → s.st c.toNat = 2 → imgGood image = true → s.imageArmCode c.toNat image = 0 → imgAt image 0x2C 2 = 0 →
      s.active = true → s.level q = 0 → s.power.entry = none → (arm = true → imgAt image 8 1 % 4 ≠ 0 ∧ s.f F.CORE_CTL_START_SRC c.toNat = 0 ∧
        (s.rw .CORE_CTL c.toNat).toNat % 128 = 0) →
      Gives (exec (.imageLoad 0 h c arm image) s) fun t =>
        ends t 0 ∧
        (∀ x < imgAt image 0x14 4 / 8, t.rw .CORE_IMEM c.toNat x = BitVec.ofNat 64 (imgAt image (imgAt image 0x10 4 + 8 * x) 8)) ∧
        t.st c.toNat = (if arm then 3 else 2)) ∧
    (p ≠ 0 → Gives (exec (.imageLoad p h c arm image) s) fun t => Completed s t p h 0x30 3 []) ∧
    (Gives (exec (.noteCfg p h mask) s) fun t =>
        done 0x40 0 [] t ∧ (t.port p).mask = mask.toNat) ∧
    (id ≠ 0x2002 → id ≠ 0x2004 → s.dataset id.toNat ≠ [] → (s.dataset id.toNat).length ≤ 1024 → Gives (exec (.ptpDsGet p h id) s) fun t =>
        done 0x50 0 (s.dataset id.toNat) t ∧
      t.time = s.time) ∧
    (id = 0x2004 → Gives (exec (.ptpDsGet p h id) s) fun t => ∃ payload, Completed s t p h 0x50 0 payload ∧ t.time = s.time ∧
      (p ≠ 0 → payload = s.portDs (p - 1 : Nat))) ∧
    (id = 0x2002 → Gives (exec (.ptpDsGet p h id) s) fun t => t.time = s.time ∧
      ∃ head : List Byte, head.length = 10 ∧ Completed s t p h 0x50 0 (head ++ s.parentTail)) ∧
    (s.level q ≠ 2 → bit (s.port p).mask 3 = false →
      ((data.length = 2 ∧ data.getD 1 0 = 0 ∧ id ≠ 0x2000 ∧ id ≠ 0x2001 ∧ id ≠ 0x2003 ∧ id ≠ 0x2004) ∨ (data.length = 4 ∧ id = 0x2003)) →
      Gives (exec (.ptpDsSet p h id data) s) fun t =>
        done 0x51 0 [] t ∧ t.dataset id.toNat = data) ∧
    (s.level q = 2 → Gives (exec (.ptpDsSet p h id data) s) fun t =>
        done 0x51 6 [] t ∧ t.time = s.time)

/-- The sequence of a port (R277): a command that is not next is held, discarded, replayed or STALE, a closed session takes none, and the
gap timer discards what is held; and P0_CMD_TAIL_WRITE, P0_RSP_HEAD_WRITE and MLP_DISCARD (R270, R272, R273).
The model's choices in it: log entry 45. -/
def Obligations.SequenceNumbers : Prop :=
  ∀ (p : Fin 5) (h : MlpHead) (mask : BitVec 32) (id : BitVec 16) (data : List Byte) (q : Requester) (x : BitVec 16) (t0 : Nat)
    (d' : Discard) (s : State), Quiet s p h → h.oob = false →
    let next := s.f F.PRT_SEQ_NEXT_HSN p
    let d := (h.hsn.toNat + 2 ^ 32 - next) % 2 ^ 32
    let calm := fun (t : State) => t.time = s.time ∧ t.sram = s.sram ∧ t.dram = s.dram ∧ t.link.journal = s.link.journal
    let mine := fun (y : JEntry) => y.port == p.val && y.session == s.session p && y.hsn == h.hsn.toNat
    let reply := fun (t : State) (op status : Nat) => Answered s t p (oobReply s p h op status [])
    (∀ y ∈ [(Instr.noteCfg p h mask, MlpOp.noteCfg mask), (.ptpDsGet p h id, .dsGet id), (.ptpDsSet p h id data, .dsSet id data)],
      ((s.port p).opened = false → Gives (exec y.1 s) fun t => reply t y.2.code 1 ∧ calm t) ∧
      ((s.port p).opened = true → 1 ≤ d → d ≤ 16 → Gives (exec y.1 s) fun t =>
        (⟨h, y.2⟩ : MlpMsg) ∈ (t.port p).held ∧ (t.port p).gap = some ((s.port p).gap.getD s.now) ∧ calm t) ∧
      ((s.port p).opened = true → 16 < d → d < 2 ^ 31 → Gives (exec y.1 s) fun t =>
        t.f F.PRT_CNT_DROP p = s.upped F.PRT_CNT_DROP p ∧ (t.port p).held = (s.port p).held ∧ calm t) ∧
      ((s.port p).opened = true → 2 ^ 31 ≤ d → s.link.journal.find? mine = none → Gives (exec y.1 s) fun t =>
        reply t y.2.code 2 ∧ calm t) ∧
      (∀ e, (s.port p).opened = true → 2 ^ 31 ≤ d → s.link.journal.find? mine = some e → e.done = true → Gives (exec y.1 s) fun t =>
        Answered s t p (replayOf e) ∧ t.time = s.time ∧ t.f F.PRT_SEQ_LAST_DSN p = s.f F.PRT_SEQ_LAST_DSN p)) ∧
    ((s.port p).gap = some t0 → Gives (exec (.seqgapTimeout p) s) fun t => Reached s t (t0 + micros (s.f F.PRT_CFG_GAP_TMO p)) ∧
      (t.port p).held = [] ∧ (t.port p).gap = none ∧ t.f F.PRT_CNT_SEQGAP p = s.upped F.PRT_CNT_SEQGAP p ∧
      t.f F.PRT_SEQ_NEXT_HSN p = next) ∧
    ((d'.foreign = false ∨ p = 0) → Gives (exec (.mlpDiscard p d') s) fun t =>
      t.f F.PRT_CNT_DROP p = s.upped F.PRT_CNT_DROP p ∧ (t.port p).sent = (s.port p).sent ∧ calm t) ∧
    (d'.foreign = true → p ≠ 0 → Gives (exec (.mlpDiscard p d') s) fun t =>
      t.f F.PRT_CNT_FOREIGN p = s.upped F.PRT_CNT_FOREIGN p ∧ t.ports = s.ports ∧ calm t) ∧
    (Admits s q .P0_CMD_IDX 0 0 (force (s.rw .P0_CMD_IDX) 15 0 x.toNat) → Gives (exec (.p0CmdTailWrite q x) s) fun t =>
      t.f F.P0_CMD_IDX_TAIL = x.toNat ∧ t.f F.P0_CMD_IDX_HEAD = s.f F.P0_CMD_IDX_HEAD ∧ calm t) ∧
    (Admits s q .P0_RSP_IDX 0 0 (force (s.rw .P0_RSP_IDX) 15 0 x.toNat) → (s.port 0).waiting = [] → (s.port 0).unsent = [] →
      Gives (exec (.p0RspHeadWrite q x) s) fun t => t.f F.P0_RSP_IDX_HEAD = x.toNat ∧
        t.f F.P0_RSP_IDX_TAIL = s.f F.P0_RSP_IDX_TAIL ∧ calm t)

/-- PORT0_RESET, PERST_N_RELEASE, PCIE_LINK_UP, PRT_BIND_WRITE, BINDING_APPLY, IRQ_COALESCE_TIMEOUT, PRT_FI_WRITE and REORDER_TIMEOUT
(R268, R271, R282, R283, R353).
ETH_LINK_UP and ETH_LINK_DOWN, and the frames that an Ethernet port answers by itself: ARP_RX, ND_RX and ICMP_ECHO_RX (R269).
The model's choices in it: log entries 49, 50. -/
def Obligations.PortAndEthernetEvents : Prop :=
  (∀ (kind : PortReset) (width speed : BitVec 4) (p : Fin 5) (i : Fin 4) (q : Requester) (w : Word) (t0 : Nat) (s : State),
    let link := fun (t : State) => t.link.training
    let up := s.power.stage = .up
    let vec := s.f F.P0_IRQ_VEC
    let masked := bit (s.rw .MSIX_TAB (2 * vec + 1)).toNat 32
    let x := s.port p
    let memory := fun (t : State) => t.sram = s.sram ∧ t.dram = s.dram ∧ t.dmem = s.dmem
    let changed := fun (t : State) (old : Word) => (t.port p).bind = some (x.bind.getD old) ∧ t.bindWord p = (x.bind.getD old).toNat
    Gives (exec (.port0Reset kind) s) (fun t => t.rw .P0_CMDQ_BASE = 0 ∧ t.rw .P0_RSPQ_BASE = 0 ∧ t.rw .P0_QCFG = 0 ∧ t.rw .P0_CMD_IDX = 0 ∧
      t.rw .P0_RSP_IDX = 0 ∧ (t.port 0).held = [] ∧ (t.port 0).waiting = [] ∧ t.on F.P0_LINK_RST_SEEN = true ∧
      ((t.port 0).exec.isSome = (s.port 0).exec.isSome ∧ ∀ e, (t.port 0).exec = some e → e.mute = true) ∧ t.session 0 = s.session 0 ∧
      (kind = .flr → t.on F.P0_LINK_UP = s.on F.P0_LINK_UP ∧ link t = link s) ∧ (kind ≠ .flr → t.on F.P0_LINK_UP = false) ∧
      t.link.cfg = {} ∧ (kind = .perst → link t = false ∧ t.link.perstLow = true) ∧ (up → s.link.perstLow = false → kind = .hot → link t = true) ∧
      memory t ∧ t.time = s.time) ∧
    (up → Gives (exec .perstNRelease s) fun t => t.link.perstLow = false ∧ link t = true ∧ SameWords s t) ∧
    (link s = true → Gives (exec (.pcieLinkUp width speed) s) fun t => t.on F.P0_LINK_UP = true ∧
      t.f F.P0_LINK_WIDTH = width.toNat ∧ t.f F.P0_LINK_SPEED = speed.toNat ∧ link t = false ∧ memory t) ∧
    (Admits s q .PRT_BIND i 0 w → p.val = i.val + 1 → Gives (exec (.prtBindWrite p q w) s) fun t =>
      t.rw .PRT_BIND i = storedWord (Reg.spec .PRT_BIND) (s.rw .PRT_BIND i) w ∧
      (differ 0xFFFF00000007 (s.rw .PRT_BIND i) w = true → changed t (s.rw .PRT_BIND i)) ∧
      (differ 0xFFFF00000007 (s.rw .PRT_BIND i) w = false → t.ports = s.ports)) ∧
    (Admits s q .PRT_BIND0 0 0 w → p = 0 → Gives (exec (.prtBindWrite p q w) s) fun t =>
      (differ 6 (s.rw .PRT_BIND0) w = true → changed t (s.rw .PRT_BIND0)) ∧ (differ 6 (s.rw .PRT_BIND0) w = false → t.ports = s.ports)) ∧
    (x.bind ≠ none → x.exec = none → Gives (exec (.bindingApply p) s) fun t => (t.port p).bind = none ∧ (t.port p).opened = false ∧
      (t.port p).held = [] ∧ (t.port p).waiting = [] ∧ (t.port p).mask = 0 ∧ t.session p = (s.session p + 1) % 2 ^ 16 ∧
      t.f F.PRT_SEQ_LAST_DSN p = 0 ∧ memory t) ∧
    (x.exec ≠ none → exec (.bindingApply p) s = .next s) ∧
    ((s.port 0).coalAt = some t0 → s.on F.P0_IRQ_EN = true → s.on F.P0_IRQ_COAL_US = true → Gives (exec .irqCoalesceTimeout s) fun t =>
      Reached s t (t0 + micros (s.f F.P0_IRQ_COAL_US)) ∧ (t.port 0).coalAt = none ∧ (t.port 0).coal = 0 ∧
      (masked = true → bit (t.f F.MSIX_PBA_PEND) vec = true ∧ t.link = s.link) ∧
      (masked = false → sget (fun _ => 0) t.link.msi vec = sget (fun _ => 0) s.link.msi vec + 1 ∧ SameWords s t)) ∧
    (Admits s q .PRT_FI p 0 w → x.rxGroup = [] → (∀ r : Fin 5, (s.port r).ready = []) →
      (bit w.toNat 0 = true → Gives (exec (.prtFiWrite p q w) s) fun t => t.rw .PRT_FI p = w ∧
        (s.on F.PRT_FI_EN p = false → (t.port p).rxCount = 0 ∧ (t.port p).txCount = 0)) ∧
      (bit w.toNat 0 = false → Gives (exec (.prtFiWrite p q w) s) fun t => t.rw .PRT_FI p = w ∧ (t.port p).txGroup = [] ∧
        (p ≠ 0 → s.canSend p = true → (t.port p).sent = x.sent ++ x.txGroup.reverse))) ∧
    (x.txGroup ≠ [] → p ≠ 0 → s.canSend p = true → Gives (exec (.reorderTimeout p true) s) fun t =>
      Reached s t (x.txAt + micros 100) ∧ (t.port p).txGroup = [] ∧ (t.port p).sent = x.sent ++ x.txGroup.reverse ∧
      t.f F.PRT_FI_CNT_REORDERED p = s.upped F.PRT_FI_CNT_REORDERED p ∧ memory t) ∧
    (x.rxGroup ≠ [] → (∀ f ∈ x.rxGroup, ∃ n, f = .bad n) → x.rxGroup.length ≤ 16 → (∀ r : Fin 5, (s.port r).ready = []) →
      Gives (exec (.reorderTimeout p false) s) fun t => Reached s t (x.rxAt + micros 100) ∧ (t.port p).rxGroup = [] ∧
        (t.port p).ready = [] ∧ t.f F.PRT_FI_CNT_REORDERED p = s.upped F.PRT_FI_CNT_REORDERED p ∧
        t.f F.PRT_CNT_DROP p = min 65535 (s.f F.PRT_CNT_DROP p + x.rxGroup.length) ∧ memory t)) ∧
  (∀ (p : Fin 4) (loss : EthLoss) (v6 frag : Bool) (target : BitVec 32) (hi lo : Word) (s : State),
    let x := s.port (p + 1)
    let sends := fun (i : Instr) (m : Sent) => Gives (exec i s) fun t => (t.port (p + 1)).sent = x.sent ++ [m] ∧ SameWords s t
    let hears := s.active = true ∧ s.ethSends (p.val + 1) = true
    let own := s.f F.ETH_IP4_ADDR p = target.toNat
    let six := s.rw .ETH_IP6_HI p = hi ∧ s.rw .ETH_IP6_LO p = lo
    let kept := fun (t : State) => ∀ off, off ≠ Reg.ETH_STAT.addr p 0 → t.word off = s.word off
    (s.dom (65 + p) = false → exec (.ethLinkUp p) s = .next s) ∧
    (s.dom (65 + p) = true → x.waiting = [] → Gives (exec (.ethLinkUp p) s) fun t => t.on F.ETH_STAT_UP p = true ∧
      t.on F.ETH_STAT_BLOCK_LOCK p = true ∧
      t.on F.ETH_STAT_RX_LOS p = false ∧ t.on F.ETH_STAT_MOD_ABS p = false ∧ kept t ∧ t.ports = s.ports) ∧
    (Gives (exec (.ethLinkDown p loss) s) fun t => t.on F.ETH_STAT_UP p = false ∧ t.on F.ETH_STAT_BLOCK_LOCK p = false ∧
      t.on F.ETH_STAT_RX_LOS p = loss.signal ∧ t.on F.ETH_STAT_MOD_ABS p = loss.absent ∧
      t.f F.ETH_STAT_FEC_UNC p = (if s.f F.ETH_CFG_FEC p = 0 then s.f F.ETH_STAT_FEC_UNC p
        else min 65535 (s.f F.ETH_STAT_FEC_UNC p + loss.uncorrected.toNat)) ∧ kept t ∧ t.ports = s.ports) ∧
    (hears → s.on F.ETH_CFG_IP4_EN p = true → own → sends (.arpRx p target) .arp) ∧
    ((s.on F.ETH_CFG_IP4_EN p = false ∨ ¬ own) → exec (.arpRx p target) s = .next s) ∧
    (hears → s.on F.ETH_CFG_IP6_EN p = true → six → sends (.ndRx p hi lo) .neighbour) ∧
    (hears → s.on F.ETH_CFG_IP6_EN p = true → sends (.ndRx p 0xFE80000000000000#64 (BitVec.ofNat 64 (eui64 (s.f F.ETH_MAC_MAC p)))) .neighbour) ∧
    (s.on F.ETH_CFG_IP6_EN p = false → exec (.ndRx p hi lo) s = .next s) ∧
    (hears → frag = false → s.on (if v6 then F.ETH_CFG_IP6_EN else F.ETH_CFG_IP4_EN) p = true → sends (.icmpEchoRx p v6 frag) .echo) ∧
    (frag = true → exec (.icmpEchoRx p v6 frag) s = .next s))

/-! ### Power (chapter 14) -/

/-- PWR_REQ_ACTIVE, PWR_REQ_TRIM, PWR_REQ_DOZE, PWR_REQ_REST and HANDSHAKE_RETRY (R290 to R296): throttling at once, the entry handshake with
its ACK, DELAY and REFUSE, and what DOZE and REST keep.
The model's choices in it: log entries 19, 52, 55. -/
def Obligations.PowerRequests : Prop :=
  ∀ (q : Requester) (w : Word) (k : Fin 64) (d n : Nat) (l done : List Nat) (s : State),
    let word := fun (target : Nat) => force (force w 2 0 target) 63 63 1
    let may := fun (target : Nat) => Admits s q .PWR_REQ 0 0 (word target)
    let u := fun (target : Nat) => s.wrote .PWR_REQ 0 0 (word target)
    let idle := s.on F.PWR_STATUS_IN_PROGRESS = false
    let state := fun (t : State) => t.f F.PWR_STATUS_STATE
    let result := fun (t : State) => t.f F.PWR_STATUS_RESULT
    let divs := fun (t : State) (v : Nat) => s.throttleable k = true → t.f F.CORE_BUDGET_THR_DIV k = v
    let agrees := fun (target : Nat) => ∀ y ∈ s.affected target, (u target).refuses target y = 0 ∧ s.delays y = false
    let runs := [exec (.pwrReqActive q w) s, exec (.pwrReqTrim q w) s, exec (.pwrReqDoze q w) s, exec (.pwrReqRest q w) s]
    let refused := fun (t : State) (reason delays : Nat) => result t = 2 ∧ t.on F.PWR_STATUS_IN_PROGRESS = false ∧ state t = state s ∧
      t.f F.PWR_REFUSER_DOMAIN = d ∧ t.f F.PWR_REFUSER_REASON = reason ∧ t.f F.PWR_REFUSER_DELAYS = delays ∧ t.power.entry = none
    (∀ j < 4, may j → ¬ idle → Gives (runs.getD j (.next s)) fun t => result t = 1 ∧ t.power = s.power ∧ state t = state s) ∧
    (∀ j < 2, may j → idle → state s = j → Gives (runs.getD j (.next s)) fun t => result t = 0 ∧ state t = j) ∧
    (may 0 → idle → state s = 1 → Gives (exec (.pwrReqActive q w) s) fun t => result t = 0 ∧ t.on F.PWR_STATUS_HOST_TRIM = false ∧
      (s.on F.PWR_STATUS_GOV_TRIM = false → state t = 0 ∧ divs t 1) ∧ (s.on F.PWR_STATUS_GOV_TRIM = true → state t = 1)) ∧
    (may 1 → idle → state s = 0 → Gives (exec (.pwrReqTrim q w) s) fun t => result t = 0 ∧ state t = 1 ∧
      t.on F.PWR_STATUS_HOST_TRIM = true ∧ divs t (s.f F.BG_CFG_TRIM_DIV) ∧ t.sram = s.sram ∧ t.dram = s.dram) ∧
    (may 2 → idle → agrees 2 → Gives (exec (.pwrReqDoze q w) s) fun t => result t = 0 ∧ state t = 2 ∧
      t.on F.PWR_STATUS_IN_PROGRESS = false ∧ t.boot.running = false ∧ t.now = s.now ∧ t.sram = s.sram ∧ t.dram = s.dram) ∧
    (may 3 → idle → agrees 3 → Gives (exec (.pwrReqRest q w) s) fun t => result t = 0 ∧ state t = 3 ∧
      t.on F.PWR_STATUS_IN_PROGRESS = false ∧ t.power.stage = .rest ∧ t.power.window = s.now + 3 * 2 ^ 33 ∧ t.now = s.now ∧ t.cores = [] ∧
      t.voices = [] ∧ (∀ b, t.sramByte b = if bit (s.f F.REST_BANKS_BANKS) (sramBank b) then s.sramByte b else 0)) ∧
    (∀ j ∈ [2, 3], may j → idle → s.affected j = d :: l → (u j).refuses j d ≠ 0 → Gives (runs.getD j (.next s)) fun t =>
      refused t ((u j).refuses j d) 0 ∧ FiredAt s t 628 s.now) ∧
    (∀ j ∈ [2, 3], may j → idle → s.affected j = d :: l → (u j).refuses j d = 0 → s.delays d = true → Gives (runs.getD j (.next s)) fun t =>
      t.power.entry = some ⟨j, d :: l, [], 1, false⟩ ∧ t.on F.PWR_STATUS_IN_PROGRESS = true ∧ t.power.since = s.now ∧ state t = state s) ∧
    (s.power.entry = some ⟨2, d :: l, done, n, false⟩ → d < 72 → s.refuses 2 d = 0 → Gives (exec .handshakeRetry s) fun t =>
      Reached s t (s.power.since + millis 1) ∧
      (s.delays d = true → n < 4 → t.power.entry = some ⟨2, d :: l, done, n + 1, false⟩ ∧ state t = state s) ∧
      (s.delays d = true → n = 4 → refused t 10 4) ∧
      (s.delays d = false → l = [] → state t = 2 ∧ result t = 0 ∧ t.power.entry = none)) ∧
    (s.bound q = true → s.dozing = true → s.power.stage = .up → s.power.entry = none → s.power.woke = none → idle → s.readShadow q = none →
      s.writeShadow q = none → s.checkWrite q .PWR_REQ 0 0 0x10000 (word 0) = ⟨none, some (word 0)⟩ →
      Gives (exec (.pwrReqActive q w) s) fun t => t.power.stage = .domains ∧ t.on F.PWR_STATUS_IN_PROGRESS = true ∧
        t.f F.PWR_WAKE_REC_SRC = 12 ∧ t.f F.PWR_WAKE_REC_WAKES = (s.f F.PWR_WAKE_REC_WAKES + 1) % 2 ^ 16 ∧ state t = 2)

/-- PWR_DOM_ON_WRITE and PWR_RMEM_ACCESS (R288, R295).
The model's choices in it: log entries 15, 52. -/
def Obligations.DomainsAndRestMemory : Prop :=
  ∀ (q : Requester) (one : Bool) (w : Word) (d : Nat) (e : Ecc) (s : State),
    let r : Reg := if one then .PWR_DOM_ON1 else .PWR_DOM_ON0
    let lo := if one then 64 else 0
    let hi := if one then 72 else 64
    let idle := s.on F.PWR_STATUS_IN_PROGRESS = false
    let only := (∀ y, lo ≤ y → y < hi → (s.domAsked y = true ∧ bit w.toNat (y - lo) = false ↔ y = d)) ∧ lo ≤ d ∧ d < hi ∧
      (∀ y, lo ≤ y → y < hi → bit w.toNat (y - lo) = true → s.domAsked y = true) ∧ d ≠ 64 ∧ d ≠ 69 ∧ s.dom d = true
    let i := s.f F.PWR_RMEM_ADDR_WORD
    let stepped := fun (t : State) => t.f F.PWR_RMEM_ADDR_WORD = (i + 1) % 2 ^ 15
    (Admits s q r 0 0 w →
      (¬ idle → Gives (exec (.pwrDomOnWrite one q w) s) fun t => t.f F.PWR_STATUS_RESULT = 1 ∧ t.rw r = s.rw r) ∧
      (idle → one = true → s.domAsked 64 = true → bit w.toNat 0 = false → Gives (exec (.pwrDomOnWrite one q w) s) fun t =>
        t.f F.PWR_STATUS_RESULT = 4 ∧ t.rw r = s.rw r ∧ t.dom 64 = s.dom 64) ∧
      (idle → (∀ y, lo ≤ y → y < hi → s.domAsked y = true → bit w.toNat (y - lo) = true) → Gives (exec (.pwrDomOnWrite one q w) s) fun t =>
        t.rw r = w ∧ ∀ y, lo ≤ y → y < hi → bit w.toNat (y - lo) = true → s.domAsked y = false → t.dom y = true) ∧
      (idle → only → s.refuses 4 d = 0 → s.delays d = false → Gives (exec (.pwrDomOnWrite one q w) s) fun t =>
        t.dom d = false ∧ t.domAsked d = false ∧ t.f F.PWR_STATUS_RESULT = 0 ∧ t.on F.PWR_STATUS_IN_PROGRESS = false) ∧
      (idle → only → s.refuses 4 d ≠ 0 → Gives (exec (.pwrDomOnWrite one q w) s) fun t =>
        t.dom d = true ∧ t.domAsked d = true ∧ t.f F.PWR_STATUS_RESULT = 2 ∧ t.f F.PWR_REFUSER_DOMAIN = d ∧
        t.f F.PWR_REFUSER_REASON = s.refuses 4 d)) ∧
    (Admits s q .PWR_RMEM_DATA 0 0 w → Gives (exec (.pwrRmemAccess q true w e) s) fun t => stepped t ∧
      (0x6000 ≤ i → t.rest64 i = w ∧ ∀ y, y ≠ i → t.rest64 y = s.rest64 y) ∧
      (i < 0x6000 → t.power.words = s.power.words ∧ t.on F.PWR_STATUS_RMEM_ERR = true)) ∧
    (s.answers q 0x100B0 = true → s.access (s.level q) (regionOf 0x100B0) ≠ 0 → Gives (exec (.pwrRmemAccess q false w e) s) fun t =>
      stepped t ∧ sget (fun _ => 0) t.bus.got (reqCode q) = s.restRead i ∧ t.power.words = s.power.words)

/-- WAKE, PG_GOOD, PG_TIMEOUT, OSC_READY, OSC_TIMEOUT, WAKE_RETRY, WAKE_DONE, PG_LOSS, BROWNOUT_WARN, BROWNOUT_CLEAR, SUPPLY_RESET_LEVEL and
THERMAL_TRIP (R287, R296 to R301, R360, R364).
The model's choices in it: log entries 7, 55, 56, 81, 82, 86. -/
def Obligations.WakesAndSupplies : Prop :=
  ∀ (src : Fin 12) (at_ n t0 : Nat) (fresh rest : Bool) (line : Fin 6) (u : RestUpset) (h : Handshake) (c : Fin 16) (s : State),
    let p := s.power
    let timed := src ≠ 0 ∧ bit (s.f F.PWR_WAKE_EN_EN) (src - 1 : Nat) = true ∧ src ≠ 10 ∧ src ≠ 11
    let edge := timed ∧ src ≠ 1
    let sampled := some (wakeEdge (if src = 1 then max at_ p.window else at_))
    let next := supplyOrder.getD (n + 1) 0
    let later := supplyOrder.getD (n + 2) 0
    let recorded := fun (t : State) (x : Nat) => t.f F.PWR_WAKE_REC_SRC = src ∧ t.f F.PWR_WAKE_REC_WAKES = (s.f F.PWR_WAKE_REC_WAKES + 1) % 2 ^ 16 ∧
      (x < 2 ^ 96 → t.at F.PWR_WAKE_SEC_SEC F.PWR_WAKE_FRAC_FRAC = x)
    let failed := fun (t : State) (what : Nat) => t.power.stage = .retry ∧ t.f F.PWR_FAULT_WHAT = what ∧ t.power.fails = p.fails + 1 ∧
      t.power.lines = p.lines.filter (fun y => !p.mine.contains y) ∧ t.sram = s.sram ∧ (3 ∈ t.power.lines → t.dram = s.dram)
    let low := fun (t : State) => if rest then t.power.lowRest else t.power.lowCore
    (s.resting = true → p.stage = .rest → p.entry = none → edge → p.window ≤ at_ → p.tripped = false → p.woke ≠ sampled →
      Gives (exec (.wake src at_ fresh) s) fun t => Reached s t at_ ∧ recorded t at_ ∧ t.on F.PWR_STATUS_IN_PROGRESS = true ∧
        t.power.fails = 0 ∧ t.power.stage ≠ .rest) ∧
    (s.resting = true → p.stage = .rest → p.entry = none → edge → at_ < p.window → p.woke ≠ sampled → Gives (exec (.wake src at_ fresh) s) fun t =>
      t.power = p ∧ SameWords s t) ∧
    (s.dozing = true → p.stage = .up → p.entry = none → timed → p.woke ≠ sampled → Gives (exec (.wake src at_ fresh) s) fun t => Reached s t at_ ∧
      recorded t at_ ∧ t.power.stage = .domains) ∧
    (timed → p.woke = sampled → Gives (exec (.wake src at_ fresh) s) fun t => t.power = p ∧
      t.f F.PWR_WAKE_REC_WAKES = s.f F.PWR_WAKE_REC_WAKES ∧ t.f F.PWR_WAKE_REC_SRC = min src.val (s.f F.PWR_WAKE_REC_SRC)) ∧
    (s.active = true → p.entry = some h → (h.target = 2 ∨ h.target = 3) → timed → p.woke ≠ sampled → Gives (exec (.wake src at_ fresh) s) fun t =>
      t.power.entry = none ∧ t.f F.PWR_STATUS_RESULT = 3 ∧ recorded t at_) ∧
    (bit (s.f F.PWR_WAKE_EN_EN) (src - 1 : Nat) = false → Gives (exec (.wake src at_ fresh) s) fun t => t.power = p ∧ SameWords s t) ∧
    (p.stage = .supplies n → supplyOrder.getD n 6 = line.val →
      (n < 5 → next ∉ p.lines → next ∉ p.good → Gives (exec (.pgGood line) s) fun t => t.power.stage = .supplies (n + 1) ∧
        next ∈ t.power.lines ∧ line.val ∈ t.power.good ∧ (line = 0 → t.power.osc = some s.now) ∧ SameWords s t) ∧
      (n < 4 → next ∉ p.lines → next ∈ p.good → later ∉ p.lines → later ∉ p.good → Gives (exec (.pgGood line) s) fun t =>
        t.power.stage = .supplies (n + 2) ∧ next ∈ t.power.lines ∧ later ∈ t.power.lines ∧ SameWords s t) ∧
      (n = 5 → Gives (exec (.pgGood line) s) fun t => t.power.stage = if p.oscReady then .domains else .oscillator)) ∧
    (p.stage = .supplies n → Gives (exec .pgTimeout s) fun t => Reached s t (p.since + millis (s.f F.PWR_WAKE_CFG_PG_TMO)) ∧
      failed t (supplyOrder.getD n 0)) ∧
    (p.osc ≠ none → p.oscReady = false → Gives (exec .oscReady s) fun t => t.power.oscReady = true ∧
      t.power.stage = (if p.stage = .oscillator then .domains else p.stage) ∧ SameWords s t) ∧
    (p.osc = some t0 → p.oscReady = false → Gives (exec .oscTimeout s) fun t =>
      Reached s t (t0 + (s.f F.PWR_WAKE_CFG_OSC_TMO * second + 9999) / 10000) ∧ failed t 0x10) ∧
    (p.stage = .retry → Gives (exec .wakeRetry s) fun t => Reached s t (p.since + millis 10) ∧
      (p.fails ≤ s.f F.PWR_WAKE_CFG_WAKE_RETRY → t.power.stage ≠ .retry ∧ t.power.stage ≠ .rest) ∧
      (s.f F.PWR_WAKE_CFG_WAKE_RETRY < p.fails → t.power.stage = .rest ∧ t.on F.PWR_FAULT_WAKE = true ∧
        t.on F.PWR_STATUS_IN_PROGRESS = false)) ∧
    (p.stage = .domains → Gives (exec (.wakeDone u) s) fun t => t.f F.PWR_STATUS_STATE = 0 ∧ t.power.stage = .up ∧
      t.on F.PWR_STATUS_HOST_TRIM = false ∧ t.on F.PWR_STATUS_GOV_TRIM = false ∧ t.at F.PWR_ACT_SEC_SEC F.PWR_ACT_FRAC_FRAC = s.now ∧
      (⟨.source 627, s.now⟩ : Fired) ∈ t.fabric.fired ∧ t.now = s.now) ∧
    (line.val ∈ p.lines → Gives (exec (.pgLoss line) s) fun t => t.power.stage = .retry ∧ t.power.lines = [] ∧ t.f F.PWR_FAULT_WHAT = line ∧
      t.f F.PWR_STATUS_STATE = 3 ∧ t.sram = [] ∧ t.now = s.now) ∧
    (low s = false → (rest = true ∨ 0 ∈ p.lines) → Gives (exec (.brownoutWarn rest) s) fun t => low t = true ∧
      t.on F.PWR_STATUS_BO_WARN = true ∧ t.on F.PWR_STATUS_BO_ACTIVE = true ∧ FiredAt s t 622 s.now ∧
      t.f (troubleFld 10) 2 = s.upped (troubleFld 10) 2 ∧
      (s.on F.PWR_BO_CFG_PARK = true → s.on F.CH_STATUS_RUN c = true → (t.chan c).brown = true)) ∧
    (low s = true → Gives (exec (.brownoutClear rest) s) fun t => low t = false ∧
      ((if rest then p.lowCore else p.lowRest) = false → t.on F.PWR_STATUS_BO_ACTIVE = false) ∧
      ((if rest then p.lowCore else p.lowRest) = true → SameWords s t)) ∧
    (Gives (exec (.supplyResetLevel true) s) fun t => t.power.stage = .unreleased ∧ t.now = 0 ∧ t.regs = [(0x10008, 3)] ∧ t.sram = [] ∧
      t.power.words = []) ∧
    (0 ∈ p.lines → Gives (exec (.supplyResetLevel false) s) fun t => t.power.coreLow = true ∧ t.power.stage = .held ∧ t.now = s.now ∧
      t.power.words = p.words ∧ t.rw .PWR_FAULT = s.rw .PWR_FAULT ∧ t.sram = []) ∧
    (p.stage ∉ [.unreleased, .crystal, .porst, .held] → Gives (exec .thermalTrip s) fun t => t.f F.PWR_STATUS_STATE = 3 ∧ t.power.stage = .rest ∧
      t.power.tripped = true ∧ t.f F.PWR_FAULT_WHAT = 0x20 ∧ t.now = s.now ∧ t.sram = [] ∧ t.dmem = [] ∧ t.cores = [] ∧ t.voices = [])

/-- GOV_EVAL, GOV_TRIM_ENTER, GOV_THROTTLE_DOUBLE, GOV_THROTTLE_HALVE, COEF_UPDATE, HW_GUARD_ENGAGE and HW_GUARD_RELEASE (R302, R303, R306,
R307).
The model's choices in it: log entries 57, 78, 82. -/
def Obligations.GovernorEvents : Prop :=
  ∀ (temps : List (BitVec 16)) (mons : List (BitVec 32)) (rest : BitVec 32) (core vr sr dr : BitVec 16) (k : Fin 64) (i : Fin 8)
    (d : Fin 72) (s : State),
    let mean := (mons.map BitVec.toNat).sum + rest.toNat
    let div := s.f F.CORE_BUDGET_THR_DIV k
    let divs := fun (t : State) (v : Nat) => s.throttleable k = true → t.f F.CORE_BUDGET_THR_DIV k = v
    let trim := s.on F.PWR_STATUS_GOV_TRIM
    let memory := fun (t : State) => t.sram = s.sram ∧ t.dram = s.dram ∧ t.dmem = s.dmem
    (Gives (exec (.govEval temps mons rest) s) fun t => t.f F.BG_TEMP_T i = (temps.getD i 0#16).toNat ∧
      t.f F.PWR_MON_P_UW d = (mons.getD d 0#32).toNat ∧ t.now = s.now ∧
      (s.boot.running = true → t.f F.BG_STATUS_P_MEAS_MW = min 65535 ((mean + 999) / 1000)) ∧
      (s.boot.running = true → s.power.gov.std = [] → s.power.gov.bg = [] → t.f F.BG_STATUS_HEADROOM = satHeadroom t.headroom ∧
        (t.headroom < 0 → t.power.gov.level = 1 ∧ (s.power.gov.level ≠ 1 → t.power.gov.due = s.now + second / 1000)) ∧
        (t.margin ≤ t.headroom → t.power.gov.level = 2 ∧ (s.power.gov.level ≠ 2 → t.power.gov.due = s.now + second / 10))) ∧
      (s.boot.running = false → t.rw .BG_STATUS = s.rw .BG_STATUS ∧ t.power = s.power)) ∧
    (s.lowH = true → s.active = true → Gives (exec .govTrimEnter s) fun t => Reached s t s.power.gov.due ∧
      t.power.gov.due = t.now + ms10 ∧ t.on F.PWR_STATUS_GOV_TRIM = true ∧ t.f F.PWR_STATUS_STATE = 1 ∧ divs t (min 255 (2 * div)) ∧ memory t) ∧
    (s.lowH = true → trim = true → Gives (exec .govThrottleDouble s) fun t => Reached s t s.power.gov.due ∧
      t.power.gov.due = t.now + ms10 ∧ divs t (min 255 (2 * div)) ∧
      t.on F.PWR_STATUS_GOV_TRIM = true ∧ memory t) ∧
    (s.highH = true → trim = true → Gives (exec .govThrottleHalve s) fun t => memory t ∧ Reached s t s.power.gov.due ∧
      ((∃ j : Fin 64, s.throttleable j = true ∧ 3 < s.f F.CORE_BUDGET_THR_DIV j) →
        divs t (max 1 (div / 2)) ∧ t.on F.PWR_STATUS_GOV_TRIM = true) ∧
      ((∀ j : Fin 64, s.throttleable j = true → s.f F.CORE_BUDGET_THR_DIV j ≤ 3) → t.on F.PWR_STATUS_GOV_TRIM = false)) ∧
    (s.boot.running = true → Gives (exec (.coefUpdate core vr sr dr) s) fun t => t.f F.BG_COEF_K_CORE = core.toNat ∧
      t.f F.BG_COEF_K_VR = vr.toNat ∧ t.f F.BG_COEF_K_SR = sr.toNat ∧ t.f F.BG_COEF_K_DR = dr.toNat ∧ memory t ∧ t.time = s.time ∧
      ∀ off, off ≠ Reg.BG_COEF.addr 0 0 → t.word off = s.word off) ∧
    (s.boot.running = false → s.on F.BG_STATUS_HW_GUARD = false → (s.f F.BG_CFG_TJ_LIMIT * 16 : Nat) ≤ s.sensor i →
      Gives (exec .hwGuardEngage s) fun t => t.on F.BG_STATUS_HW_GUARD = true ∧ t.on F.PWR_STATUS_GOV_TRIM = true ∧ divs t 255 ∧
        t.power.gov.heldDivs.getD k 1 = div ∧ t.power.gov.heldTrim = trim ∧ memory t ∧ t.time = s.time) ∧
    (s.on F.BG_STATUS_HW_GUARD = true → (∀ j : Fin 8, s.sensor j < ((s.f F.BG_CFG_TJ_LIMIT : Int) - 5) * 16) →
      Gives (exec .hwGuardRelease s) fun t => t.on F.BG_STATUS_HW_GUARD = false ∧ t.on F.PWR_STATUS_GOV_TRIM = s.power.gov.heldTrim ∧
        (s.power.gov.heldDivs.getD k 1 < 256 → divs t (s.power.gov.heldDivs.getD k 1)) ∧ memory t ∧ t.time = s.time)

/-! ### Calibration (chapter 15) -/

/-- CAL_START, CAL_ABORT, CAL_FLIP, CAL_TEMP_CHECK, CAL_RUN_START and CAL_BANK_WRITE (R314 to R316, R318, R319).
The model's choices in it: log entries 19, 58. -/
def Obligations.CalibrationCommands : Prop :=
  ∀ (n : Fin 16) (j : Fin 10) (q : Requester) (w : Word) (s : State),
    let word := fun (b : Nat) => force w b b 1
    let may := fun (b : Nat) => Admits s q .CAL_CTL n 0 (word b)
    let quiet := fun (l : List Nat) => ∀ b ∈ l, bit w.toNat b = false
    let running := s.on F.CAL_STATUS_RUNNING n
    let act := s.on F.CAL_STATUS_ACTIVE n
    let inactive := fun (t : State) => if act then (t.cal n).a else (t.cal n).b
    let d := signed 16 (s.f F.BG_TEMP_T (n.val / 4)) - signed 16 (s.f F.CAL_TEMP_T_LAST n)
    let r : Reg := if j = 0 then .CAL_B_MAIN else if j = 1 then .CAL_B_MK else .CAL_B_SLICE
    (may 0 → quiet [2, 3] →
      (running = false → Gives (exec (.calStart n q w) s) fun t => t.on F.CAL_STATUS_DUE n = true ∧
        ((s.flag F.CAL_STATUS_DUE n).calReady n = true → s.on F.CAL_STATUS_WAITING n = false →
          t.on F.CAL_STATUS_WAITING n = true ∧ .cal n ∈ t.power.gov.bg)) ∧
      (running = true → Gives (exec (.calStart n q w) s) fun t => (t.cal n).again = true ∧ t.on F.CAL_STATUS_RUNNING n = true)) ∧
    (may 3 → quiet [0, 2] → running = true → Gives (exec (.calAbort n q w) s) fun t => t.on F.CAL_STATUS_RUNNING n = false ∧
      t.f F.CAL_STATUS_STEP n = 0 ∧ t.f F.CAL_STATUS_RESULT n = 2 ∧ t.on F.CAL_STATUS_DUE n = true ∧ inactive t = {} ∧
      t.calBank n = s.calBank n ∧ t.f (troubleFld 15) 3 = s.upped (troubleFld 15) 3 ∧ FiredAt s t 631 s.now) ∧
    (may 3 → quiet [0, 2] → running = false → s.thisCycle (s.cal n).cutAt = false → Gives (exec (.calAbort n q w) s) fun t => t.cals = s.cals ∧
      t.rw .CAL_STATUS n = s.rw .CAL_STATUS n) ∧
    (may 2 → quiet [0, 3] →
      ((running = true ∨ (inactive s).valid = false) → Gives (exec (.calFlip n q w) s) fun t => t.on F.CAL_STATUS_WR_ERR n = true ∧
        t.on F.CAL_STATUS_ACTIVE n = act ∧ t.cals = s.cals) ∧
      (running = false → (inactive s).valid = true → s.on F.CH_CTL_EN n = false → Gives (exec (.calFlip n q w) s) fun t =>
        t.on F.CAL_STATUS_ACTIVE n = !act ∧ t.calBank n = inactive s) ∧
      (running = false → (inactive s).valid = true → s.on F.CH_CTL_EN n = true → Gives (exec (.calFlip n q w) s) fun t =>
        t.on F.CAL_STATUS_ACTIVE n = act ∧ t.flipHeld n (some ((s.chan n).grid.runtime s.now)) = true)) ∧
    (s.on F.CAL_CTL_AUTO n = true → s.f F.CAL_TEMP_DELTA_T n < d.natAbs → running = false → Gives (exec (.calTempCheck n) s) fun t =>
      t.on F.CAL_STATUS_DUE n = true) ∧
    ((s.on F.CAL_CTL_AUTO n = false ∨ d.natAbs ≤ s.f F.CAL_TEMP_DELTA_T n) → exec (.calTempCheck n) s = .next s) ∧
    (s.calRequests.on F.CAL_STATUS_WAITING n = true → s.calRequests.taskGrantable (.cal n) = true →
      Gives (exec (.calRunStart n) s) fun t => t.on F.CAL_STATUS_RUNNING n = true ∧ t.f F.CAL_STATUS_STEP n = 1 ∧
        t.on F.CAL_STATUS_WAITING n = false ∧ .cal n ∈ t.power.gov.tasks ∧ t.calBank n = s.calBank n) ∧
    (Admits s q r n (j - 2 : Nat) w → s.dom (32 + n) = false → Gives (exec (.calBankWrite n j q w) s) fun t => t.cals = s.cals) ∧
    (Admits s q r n (j - 2 : Nat) w → s.dom (32 + n) = true →
      ((running = true ∨ s.on F.CAL_CTL_SEL n = act) → Gives (exec (.calBankWrite n j q w) s) fun t =>
        t.on F.CAL_STATUS_WR_ERR n = true ∧ t.cals = s.cals) ∧
      (running = false → s.on F.CAL_CTL_SEL n ≠ act → (inactive s).slices.length = 8 → Gives (exec (.calBankWrite n j q w) s) fun t =>
        t.readBank n j = w ∧ (∀ i : Fin 10, i ≠ j → t.readBank n i = s.readBank n i) ∧ t.calBank n = s.calBank n))

/-- CAL_STEP_DONE, CAL_DONE, CAL_STORE and CAL_STORE_DONE (R313, R318, R320 to R322): a run goes through its steps and ends with its flip, and
a store leaves a valid slot that is the newest.
The model's choices in it: log entry 58. -/
def Obligations.CalibrationRuns : Prop :=
  ∀ (n : Fin 16) (k : Int) (q : Requester) (w : Word) (s : State),
    let step := s.f F.CAL_STATUS_STEP n
    let slice := s.f F.CAL_STATUS_SLICE n
    let running := s.on F.CAL_STATUS_RUNNING n = true
    let act := s.on F.CAL_STATUS_ACTIVE n
    let goes := fun (x : Nat) (P : State → Prop) => Gives (exec (.calStepDone n) s) fun t => t.f F.CAL_STATUS_STEP n = x ∧
      t.on F.CAL_STATUS_RUNNING n = true ∧ t.calBank n = s.calBank n ∧ t.sram = s.sram ∧ t.dram = s.dram ∧ P t
    let ended := fun (t : State) => t.on F.CAL_STATUS_RUNNING n = false ∧ t.f F.CAL_STATUS_STEP n = 0 ∧ t.f F.CAL_STATUS_RESULT n = 1 ∧
      t.on F.CAL_STATUS_ACTIVE n = !act ∧ t.f F.CAL_CNT_CAL_COUNT n = s.upped F.CAL_CNT_CAL_COUNT n
    let slot := s.storeSlot
    (running → step = 1 → s.mayExchange n 0 = true → goes 2 fun t => t.f F.CAL_STATUS_SLICE n = 0) ∧
    (running → step = 2 → slice < 63 → s.mayExchange n slice = true → s.mayExchange n (slice + 1) = true →
      goes 2 fun t => t.f F.CAL_STATUS_SLICE n = slice + 1) ∧
    (running → step = 2 → slice = 63 → s.mayExchange n 63 = true → goes 3 fun t => t.f F.CAL_STATUS_SLICE n = 0) ∧
    (running → step = 3 → goes 4 fun _ => True) ∧
    (running → step = 4 → goes 5 fun t => bits (if act then (t.cal n).a else (t.cal n).b).main.toNat 47 32 = s.skewNow n % 2 ^ 16) ∧
    (running → step = 5 → s.on F.CH_CTL_EN n = true → goes 6 fun t => (if act then (t.cal n).a else (t.cal n).b).valid = true ∧
      (t.cal n).flip = some ((s.chan n).grid.runtime s.now)) ∧
    (running → step = 5 → s.on F.CH_CTL_EN n = false → Gives (exec (.calStepDone n) s) fun t => ended t ∧ (t.calBank n).valid = true ∧
      FiredAt s t 631 s.now) ∧
    (running → (s.cal n).flip = some k → Gives (exec (.calDone n) s) fun t =>
      Reached s t ((s.chan n).grid.voiceAt (512 * k)).toNat ∧ ended t ∧ (t.cal n).flip = none) ∧
    (Admits s q .CAL_STORE 0 0 (force w 63 63 1) →
      (s.on F.CAL_STORE_BUSY = false → Gives (exec (.calStore q w) s) fun t => t.on F.CAL_STORE_BUSY = true ∧
        t.rest64 (slotWord slot) = 0 ∧ ∀ i, i ≠ slotWord slot → t.rest64 i = s.rest64 i) ∧
      (s.on F.CAL_STORE_BUSY = true → Gives (exec (.calStore q w) s) fun t => t.calStoreAgain = true ∧ t.power.words = s.power.words)) ∧
    (s.on F.CAL_STORE_BUSY = true → s.calStoreAgain = false → (∀ i : Fin 16, (s.storeRecord i).length = 16) →
      Gives (exec .calStoreDone s) fun t => t.on F.CAL_STORE_BUSY = false ∧ t.newestSlot = some slot ∧
        t.slotRecord slot n = s.storeRecord n ∧ t.slotEpoch slot = (match s.newestSlot with | some i => (s.slotEpoch i + 1) % 2 ^ 32 | none => 1) ∧
        t.f F.CAL_STORE_EPOCH = t.slotEpoch slot)

/-! ### Register access (chapter 16) -/

/-- REGISTER_WRITE, REGISTER_WRITE_LOW, GLB_ONCE_WRITE and GLB_PROT_WRITE (R329, R331, R333 to R341): what passes is stored, a held low word
completes with the high word, and what protection refuses leaves the register and is recorded.
What the access codes make of a write (R9): RW, RWL and WONCE bits take the written bit, W1C bits written 1 clear, WO bits read 0, and
others hold.
The model's choices in it: log entries 6, 53. -/
def Obligations.RegisterWrites : Prop :=
  (∀ (q : Requester) (r : Reg) (i j : Nat) (w : Word) (h l : Half) (e ecc : Ecc) (p : Fin 12) (k : Fin 5) (s : State),
    let off := r.addr i j
    let at_ := BitVec.ofNat 24 off
    let plain := r ∈ [.GLB_CFG, .REST_CFG, .PWR_WAKE_EN, .PWR_ALARM_SEC, .TM_ARG_SEC, .PTP_OFFSET, .PRT_CFG, .ETH_IP4, .BG_CFG,
      .VOICE_STATUS, .CH_STATUS, .DEV_CAP] ∧ Reg.ofOffset off = some (r, i, j)
    let calm := ∀ x : Fin 5, (s.port x).ready = []
    let elsewhere := fun (t : State) => ∀ y, y ≠ off → y ≠ Reg.GLB_STATUS.addr 0 0 → y ≠ Reg.GLB_RSVD_LAST.addr 0 0 → t.word y = s.word y
    let held := (s.setReadShadow q none).setWriteShadow q none
    let open_ := s.bound q = true ∧ s.active = true ∧ s.readShadow q = none ∧ s.writeShadow q = none
    let run := exec (.registerWrite q at_ (.full w) e ecc) s
    let refused := fun (t : State) (cause : Nat) => t.rw r i j = s.rw r i j ∧ bit (t.rw .PROT_LAST).toNat 63 = true ∧
      (s.keepsRefused q 0 off = false → bits (t.rw .PROT_LAST).toNat 62 60 = cause) ∧ t.f (troubleFld 12) 3 = s.upped (troubleFld 12) 3
    (plain → calm → Admits s q r i j w → Gives run fun t =>
      t.rw r i j = storedWord r.spec (s.rw r i j) w ∧ elsewhere t ∧ t.sram = s.sram ∧ t.dram = s.dram ∧ t.dmem = s.dmem) ∧
    (plain → calm → s.writeShadow q = some (off, l) → Admits held q r i j (h ++ l) →
      Gives (exec (.registerWrite q at_ (.high h) e ecc) s) fun t => t.rw r i j = storedWord r.spec (s.rw r i j) (h ++ l) ∧
        t.writeShadow q = none) ∧
    (s.bound q = false → exec (.registerWriteLow q at_ l) s = .next s) ∧
    (plain → calm → open_ → Gives (exec (.registerWriteLow q at_ l) s) fun t => t.writeShadow q = some (off, l) ∧ SameWords s t) ∧
    (plain → calm → open_ → s.access (s.level q) (regionOf off) ≠ 2 → Gives run fun t => refused t 1) ∧
    (plain → calm → open_ → s.access (s.level q) (regionOf off) = 2 → s.level q ≠ 0 → bit (s.word (lockOf off)).toNat 0 = true →
      r.spec.rwl = 2 ^ 64 - 1 → w ≠ s.rw r i j → s.offCore off = false → s.stoppedAt off = false → Gives run fun t => refused t 3) ∧
    (calm → s.bound q = false → s.writeShadow q = none → Gives run fun t => SameWords s t ∧ t.ports = s.ports) ∧
    (calm → open_ → Admits s q .GLB_ONCE 0 0 w → s.bus.once = false → Gives (exec (.glbOnceWrite q w) s) fun t => t.bus.once = true ∧
      t.rw .GLB_ONCE = w ∧ (bit w.toNat 1 = true → (∀ x : Fin 5, (s.port x).rxGroup = []) → t.on F.PRT_FI_EN k = false)) ∧
    (calm → open_ → s.bus.once = true → s.level q = 0 → w ≠ s.rw .GLB_ONCE → Gives (exec (.glbOnceWrite q w) s) fun t =>
      t.rw .GLB_ONCE = s.rw .GLB_ONCE ∧
      (s.keepsRefused q 0 (Reg.GLB_ONCE.addr 0 0) = false → bits (t.rw .PROT_LAST).toNat 62 60 = 4)) ∧
    (∀ (a : Reg) (x y : Nat), Reg.ofOffset (0x100 + 8 * p.val) = some (a, x, y) → open_ →
      (s.level q = 0 → Gives (exec (.glbProtWrite p q w) s) fun t => t.word (0x100 + 8 * p.val) = w) ∧
      (s.level q ≠ 0 → s.access (s.level q) 0 = 2 → Gives (exec (.glbProtWrite p q w) s) fun t =>
        t.word (0x100 + 8 * p.val) = s.word (0x100 + 8 * p.val) ∧
        (s.keepsRefused q 0 (0x100 + 8 * p.val) = false → bits (t.rw .PROT_LAST).toNat 62 60 = 2)))) ∧
  (∀ (x : RegSpec) (old w : Word) (b : Fin 64),
    let takes := bit x.rw b || bit x.rwl b || bit x.wonce b
    let t := storedWord x old w
    (takes = true → bit x.w1c b = false → bit t.toNat b = bit w.toNat b) ∧
    (takes = false → bit x.w1c b = true → bit x.wo b = false → bit t.toNat b = (bit old.toNat b && !bit w.toNat b)) ∧
    (takes = false → bit x.w1c b = false → bit x.wo b = true → bit t.toNat b = false) ∧
    (takes = false → bit x.w1c b = false → bit x.wo b = false → bit t.toNat b = bit old.toNat b))

/-- REGISTER_READ_LOW with the reads beside it, BAD_ACCESS, CORE_DMEM_ACCESS, GLB_CNT_CLR and BLOCK_CNT_CLR (R53, R326, R328, R330, R343).
The model's choices in it: log entries 53, 54, 61. -/
def Obligations.ReadsAndCounters : Prop :=
  ∀ (q : Requester) (r : Reg) (i j b : Nat) (l : List Fld) (hi : Half) (w : Word) (e : Ecc) (k : Fin 64) (c : Fin 17) (write : Bool) (s : State),
    let off := r.addr i j
    let at_ := BitVec.ofNat 24 off
    let good := Reg.ofOffset off = some (r, i, j) ∧ s.answers q off = true ∧ s.access (s.level q) (regionOf off) ≠ 0 ∧ s.writeShadow q = none
    let still := r ≠ .TM_NOW_SEC ∧ r ≠ .PWR_RMEM_DATA ∧ r ≠ .CORE_DMEM_DATA ∧ r ≠ .CORE_IMEM
    let v := s.view q r i j
    let reads := fun (part : ReadPart) (P : State → Prop) => Gives (exec (.registerReadLow q at_ part e) s) P
    let got := fun (t : State) => sget (fun _ => 0) t.bus.got (reqCode q)
    let n := s.f F.CORE_DMEM_ADDR_WORD k
    let memory := fun (t : State) => t.sram = s.sram ∧ t.dram = s.dram
    let clearing := force (s.rw r i j &&& ~~~(BitVec.ofNat 64 r.spec.w1c)) b b 1
    (good → reads .full fun t => got t = v ∧ t.readShadow q = none ∧ (still → SameWords s t)) ∧
    (good → reads .low fun t => got t = v &&& 0xFFFFFFFF#64 ∧ t.readShadow q = some (off, v.extractLsb' 32 32) ∧ (still → SameWords s t)) ∧
    (good → s.readShadow q = some (off, hi) → reads .high fun t => got t = hi.setWidth 64 ∧ t.readShadow q = none ∧ SameWords s t) ∧
    (good → s.readShadow q = none → reads .high fun t => got t = v >>> 32) ∧
    (Reg.ofOffset off = some (r, i, j) → s.answers q off = true → s.access (s.level q) (regionOf off) = 0 → reads .full fun t =>
      got t = 0 ∧ bit (t.rw .PROT_LAST).toNat 63 = true ∧ memory t) ∧
    (s.bound q = true → s.resting = false → Gives (exec (.badAccess q write) s) fun t => t.on F.GLB_STATUS_SIZE_ERR = true ∧
      (∀ y, y ≠ Reg.GLB_STATUS.addr 0 0 → t.word y = s.word y) ∧ memory t ∧ t.dmem = s.dmem ∧ (write = false → got t = 0)) ∧
    (Admits s q .CORE_DMEM_DATA k 0 w → 2 ≤ s.st k → Gives (exec (.coreDmemAccess k q true w .full e) s) fun t => t.dmemWord k n = w ∧
      t.f F.CORE_DMEM_ADDR_WORD k = (n + 1) % 2 ^ 12 ∧ (∀ (x : Fin 64) (y : Fin 4096), (x ≠ k ∨ y.val ≠ n) → t.dmemWord x y = s.dmemWord x y)) ∧
    (s.answers q (Reg.CORE_DMEM_DATA.addr k 0) = true → s.access (s.level q) (regionOf (Reg.CORE_DMEM_DATA.addr k 0)) ≠ 0 → 2 ≤ s.st k →
      Gives (exec (.coreDmemAccess k q false w .full e) s) fun t => got t = s.dmemWord k n ∧
        t.f F.CORE_DMEM_ADDR_WORD k = (n + 1) % 2 ^ 12 ∧ t.dmem = s.dmem) ∧
    (Admits s q .GLB_CNT_CLR 0 0 w → Gives (exec (.glbCntClr q w) s) fun t => memory t ∧
      ((bit w.toNat 63 = true ∨ bit w.toNat c = true) → t.f (troubleFld c) (c / 4 : Nat) = 0) ∧
      (bit w.toNat 63 = false → bit w.toNat c = false → t.f (troubleFld c) (c / 4 : Nat) = s.f (troubleFld c) (c / 4 : Nat))) ∧
    (Reg.ofOffset off = some (r, i, j) → blockCounts r = some (b, l) → r ≠ .EC_CTL → r ≠ .EVF_CIN_CNT → Admits s q r i j clearing →
      Gives (exec (.blockCntClr q at_) s) fun t => (∀ x ∈ l, t.f x i = 0) ∧ memory t ∧ t.dmem = s.dmem)

/-! ### Start-up, resets and the loader (chapter 17) -/

/-- POR, CRYSTAL_READY, CRYSTAL_TIMEOUT, PORST_N_RELEASE, COLD_RESET, CHIP_RESET, CORE_SUPPLY_RETURN, SYSTEM_PLL_UNLOCK and SPLL_RST_CLEAR
(R347, R348, R350 to R352, R360): what a cold reset keeps, and how power-up goes on.
The model's choices in it: log entries 7, 56, 83, 87. -/
def Obligations.ResetsAndPowerUp : Prop :=
  ∀ (low : Bool) (b : BitVec 2) (s : State),
    let p := s.power
    let cold := fun (t : State) => t.now = s.now ∧ t.power.words = p.words ∧ t.sram = [] ∧ t.dmem = [] ∧ t.cores = [] ∧ t.voices = [] ∧
      t.boot.running = false ∧ t.f F.PWR_STATUS_STATE = 3 ∧ t.f F.TM_STATUS_SET = s.f F.TM_STATUS_SET
    let up := fun (t : State) => t.power.stage ≠ .held ∧ t.power.stage ≠ .unreleased ∧ t.power.stage ≠ .crystal ∧ t.power.stage ≠ .porst
    (p.stage = .unreleased → Gives (exec .por s) fun t => t.power.stage = .crystal ∧ t.power.first = true ∧ t.regs = [(0x10008, 3)] ∧
      t.now = 0 ∧ t.sram = []) ∧
    (p.stage ≠ .unreleased → exec .por s = .next s) ∧
    (p.stage = .crystal → low = true → Gives (exec (.crystalReady low b) s) fun t => t.power.stage = .porst ∧ t.power.porstLow = true ∧
      SameWords s t) ∧
    (p.stage = .crystal → low = false → Gives (exec (.crystalReady low b) s) fun t => up t ∧ t.boot.bootsel = b.toNat ∧ SameWords s t) ∧
    (p.stage = .crystal → Gives (exec (.crystalTimeout low b) s) fun t => t.power.crystalBad = true ∧ t.faultN = true ∧
      (low = false → up t ∧ t.boot.bootsel = b.toNat) ∧ (low = true → t.power.stage = .porst)) ∧
    (p.stage = .porst → Gives (exec (.porstNRelease b) s) fun t => up t ∧ t.boot.bootsel = b.toNat ∧ t.power.porstLow = false ∧
      SameWords s t) ∧
    (p.stage = .up → p.lines ≠ [] → p.coreLow = false → p.porstLow = false → Gives (exec (.porstNRelease b) s) fun t =>
      cold t ∧ up t ∧ t.boot.bootsel = s.boot.bootsel ∧ t.rw .PWR_FAULT = s.rw .PWR_FAULT) ∧
    (p.stage = .held → p.porstLow = true → p.coreLow = false → Gives (exec (.porstNRelease b) s) fun t => up t ∧ t.boot.bootsel = s.boot.bootsel) ∧
    (p.stage = .held → p.porstLow = true → p.coreLow = true → Gives (exec (.porstNRelease b) s) fun t => t.power.stage = .held ∧
      t.power.porstLow = false) ∧
    (p.stage ≠ .unreleased → p.stage ≠ .crystal → p.stage ≠ .porst → Gives (exec .coldReset s) fun t => cold t ∧ t.power.stage = .held ∧
      t.power.porstLow = true ∧ t.rw .PWR_FAULT = s.rw .PWR_FAULT) ∧
    (s.jtagRuns = false → exec .chipReset s = .next s) ∧
    (s.jtagRuns = true → p.coreLow = false → p.porstLow = false → Gives (exec .chipReset s) fun t => cold t ∧ up t ∧
      t.power.first = true ∧ t.rw .PWR_FAULT = s.rw .PWR_FAULT) ∧
    (p.stage = .held → p.porstLow = false → Gives (exec .coreSupplyReturn s) fun t => up t ∧ t.power.coreLow = false ∧ SameWords s t) ∧
    (s.on F.CLK_REF_STATUS_SYS_LOCK = true → p.coreLow = false → p.porstLow = false → Gives (exec .systemPllUnlock s) fun t => cold t ∧ up t ∧
      t.f F.PWR_FAULT_WHAT = 0x21 ∧ t.f F.PWR_FAULT_SPLL_RST = s.upped F.PWR_FAULT_SPLL_RST) ∧
    (s.f F.PWR_STATUS_STATE = 0 → Gives (exec .spllRstClear s) fun t => t.f F.PWR_FAULT_SPLL_RST = 0 ∧
      (∀ off, off ≠ Reg.PWR_FAULT.addr 0 0 → t.word off = s.word off) ∧ t.sram = s.sram)

/-- DOORBELL, IMAGE_LOADED, WATCHDOG_EXPIRY and SERVICE_CORE_ECC_ERROR (R355 to R359, R361): the boot mailbox, the image's source, and a halt of
the Service Cores.
The model's choices in it: log entries 5, 56. -/
def Obligations.LoaderEvents : Prop :=
  ∀ (a b : Fin 5) (ver : BitVec 32) (port : Fin 5) (s : State),
    let state := fun (t : State) => t.mail 0 1
    let runs := fun (t : State) (src v : Nat) => t.boot.running = true ∧ t.boot.loading = false ∧ t.boot.stopped = false ∧ state t = 3 ∧
      t.mail 1 1 = src ∧ t.mail 4 4 = v
    let x := s.boot
    let loads := x.loading = true
    let halted := fun (t : State) (code : Nat) => t.boot.running = false ∧ t.link.journal = [] ∧ (t.port port).opened = false ∧
      (t.port port).held = [] ∧ t.mail 2 1 = code ∧ t.mail 3 1 = min 255 (s.mail 3 1 + 1) ∧ t.now = s.now ∧
      (((x.halts.filter fun h => decide (s.now ≤ h + 60 * second)).length < 3 → state t = 4 ∧ t.boot.loading = true) ∧
       (3 ≤ (x.halts.filter fun h => decide (s.now ≤ h + 60 * second)).length → state t = 5 ∧ t.boot.stopped = true ∧ t.boot.loading = false))
    (s.resting = false → s.dozing = false → s.access (s.level .port0) 88 = 2 → s.poisoned false 0x18 = false → x.loading = false →
      x.running = false → x.stopped = false → state s = 1 → Gives (exec (.doorbell .clean) s) fun t => t.boot.loading = true ∧ t.boot.source = 1 ∧
        t.mail 0x18 4 = 0 ∧ state t = 2) ∧
    (s.resting = false → s.dozing = false → s.access (s.level .port0) 88 = 2 → s.poisoned false 0x18 = false → x.running = true →
      Gives (exec (.doorbell .clean) s) fun t => t.boot = x ∧ t.mail 0x18 4 = 1) ∧
    (loads → x.source = 2 → a = 0 → Gives (exec (.imageLoaded a b ver) s) fun t => runs t 2 ver.toNat) ∧
    (loads → x.source = 2 → a ≠ 0 → b = 0 → Gives (exec (.imageLoaded a b ver) s) fun t => runs t 3 ver.toNat) ∧
    (loads → x.source = 2 → a ≠ 0 → b ≠ 0 → Gives (exec (.imageLoaded a b ver) s) fun t => t.mail 2 1 = b ∧ (s.mail 0x18 4 ≠ 1 →
      t.boot.loading = false) ∧
      (x.bootsel = 2 → s.mail 0x18 4 ≠ 1 → state t = 1 ∧ t.boot.stopped = x.stopped) ∧ (x.bootsel ≠ 2 → state t = 5 ∧ t.boot.stopped = true)) ∧
    (loads → x.source = 1 → s.imageCode = 0 → Gives (exec (.imageLoaded a b ver) s) fun t => runs t 1 (s.mail (imageBase + 0xC) 4)) ∧
    (loads → x.source = 1 → s.imageCode ≠ 0 → Gives (exec (.imageLoaded a b ver) s) fun t =>
      (x.stopped = true → state t = 5 ∧ t.mail 2 1 = s.imageCode) ∧
      (x.stopped = false → (x.again = false ∨ x.bootsel ≠ 2) → s.mail 0x18 4 ≠ 1 → state t = 1 ∧ t.boot.loading = false ∧ t.mail 2 1 = s.imageCode) ∧
      (x.stopped = false → x.again = true → x.bootsel = 2 → a = 0 → runs t 2 ver.toNat)) ∧
    (x.running = true → Gives (exec .watchdogExpiry s) fun t => halted t 5) ∧
    (x.running = true → Gives (exec .serviceCoreEccError s) fun t => halted t 6)

/-! ### Frames -/

/-- What SECOND, PPS_MISS, CD_EXCHANGE_TX, CDX_RX, CD_REPEAT, ETH_LINK_UP, ETH_LINK_DOWN, ARP_RX, ND_RX, ICMP_ECHO_RX, IRQ_COALESCE_TIMEOUT,
BINDING_APPLY, PCIE_LINK_UP, COEF_UPDATE, OSC_READY, PG_GOOD, SPLL_RST_CLEAR, TREFI_TICK, REFRESH_SET_DONE and EVT_WAIT_TIMEOUT leave: every
register word outside the blocks named, and waveform SRAM, DRAM and data memory, are as they were, whatever the operands. -/
def Obligations.BlockFrames : Prop :=
  (∀ (i : Fin 4) (a b c : BitVec 64) (t0 : Nat) (s t : State),
    ∀ y ∈ [Instr.second, .ppsMiss, .cdExchangeTx i t0, .cdxRx i a b c t0, .cdRepeat i],
      exec y s = .next t → Outside 0x30000 0x40000 s t) ∧
  (∀ (i : Fin 4) (p : Fin 5) (loss : EthLoss) (tg : BitVec 32) (hi lo : Word) (v6 frag : Bool) (width speed : BitVec 4) (s t : State),
    ∀ y ∈ [Instr.ethLinkUp i, .ethLinkDown i loss, .arpRx i tg, .ndRx i hi lo, .icmpEchoRx i v6 frag, .irqCoalesceTimeout,
      .bindingApply p, .pcieLinkUp width speed], exec y s = .next t → Outside 0x70000 0x80000 s t) ∧
  (∀ (core vr sr dr : BitVec 16) (line : Fin 6) (s t : State),
    ∀ y ∈ [Instr.coefUpdate core vr sr dr, .oscReady, .pgGood line, .spllRstClear], exec y s = .next t → Outside 0x10000 0x20000 s t) ∧
  (∀ (ch : Fin 4) (b rank urgent : Bool) (tick : RankTick) (s t : State),
    ∀ y ∈ [Instr.trefiTick ch b tick, .refreshSetDone ch b rank urgent], exec y s = .next t →
      (∀ off, 0x1000 ≤ off → off < 0x60000 ∨ 0x70000 ≤ off → t.word off = s.word off) ∧ t.sram = s.sram ∧ t.dram = s.dram ∧
        t.dmem = s.dmem) ∧
  (∀ (k : Fin 64) (s t : State),
    exec (.evtWaitTimeout k) s = .next t → Outside (0x200000 + k.val * 0x8000) (0x208000 + k.val * 0x8000) s t)
end

