-- ==== Sys2Proof/Laws/Store.lean ====
section
/-! SUPPORT. Laws of sparse stores: a read after a write, and that a write keeps the canonical form. -/

namespace Sys2Proof.Machine

variable {α : Type}

theorem sget_serase_ne (d : Nat → α) (m : List (Nat × α)) {k a : Nat} (h : a ≠ k) : sget d (serase m k) a = sget d m a := by
  induction m with
  | nil => rfl
  | cons p m ih =>
    obtain ⟨b, v⟩ := p
    by_cases hb : b = k
    · subst hb; simp [serase, sget, ih, Ne.symm h]
    · simp only [serase, hb, if_false, sget, ih]

theorem sget_serase_same (d : Nat → α) (m : List (Nat × α)) (k : Nat) : sget d (serase m k) k = d k := by
  induction m with
  | nil => rfl
  | cons p m ih =>
    obtain ⟨b, v⟩ := p
    by_cases hb : b = k <;> simp [serase, sget, hb, ih]

theorem serase_keys (m : List (Nat × α)) (k : Nat) : ∀ p ∈ serase m k, p ∈ m ∧ p.1 ≠ k := by
  induction m with
  | nil => simp [serase]
  | cons p m ih =>
    obtain ⟨b, v⟩ := p
    by_cases hb : b = k
    · simp only [serase, hb, if_true]; intro q hq; exact ⟨.tail _ (ih q hq).1, (ih q hq).2⟩
    · simp only [serase, hb, if_false, List.mem_cons]
      rintro q (rfl | hq)
      · exact ⟨.inl rfl, hb⟩
      · exact ⟨.inr (ih q hq).1, (ih q hq).2⟩

theorem sget_sinsert (d : Nat → α) (m : List (Nat × α)) (k a : Nat) (v : α) (h : ∀ p ∈ m, p.1 ≠ k) :
    sget d (sinsert m k v) a = if a = k then v else sget d m a := by
  induction m with
  | nil => by_cases ha : a = k <;> simp [sinsert, sget, ha, Ne.symm]
  | cons p m ih =>
    obtain ⟨b, w⟩ := p
    have hb : b ≠ k := h (b, w) (by simp)
    have ih := ih fun q hq => h q (by simp [hq])
    by_cases hk : k < b
    · simp only [sinsert, hk, if_true, sget]
      by_cases ha : a = k
      · simp [ha]
      · simp [ha, Ne.symm ha]
    · simp only [sinsert, hk, if_false, sget, ih]
      by_cases ha : a = k
      · subst ha; simp [hb]
      · simp [ha]

variable [DecidableEq α]

/-- A read of the key written gives the value written. -/
@[simp] theorem sget_sput_same (d : Nat → α) (m : List (Nat × α)) (k : Nat) (v : α) : sget d (sput d m k v) k = v := by
  unfold sput
  split
  · next h => rw [sget_serase_same, h]
  · rw [sget_sinsert _ _ _ _ _ fun p hp => (serase_keys m k p hp).2]; simp

/-- A write leaves every other key alone. -/
theorem sget_sput_ne (d : Nat → α) (m : List (Nat × α)) {k a : Nat} (v : α) (h : a ≠ k) : sget d (sput d m k v) a = sget d m a := by
  unfold sput
  split
  · exact sget_serase_ne d m h
  · rw [sget_sinsert _ _ _ _ _ fun p hp => (serase_keys m k p hp).2]; simp [h, sget_serase_ne d m h]

/-- A read after a write, both cases. -/
theorem sget_sput (d : Nat → α) (m : List (Nat × α)) (k a : Nat) (v : α) :
    sget d (sput d m k v) a = if a = k then v else sget d m a := by
  by_cases h : a = k
  · subst h; simp
  · simp [h, sget_sput_ne d m v h]

/-! ### The canonical form -/

omit [DecidableEq α] in
theorem srising_cons {a : Nat} {v : α} {m : List (Nat × α)} : srising ((a, v) :: m) = true ↔ (∀ p ∈ m, a < p.1) ∧ srising m = true := by
  induction m generalizing a v with
  | nil => simp [srising]
  | cons p m ih =>
    obtain ⟨b, w⟩ := p
    simp only [srising, Bool.and_eq_true, decide_eq_true_eq, List.mem_cons, forall_eq_or_imp]
    constructor
    · rintro ⟨h, hr⟩
      exact ⟨⟨h, fun q hq => Nat.lt_trans h ((ih.1 hr).1 q hq)⟩, hr⟩
    · rintro ⟨⟨h, -⟩, hr⟩
      exact ⟨h, hr⟩

theorem sproper_iff {d : Nat → α} {m : List (Nat × α)} : sproper d m = true ↔ ∀ p ∈ m, p.2 ≠ d p.1 := by
  induction m with
  | nil => simp [sproper]
  | cons p m ih => obtain ⟨k, v⟩ := p; simp [sproper, ih]

/-- The canonical form: keys strictly rising, and no entry at its default. -/
theorem swf_iff {d : Nat → α} {m : List (Nat × α)} : swf d m = true ↔ srising m = true ∧ ∀ p ∈ m, p.2 ≠ d p.1 := by
  simp [swf, sproper_iff]

omit [DecidableEq α] in
theorem srising_serase {m : List (Nat × α)} (k : Nat) (h : srising m = true) : srising (serase m k) = true := by
  induction m with
  | nil => rfl
  | cons p m ih =>
    obtain ⟨b, v⟩ := p
    obtain ⟨h1, h2⟩ := srising_cons.1 h
    by_cases hb : b = k
    · simpa [serase, hb] using ih h2
    · simp only [serase, hb, if_false]
      exact srising_cons.2 ⟨fun q hq => h1 q (serase_keys m k q hq).1, ih h2⟩

omit [DecidableEq α] in
theorem mem_sinsert {m : List (Nat × α)} {k : Nat} {v : α} {p : Nat × α} : p ∈ sinsert m k v → p = (k, v) ∨ p ∈ m := by
  induction m with
  | nil => simp [sinsert]
  | cons q m ih =>
    obtain ⟨b, w⟩ := q
    by_cases hk : k < b
    · simp [sinsert, hk]
    · simp only [sinsert, hk, if_false, List.mem_cons]
      rintro (h | h)
      · exact .inr (.inl h)
      · exact (ih h).imp_right .inr

omit [DecidableEq α] in
theorem srising_sinsert {m : List (Nat × α)} {k : Nat} {v : α} (h : srising m = true) (hk : ∀ p ∈ m, p.1 ≠ k) :
    srising (sinsert m k v) = true := by
  induction m with
  | nil => rfl
  | cons q m ih =>
    obtain ⟨b, w⟩ := q
    obtain ⟨h1, h2⟩ := srising_cons.1 h
    by_cases hb : k < b
    · simp only [sinsert, hb, if_true]
      refine srising_cons.2 ⟨?_, h⟩
      rintro p (_ | ⟨_, hp⟩)
      · exact hb
      · exact Nat.lt_trans hb (h1 p hp)
    · simp only [sinsert, hb, if_false]
      refine srising_cons.2 ⟨fun p hp => ?_, ih h2 fun p hp => hk p (by simp [hp])⟩
      rcases mem_sinsert hp with rfl | hp
      · have := hk (b, w) (by simp); simp only at this ⊢; omega
      · exact h1 p hp

/-- A write keeps the canonical form. -/
theorem swf_sput {d : Nat → α} {m : List (Nat × α)} (k : Nat) (v : α) (h : swf d m = true) : swf d (sput d m k v) = true := by
  obtain ⟨h1, h2⟩ := swf_iff.1 h
  have hk := fun p hp => (serase_keys m k p hp).2
  have he : ∀ p ∈ serase m k, p.2 ≠ d p.1 := fun p hp => h2 p (serase_keys m k p hp).1
  unfold sput
  split
  · exact swf_iff.2 ⟨srising_serase k h1, he⟩
  · next hv =>
    refine swf_iff.2 ⟨srising_sinsert (srising_serase k h1) hk, fun p hp => ?_⟩
    rcases mem_sinsert hp with rfl | hp
    · exact hv
    · exact he p hp

omit [DecidableEq α] in
theorem srising_filter {m : List (Nat × α)} (q : Nat × α → Bool) (h : srising m = true) : srising (m.filter q) = true := by
  induction m with
  | nil => rfl
  | cons p m ih =>
    obtain ⟨h1, h2⟩ := srising_cons.1 h
    by_cases hq : q p
    · rw [List.filter_cons_of_pos hq]
      exact srising_cons.2 ⟨fun x hx => h1 x (List.mem_filter.1 hx).1, ih h2⟩
    · rw [List.filter_cons_of_neg hq]; exact ih h2

/-- Forgetting entries keeps the canonical form. -/
theorem swf_filter {d : Nat → α} {m : List (Nat × α)} (q : Nat × α → Bool) (h : swf d m = true) : swf d (m.filter q) = true := by
  obtain ⟨h1, h2⟩ := swf_iff.1 h
  exact swf_iff.2 ⟨srising_filter q h1, fun p hp => h2 p (List.mem_filter.1 hp).1⟩

/-- The canonical form does not depend on the default of keys that are not listed. -/
theorem swf_default {d e : Nat → α} {m : List (Nat × α)} (he : ∀ p ∈ m, d p.1 = e p.1) (h : swf d m = true) : swf e m = true := by
  obtain ⟨h1, h2⟩ := swf_iff.1 h
  exact swf_iff.2 ⟨h1, fun p hp => he p hp ▸ h2 p hp⟩

omit [DecidableEq α] in
/-- A listed entry is what its key reads as. -/
theorem sget_eq_of_mem {d : Nat → α} {m : List (Nat × α)} (h : srising m = true) {k : Nat} {v : α} (hm : (k, v) ∈ m) : sget d m k = v := by
  induction m with
  | nil => cases hm
  | cons p m ih =>
    obtain ⟨b, w⟩ := p
    obtain ⟨h1, h2⟩ := srising_cons.1 h
    rcases List.mem_cons.1 hm with h3 | h3
    · cases h3; simp [sget]
    · have : b ≠ k := fun e => absurd (h1 _ h3) (by simp [e])
      simp [sget, this, ih h2 h3]

/-- What every turn of forN keeps, forN keeps. -/
theorem forN_keeps {σ : Type} {P : σ → Prop} (n : Nat) {f : Nat → σ → σ} (hf : ∀ i s, P s → P (f i s)) {s : σ} (h : P s) : P (forN n f s) := by
  induction n with
  | zero => exact h
  | succ n ih => exact hf n _ ih

end Sys2Proof.Machine
end

