-- ==== Sys2Proof/Laws/Mem.lean ====
section
/-! SUPPORT. The laws of waveform SRAM, DRAM and data memory: what a read gives after a write, and that every operation on the memories
keeps their canonical form. -/

namespace Sys2Proof.Machine

/-! ### One byte -/

theorem byte_setByte (s : State) (d d' : Bool) (a a' : Nat) (b : Byte) :
    (s.setByte d a b).byte d' a' = if d' = d ∧ a' = a then b else s.byte d' a' := by
  cases d <;> cases d' <;> simp [State.byte, State.setByte, State.sramByte, State.dramByte, sget_sput]

@[simp] theorem byte_setByte_same (s : State) (d : Bool) (a : Nat) (b : Byte) : (s.setByte d a b).byte d a = b := by simp [byte_setByte]

theorem byte_setByte_ne (s : State) {d d' : Bool} {a a' : Nat} (b : Byte) (h : d' ≠ d ∨ a' ≠ a) :
    (s.setByte d a b).byte d' a' = s.byte d' a' := by
  rw [byte_setByte, if_neg]; rintro ⟨rfl, rfl⟩; simp at h

/-! ### Several bytes, little-endian -/

theorem byte_writeLE_outside (s : State) (d : Bool) (a v n : Nat) {d' : Bool} {a' : Nat} (h : d' ≠ d ∨ a' < a ∨ a + n ≤ a') :
    (s.writeLE d a v n).byte d' a' = s.byte d' a' := by
  induction n with
  | zero => rfl
  | succ n ih =>
    rw [State.writeLE, byte_setByte_ne _ _ (h.imp id fun h => by omega)]
    exact ih (h.imp id fun h => by omega)

theorem byte_writeLE_inside (s : State) (d : Bool) (a v n : Nat) {i : Nat} (h : i < n) :
    (s.writeLE d a v n).byte d (a + i) = BitVec.ofNat 8 (v / 2 ^ (8 * i)) := by
  induction n with
  | zero => omega
  | succ n ih =>
    rw [State.writeLE]
    by_cases hi : i = n
    · subst hi; simp
    · rw [byte_setByte_ne _ _ (.inr (by omega))]; exact ih (by omega)

/-- Equal bytes give equal numbers. -/
theorem readLE_congr {s t : State} {d : Bool} {a n : Nat} (h : ∀ i, i < n → s.byte d (a + i) = t.byte d (a + i)) :
    s.readLE d a n = t.readLE d a n := by
  induction n with
  | zero => rfl
  | succ n ih => simp only [State.readLE, h n (by omega), ih fun i hi => h i (by omega)]

/-- What was written is read, within the bytes written. -/
theorem readLE_writeLE (s : State) (d : Bool) (a v n : Nat) : (s.writeLE d a v n).readLE d a n = v % 2 ^ (8 * n) := by
  have key : ∀ m, m ≤ n → (s.writeLE d a v n).readLE d a m = v % 2 ^ (8 * m) := by
    intro m
    induction m with
    | zero => intro _; simp [State.readLE, Nat.mod_one]
    | succ m ih =>
      intro hm
      rw [State.readLE, ih (by omega), byte_writeLE_inside s d a v n (by omega), BitVec.toNat_ofNat, show 8 * (m + 1) = 8 * m + 8 by omega,
        Nat.pow_add, Nat.mod_mul, Nat.mul_comm (_ % _)]
  exact key n (Nat.le_refl n)

/-! ### Words -/

@[simp] theorem readWord_writeWord_same (s : State) (d : Bool) (a : Nat) (w : Word) : (s.writeWord d a w).readWord d a = w := by
  have h : (s.writeWord d a w).readLE d a 8 = (s.writeLE d a w.toNat 8).readLE d a 8 := rfl
  rw [State.readWord, h, readLE_writeLE]
  apply BitVec.eq_of_toNat_eq
  simpa using w.isLt

theorem byte_writeWord_outside (s : State) (d : Bool) (a : Nat) (w : Word) {d' : Bool} {a' : Nat} (h : d' ≠ d ∨ a' < a ∨ a + 8 ≤ a') :
    (s.writeWord d a w).byte d' a' = s.byte d' a' := byte_writeLE_outside s d a w.toNat 8 h

theorem readWord_writeWord_apart (s : State) {d d' : Bool} {a a' : Nat} (w : Word) (h : d' ≠ d ∨ a' + 8 ≤ a ∨ a + 8 ≤ a') :
    (s.writeWord d a w).readWord d' a' = s.readWord d' a' := by
  simp only [State.readWord]
  exact congrArg _ (readLE_congr fun i hi => byte_writeWord_outside s d a w (h.imp id fun h => by omega))

@[simp] theorem writeLE_regs (s : State) (d : Bool) (a v n : Nat) : (s.writeLE d a v n).regs = s.regs := by
  induction n with
  | zero => rfl
  | succ n ih => rw [State.writeLE, ← ih]; cases d <;> rfl

@[simp] theorem writeWord_regs (s : State) (d : Bool) (a : Nat) (w : Word) : (s.writeWord d a w).regs = s.regs :=
  writeLE_regs s d a w.toNat 8

@[simp] theorem writeLE_mem (s : State) (d : Bool) (a v n : Nat) : (s.writeLE d a v n).mem = s.mem := by
  induction n with
  | zero => rfl
  | succ n ih => rw [State.writeLE, ← ih]; cases d <;> rfl

@[simp] theorem writeLE_dmem (s : State) (d : Bool) (a v n : Nat) : (s.writeLE d a v n).dmem = s.dmem := by
  induction n with
  | zero => rfl
  | succ n ih => rw [State.writeLE, ← ih]; cases d <;> rfl

@[simp] theorem writeLE_voices (s : State) (d : Bool) (a v n : Nat) : (s.writeLE d a v n).voices = s.voices := by
  induction n with
  | zero => rfl
  | succ n ih => rw [State.writeLE, ← ih]; cases d <;> rfl

@[simp] theorem writeLE_pending (s : State) (d : Bool) (a v n : Nat) : (s.writeLE d a v n).pending = s.pending := by
  induction n with
  | zero => rfl
  | succ n ih => rw [State.writeLE, ← ih]; cases d <;> rfl

/-! ### Data memory -/

@[simp] theorem dmemWord_setDmem_same (s : State) (k i : Nat) (w : Word) : (s.setDmem k i w).dmemWord k i = w := by
  simp [State.dmemWord, State.setDmem]

theorem dmemWord_setDmem_ne (s : State) {k k' i i' : Nat} (w : Word) (h : k' * 4096 + i' ≠ k * 4096 + i) :
    (s.setDmem k i w).dmemWord k' i' = s.dmemWord k' i' := by simp [State.dmemWord, State.setDmem, sget_sput, h]

/-- Words of different cores are different words. -/
theorem dmem_index_ne {k k' i i' : Nat} (hi : i < 4096) (hi' : i' < 4096) (h : k' ≠ k ∨ i' ≠ i) : k' * 4096 + i' ≠ k * 4096 + i := by omega

theorem dmem_wf_setDmem {s : State} (k i : Nat) (w : Word) (h : swf (fun _ => 0#64) s.dmem = true) :
    swf (fun _ => 0#64) (s.setDmem k i w).dmem = true := swf_sput _ _ h

/-! ### The canonical form is kept -/

/-- SRAM and DRAM are canonical. -/
abbrev State.memOk (s : State) : Prop := swf zeroByte s.sram = true ∧ swf s.mem.dramDefault s.dram = true

theorem memory_wf_iff {s : State} : Memory.wf s = true ↔ s.memOk := by simp [Memory.wf, State.memOk]

theorem memOk_congr {s t : State} (h1 : t.sram = s.sram) (h2 : t.dram = s.dram) (h3 : t.mem.gens = s.mem.gens) (h : s.memOk) : t.memOk := by
  have : t.mem.dramDefault = s.mem.dramDefault := by funext a; simp [MemSt.dramDefault, h3]
  simpa [State.memOk, h1, h2, this] using h

theorem memOk_setByte {s : State} (d : Bool) (a : Nat) (b : Byte) (h : s.memOk) : (s.setByte d a b).memOk := by
  cases d
  · exact ⟨swf_sput a b h.1, h.2⟩
  · exact ⟨h.1, swf_sput a b h.2⟩

theorem memOk_writeLE {s : State} (d : Bool) (a v n : Nat) (h : s.memOk) : (s.writeLE d a v n).memOk := by
  induction n with
  | zero => exact h
  | succ n ih => exact memOk_setByte d _ _ ih

theorem memOk_writeWord {s : State} (d : Bool) (a : Nat) (w : Word) (h : s.memOk) : (s.writeWord d a w).memOk :=
  memOk_congr (s := s.writeLE d a w.toNat 8) rfl rfl rfl (memOk_writeLE d a _ 8 h)

theorem memOk_zeroBanks {s : State} (p : Nat → Bool) (h : s.memOk) : (s.zeroBanks p).memOk := ⟨swf_filter _ h.1, h.2⟩

/-- DRAM without the entries of channel c is canonical for whatever its channel c reads as. -/
theorem swf_gens {m : List (Nat × Byte)} {g : MemSt} (c n : Nat) (h : swf g.dramDefault m = true) (x : MemSt)
    (hx : x.gens = sput (fun _ => 0) g.gens c n) : swf x.dramDefault (m.filter fun p => dramChannel p.1 != c) = true := by
  refine swf_default (d := g.dramDefault) (fun p hp => ?_) (swf_filter _ h)
  have hc : dramChannel p.1 ≠ c := by simpa using (List.mem_filter.mp hp).2
  simp [MemSt.dramDefault, dramDefaultOf, hx, sget_sput, hc]

theorem memOk_zeroChannel {s : State} (c : Nat) (h : s.memOk) : (s.zeroChannel c).memOk := ⟨h.1, swf_gens c 0 h.2 _ rfl⟩

theorem memOk_loseDram {s : State} (h : s.memOk) : s.loseDram.memOk := ⟨h.1, by simp [State.loseDram, swf, srising, sproper]⟩

theorem memOk_setRw {s : State} (r : Reg) (w : Word) (i j : Nat) (h : s.memOk) : (s.setRw r w i j).memOk := h
theorem memOk_setF {s : State} (x : Fld) (v i j : Nat) (h : s.memOk) : (s.setF x v i j).memOk := h

end Sys2Proof.Machine
end

