-- ==== Sys2Proof/Laws/Regs.lean ====
section
/-! SUPPORT. Laws of register words and fields: what a field reads after a write of a field. -/

namespace Sys2Proof.Machine

/-! ### Numbers as fields -/

theorem setBits_eq (n hi lo v : Nat) :
    setBits n hi lo v = (n / 2 ^ lo / 2 ^ (hi + 1 - lo) * 2 ^ (hi + 1 - lo) + v % 2 ^ (hi + 1 - lo)) * 2 ^ lo + n % 2 ^ lo := by
  unfold setBits bits
  generalize hw : (2 : Nat) ^ (hi + 1 - lo) = W
  generalize hl : (2 : Nat) ^ lo = L
  have h1 : L * (n / L) + n % L = n := Nat.div_add_mod n L
  have h2 : W * (n / L / W) + n / L % W = n / L := Nat.div_add_mod (n / L) W
  have h3 : n = (n / L / W * W) * L + (n / L % W) * L + n % L := by
    have e : (n / L / W * W) * L + (n / L % W) * L = L * (n / L) := by
      rw [← Nat.add_mul, Nat.mul_comm (n / L / W) W, h2, Nat.mul_comm]
    rw [e, h1]
  have h4 : n - n / L % W * L = (n / L / W * W) * L + n % L := by omega
  rw [h4, Nat.add_mul]; omega

/-- A field reads what was written into it. -/
theorem bits_setBits_same (n v : Nat) {hi lo : Nat} : bits (setBits n hi lo v) hi lo = v % 2 ^ (hi + 1 - lo) := by
  rw [setBits_eq]
  unfold bits
  rw [Nat.add_comm _ (n % 2 ^ lo), Nat.add_mul_div_right _ _ (Nat.two_pow_pos lo), Nat.div_eq_of_lt (Nat.mod_lt _ (Nat.two_pow_pos lo)),
    Nat.zero_add, Nat.mul_comm, Nat.mul_add_mod, Nat.mod_mod]

/-- A field that lies below a written one keeps its value. -/
theorem bits_setBits_below (n v : Nat) {hi lo hi' lo' : Nat} (h : hi' < lo) : bits (setBits n hi lo v) hi' lo' = bits n hi' lo' := by
  by_cases hl : lo' ≤ hi'
  · have e : ∀ x : Nat, bits x hi' lo' = x % 2 ^ lo % 2 ^ (hi' + 1) / 2 ^ lo' := by
      intro x
      have hd : 2 ^ (hi' + 1) ∣ 2 ^ lo := Nat.pow_dvd_pow 2 h
      have hp : (2 : Nat) ^ (hi' + 1) = 2 ^ lo' * 2 ^ (hi' + 1 - lo') := by rw [← Nat.pow_add]; congr 1; omega
      rw [Nat.mod_mod_of_dvd _ hd, bits, hp, Nat.mod_mul_right_div_self]
    rw [e, e, setBits_eq, Nat.mul_comm _ (2 ^ lo), Nat.mul_add_mod, Nat.mod_mod]
  · have : hi' + 1 - lo' = 0 := by omega
    simp [bits, this, Nat.mod_one]

/-- A field that lies above a written one keeps its value. -/
theorem bits_setBits_above (n v : Nat) {hi lo hi' lo' : Nat} (h : hi < lo') (hl : lo ≤ hi + 1) :
    bits (setBits n hi lo v) hi' lo' = bits n hi' lo' := by
  have e : ∀ x : Nat, x / 2 ^ lo' = x / 2 ^ lo / 2 ^ (hi + 1 - lo) / 2 ^ (lo' - (hi + 1)) := by
    intro x
    rw [Nat.div_div_eq_div_mul, Nat.div_div_eq_div_mul, ← Nat.pow_add, ← Nat.pow_add]
    congr 2; omega
  have k : setBits n hi lo v / 2 ^ lo / 2 ^ (hi + 1 - lo) = n / 2 ^ lo / 2 ^ (hi + 1 - lo) := by
    rw [setBits_eq, Nat.add_comm _ (n % 2 ^ lo), Nat.add_mul_div_right _ _ (Nat.two_pow_pos lo),
      Nat.div_eq_of_lt (Nat.mod_lt _ (Nat.two_pow_pos lo)), Nat.zero_add, Nat.add_comm,
      Nat.add_mul_div_right _ _ (Nat.two_pow_pos _), Nat.div_eq_of_lt (Nat.mod_lt _ (Nat.two_pow_pos _)), Nat.zero_add]
  unfold bits
  rw [e, e, k]

/-- A word with a field replaced stays a 64-bit word. -/
theorem setBits_lt {n hi lo v : Nat} (hn : n < 2 ^ 64) (hh : hi < 64) (hl : lo ≤ hi + 1) : setBits n hi lo v < 2 ^ 64 := by
  rw [setBits_eq]
  have hL := Nat.two_pow_pos lo
  have hW := Nat.two_pow_pos (hi + 1 - lo)
  have e : (2 : Nat) ^ 64 = 2 ^ (63 - hi) * 2 ^ (hi + 1 - lo) * 2 ^ lo := by
    rw [← Nat.pow_add, ← Nat.pow_add]; congr 1; omega
  have a : n / 2 ^ lo / 2 ^ (hi + 1 - lo) < 2 ^ (63 - hi) := by
    apply Nat.div_lt_of_lt_mul; apply Nat.div_lt_of_lt_mul
    rw [e] at hn; calc n < _ := hn
      _ = _ := by ring
  have b : v % 2 ^ (hi + 1 - lo) < 2 ^ (hi + 1 - lo) := Nat.mod_lt _ hW
  have c : n % 2 ^ lo < 2 ^ lo := Nat.mod_lt _ hL
  rw [e]
  have d : n / 2 ^ lo / 2 ^ (hi + 1 - lo) * 2 ^ (hi + 1 - lo) + v % 2 ^ (hi + 1 - lo) + 1 ≤ 2 ^ (63 - hi) * 2 ^ (hi + 1 - lo) := by
    calc _ ≤ n / 2 ^ lo / 2 ^ (hi + 1 - lo) * 2 ^ (hi + 1 - lo) + 2 ^ (hi + 1 - lo) := by omega
      _ = (n / 2 ^ lo / 2 ^ (hi + 1 - lo) + 1) * 2 ^ (hi + 1 - lo) := by ring
      _ ≤ _ := Nat.mul_le_mul_right _ a
  calc _ < (n / 2 ^ lo / 2 ^ (hi + 1 - lo) * 2 ^ (hi + 1 - lo) + v % 2 ^ (hi + 1 - lo)) * 2 ^ lo + 2 ^ lo := by omega
    _ = (n / 2 ^ lo / 2 ^ (hi + 1 - lo) * 2 ^ (hi + 1 - lo) + v % 2 ^ (hi + 1 - lo) + 1) * 2 ^ lo := by ring
    _ ≤ _ := Nat.mul_le_mul_right _ d

/-! ### Register words -/

@[simp] theorem word_setWord_same (s : State) (o : Nat) (w : Word) : (s.setWord o w).word o = w := by simp [State.word, State.setWord]

theorem word_setWord_ne (s : State) {o o' : Nat} (w : Word) (h : o' ≠ o) : (s.setWord o w).word o' = s.word o' := by
  simp [State.word, State.setWord, sget_sput_ne _ _ _ h]

@[simp] theorem rw_setRw_same (s : State) (r : Reg) (w : Word) (i j : Nat) : (s.setRw r w i j).rw r i j = w := by simp [State.rw, State.setRw]

theorem rw_setRw_ne (s : State) {r r' : Reg} (w : Word) {i j i' j' : Nat} (h : r'.addr i' j' ≠ r.addr i j) :
    (s.setRw r w i j).rw r' i' j' = s.rw r' i' j' := by simp [State.rw, State.setRw, word_setWord_ne s w h]

/-! ### Fields -/

/-- A field of a 64-bit register. -/
def Fld.ok (x : Fld) : Prop := x.hi < 64 ∧ x.lo ≤ x.hi

/-- Two fields that share no bit. -/
def Fld.apart (x y : Fld) : Prop := x.hi < y.lo ∨ y.hi < x.lo

theorem setF_toNat (s : State) (x : Fld) (v i j : Nat) (h : x.ok) :
    ((s.setF x v i j).rw x.reg i j).toNat = setBits (s.rw x.reg i j).toNat x.hi x.lo v := by
  have := setBits_lt (v := v) (s.rw x.reg i j).isLt h.1 (Nat.le_succ_of_le h.2)
  simp only [State.setF, rw_setRw_same, BitVec.toNat_ofNat]
  exact Nat.mod_eq_of_lt this

/-- A field reads what was put into it, cut to its width. -/
theorem f_setF_same (s : State) (x : Fld) (v i j : Nat) (h : x.ok) : (s.setF x v i j).f x i j = v % 2 ^ (x.hi + 1 - x.lo) := by
  rw [State.f, setF_toNat s x v i j h, bits_setBits_same]

/-- Putting a value into a field leaves every field of another register. -/
theorem f_setF_ne (s : State) {x y : Fld} (v : Nat) {i j i' j' : Nat} (h : y.reg.addr i' j' ≠ x.reg.addr i j) :
    (s.setF x v i j).f y i' j' = s.f y i' j' := by simp [State.f, State.setF, rw_setRw_ne s _ h]

/-- Putting a value into a field leaves the register's other fields. -/
theorem f_setF_apart (s : State) {x y : Fld} (v i j : Nat) (hx : x.ok) (hr : y.reg = x.reg) (h : x.apart y) :
    (s.setF x v i j).f y i j = s.f y i j := by
  unfold State.f
  rw [hr, setF_toNat s x v i j hx]
  rcases h with h | h
  · exact bits_setBits_above _ _ h (Nat.le_succ_of_le hx.2)
  · exact bits_setBits_below _ _ h

/-- Putting a word into a register leaves every field of another register. -/
theorem f_setRw_ne (s : State) {r : Reg} {y : Fld} (w : Word) {i j i' j' : Nat} (h : y.reg.addr i' j' ≠ r.addr i j) :
    (s.setRw r w i j).f y i' j' = s.f y i' j' := by simp [State.f, rw_setRw_ne s w h]

/-- Register words depend on the register file alone. -/
theorem rw_congr {s t : State} (h : s.regs = t.regs) (r : Reg) (i j : Nat) : s.rw r i j = t.rw r i j := by simp [State.rw, State.word, h]

theorem f_congr {s t : State} (h : s.regs = t.regs) (x : Fld) (i j : Nat) : s.f x i j = t.f x i j := by simp [State.f, rw_congr h]

/-! ### The register file keeps its canonical form -/

/-- The register file lists offsets in rising order and no register at its reset value. -/
def State.regsWf (s : State) : Prop := swf resetAt s.regs = true

theorem regsWf_setWord {s : State} (o : Nat) (w : Word) (h : s.regsWf) : (s.setWord o w).regsWf := swf_sput o w h
theorem regsWf_setRw {s : State} (r : Reg) (w : Word) (i j : Nat) (h : s.regsWf) : (s.setRw r w i j).regsWf := swf_sput _ w h
theorem regsWf_setF {s : State} (x : Fld) (v i j : Nat) (h : s.regsWf) : (s.setF x v i j).regsWf := swf_sput _ _ h

end Sys2Proof.Machine
end

