-- ==== Sys2Proof/Laws/State.lean ====
section
/-! SUPPORT. What the named updates of State leave alone, one lemma per field, and what numbered hidden state reads after an update. -/

namespace Sys2Proof.Machine

/-! ### Register updates touch the register file alone -/

@[simp] theorem setWord_pending (s : State) (o : Nat) (w : Word) : (s.setWord o w).pending = s.pending := rfl
@[simp] theorem setWord_fabric (s : State) (o : Nat) (w : Word) : (s.setWord o w).fabric = s.fabric := rfl
@[simp] theorem setWord_chans (s : State) (o : Nat) (w : Word) : (s.setWord o w).chans = s.chans := rfl
@[simp] theorem setWord_voices (s : State) (o : Nat) (w : Word) : (s.setWord o w).voices = s.voices := rfl
@[simp] theorem setWord_cores (s : State) (o : Nat) (w : Word) : (s.setWord o w).cores = s.cores := rfl
@[simp] theorem setWord_dmem (s : State) (o : Nat) (w : Word) : (s.setWord o w).dmem = s.dmem := rfl
@[simp] theorem setWord_bindings (s : State) (o : Nat) (w : Word) : (s.setWord o w).bindings = s.bindings := rfl
@[simp] theorem setWord_buffers (s : State) (o : Nat) (w : Word) : (s.setWord o w).buffers = s.buffers := rfl
@[simp] theorem setWord_trigOuts (s : State) (o : Nat) (w : Word) : (s.setWord o w).trigOuts = s.trigOuts := rfl
@[simp] theorem setWord_trigIns (s : State) (o : Nat) (w : Word) : (s.setWord o w).trigIns = s.trigIns := rfl
@[simp] theorem setWord_sram (s : State) (o : Nat) (w : Word) : (s.setWord o w).sram = s.sram := rfl
@[simp] theorem setWord_dram (s : State) (o : Nat) (w : Word) : (s.setWord o w).dram = s.dram := rfl
@[simp] theorem setWord_poison (s : State) (o : Nat) (w : Word) : (s.setWord o w).poison = s.poison := rfl
@[simp] theorem setWord_cals (s : State) (o : Nat) (w : Word) : (s.setWord o w).cals = s.cals := rfl
@[simp] theorem setWord_calStoreAgain (s : State) (o : Nat) (w : Word) : (s.setWord o w).calStoreAgain = s.calStoreAgain := rfl
@[simp] theorem setWord_mem (s : State) (o : Nat) (w : Word) : (s.setWord o w).mem = s.mem := rfl
@[simp] theorem setWord_ports (s : State) (o : Nat) (w : Word) : (s.setWord o w).ports = s.ports := rfl
@[simp] theorem setWord_link (s : State) (o : Nat) (w : Word) : (s.setWord o w).link = s.link := rfl
@[simp] theorem setWord_bus (s : State) (o : Nat) (w : Word) : (s.setWord o w).bus = s.bus := rfl
@[simp] theorem setWord_clock (s : State) (o : Nat) (w : Word) : (s.setWord o w).clock = s.clock := rfl
@[simp] theorem setWord_time (s : State) (o : Nat) (w : Word) : (s.setWord o w).time = s.time := rfl
@[simp] theorem setWord_power (s : State) (o : Nat) (w : Word) : (s.setWord o w).power = s.power := rfl
@[simp] theorem setWord_boot (s : State) (o : Nat) (w : Word) : (s.setWord o w).boot = s.boot := rfl
@[simp] theorem setWord_choice (s : State) (o : Nat) (w : Word) : (s.setWord o w).choice = s.choice := rfl

@[simp] theorem setRw_pending (s : State) (r : Reg) (w : Word) (i j : Nat) : (s.setRw r w i j).pending = s.pending := rfl
@[simp] theorem setRw_fabric (s : State) (r : Reg) (w : Word) (i j : Nat) : (s.setRw r w i j).fabric = s.fabric := rfl
@[simp] theorem setRw_chans (s : State) (r : Reg) (w : Word) (i j : Nat) : (s.setRw r w i j).chans = s.chans := rfl
@[simp] theorem setRw_voices (s : State) (r : Reg) (w : Word) (i j : Nat) : (s.setRw r w i j).voices = s.voices := rfl
@[simp] theorem setRw_cores (s : State) (r : Reg) (w : Word) (i j : Nat) : (s.setRw r w i j).cores = s.cores := rfl
@[simp] theorem setRw_dmem (s : State) (r : Reg) (w : Word) (i j : Nat) : (s.setRw r w i j).dmem = s.dmem := rfl
@[simp] theorem setRw_bindings (s : State) (r : Reg) (w : Word) (i j : Nat) : (s.setRw r w i j).bindings = s.bindings := rfl
@[simp] theorem setRw_buffers (s : State) (r : Reg) (w : Word) (i j : Nat) : (s.setRw r w i j).buffers = s.buffers := rfl
@[simp] theorem setRw_trigOuts (s : State) (r : Reg) (w : Word) (i j : Nat) : (s.setRw r w i j).trigOuts = s.trigOuts := rfl
@[simp] theorem setRw_trigIns (s : State) (r : Reg) (w : Word) (i j : Nat) : (s.setRw r w i j).trigIns = s.trigIns := rfl
@[simp] theorem setRw_sram (s : State) (r : Reg) (w : Word) (i j : Nat) : (s.setRw r w i j).sram = s.sram := rfl
@[simp] theorem setRw_dram (s : State) (r : Reg) (w : Word) (i j : Nat) : (s.setRw r w i j).dram = s.dram := rfl
@[simp] theorem setRw_poison (s : State) (r : Reg) (w : Word) (i j : Nat) : (s.setRw r w i j).poison = s.poison := rfl
@[simp] theorem setRw_cals (s : State) (r : Reg) (w : Word) (i j : Nat) : (s.setRw r w i j).cals = s.cals := rfl
@[simp] theorem setRw_calStoreAgain (s : State) (r : Reg) (w : Word) (i j : Nat) : (s.setRw r w i j).calStoreAgain = s.calStoreAgain := rfl
@[simp] theorem setRw_mem (s : State) (r : Reg) (w : Word) (i j : Nat) : (s.setRw r w i j).mem = s.mem := rfl
@[simp] theorem setRw_ports (s : State) (r : Reg) (w : Word) (i j : Nat) : (s.setRw r w i j).ports = s.ports := rfl
@[simp] theorem setRw_link (s : State) (r : Reg) (w : Word) (i j : Nat) : (s.setRw r w i j).link = s.link := rfl
@[simp] theorem setRw_bus (s : State) (r : Reg) (w : Word) (i j : Nat) : (s.setRw r w i j).bus = s.bus := rfl
@[simp] theorem setRw_clock (s : State) (r : Reg) (w : Word) (i j : Nat) : (s.setRw r w i j).clock = s.clock := rfl
@[simp] theorem setRw_time (s : State) (r : Reg) (w : Word) (i j : Nat) : (s.setRw r w i j).time = s.time := rfl
@[simp] theorem setRw_power (s : State) (r : Reg) (w : Word) (i j : Nat) : (s.setRw r w i j).power = s.power := rfl
@[simp] theorem setRw_boot (s : State) (r : Reg) (w : Word) (i j : Nat) : (s.setRw r w i j).boot = s.boot := rfl
@[simp] theorem setRw_choice (s : State) (r : Reg) (w : Word) (i j : Nat) : (s.setRw r w i j).choice = s.choice := rfl

@[simp] theorem setF_pending (s : State) (x : Fld) (v i j : Nat) : (s.setF x v i j).pending = s.pending := rfl
@[simp] theorem setF_fabric (s : State) (x : Fld) (v i j : Nat) : (s.setF x v i j).fabric = s.fabric := rfl
@[simp] theorem setF_chans (s : State) (x : Fld) (v i j : Nat) : (s.setF x v i j).chans = s.chans := rfl
@[simp] theorem setF_voices (s : State) (x : Fld) (v i j : Nat) : (s.setF x v i j).voices = s.voices := rfl
@[simp] theorem setF_cores (s : State) (x : Fld) (v i j : Nat) : (s.setF x v i j).cores = s.cores := rfl
@[simp] theorem setF_dmem (s : State) (x : Fld) (v i j : Nat) : (s.setF x v i j).dmem = s.dmem := rfl
@[simp] theorem setF_bindings (s : State) (x : Fld) (v i j : Nat) : (s.setF x v i j).bindings = s.bindings := rfl
@[simp] theorem setF_buffers (s : State) (x : Fld) (v i j : Nat) : (s.setF x v i j).buffers = s.buffers := rfl
@[simp] theorem setF_trigOuts (s : State) (x : Fld) (v i j : Nat) : (s.setF x v i j).trigOuts = s.trigOuts := rfl
@[simp] theorem setF_trigIns (s : State) (x : Fld) (v i j : Nat) : (s.setF x v i j).trigIns = s.trigIns := rfl
@[simp] theorem setF_sram (s : State) (x : Fld) (v i j : Nat) : (s.setF x v i j).sram = s.sram := rfl
@[simp] theorem setF_dram (s : State) (x : Fld) (v i j : Nat) : (s.setF x v i j).dram = s.dram := rfl
@[simp] theorem setF_poison (s : State) (x : Fld) (v i j : Nat) : (s.setF x v i j).poison = s.poison := rfl
@[simp] theorem setF_cals (s : State) (x : Fld) (v i j : Nat) : (s.setF x v i j).cals = s.cals := rfl
@[simp] theorem setF_calStoreAgain (s : State) (x : Fld) (v i j : Nat) : (s.setF x v i j).calStoreAgain = s.calStoreAgain := rfl
@[simp] theorem setF_mem (s : State) (x : Fld) (v i j : Nat) : (s.setF x v i j).mem = s.mem := rfl
@[simp] theorem setF_ports (s : State) (x : Fld) (v i j : Nat) : (s.setF x v i j).ports = s.ports := rfl
@[simp] theorem setF_link (s : State) (x : Fld) (v i j : Nat) : (s.setF x v i j).link = s.link := rfl
@[simp] theorem setF_bus (s : State) (x : Fld) (v i j : Nat) : (s.setF x v i j).bus = s.bus := rfl
@[simp] theorem setF_clock (s : State) (x : Fld) (v i j : Nat) : (s.setF x v i j).clock = s.clock := rfl
@[simp] theorem setF_time (s : State) (x : Fld) (v i j : Nat) : (s.setF x v i j).time = s.time := rfl
@[simp] theorem setF_power (s : State) (x : Fld) (v i j : Nat) : (s.setF x v i j).power = s.power := rfl
@[simp] theorem setF_boot (s : State) (x : Fld) (v i j : Nat) : (s.setF x v i j).boot = s.boot := rfl
@[simp] theorem setF_choice (s : State) (x : Fld) (v i j : Nat) : (s.setF x v i j).choice = s.choice := rfl

@[simp] theorem flag_pending (s : State) (x : Fld) (i j : Nat) : (s.flag x i j).pending = s.pending := rfl
@[simp] theorem flag_fabric (s : State) (x : Fld) (i j : Nat) : (s.flag x i j).fabric = s.fabric := rfl
@[simp] theorem flag_chans (s : State) (x : Fld) (i j : Nat) : (s.flag x i j).chans = s.chans := rfl
@[simp] theorem flag_voices (s : State) (x : Fld) (i j : Nat) : (s.flag x i j).voices = s.voices := rfl
@[simp] theorem flag_cores (s : State) (x : Fld) (i j : Nat) : (s.flag x i j).cores = s.cores := rfl
@[simp] theorem flag_dmem (s : State) (x : Fld) (i j : Nat) : (s.flag x i j).dmem = s.dmem := rfl
@[simp] theorem flag_bindings (s : State) (x : Fld) (i j : Nat) : (s.flag x i j).bindings = s.bindings := rfl
@[simp] theorem flag_buffers (s : State) (x : Fld) (i j : Nat) : (s.flag x i j).buffers = s.buffers := rfl
@[simp] theorem flag_trigOuts (s : State) (x : Fld) (i j : Nat) : (s.flag x i j).trigOuts = s.trigOuts := rfl
@[simp] theorem flag_trigIns (s : State) (x : Fld) (i j : Nat) : (s.flag x i j).trigIns = s.trigIns := rfl
@[simp] theorem flag_sram (s : State) (x : Fld) (i j : Nat) : (s.flag x i j).sram = s.sram := rfl
@[simp] theorem flag_dram (s : State) (x : Fld) (i j : Nat) : (s.flag x i j).dram = s.dram := rfl
@[simp] theorem flag_poison (s : State) (x : Fld) (i j : Nat) : (s.flag x i j).poison = s.poison := rfl
@[simp] theorem flag_cals (s : State) (x : Fld) (i j : Nat) : (s.flag x i j).cals = s.cals := rfl
@[simp] theorem flag_calStoreAgain (s : State) (x : Fld) (i j : Nat) : (s.flag x i j).calStoreAgain = s.calStoreAgain := rfl
@[simp] theorem flag_mem (s : State) (x : Fld) (i j : Nat) : (s.flag x i j).mem = s.mem := rfl
@[simp] theorem flag_ports (s : State) (x : Fld) (i j : Nat) : (s.flag x i j).ports = s.ports := rfl
@[simp] theorem flag_link (s : State) (x : Fld) (i j : Nat) : (s.flag x i j).link = s.link := rfl
@[simp] theorem flag_bus (s : State) (x : Fld) (i j : Nat) : (s.flag x i j).bus = s.bus := rfl
@[simp] theorem flag_clock (s : State) (x : Fld) (i j : Nat) : (s.flag x i j).clock = s.clock := rfl
@[simp] theorem flag_time (s : State) (x : Fld) (i j : Nat) : (s.flag x i j).time = s.time := rfl
@[simp] theorem flag_power (s : State) (x : Fld) (i j : Nat) : (s.flag x i j).power = s.power := rfl
@[simp] theorem flag_boot (s : State) (x : Fld) (i j : Nat) : (s.flag x i j).boot = s.boot := rfl
@[simp] theorem flag_choice (s : State) (x : Fld) (i j : Nat) : (s.flag x i j).choice = s.choice := rfl

@[simp] theorem clr_pending (s : State) (x : Fld) (i j : Nat) : (s.clr x i j).pending = s.pending := rfl
@[simp] theorem clr_fabric (s : State) (x : Fld) (i j : Nat) : (s.clr x i j).fabric = s.fabric := rfl
@[simp] theorem clr_chans (s : State) (x : Fld) (i j : Nat) : (s.clr x i j).chans = s.chans := rfl
@[simp] theorem clr_voices (s : State) (x : Fld) (i j : Nat) : (s.clr x i j).voices = s.voices := rfl
@[simp] theorem clr_cores (s : State) (x : Fld) (i j : Nat) : (s.clr x i j).cores = s.cores := rfl
@[simp] theorem clr_dmem (s : State) (x : Fld) (i j : Nat) : (s.clr x i j).dmem = s.dmem := rfl
@[simp] theorem clr_bindings (s : State) (x : Fld) (i j : Nat) : (s.clr x i j).bindings = s.bindings := rfl
@[simp] theorem clr_buffers (s : State) (x : Fld) (i j : Nat) : (s.clr x i j).buffers = s.buffers := rfl
@[simp] theorem clr_trigOuts (s : State) (x : Fld) (i j : Nat) : (s.clr x i j).trigOuts = s.trigOuts := rfl
@[simp] theorem clr_trigIns (s : State) (x : Fld) (i j : Nat) : (s.clr x i j).trigIns = s.trigIns := rfl
@[simp] theorem clr_sram (s : State) (x : Fld) (i j : Nat) : (s.clr x i j).sram = s.sram := rfl
@[simp] theorem clr_dram (s : State) (x : Fld) (i j : Nat) : (s.clr x i j).dram = s.dram := rfl
@[simp] theorem clr_poison (s : State) (x : Fld) (i j : Nat) : (s.clr x i j).poison = s.poison := rfl
@[simp] theorem clr_cals (s : State) (x : Fld) (i j : Nat) : (s.clr x i j).cals = s.cals := rfl
@[simp] theorem clr_calStoreAgain (s : State) (x : Fld) (i j : Nat) : (s.clr x i j).calStoreAgain = s.calStoreAgain := rfl
@[simp] theorem clr_mem (s : State) (x : Fld) (i j : Nat) : (s.clr x i j).mem = s.mem := rfl
@[simp] theorem clr_ports (s : State) (x : Fld) (i j : Nat) : (s.clr x i j).ports = s.ports := rfl
@[simp] theorem clr_link (s : State) (x : Fld) (i j : Nat) : (s.clr x i j).link = s.link := rfl
@[simp] theorem clr_bus (s : State) (x : Fld) (i j : Nat) : (s.clr x i j).bus = s.bus := rfl
@[simp] theorem clr_clock (s : State) (x : Fld) (i j : Nat) : (s.clr x i j).clock = s.clock := rfl
@[simp] theorem clr_time (s : State) (x : Fld) (i j : Nat) : (s.clr x i j).time = s.time := rfl
@[simp] theorem clr_power (s : State) (x : Fld) (i j : Nat) : (s.clr x i j).power = s.power := rfl
@[simp] theorem clr_boot (s : State) (x : Fld) (i j : Nat) : (s.clr x i j).boot = s.boot := rfl
@[simp] theorem clr_choice (s : State) (x : Fld) (i j : Nat) : (s.clr x i j).choice = s.choice := rfl

@[simp] theorem setB_pending (s : State) (x : Fld) (b : Bool) (i j : Nat) : (s.setB x b i j).pending = s.pending := rfl
@[simp] theorem setB_fabric (s : State) (x : Fld) (b : Bool) (i j : Nat) : (s.setB x b i j).fabric = s.fabric := rfl
@[simp] theorem setB_chans (s : State) (x : Fld) (b : Bool) (i j : Nat) : (s.setB x b i j).chans = s.chans := rfl
@[simp] theorem setB_voices (s : State) (x : Fld) (b : Bool) (i j : Nat) : (s.setB x b i j).voices = s.voices := rfl
@[simp] theorem setB_cores (s : State) (x : Fld) (b : Bool) (i j : Nat) : (s.setB x b i j).cores = s.cores := rfl
@[simp] theorem setB_dmem (s : State) (x : Fld) (b : Bool) (i j : Nat) : (s.setB x b i j).dmem = s.dmem := rfl
@[simp] theorem setB_bindings (s : State) (x : Fld) (b : Bool) (i j : Nat) : (s.setB x b i j).bindings = s.bindings := rfl
@[simp] theorem setB_buffers (s : State) (x : Fld) (b : Bool) (i j : Nat) : (s.setB x b i j).buffers = s.buffers := rfl
@[simp] theorem setB_trigOuts (s : State) (x : Fld) (b : Bool) (i j : Nat) : (s.setB x b i j).trigOuts = s.trigOuts := rfl
@[simp] theorem setB_trigIns (s : State) (x : Fld) (b : Bool) (i j : Nat) : (s.setB x b i j).trigIns = s.trigIns := rfl
@[simp] theorem setB_sram (s : State) (x : Fld) (b : Bool) (i j : Nat) : (s.setB x b i j).sram = s.sram := rfl
@[simp] theorem setB_dram (s : State) (x : Fld) (b : Bool) (i j : Nat) : (s.setB x b i j).dram = s.dram := rfl
@[simp] theorem setB_poison (s : State) (x : Fld) (b : Bool) (i j : Nat) : (s.setB x b i j).poison = s.poison := rfl
@[simp] theorem setB_cals (s : State) (x : Fld) (b : Bool) (i j : Nat) : (s.setB x b i j).cals = s.cals := rfl
@[simp] theorem setB_calStoreAgain (s : State) (x : Fld) (b : Bool) (i j : Nat) : (s.setB x b i j).calStoreAgain = s.calStoreAgain := rfl
@[simp] theorem setB_mem (s : State) (x : Fld) (b : Bool) (i j : Nat) : (s.setB x b i j).mem = s.mem := rfl
@[simp] theorem setB_ports (s : State) (x : Fld) (b : Bool) (i j : Nat) : (s.setB x b i j).ports = s.ports := rfl
@[simp] theorem setB_link (s : State) (x : Fld) (b : Bool) (i j : Nat) : (s.setB x b i j).link = s.link := rfl
@[simp] theorem setB_bus (s : State) (x : Fld) (b : Bool) (i j : Nat) : (s.setB x b i j).bus = s.bus := rfl
@[simp] theorem setB_clock (s : State) (x : Fld) (b : Bool) (i j : Nat) : (s.setB x b i j).clock = s.clock := rfl
@[simp] theorem setB_time (s : State) (x : Fld) (b : Bool) (i j : Nat) : (s.setB x b i j).time = s.time := rfl
@[simp] theorem setB_power (s : State) (x : Fld) (b : Bool) (i j : Nat) : (s.setB x b i j).power = s.power := rfl
@[simp] theorem setB_boot (s : State) (x : Fld) (b : Bool) (i j : Nat) : (s.setB x b i j).boot = s.boot := rfl
@[simp] theorem setB_choice (s : State) (x : Fld) (b : Bool) (i j : Nat) : (s.setB x b i j).choice = s.choice := rfl

@[simp] theorem bumpBy_pending (s : State) (x : Fld) (k i j : Nat) : (s.bumpBy x k i j).pending = s.pending := rfl
@[simp] theorem bumpBy_fabric (s : State) (x : Fld) (k i j : Nat) : (s.bumpBy x k i j).fabric = s.fabric := rfl
@[simp] theorem bumpBy_chans (s : State) (x : Fld) (k i j : Nat) : (s.bumpBy x k i j).chans = s.chans := rfl
@[simp] theorem bumpBy_voices (s : State) (x : Fld) (k i j : Nat) : (s.bumpBy x k i j).voices = s.voices := rfl
@[simp] theorem bumpBy_cores (s : State) (x : Fld) (k i j : Nat) : (s.bumpBy x k i j).cores = s.cores := rfl
@[simp] theorem bumpBy_dmem (s : State) (x : Fld) (k i j : Nat) : (s.bumpBy x k i j).dmem = s.dmem := rfl
@[simp] theorem bumpBy_bindings (s : State) (x : Fld) (k i j : Nat) : (s.bumpBy x k i j).bindings = s.bindings := rfl
@[simp] theorem bumpBy_buffers (s : State) (x : Fld) (k i j : Nat) : (s.bumpBy x k i j).buffers = s.buffers := rfl
@[simp] theorem bumpBy_trigOuts (s : State) (x : Fld) (k i j : Nat) : (s.bumpBy x k i j).trigOuts = s.trigOuts := rfl
@[simp] theorem bumpBy_trigIns (s : State) (x : Fld) (k i j : Nat) : (s.bumpBy x k i j).trigIns = s.trigIns := rfl
@[simp] theorem bumpBy_sram (s : State) (x : Fld) (k i j : Nat) : (s.bumpBy x k i j).sram = s.sram := rfl
@[simp] theorem bumpBy_dram (s : State) (x : Fld) (k i j : Nat) : (s.bumpBy x k i j).dram = s.dram := rfl
@[simp] theorem bumpBy_poison (s : State) (x : Fld) (k i j : Nat) : (s.bumpBy x k i j).poison = s.poison := rfl
@[simp] theorem bumpBy_cals (s : State) (x : Fld) (k i j : Nat) : (s.bumpBy x k i j).cals = s.cals := rfl
@[simp] theorem bumpBy_calStoreAgain (s : State) (x : Fld) (k i j : Nat) : (s.bumpBy x k i j).calStoreAgain = s.calStoreAgain := rfl
@[simp] theorem bumpBy_mem (s : State) (x : Fld) (k i j : Nat) : (s.bumpBy x k i j).mem = s.mem := rfl
@[simp] theorem bumpBy_ports (s : State) (x : Fld) (k i j : Nat) : (s.bumpBy x k i j).ports = s.ports := rfl
@[simp] theorem bumpBy_link (s : State) (x : Fld) (k i j : Nat) : (s.bumpBy x k i j).link = s.link := rfl
@[simp] theorem bumpBy_bus (s : State) (x : Fld) (k i j : Nat) : (s.bumpBy x k i j).bus = s.bus := rfl
@[simp] theorem bumpBy_clock (s : State) (x : Fld) (k i j : Nat) : (s.bumpBy x k i j).clock = s.clock := rfl
@[simp] theorem bumpBy_time (s : State) (x : Fld) (k i j : Nat) : (s.bumpBy x k i j).time = s.time := rfl
@[simp] theorem bumpBy_power (s : State) (x : Fld) (k i j : Nat) : (s.bumpBy x k i j).power = s.power := rfl
@[simp] theorem bumpBy_boot (s : State) (x : Fld) (k i j : Nat) : (s.bumpBy x k i j).boot = s.boot := rfl
@[simp] theorem bumpBy_choice (s : State) (x : Fld) (k i j : Nat) : (s.bumpBy x k i j).choice = s.choice := rfl

@[simp] theorem bump_pending (s : State) (x : Fld) (i j : Nat) : (s.bump x i j).pending = s.pending := rfl
@[simp] theorem bump_fabric (s : State) (x : Fld) (i j : Nat) : (s.bump x i j).fabric = s.fabric := rfl
@[simp] theorem bump_chans (s : State) (x : Fld) (i j : Nat) : (s.bump x i j).chans = s.chans := rfl
@[simp] theorem bump_voices (s : State) (x : Fld) (i j : Nat) : (s.bump x i j).voices = s.voices := rfl
@[simp] theorem bump_cores (s : State) (x : Fld) (i j : Nat) : (s.bump x i j).cores = s.cores := rfl
@[simp] theorem bump_dmem (s : State) (x : Fld) (i j : Nat) : (s.bump x i j).dmem = s.dmem := rfl
@[simp] theorem bump_bindings (s : State) (x : Fld) (i j : Nat) : (s.bump x i j).bindings = s.bindings := rfl
@[simp] theorem bump_buffers (s : State) (x : Fld) (i j : Nat) : (s.bump x i j).buffers = s.buffers := rfl
@[simp] theorem bump_trigOuts (s : State) (x : Fld) (i j : Nat) : (s.bump x i j).trigOuts = s.trigOuts := rfl
@[simp] theorem bump_trigIns (s : State) (x : Fld) (i j : Nat) : (s.bump x i j).trigIns = s.trigIns := rfl
@[simp] theorem bump_sram (s : State) (x : Fld) (i j : Nat) : (s.bump x i j).sram = s.sram := rfl
@[simp] theorem bump_dram (s : State) (x : Fld) (i j : Nat) : (s.bump x i j).dram = s.dram := rfl
@[simp] theorem bump_poison (s : State) (x : Fld) (i j : Nat) : (s.bump x i j).poison = s.poison := rfl
@[simp] theorem bump_cals (s : State) (x : Fld) (i j : Nat) : (s.bump x i j).cals = s.cals := rfl
@[simp] theorem bump_calStoreAgain (s : State) (x : Fld) (i j : Nat) : (s.bump x i j).calStoreAgain = s.calStoreAgain := rfl
@[simp] theorem bump_mem (s : State) (x : Fld) (i j : Nat) : (s.bump x i j).mem = s.mem := rfl
@[simp] theorem bump_ports (s : State) (x : Fld) (i j : Nat) : (s.bump x i j).ports = s.ports := rfl
@[simp] theorem bump_link (s : State) (x : Fld) (i j : Nat) : (s.bump x i j).link = s.link := rfl
@[simp] theorem bump_bus (s : State) (x : Fld) (i j : Nat) : (s.bump x i j).bus = s.bus := rfl
@[simp] theorem bump_clock (s : State) (x : Fld) (i j : Nat) : (s.bump x i j).clock = s.clock := rfl
@[simp] theorem bump_time (s : State) (x : Fld) (i j : Nat) : (s.bump x i j).time = s.time := rfl
@[simp] theorem bump_power (s : State) (x : Fld) (i j : Nat) : (s.bump x i j).power = s.power := rfl
@[simp] theorem bump_boot (s : State) (x : Fld) (i j : Nat) : (s.bump x i j).boot = s.boot := rfl
@[simp] theorem bump_choice (s : State) (x : Fld) (i j : Nat) : (s.bump x i j).choice = s.choice := rfl

@[simp] theorem tick_pending (s : State) (x : Fld) (i j : Nat) : (s.tick x i j).pending = s.pending := rfl
@[simp] theorem tick_fabric (s : State) (x : Fld) (i j : Nat) : (s.tick x i j).fabric = s.fabric := rfl
@[simp] theorem tick_chans (s : State) (x : Fld) (i j : Nat) : (s.tick x i j).chans = s.chans := rfl
@[simp] theorem tick_voices (s : State) (x : Fld) (i j : Nat) : (s.tick x i j).voices = s.voices := rfl
@[simp] theorem tick_cores (s : State) (x : Fld) (i j : Nat) : (s.tick x i j).cores = s.cores := rfl
@[simp] theorem tick_dmem (s : State) (x : Fld) (i j : Nat) : (s.tick x i j).dmem = s.dmem := rfl
@[simp] theorem tick_bindings (s : State) (x : Fld) (i j : Nat) : (s.tick x i j).bindings = s.bindings := rfl
@[simp] theorem tick_buffers (s : State) (x : Fld) (i j : Nat) : (s.tick x i j).buffers = s.buffers := rfl
@[simp] theorem tick_trigOuts (s : State) (x : Fld) (i j : Nat) : (s.tick x i j).trigOuts = s.trigOuts := rfl
@[simp] theorem tick_trigIns (s : State) (x : Fld) (i j : Nat) : (s.tick x i j).trigIns = s.trigIns := rfl
@[simp] theorem tick_sram (s : State) (x : Fld) (i j : Nat) : (s.tick x i j).sram = s.sram := rfl
@[simp] theorem tick_dram (s : State) (x : Fld) (i j : Nat) : (s.tick x i j).dram = s.dram := rfl
@[simp] theorem tick_poison (s : State) (x : Fld) (i j : Nat) : (s.tick x i j).poison = s.poison := rfl
@[simp] theorem tick_cals (s : State) (x : Fld) (i j : Nat) : (s.tick x i j).cals = s.cals := rfl
@[simp] theorem tick_calStoreAgain (s : State) (x : Fld) (i j : Nat) : (s.tick x i j).calStoreAgain = s.calStoreAgain := rfl
@[simp] theorem tick_mem (s : State) (x : Fld) (i j : Nat) : (s.tick x i j).mem = s.mem := rfl
@[simp] theorem tick_ports (s : State) (x : Fld) (i j : Nat) : (s.tick x i j).ports = s.ports := rfl
@[simp] theorem tick_link (s : State) (x : Fld) (i j : Nat) : (s.tick x i j).link = s.link := rfl
@[simp] theorem tick_bus (s : State) (x : Fld) (i j : Nat) : (s.tick x i j).bus = s.bus := rfl
@[simp] theorem tick_clock (s : State) (x : Fld) (i j : Nat) : (s.tick x i j).clock = s.clock := rfl
@[simp] theorem tick_time (s : State) (x : Fld) (i j : Nat) : (s.tick x i j).time = s.time := rfl
@[simp] theorem tick_power (s : State) (x : Fld) (i j : Nat) : (s.tick x i j).power = s.power := rfl
@[simp] theorem tick_boot (s : State) (x : Fld) (i j : Nat) : (s.tick x i j).boot = s.boot := rfl
@[simp] theorem tick_choice (s : State) (x : Fld) (i j : Nat) : (s.tick x i j).choice = s.choice := rfl

@[simp] theorem trouble_pending (s : State) (t : Trouble) : (s.trouble t).pending = s.pending := rfl
@[simp] theorem trouble_fabric (s : State) (t : Trouble) : (s.trouble t).fabric = s.fabric := rfl
@[simp] theorem trouble_chans (s : State) (t : Trouble) : (s.trouble t).chans = s.chans := rfl
@[simp] theorem trouble_voices (s : State) (t : Trouble) : (s.trouble t).voices = s.voices := rfl
@[simp] theorem trouble_cores (s : State) (t : Trouble) : (s.trouble t).cores = s.cores := rfl
@[simp] theorem trouble_dmem (s : State) (t : Trouble) : (s.trouble t).dmem = s.dmem := rfl
@[simp] theorem trouble_bindings (s : State) (t : Trouble) : (s.trouble t).bindings = s.bindings := rfl
@[simp] theorem trouble_buffers (s : State) (t : Trouble) : (s.trouble t).buffers = s.buffers := rfl
@[simp] theorem trouble_trigOuts (s : State) (t : Trouble) : (s.trouble t).trigOuts = s.trigOuts := rfl
@[simp] theorem trouble_trigIns (s : State) (t : Trouble) : (s.trouble t).trigIns = s.trigIns := rfl
@[simp] theorem trouble_sram (s : State) (t : Trouble) : (s.trouble t).sram = s.sram := rfl
@[simp] theorem trouble_dram (s : State) (t : Trouble) : (s.trouble t).dram = s.dram := rfl
@[simp] theorem trouble_poison (s : State) (t : Trouble) : (s.trouble t).poison = s.poison := rfl
@[simp] theorem trouble_cals (s : State) (t : Trouble) : (s.trouble t).cals = s.cals := rfl
@[simp] theorem trouble_calStoreAgain (s : State) (t : Trouble) : (s.trouble t).calStoreAgain = s.calStoreAgain := rfl
@[simp] theorem trouble_mem (s : State) (t : Trouble) : (s.trouble t).mem = s.mem := rfl
@[simp] theorem trouble_ports (s : State) (t : Trouble) : (s.trouble t).ports = s.ports := rfl
@[simp] theorem trouble_link (s : State) (t : Trouble) : (s.trouble t).link = s.link := rfl
@[simp] theorem trouble_bus (s : State) (t : Trouble) : (s.trouble t).bus = s.bus := rfl
@[simp] theorem trouble_clock (s : State) (t : Trouble) : (s.trouble t).clock = s.clock := rfl
@[simp] theorem trouble_time (s : State) (t : Trouble) : (s.trouble t).time = s.time := rfl
@[simp] theorem trouble_power (s : State) (t : Trouble) : (s.trouble t).power = s.power := rfl
@[simp] theorem trouble_boot (s : State) (t : Trouble) : (s.trouble t).boot = s.boot := rfl
@[simp] theorem trouble_choice (s : State) (t : Trouble) : (s.trouble t).choice = s.choice := rfl

/-! ### Numbered hidden state -/

@[simp] theorem modVoice_regs (s : State) (n : Nat) (g : VoiceSt → VoiceSt) : (s.modVoice n g).regs = s.regs := rfl
@[simp] theorem modVoice_pending (s : State) (n : Nat) (g : VoiceSt → VoiceSt) : (s.modVoice n g).pending = s.pending := rfl
@[simp] theorem modVoice_fabric (s : State) (n : Nat) (g : VoiceSt → VoiceSt) : (s.modVoice n g).fabric = s.fabric := rfl
@[simp] theorem modVoice_chans (s : State) (n : Nat) (g : VoiceSt → VoiceSt) : (s.modVoice n g).chans = s.chans := rfl
@[simp] theorem modVoice_cores (s : State) (n : Nat) (g : VoiceSt → VoiceSt) : (s.modVoice n g).cores = s.cores := rfl
@[simp] theorem modVoice_dmem (s : State) (n : Nat) (g : VoiceSt → VoiceSt) : (s.modVoice n g).dmem = s.dmem := rfl
@[simp] theorem modVoice_bindings (s : State) (n : Nat) (g : VoiceSt → VoiceSt) : (s.modVoice n g).bindings = s.bindings := rfl
@[simp] theorem modVoice_buffers (s : State) (n : Nat) (g : VoiceSt → VoiceSt) : (s.modVoice n g).buffers = s.buffers := rfl
@[simp] theorem modVoice_trigOuts (s : State) (n : Nat) (g : VoiceSt → VoiceSt) : (s.modVoice n g).trigOuts = s.trigOuts := rfl
@[simp] theorem modVoice_trigIns (s : State) (n : Nat) (g : VoiceSt → VoiceSt) : (s.modVoice n g).trigIns = s.trigIns := rfl
@[simp] theorem modVoice_sram (s : State) (n : Nat) (g : VoiceSt → VoiceSt) : (s.modVoice n g).sram = s.sram := rfl
@[simp] theorem modVoice_dram (s : State) (n : Nat) (g : VoiceSt → VoiceSt) : (s.modVoice n g).dram = s.dram := rfl
@[simp] theorem modVoice_poison (s : State) (n : Nat) (g : VoiceSt → VoiceSt) : (s.modVoice n g).poison = s.poison := rfl
@[simp] theorem modVoice_cals (s : State) (n : Nat) (g : VoiceSt → VoiceSt) : (s.modVoice n g).cals = s.cals := rfl
@[simp] theorem modVoice_calStoreAgain (s : State) (n : Nat) (g : VoiceSt → VoiceSt) : (s.modVoice n g).calStoreAgain = s.calStoreAgain := rfl
@[simp] theorem modVoice_mem (s : State) (n : Nat) (g : VoiceSt → VoiceSt) : (s.modVoice n g).mem = s.mem := rfl
@[simp] theorem modVoice_ports (s : State) (n : Nat) (g : VoiceSt → VoiceSt) : (s.modVoice n g).ports = s.ports := rfl
@[simp] theorem modVoice_link (s : State) (n : Nat) (g : VoiceSt → VoiceSt) : (s.modVoice n g).link = s.link := rfl
@[simp] theorem modVoice_bus (s : State) (n : Nat) (g : VoiceSt → VoiceSt) : (s.modVoice n g).bus = s.bus := rfl
@[simp] theorem modVoice_clock (s : State) (n : Nat) (g : VoiceSt → VoiceSt) : (s.modVoice n g).clock = s.clock := rfl
@[simp] theorem modVoice_time (s : State) (n : Nat) (g : VoiceSt → VoiceSt) : (s.modVoice n g).time = s.time := rfl
@[simp] theorem modVoice_power (s : State) (n : Nat) (g : VoiceSt → VoiceSt) : (s.modVoice n g).power = s.power := rfl
@[simp] theorem modVoice_boot (s : State) (n : Nat) (g : VoiceSt → VoiceSt) : (s.modVoice n g).boot = s.boot := rfl
@[simp] theorem modVoice_choice (s : State) (n : Nat) (g : VoiceSt → VoiceSt) : (s.modVoice n g).choice = s.choice := rfl
@[simp] theorem voice_modVoice_same (s : State) (n : Nat) (g : VoiceSt → VoiceSt) : (s.modVoice n g).voice n = g (s.voice n) := by
  simp [State.voice, State.modVoice]
theorem voice_modVoice_ne (s : State) {n m : Nat} (g : VoiceSt → VoiceSt) (h : m ≠ n) : (s.modVoice n g).voice m = s.voice m := by
  simp [State.voice, State.modVoice, sget_sput_ne _ _ _ h]
@[simp] theorem modVoice_f (s : State) (n : Nat) (g : VoiceSt → VoiceSt) (x : Fld) (i j : Nat) : (s.modVoice n g).f x i j = s.f x i j := rfl

@[simp] theorem modCore_regs (s : State) (n : Nat) (g : CoreSt → CoreSt) : (s.modCore n g).regs = s.regs := rfl
@[simp] theorem modCore_pending (s : State) (n : Nat) (g : CoreSt → CoreSt) : (s.modCore n g).pending = s.pending := rfl
@[simp] theorem modCore_fabric (s : State) (n : Nat) (g : CoreSt → CoreSt) : (s.modCore n g).fabric = s.fabric := rfl
@[simp] theorem modCore_chans (s : State) (n : Nat) (g : CoreSt → CoreSt) : (s.modCore n g).chans = s.chans := rfl
@[simp] theorem modCore_voices (s : State) (n : Nat) (g : CoreSt → CoreSt) : (s.modCore n g).voices = s.voices := rfl
@[simp] theorem modCore_dmem (s : State) (n : Nat) (g : CoreSt → CoreSt) : (s.modCore n g).dmem = s.dmem := rfl
@[simp] theorem modCore_bindings (s : State) (n : Nat) (g : CoreSt → CoreSt) : (s.modCore n g).bindings = s.bindings := rfl
@[simp] theorem modCore_buffers (s : State) (n : Nat) (g : CoreSt → CoreSt) : (s.modCore n g).buffers = s.buffers := rfl
@[simp] theorem modCore_trigOuts (s : State) (n : Nat) (g : CoreSt → CoreSt) : (s.modCore n g).trigOuts = s.trigOuts := rfl
@[simp] theorem modCore_trigIns (s : State) (n : Nat) (g : CoreSt → CoreSt) : (s.modCore n g).trigIns = s.trigIns := rfl
@[simp] theorem modCore_sram (s : State) (n : Nat) (g : CoreSt → CoreSt) : (s.modCore n g).sram = s.sram := rfl
@[simp] theorem modCore_dram (s : State) (n : Nat) (g : CoreSt → CoreSt) : (s.modCore n g).dram = s.dram := rfl
@[simp] theorem modCore_poison (s : State) (n : Nat) (g : CoreSt → CoreSt) : (s.modCore n g).poison = s.poison := rfl
@[simp] theorem modCore_cals (s : State) (n : Nat) (g : CoreSt → CoreSt) : (s.modCore n g).cals = s.cals := rfl
@[simp] theorem modCore_calStoreAgain (s : State) (n : Nat) (g : CoreSt → CoreSt) : (s.modCore n g).calStoreAgain = s.calStoreAgain := rfl
@[simp] theorem modCore_mem (s : State) (n : Nat) (g : CoreSt → CoreSt) : (s.modCore n g).mem = s.mem := rfl
@[simp] theorem modCore_ports (s : State) (n : Nat) (g : CoreSt → CoreSt) : (s.modCore n g).ports = s.ports := rfl
@[simp] theorem modCore_link (s : State) (n : Nat) (g : CoreSt → CoreSt) : (s.modCore n g).link = s.link := rfl
@[simp] theorem modCore_bus (s : State) (n : Nat) (g : CoreSt → CoreSt) : (s.modCore n g).bus = s.bus := rfl
@[simp] theorem modCore_clock (s : State) (n : Nat) (g : CoreSt → CoreSt) : (s.modCore n g).clock = s.clock := rfl
@[simp] theorem modCore_time (s : State) (n : Nat) (g : CoreSt → CoreSt) : (s.modCore n g).time = s.time := rfl
@[simp] theorem modCore_power (s : State) (n : Nat) (g : CoreSt → CoreSt) : (s.modCore n g).power = s.power := rfl
@[simp] theorem modCore_boot (s : State) (n : Nat) (g : CoreSt → CoreSt) : (s.modCore n g).boot = s.boot := rfl
@[simp] theorem modCore_choice (s : State) (n : Nat) (g : CoreSt → CoreSt) : (s.modCore n g).choice = s.choice := rfl
@[simp] theorem core_modCore_same (s : State) (n : Nat) (g : CoreSt → CoreSt) : (s.modCore n g).core n = g (s.core n) := by
  simp [State.core, State.modCore]
theorem core_modCore_ne (s : State) {n m : Nat} (g : CoreSt → CoreSt) (h : m ≠ n) : (s.modCore n g).core m = s.core m := by
  simp [State.core, State.modCore, sget_sput_ne _ _ _ h]
@[simp] theorem modCore_f (s : State) (n : Nat) (g : CoreSt → CoreSt) (x : Fld) (i j : Nat) : (s.modCore n g).f x i j = s.f x i j := rfl

@[simp] theorem modChan_regs (s : State) (n : Nat) (g : ChanSt → ChanSt) : (s.modChan n g).regs = s.regs := rfl
@[simp] theorem modChan_pending (s : State) (n : Nat) (g : ChanSt → ChanSt) : (s.modChan n g).pending = s.pending := rfl
@[simp] theorem modChan_fabric (s : State) (n : Nat) (g : ChanSt → ChanSt) : (s.modChan n g).fabric = s.fabric := rfl
@[simp] theorem modChan_voices (s : State) (n : Nat) (g : ChanSt → ChanSt) : (s.modChan n g).voices = s.voices := rfl
@[simp] theorem modChan_cores (s : State) (n : Nat) (g : ChanSt → ChanSt) : (s.modChan n g).cores = s.cores := rfl
@[simp] theorem modChan_dmem (s : State) (n : Nat) (g : ChanSt → ChanSt) : (s.modChan n g).dmem = s.dmem := rfl
@[simp] theorem modChan_bindings (s : State) (n : Nat) (g : ChanSt → ChanSt) : (s.modChan n g).bindings = s.bindings := rfl
@[simp] theorem modChan_buffers (s : State) (n : Nat) (g : ChanSt → ChanSt) : (s.modChan n g).buffers = s.buffers := rfl
@[simp] theorem modChan_trigOuts (s : State) (n : Nat) (g : ChanSt → ChanSt) : (s.modChan n g).trigOuts = s.trigOuts := rfl
@[simp] theorem modChan_trigIns (s : State) (n : Nat) (g : ChanSt → ChanSt) : (s.modChan n g).trigIns = s.trigIns := rfl
@[simp] theorem modChan_sram (s : State) (n : Nat) (g : ChanSt → ChanSt) : (s.modChan n g).sram = s.sram := rfl
@[simp] theorem modChan_dram (s : State) (n : Nat) (g : ChanSt → ChanSt) : (s.modChan n g).dram = s.dram := rfl
@[simp] theorem modChan_poison (s : State) (n : Nat) (g : ChanSt → ChanSt) : (s.modChan n g).poison = s.poison := rfl
@[simp] theorem modChan_cals (s : State) (n : Nat) (g : ChanSt → ChanSt) : (s.modChan n g).cals = s.cals := rfl
@[simp] theorem modChan_calStoreAgain (s : State) (n : Nat) (g : ChanSt → ChanSt) : (s.modChan n g).calStoreAgain = s.calStoreAgain := rfl
@[simp] theorem modChan_mem (s : State) (n : Nat) (g : ChanSt → ChanSt) : (s.modChan n g).mem = s.mem := rfl
@[simp] theorem modChan_ports (s : State) (n : Nat) (g : ChanSt → ChanSt) : (s.modChan n g).ports = s.ports := rfl
@[simp] theorem modChan_link (s : State) (n : Nat) (g : ChanSt → ChanSt) : (s.modChan n g).link = s.link := rfl
@[simp] theorem modChan_bus (s : State) (n : Nat) (g : ChanSt → ChanSt) : (s.modChan n g).bus = s.bus := rfl
@[simp] theorem modChan_clock (s : State) (n : Nat) (g : ChanSt → ChanSt) : (s.modChan n g).clock = s.clock := rfl
@[simp] theorem modChan_time (s : State) (n : Nat) (g : ChanSt → ChanSt) : (s.modChan n g).time = s.time := rfl
@[simp] theorem modChan_power (s : State) (n : Nat) (g : ChanSt → ChanSt) : (s.modChan n g).power = s.power := rfl
@[simp] theorem modChan_boot (s : State) (n : Nat) (g : ChanSt → ChanSt) : (s.modChan n g).boot = s.boot := rfl
@[simp] theorem modChan_choice (s : State) (n : Nat) (g : ChanSt → ChanSt) : (s.modChan n g).choice = s.choice := rfl
@[simp] theorem chan_modChan_same (s : State) (n : Nat) (g : ChanSt → ChanSt) : (s.modChan n g).chan n = g (s.chan n) := by
  simp [State.chan, State.modChan]
theorem chan_modChan_ne (s : State) {n m : Nat} (g : ChanSt → ChanSt) (h : m ≠ n) : (s.modChan n g).chan m = s.chan m := by
  simp [State.chan, State.modChan, sget_sput_ne _ _ _ h]
@[simp] theorem modChan_f (s : State) (n : Nat) (g : ChanSt → ChanSt) (x : Fld) (i j : Nat) : (s.modChan n g).f x i j = s.f x i j := rfl

@[simp] theorem modPort_regs (s : State) (n : Nat) (g : PortSt → PortSt) : (s.modPort n g).regs = s.regs := rfl
@[simp] theorem modPort_pending (s : State) (n : Nat) (g : PortSt → PortSt) : (s.modPort n g).pending = s.pending := rfl
@[simp] theorem modPort_fabric (s : State) (n : Nat) (g : PortSt → PortSt) : (s.modPort n g).fabric = s.fabric := rfl
@[simp] theorem modPort_chans (s : State) (n : Nat) (g : PortSt → PortSt) : (s.modPort n g).chans = s.chans := rfl
@[simp] theorem modPort_voices (s : State) (n : Nat) (g : PortSt → PortSt) : (s.modPort n g).voices = s.voices := rfl
@[simp] theorem modPort_cores (s : State) (n : Nat) (g : PortSt → PortSt) : (s.modPort n g).cores = s.cores := rfl
@[simp] theorem modPort_dmem (s : State) (n : Nat) (g : PortSt → PortSt) : (s.modPort n g).dmem = s.dmem := rfl
@[simp] theorem modPort_bindings (s : State) (n : Nat) (g : PortSt → PortSt) : (s.modPort n g).bindings = s.bindings := rfl
@[simp] theorem modPort_buffers (s : State) (n : Nat) (g : PortSt → PortSt) : (s.modPort n g).buffers = s.buffers := rfl
@[simp] theorem modPort_trigOuts (s : State) (n : Nat) (g : PortSt → PortSt) : (s.modPort n g).trigOuts = s.trigOuts := rfl
@[simp] theorem modPort_trigIns (s : State) (n : Nat) (g : PortSt → PortSt) : (s.modPort n g).trigIns = s.trigIns := rfl
@[simp] theorem modPort_sram (s : State) (n : Nat) (g : PortSt → PortSt) : (s.modPort n g).sram = s.sram := rfl
@[simp] theorem modPort_dram (s : State) (n : Nat) (g : PortSt → PortSt) : (s.modPort n g).dram = s.dram := rfl
@[simp] theorem modPort_poison (s : State) (n : Nat) (g : PortSt → PortSt) : (s.modPort n g).poison = s.poison := rfl
@[simp] theorem modPort_cals (s : State) (n : Nat) (g : PortSt → PortSt) : (s.modPort n g).cals = s.cals := rfl
@[simp] theorem modPort_calStoreAgain (s : State) (n : Nat) (g : PortSt → PortSt) : (s.modPort n g).calStoreAgain = s.calStoreAgain := rfl
@[simp] theorem modPort_mem (s : State) (n : Nat) (g : PortSt → PortSt) : (s.modPort n g).mem = s.mem := rfl
@[simp] theorem modPort_link (s : State) (n : Nat) (g : PortSt → PortSt) : (s.modPort n g).link = s.link := rfl
@[simp] theorem modPort_bus (s : State) (n : Nat) (g : PortSt → PortSt) : (s.modPort n g).bus = s.bus := rfl
@[simp] theorem modPort_clock (s : State) (n : Nat) (g : PortSt → PortSt) : (s.modPort n g).clock = s.clock := rfl
@[simp] theorem modPort_time (s : State) (n : Nat) (g : PortSt → PortSt) : (s.modPort n g).time = s.time := rfl
@[simp] theorem modPort_power (s : State) (n : Nat) (g : PortSt → PortSt) : (s.modPort n g).power = s.power := rfl
@[simp] theorem modPort_boot (s : State) (n : Nat) (g : PortSt → PortSt) : (s.modPort n g).boot = s.boot := rfl
@[simp] theorem modPort_choice (s : State) (n : Nat) (g : PortSt → PortSt) : (s.modPort n g).choice = s.choice := rfl
@[simp] theorem port_modPort_same (s : State) (n : Nat) (g : PortSt → PortSt) : (s.modPort n g).port n = g (s.port n) := by
  simp [State.port, State.modPort]
theorem port_modPort_ne (s : State) {n m : Nat} (g : PortSt → PortSt) (h : m ≠ n) : (s.modPort n g).port m = s.port m := by
  simp [State.port, State.modPort, sget_sput_ne _ _ _ h]
@[simp] theorem modPort_f (s : State) (n : Nat) (g : PortSt → PortSt) (x : Fld) (i j : Nat) : (s.modPort n g).f x i j = s.f x i j := rfl

@[simp] theorem modBinding_regs (s : State) (n : Nat) (g : BindingSt → BindingSt) : (s.modBinding n g).regs = s.regs := rfl
@[simp] theorem modBinding_pending (s : State) (n : Nat) (g : BindingSt → BindingSt) : (s.modBinding n g).pending = s.pending := rfl
@[simp] theorem modBinding_fabric (s : State) (n : Nat) (g : BindingSt → BindingSt) : (s.modBinding n g).fabric = s.fabric := rfl
@[simp] theorem modBinding_chans (s : State) (n : Nat) (g : BindingSt → BindingSt) : (s.modBinding n g).chans = s.chans := rfl
@[simp] theorem modBinding_voices (s : State) (n : Nat) (g : BindingSt → BindingSt) : (s.modBinding n g).voices = s.voices := rfl
@[simp] theorem modBinding_cores (s : State) (n : Nat) (g : BindingSt → BindingSt) : (s.modBinding n g).cores = s.cores := rfl
@[simp] theorem modBinding_dmem (s : State) (n : Nat) (g : BindingSt → BindingSt) : (s.modBinding n g).dmem = s.dmem := rfl
@[simp] theorem modBinding_buffers (s : State) (n : Nat) (g : BindingSt → BindingSt) : (s.modBinding n g).buffers = s.buffers := rfl
@[simp] theorem modBinding_trigOuts (s : State) (n : Nat) (g : BindingSt → BindingSt) : (s.modBinding n g).trigOuts = s.trigOuts := rfl
@[simp] theorem modBinding_trigIns (s : State) (n : Nat) (g : BindingSt → BindingSt) : (s.modBinding n g).trigIns = s.trigIns := rfl
@[simp] theorem modBinding_sram (s : State) (n : Nat) (g : BindingSt → BindingSt) : (s.modBinding n g).sram = s.sram := rfl
@[simp] theorem modBinding_dram (s : State) (n : Nat) (g : BindingSt → BindingSt) : (s.modBinding n g).dram = s.dram := rfl
@[simp] theorem modBinding_poison (s : State) (n : Nat) (g : BindingSt → BindingSt) : (s.modBinding n g).poison = s.poison := rfl
@[simp] theorem modBinding_cals (s : State) (n : Nat) (g : BindingSt → BindingSt) : (s.modBinding n g).cals = s.cals := rfl
@[simp] theorem modBinding_calStoreAgain (s : State) (n : Nat) (g : BindingSt → BindingSt) : (s.modBinding n g).calStoreAgain = s.calStoreAgain := rfl
@[simp] theorem modBinding_mem (s : State) (n : Nat) (g : BindingSt → BindingSt) : (s.modBinding n g).mem = s.mem := rfl
@[simp] theorem modBinding_ports (s : State) (n : Nat) (g : BindingSt → BindingSt) : (s.modBinding n g).ports = s.ports := rfl
@[simp] theorem modBinding_link (s : State) (n : Nat) (g : BindingSt → BindingSt) : (s.modBinding n g).link = s.link := rfl
@[simp] theorem modBinding_bus (s : State) (n : Nat) (g : BindingSt → BindingSt) : (s.modBinding n g).bus = s.bus := rfl
@[simp] theorem modBinding_clock (s : State) (n : Nat) (g : BindingSt → BindingSt) : (s.modBinding n g).clock = s.clock := rfl
@[simp] theorem modBinding_time (s : State) (n : Nat) (g : BindingSt → BindingSt) : (s.modBinding n g).time = s.time := rfl
@[simp] theorem modBinding_power (s : State) (n : Nat) (g : BindingSt → BindingSt) : (s.modBinding n g).power = s.power := rfl
@[simp] theorem modBinding_boot (s : State) (n : Nat) (g : BindingSt → BindingSt) : (s.modBinding n g).boot = s.boot := rfl
@[simp] theorem modBinding_choice (s : State) (n : Nat) (g : BindingSt → BindingSt) : (s.modBinding n g).choice = s.choice := rfl
@[simp] theorem binding_modBinding_same (s : State) (n : Nat) (g : BindingSt → BindingSt) : (s.modBinding n g).binding n = g (s.binding n) := by
  simp [State.binding, State.modBinding]
theorem binding_modBinding_ne (s : State) {n m : Nat} (g : BindingSt → BindingSt) (h : m ≠ n) : (s.modBinding n g).binding m = s.binding m := by
  simp [State.binding, State.modBinding, sget_sput_ne _ _ _ h]
@[simp] theorem modBinding_f (s : State) (n : Nat) (g : BindingSt → BindingSt) (x : Fld) (i j : Nat) : (s.modBinding n g).f x i j = s.f x i j := rfl

@[simp] theorem modBuffer_regs (s : State) (n : Nat) (g : BufferSt → BufferSt) : (s.modBuffer n g).regs = s.regs := rfl
@[simp] theorem modBuffer_pending (s : State) (n : Nat) (g : BufferSt → BufferSt) : (s.modBuffer n g).pending = s.pending := rfl
@[simp] theorem modBuffer_fabric (s : State) (n : Nat) (g : BufferSt → BufferSt) : (s.modBuffer n g).fabric = s.fabric := rfl
@[simp] theorem modBuffer_chans (s : State) (n : Nat) (g : BufferSt → BufferSt) : (s.modBuffer n g).chans = s.chans := rfl
@[simp] theorem modBuffer_voices (s : State) (n : Nat) (g : BufferSt → BufferSt) : (s.modBuffer n g).voices = s.voices := rfl
@[simp] theorem modBuffer_cores (s : State) (n : Nat) (g : BufferSt → BufferSt) : (s.modBuffer n g).cores = s.cores := rfl
@[simp] theorem modBuffer_dmem (s : State) (n : Nat) (g : BufferSt → BufferSt) : (s.modBuffer n g).dmem = s.dmem := rfl
@[simp] theorem modBuffer_bindings (s : State) (n : Nat) (g : BufferSt → BufferSt) : (s.modBuffer n g).bindings = s.bindings := rfl
@[simp] theorem modBuffer_trigOuts (s : State) (n : Nat) (g : BufferSt → BufferSt) : (s.modBuffer n g).trigOuts = s.trigOuts := rfl
@[simp] theorem modBuffer_trigIns (s : State) (n : Nat) (g : BufferSt → BufferSt) : (s.modBuffer n g).trigIns = s.trigIns := rfl
@[simp] theorem modBuffer_sram (s : State) (n : Nat) (g : BufferSt → BufferSt) : (s.modBuffer n g).sram = s.sram := rfl
@[simp] theorem modBuffer_dram (s : State) (n : Nat) (g : BufferSt → BufferSt) : (s.modBuffer n g).dram = s.dram := rfl
@[simp] theorem modBuffer_poison (s : State) (n : Nat) (g : BufferSt → BufferSt) : (s.modBuffer n g).poison = s.poison := rfl
@[simp] theorem modBuffer_cals (s : State) (n : Nat) (g : BufferSt → BufferSt) : (s.modBuffer n g).cals = s.cals := rfl
@[simp] theorem modBuffer_calStoreAgain (s : State) (n : Nat) (g : BufferSt → BufferSt) : (s.modBuffer n g).calStoreAgain = s.calStoreAgain := rfl
@[simp] theorem modBuffer_mem (s : State) (n : Nat) (g : BufferSt → BufferSt) : (s.modBuffer n g).mem = s.mem := rfl
@[simp] theorem modBuffer_ports (s : State) (n : Nat) (g : BufferSt → BufferSt) : (s.modBuffer n g).ports = s.ports := rfl
@[simp] theorem modBuffer_link (s : State) (n : Nat) (g : BufferSt → BufferSt) : (s.modBuffer n g).link = s.link := rfl
@[simp] theorem modBuffer_bus (s : State) (n : Nat) (g : BufferSt → BufferSt) : (s.modBuffer n g).bus = s.bus := rfl
@[simp] theorem modBuffer_clock (s : State) (n : Nat) (g : BufferSt → BufferSt) : (s.modBuffer n g).clock = s.clock := rfl
@[simp] theorem modBuffer_time (s : State) (n : Nat) (g : BufferSt → BufferSt) : (s.modBuffer n g).time = s.time := rfl
@[simp] theorem modBuffer_power (s : State) (n : Nat) (g : BufferSt → BufferSt) : (s.modBuffer n g).power = s.power := rfl
@[simp] theorem modBuffer_boot (s : State) (n : Nat) (g : BufferSt → BufferSt) : (s.modBuffer n g).boot = s.boot := rfl
@[simp] theorem modBuffer_choice (s : State) (n : Nat) (g : BufferSt → BufferSt) : (s.modBuffer n g).choice = s.choice := rfl
@[simp] theorem buffer_modBuffer_same (s : State) (n : Nat) (g : BufferSt → BufferSt) : (s.modBuffer n g).buffer n = g (s.buffer n) := by
  simp [State.buffer, State.modBuffer]
theorem buffer_modBuffer_ne (s : State) {n m : Nat} (g : BufferSt → BufferSt) (h : m ≠ n) : (s.modBuffer n g).buffer m = s.buffer m := by
  simp [State.buffer, State.modBuffer, sget_sput_ne _ _ _ h]
@[simp] theorem modBuffer_f (s : State) (n : Nat) (g : BufferSt → BufferSt) (x : Fld) (i j : Nat) : (s.modBuffer n g).f x i j = s.f x i j := rfl

@[simp] theorem modTrigOut_regs (s : State) (n : Nat) (g : TrigOutSt → TrigOutSt) : (s.modTrigOut n g).regs = s.regs := rfl
@[simp] theorem modTrigOut_pending (s : State) (n : Nat) (g : TrigOutSt → TrigOutSt) : (s.modTrigOut n g).pending = s.pending := rfl
@[simp] theorem modTrigOut_fabric (s : State) (n : Nat) (g : TrigOutSt → TrigOutSt) : (s.modTrigOut n g).fabric = s.fabric := rfl
@[simp] theorem modTrigOut_chans (s : State) (n : Nat) (g : TrigOutSt → TrigOutSt) : (s.modTrigOut n g).chans = s.chans := rfl
@[simp] theorem modTrigOut_voices (s : State) (n : Nat) (g : TrigOutSt → TrigOutSt) : (s.modTrigOut n g).voices = s.voices := rfl
@[simp] theorem modTrigOut_cores (s : State) (n : Nat) (g : TrigOutSt → TrigOutSt) : (s.modTrigOut n g).cores = s.cores := rfl
@[simp] theorem modTrigOut_dmem (s : State) (n : Nat) (g : TrigOutSt → TrigOutSt) : (s.modTrigOut n g).dmem = s.dmem := rfl
@[simp] theorem modTrigOut_bindings (s : State) (n : Nat) (g : TrigOutSt → TrigOutSt) : (s.modTrigOut n g).bindings = s.bindings := rfl
@[simp] theorem modTrigOut_buffers (s : State) (n : Nat) (g : TrigOutSt → TrigOutSt) : (s.modTrigOut n g).buffers = s.buffers := rfl
@[simp] theorem modTrigOut_trigIns (s : State) (n : Nat) (g : TrigOutSt → TrigOutSt) : (s.modTrigOut n g).trigIns = s.trigIns := rfl
@[simp] theorem modTrigOut_sram (s : State) (n : Nat) (g : TrigOutSt → TrigOutSt) : (s.modTrigOut n g).sram = s.sram := rfl
@[simp] theorem modTrigOut_dram (s : State) (n : Nat) (g : TrigOutSt → TrigOutSt) : (s.modTrigOut n g).dram = s.dram := rfl
@[simp] theorem modTrigOut_poison (s : State) (n : Nat) (g : TrigOutSt → TrigOutSt) : (s.modTrigOut n g).poison = s.poison := rfl
@[simp] theorem modTrigOut_cals (s : State) (n : Nat) (g : TrigOutSt → TrigOutSt) : (s.modTrigOut n g).cals = s.cals := rfl
@[simp] theorem modTrigOut_calStoreAgain (s : State) (n : Nat) (g : TrigOutSt → TrigOutSt) : (s.modTrigOut n g).calStoreAgain = s.calStoreAgain := rfl
@[simp] theorem modTrigOut_mem (s : State) (n : Nat) (g : TrigOutSt → TrigOutSt) : (s.modTrigOut n g).mem = s.mem := rfl
@[simp] theorem modTrigOut_ports (s : State) (n : Nat) (g : TrigOutSt → TrigOutSt) : (s.modTrigOut n g).ports = s.ports := rfl
@[simp] theorem modTrigOut_link (s : State) (n : Nat) (g : TrigOutSt → TrigOutSt) : (s.modTrigOut n g).link = s.link := rfl
@[simp] theorem modTrigOut_bus (s : State) (n : Nat) (g : TrigOutSt → TrigOutSt) : (s.modTrigOut n g).bus = s.bus := rfl
@[simp] theorem modTrigOut_clock (s : State) (n : Nat) (g : TrigOutSt → TrigOutSt) : (s.modTrigOut n g).clock = s.clock := rfl
@[simp] theorem modTrigOut_time (s : State) (n : Nat) (g : TrigOutSt → TrigOutSt) : (s.modTrigOut n g).time = s.time := rfl
@[simp] theorem modTrigOut_power (s : State) (n : Nat) (g : TrigOutSt → TrigOutSt) : (s.modTrigOut n g).power = s.power := rfl
@[simp] theorem modTrigOut_boot (s : State) (n : Nat) (g : TrigOutSt → TrigOutSt) : (s.modTrigOut n g).boot = s.boot := rfl
@[simp] theorem modTrigOut_choice (s : State) (n : Nat) (g : TrigOutSt → TrigOutSt) : (s.modTrigOut n g).choice = s.choice := rfl
@[simp] theorem trigOut_modTrigOut_same (s : State) (n : Nat) (g : TrigOutSt → TrigOutSt) : (s.modTrigOut n g).trigOut n = g (s.trigOut n) := by
  simp [State.trigOut, State.modTrigOut]
theorem trigOut_modTrigOut_ne (s : State) {n m : Nat} (g : TrigOutSt → TrigOutSt) (h : m ≠ n) : (s.modTrigOut n g).trigOut m = s.trigOut m := by
  simp [State.trigOut, State.modTrigOut, sget_sput_ne _ _ _ h]
@[simp] theorem modTrigOut_f (s : State) (n : Nat) (g : TrigOutSt → TrigOutSt) (x : Fld) (i j : Nat) : (s.modTrigOut n g).f x i j = s.f x i j := rfl

@[simp] theorem modTrigIn_regs (s : State) (n : Nat) (g : TrigInSt → TrigInSt) : (s.modTrigIn n g).regs = s.regs := rfl
@[simp] theorem modTrigIn_pending (s : State) (n : Nat) (g : TrigInSt → TrigInSt) : (s.modTrigIn n g).pending = s.pending := rfl
@[simp] theorem modTrigIn_fabric (s : State) (n : Nat) (g : TrigInSt → TrigInSt) : (s.modTrigIn n g).fabric = s.fabric := rfl
@[simp] theorem modTrigIn_chans (s : State) (n : Nat) (g : TrigInSt → TrigInSt) : (s.modTrigIn n g).chans = s.chans := rfl
@[simp] theorem modTrigIn_voices (s : State) (n : Nat) (g : TrigInSt → TrigInSt) : (s.modTrigIn n g).voices = s.voices := rfl
@[simp] theorem modTrigIn_cores (s : State) (n : Nat) (g : TrigInSt → TrigInSt) : (s.modTrigIn n g).cores = s.cores := rfl
@[simp] theorem modTrigIn_dmem (s : State) (n : Nat) (g : TrigInSt → TrigInSt) : (s.modTrigIn n g).dmem = s.dmem := rfl
@[simp] theorem modTrigIn_bindings (s : State) (n : Nat) (g : TrigInSt → TrigInSt) : (s.modTrigIn n g).bindings = s.bindings := rfl
@[simp] theorem modTrigIn_buffers (s : State) (n : Nat) (g : TrigInSt → TrigInSt) : (s.modTrigIn n g).buffers = s.buffers := rfl
@[simp] theorem modTrigIn_trigOuts (s : State) (n : Nat) (g : TrigInSt → TrigInSt) : (s.modTrigIn n g).trigOuts = s.trigOuts := rfl
@[simp] theorem modTrigIn_sram (s : State) (n : Nat) (g : TrigInSt → TrigInSt) : (s.modTrigIn n g).sram = s.sram := rfl
@[simp] theorem modTrigIn_dram (s : State) (n : Nat) (g : TrigInSt → TrigInSt) : (s.modTrigIn n g).dram = s.dram := rfl
@[simp] theorem modTrigIn_poison (s : State) (n : Nat) (g : TrigInSt → TrigInSt) : (s.modTrigIn n g).poison = s.poison := rfl
@[simp] theorem modTrigIn_cals (s : State) (n : Nat) (g : TrigInSt → TrigInSt) : (s.modTrigIn n g).cals = s.cals := rfl
@[simp] theorem modTrigIn_calStoreAgain (s : State) (n : Nat) (g : TrigInSt → TrigInSt) : (s.modTrigIn n g).calStoreAgain = s.calStoreAgain := rfl
@[simp] theorem modTrigIn_mem (s : State) (n : Nat) (g : TrigInSt → TrigInSt) : (s.modTrigIn n g).mem = s.mem := rfl
@[simp] theorem modTrigIn_ports (s : State) (n : Nat) (g : TrigInSt → TrigInSt) : (s.modTrigIn n g).ports = s.ports := rfl
@[simp] theorem modTrigIn_link (s : State) (n : Nat) (g : TrigInSt → TrigInSt) : (s.modTrigIn n g).link = s.link := rfl
@[simp] theorem modTrigIn_bus (s : State) (n : Nat) (g : TrigInSt → TrigInSt) : (s.modTrigIn n g).bus = s.bus := rfl
@[simp] theorem modTrigIn_clock (s : State) (n : Nat) (g : TrigInSt → TrigInSt) : (s.modTrigIn n g).clock = s.clock := rfl
@[simp] theorem modTrigIn_time (s : State) (n : Nat) (g : TrigInSt → TrigInSt) : (s.modTrigIn n g).time = s.time := rfl
@[simp] theorem modTrigIn_power (s : State) (n : Nat) (g : TrigInSt → TrigInSt) : (s.modTrigIn n g).power = s.power := rfl
@[simp] theorem modTrigIn_boot (s : State) (n : Nat) (g : TrigInSt → TrigInSt) : (s.modTrigIn n g).boot = s.boot := rfl
@[simp] theorem modTrigIn_choice (s : State) (n : Nat) (g : TrigInSt → TrigInSt) : (s.modTrigIn n g).choice = s.choice := rfl
@[simp] theorem trigIn_modTrigIn_same (s : State) (n : Nat) (g : TrigInSt → TrigInSt) : (s.modTrigIn n g).trigIn n = g (s.trigIn n) := by
  simp [State.trigIn, State.modTrigIn]
theorem trigIn_modTrigIn_ne (s : State) {n m : Nat} (g : TrigInSt → TrigInSt) (h : m ≠ n) : (s.modTrigIn n g).trigIn m = s.trigIn m := by
  simp [State.trigIn, State.modTrigIn, sget_sput_ne _ _ _ h]
@[simp] theorem modTrigIn_f (s : State) (n : Nat) (g : TrigInSt → TrigInSt) (x : Fld) (i j : Nat) : (s.modTrigIn n g).f x i j = s.f x i j := rfl

@[simp] theorem modCal_regs (s : State) (n : Nat) (g : CalSt → CalSt) : (s.modCal n g).regs = s.regs := rfl
@[simp] theorem modCal_pending (s : State) (n : Nat) (g : CalSt → CalSt) : (s.modCal n g).pending = s.pending := rfl
@[simp] theorem modCal_fabric (s : State) (n : Nat) (g : CalSt → CalSt) : (s.modCal n g).fabric = s.fabric := rfl
@[simp] theorem modCal_chans (s : State) (n : Nat) (g : CalSt → CalSt) : (s.modCal n g).chans = s.chans := rfl
@[simp] theorem modCal_voices (s : State) (n : Nat) (g : CalSt → CalSt) : (s.modCal n g).voices = s.voices := rfl
@[simp] theorem modCal_cores (s : State) (n : Nat) (g : CalSt → CalSt) : (s.modCal n g).cores = s.cores := rfl
@[simp] theorem modCal_dmem (s : State) (n : Nat) (g : CalSt → CalSt) : (s.modCal n g).dmem = s.dmem := rfl
@[simp] theorem modCal_bindings (s : State) (n : Nat) (g : CalSt → CalSt) : (s.modCal n g).bindings = s.bindings := rfl
@[simp] theorem modCal_buffers (s : State) (n : Nat) (g : CalSt → CalSt) : (s.modCal n g).buffers = s.buffers := rfl
@[simp] theorem modCal_trigOuts (s : State) (n : Nat) (g : CalSt → CalSt) : (s.modCal n g).trigOuts = s.trigOuts := rfl
@[simp] theorem modCal_trigIns (s : State) (n : Nat) (g : CalSt → CalSt) : (s.modCal n g).trigIns = s.trigIns := rfl
@[simp] theorem modCal_sram (s : State) (n : Nat) (g : CalSt → CalSt) : (s.modCal n g).sram = s.sram := rfl
@[simp] theorem modCal_dram (s : State) (n : Nat) (g : CalSt → CalSt) : (s.modCal n g).dram = s.dram := rfl
@[simp] theorem modCal_poison (s : State) (n : Nat) (g : CalSt → CalSt) : (s.modCal n g).poison = s.poison := rfl
@[simp] theorem modCal_calStoreAgain (s : State) (n : Nat) (g : CalSt → CalSt) : (s.modCal n g).calStoreAgain = s.calStoreAgain := rfl
@[simp] theorem modCal_mem (s : State) (n : Nat) (g : CalSt → CalSt) : (s.modCal n g).mem = s.mem := rfl
@[simp] theorem modCal_ports (s : State) (n : Nat) (g : CalSt → CalSt) : (s.modCal n g).ports = s.ports := rfl
@[simp] theorem modCal_link (s : State) (n : Nat) (g : CalSt → CalSt) : (s.modCal n g).link = s.link := rfl
@[simp] theorem modCal_bus (s : State) (n : Nat) (g : CalSt → CalSt) : (s.modCal n g).bus = s.bus := rfl
@[simp] theorem modCal_clock (s : State) (n : Nat) (g : CalSt → CalSt) : (s.modCal n g).clock = s.clock := rfl
@[simp] theorem modCal_time (s : State) (n : Nat) (g : CalSt → CalSt) : (s.modCal n g).time = s.time := rfl
@[simp] theorem modCal_power (s : State) (n : Nat) (g : CalSt → CalSt) : (s.modCal n g).power = s.power := rfl
@[simp] theorem modCal_boot (s : State) (n : Nat) (g : CalSt → CalSt) : (s.modCal n g).boot = s.boot := rfl
@[simp] theorem modCal_choice (s : State) (n : Nat) (g : CalSt → CalSt) : (s.modCal n g).choice = s.choice := rfl
@[simp] theorem cal_modCal_same (s : State) (n : Nat) (g : CalSt → CalSt) : (s.modCal n g).cal n = g (s.cal n) := by
  simp [State.cal, State.modCal]
theorem cal_modCal_ne (s : State) {n m : Nat} (g : CalSt → CalSt) (h : m ≠ n) : (s.modCal n g).cal m = s.cal m := by
  simp [State.cal, State.modCal, sget_sput_ne _ _ _ h]
@[simp] theorem modCal_f (s : State) (n : Nat) (g : CalSt → CalSt) (x : Fld) (i j : Nat) : (s.modCal n g).f x i j = s.f x i j := rfl

@[simp] theorem modSp_regs (s : State) (n : Nat) (g : SpindleSt → SpindleSt) : (s.modSp n g).regs = s.regs := rfl
@[simp] theorem modSp_pending (s : State) (n : Nat) (g : SpindleSt → SpindleSt) : (s.modSp n g).pending = s.pending := rfl
@[simp] theorem modSp_fabric (s : State) (n : Nat) (g : SpindleSt → SpindleSt) : (s.modSp n g).fabric = s.fabric := rfl
@[simp] theorem modSp_chans (s : State) (n : Nat) (g : SpindleSt → SpindleSt) : (s.modSp n g).chans = s.chans := rfl
@[simp] theorem modSp_voices (s : State) (n : Nat) (g : SpindleSt → SpindleSt) : (s.modSp n g).voices = s.voices := rfl
@[simp] theorem modSp_cores (s : State) (n : Nat) (g : SpindleSt → SpindleSt) : (s.modSp n g).cores = s.cores := rfl
@[simp] theorem modSp_dmem (s : State) (n : Nat) (g : SpindleSt → SpindleSt) : (s.modSp n g).dmem = s.dmem := rfl
@[simp] theorem modSp_bindings (s : State) (n : Nat) (g : SpindleSt → SpindleSt) : (s.modSp n g).bindings = s.bindings := rfl
@[simp] theorem modSp_buffers (s : State) (n : Nat) (g : SpindleSt → SpindleSt) : (s.modSp n g).buffers = s.buffers := rfl
@[simp] theorem modSp_trigOuts (s : State) (n : Nat) (g : SpindleSt → SpindleSt) : (s.modSp n g).trigOuts = s.trigOuts := rfl
@[simp] theorem modSp_trigIns (s : State) (n : Nat) (g : SpindleSt → SpindleSt) : (s.modSp n g).trigIns = s.trigIns := rfl
@[simp] theorem modSp_sram (s : State) (n : Nat) (g : SpindleSt → SpindleSt) : (s.modSp n g).sram = s.sram := rfl
@[simp] theorem modSp_dram (s : State) (n : Nat) (g : SpindleSt → SpindleSt) : (s.modSp n g).dram = s.dram := rfl
@[simp] theorem modSp_poison (s : State) (n : Nat) (g : SpindleSt → SpindleSt) : (s.modSp n g).poison = s.poison := rfl
@[simp] theorem modSp_cals (s : State) (n : Nat) (g : SpindleSt → SpindleSt) : (s.modSp n g).cals = s.cals := rfl
@[simp] theorem modSp_calStoreAgain (s : State) (n : Nat) (g : SpindleSt → SpindleSt) : (s.modSp n g).calStoreAgain = s.calStoreAgain := rfl
@[simp] theorem modSp_mem (s : State) (n : Nat) (g : SpindleSt → SpindleSt) : (s.modSp n g).mem = s.mem := rfl
@[simp] theorem modSp_ports (s : State) (n : Nat) (g : SpindleSt → SpindleSt) : (s.modSp n g).ports = s.ports := rfl
@[simp] theorem modSp_link (s : State) (n : Nat) (g : SpindleSt → SpindleSt) : (s.modSp n g).link = s.link := rfl
@[simp] theorem modSp_bus (s : State) (n : Nat) (g : SpindleSt → SpindleSt) : (s.modSp n g).bus = s.bus := rfl
@[simp] theorem modSp_time (s : State) (n : Nat) (g : SpindleSt → SpindleSt) : (s.modSp n g).time = s.time := rfl
@[simp] theorem modSp_power (s : State) (n : Nat) (g : SpindleSt → SpindleSt) : (s.modSp n g).power = s.power := rfl
@[simp] theorem modSp_boot (s : State) (n : Nat) (g : SpindleSt → SpindleSt) : (s.modSp n g).boot = s.boot := rfl
@[simp] theorem modSp_choice (s : State) (n : Nat) (g : SpindleSt → SpindleSt) : (s.modSp n g).choice = s.choice := rfl
@[simp] theorem sp_modSp_same (s : State) (n : Nat) (g : SpindleSt → SpindleSt) : (s.modSp n g).sp n = g (s.sp n) := by
  simp [State.sp, State.modSp]
theorem sp_modSp_ne (s : State) {n m : Nat} (g : SpindleSt → SpindleSt) (h : m ≠ n) : (s.modSp n g).sp m = s.sp m := by
  simp [State.sp, State.modSp, sget_sput_ne _ _ _ h]
@[simp] theorem modSp_f (s : State) (n : Nat) (g : SpindleSt → SpindleSt) (x : Fld) (i j : Nat) : (s.modSp n g).f x i j = s.f x i j := rfl

@[simp] theorem modAux_regs (s : State) (n : Nat) (g : AuxSt → AuxSt) : (s.modAux n g).regs = s.regs := rfl
@[simp] theorem modAux_pending (s : State) (n : Nat) (g : AuxSt → AuxSt) : (s.modAux n g).pending = s.pending := rfl
@[simp] theorem modAux_fabric (s : State) (n : Nat) (g : AuxSt → AuxSt) : (s.modAux n g).fabric = s.fabric := rfl
@[simp] theorem modAux_chans (s : State) (n : Nat) (g : AuxSt → AuxSt) : (s.modAux n g).chans = s.chans := rfl
@[simp] theorem modAux_voices (s : State) (n : Nat) (g : AuxSt → AuxSt) : (s.modAux n g).voices = s.voices := rfl
@[simp] theorem modAux_cores (s : State) (n : Nat) (g : AuxSt → AuxSt) : (s.modAux n g).cores = s.cores := rfl
@[simp] theorem modAux_dmem (s : State) (n : Nat) (g : AuxSt → AuxSt) : (s.modAux n g).dmem = s.dmem := rfl
@[simp] theorem modAux_bindings (s : State) (n : Nat) (g : AuxSt → AuxSt) : (s.modAux n g).bindings = s.bindings := rfl
@[simp] theorem modAux_buffers (s : State) (n : Nat) (g : AuxSt → AuxSt) : (s.modAux n g).buffers = s.buffers := rfl
@[simp] theorem modAux_trigOuts (s : State) (n : Nat) (g : AuxSt → AuxSt) : (s.modAux n g).trigOuts = s.trigOuts := rfl
@[simp] theorem modAux_trigIns (s : State) (n : Nat) (g : AuxSt → AuxSt) : (s.modAux n g).trigIns = s.trigIns := rfl
@[simp] theorem modAux_sram (s : State) (n : Nat) (g : AuxSt → AuxSt) : (s.modAux n g).sram = s.sram := rfl
@[simp] theorem modAux_dram (s : State) (n : Nat) (g : AuxSt → AuxSt) : (s.modAux n g).dram = s.dram := rfl
@[simp] theorem modAux_poison (s : State) (n : Nat) (g : AuxSt → AuxSt) : (s.modAux n g).poison = s.poison := rfl
@[simp] theorem modAux_cals (s : State) (n : Nat) (g : AuxSt → AuxSt) : (s.modAux n g).cals = s.cals := rfl
@[simp] theorem modAux_calStoreAgain (s : State) (n : Nat) (g : AuxSt → AuxSt) : (s.modAux n g).calStoreAgain = s.calStoreAgain := rfl
@[simp] theorem modAux_mem (s : State) (n : Nat) (g : AuxSt → AuxSt) : (s.modAux n g).mem = s.mem := rfl
@[simp] theorem modAux_ports (s : State) (n : Nat) (g : AuxSt → AuxSt) : (s.modAux n g).ports = s.ports := rfl
@[simp] theorem modAux_link (s : State) (n : Nat) (g : AuxSt → AuxSt) : (s.modAux n g).link = s.link := rfl
@[simp] theorem modAux_bus (s : State) (n : Nat) (g : AuxSt → AuxSt) : (s.modAux n g).bus = s.bus := rfl
@[simp] theorem modAux_time (s : State) (n : Nat) (g : AuxSt → AuxSt) : (s.modAux n g).time = s.time := rfl
@[simp] theorem modAux_power (s : State) (n : Nat) (g : AuxSt → AuxSt) : (s.modAux n g).power = s.power := rfl
@[simp] theorem modAux_boot (s : State) (n : Nat) (g : AuxSt → AuxSt) : (s.modAux n g).boot = s.boot := rfl
@[simp] theorem modAux_choice (s : State) (n : Nat) (g : AuxSt → AuxSt) : (s.modAux n g).choice = s.choice := rfl
@[simp] theorem aux_modAux_same (s : State) (n : Nat) (g : AuxSt → AuxSt) : (s.modAux n g).aux n = g (s.aux n) := by
  simp [State.aux, State.modAux]
theorem aux_modAux_ne (s : State) {n m : Nat} (g : AuxSt → AuxSt) (h : m ≠ n) : (s.modAux n g).aux m = s.aux m := by
  simp [State.aux, State.modAux, sget_sput_ne _ _ _ h]
@[simp] theorem modAux_f (s : State) (n : Nat) (g : AuxSt → AuxSt) (x : Fld) (i j : Nat) : (s.modAux n g).f x i j = s.f x i j := rfl

@[simp] theorem modClkout_regs (s : State) (n : Nat) (g : ClkoutSt → ClkoutSt) : (s.modClkout n g).regs = s.regs := rfl
@[simp] theorem modClkout_pending (s : State) (n : Nat) (g : ClkoutSt → ClkoutSt) : (s.modClkout n g).pending = s.pending := rfl
@[simp] theorem modClkout_fabric (s : State) (n : Nat) (g : ClkoutSt → ClkoutSt) : (s.modClkout n g).fabric = s.fabric := rfl
@[simp] theorem modClkout_chans (s : State) (n : Nat) (g : ClkoutSt → ClkoutSt) : (s.modClkout n g).chans = s.chans := rfl
@[simp] theorem modClkout_voices (s : State) (n : Nat) (g : ClkoutSt → ClkoutSt) : (s.modClkout n g).voices = s.voices := rfl
@[simp] theorem modClkout_cores (s : State) (n : Nat) (g : ClkoutSt → ClkoutSt) : (s.modClkout n g).cores = s.cores := rfl
@[simp] theorem modClkout_dmem (s : State) (n : Nat) (g : ClkoutSt → ClkoutSt) : (s.modClkout n g).dmem = s.dmem := rfl
@[simp] theorem modClkout_bindings (s : State) (n : Nat) (g : ClkoutSt → ClkoutSt) : (s.modClkout n g).bindings = s.bindings := rfl
@[simp] theorem modClkout_buffers (s : State) (n : Nat) (g : ClkoutSt → ClkoutSt) : (s.modClkout n g).buffers = s.buffers := rfl
@[simp] theorem modClkout_trigOuts (s : State) (n : Nat) (g : ClkoutSt → ClkoutSt) : (s.modClkout n g).trigOuts = s.trigOuts := rfl
@[simp] theorem modClkout_trigIns (s : State) (n : Nat) (g : ClkoutSt → ClkoutSt) : (s.modClkout n g).trigIns = s.trigIns := rfl
@[simp] theorem modClkout_sram (s : State) (n : Nat) (g : ClkoutSt → ClkoutSt) : (s.modClkout n g).sram = s.sram := rfl
@[simp] theorem modClkout_dram (s : State) (n : Nat) (g : ClkoutSt → ClkoutSt) : (s.modClkout n g).dram = s.dram := rfl
@[simp] theorem modClkout_poison (s : State) (n : Nat) (g : ClkoutSt → ClkoutSt) : (s.modClkout n g).poison = s.poison := rfl
@[simp] theorem modClkout_cals (s : State) (n : Nat) (g : ClkoutSt → ClkoutSt) : (s.modClkout n g).cals = s.cals := rfl
@[simp] theorem modClkout_calStoreAgain (s : State) (n : Nat) (g : ClkoutSt → ClkoutSt) : (s.modClkout n g).calStoreAgain = s.calStoreAgain := rfl
@[simp] theorem modClkout_mem (s : State) (n : Nat) (g : ClkoutSt → ClkoutSt) : (s.modClkout n g).mem = s.mem := rfl
@[simp] theorem modClkout_ports (s : State) (n : Nat) (g : ClkoutSt → ClkoutSt) : (s.modClkout n g).ports = s.ports := rfl
@[simp] theorem modClkout_link (s : State) (n : Nat) (g : ClkoutSt → ClkoutSt) : (s.modClkout n g).link = s.link := rfl
@[simp] theorem modClkout_bus (s : State) (n : Nat) (g : ClkoutSt → ClkoutSt) : (s.modClkout n g).bus = s.bus := rfl
@[simp] theorem modClkout_time (s : State) (n : Nat) (g : ClkoutSt → ClkoutSt) : (s.modClkout n g).time = s.time := rfl
@[simp] theorem modClkout_power (s : State) (n : Nat) (g : ClkoutSt → ClkoutSt) : (s.modClkout n g).power = s.power := rfl
@[simp] theorem modClkout_boot (s : State) (n : Nat) (g : ClkoutSt → ClkoutSt) : (s.modClkout n g).boot = s.boot := rfl
@[simp] theorem modClkout_choice (s : State) (n : Nat) (g : ClkoutSt → ClkoutSt) : (s.modClkout n g).choice = s.choice := rfl
@[simp] theorem clkout_modClkout_same (s : State) (n : Nat) (g : ClkoutSt → ClkoutSt) : (s.modClkout n g).clkout n = g (s.clkout n) := by
  simp [State.clkout, State.modClkout]
theorem clkout_modClkout_ne (s : State) {n m : Nat} (g : ClkoutSt → ClkoutSt) (h : m ≠ n) : (s.modClkout n g).clkout m = s.clkout m := by
  simp [State.clkout, State.modClkout, sget_sput_ne _ _ _ h]
@[simp] theorem modClkout_f (s : State) (n : Nat) (g : ClkoutSt → ClkoutSt) (x : Fld) (i j : Nat) : (s.modClkout n g).f x i j = s.f x i j := rfl

@[simp] theorem modRelay_regs (s : State) (n : Nat) (g : RelaySt → RelaySt) : (s.modRelay n g).regs = s.regs := rfl
@[simp] theorem modRelay_pending (s : State) (n : Nat) (g : RelaySt → RelaySt) : (s.modRelay n g).pending = s.pending := rfl
@[simp] theorem modRelay_chans (s : State) (n : Nat) (g : RelaySt → RelaySt) : (s.modRelay n g).chans = s.chans := rfl
@[simp] theorem modRelay_voices (s : State) (n : Nat) (g : RelaySt → RelaySt) : (s.modRelay n g).voices = s.voices := rfl
@[simp] theorem modRelay_cores (s : State) (n : Nat) (g : RelaySt → RelaySt) : (s.modRelay n g).cores = s.cores := rfl
@[simp] theorem modRelay_dmem (s : State) (n : Nat) (g : RelaySt → RelaySt) : (s.modRelay n g).dmem = s.dmem := rfl
@[simp] theorem modRelay_bindings (s : State) (n : Nat) (g : RelaySt → RelaySt) : (s.modRelay n g).bindings = s.bindings := rfl
@[simp] theorem modRelay_buffers (s : State) (n : Nat) (g : RelaySt → RelaySt) : (s.modRelay n g).buffers = s.buffers := rfl
@[simp] theorem modRelay_trigOuts (s : State) (n : Nat) (g : RelaySt → RelaySt) : (s.modRelay n g).trigOuts = s.trigOuts := rfl
@[simp] theorem modRelay_trigIns (s : State) (n : Nat) (g : RelaySt → RelaySt) : (s.modRelay n g).trigIns = s.trigIns := rfl
@[simp] theorem modRelay_sram (s : State) (n : Nat) (g : RelaySt → RelaySt) : (s.modRelay n g).sram = s.sram := rfl
@[simp] theorem modRelay_dram (s : State) (n : Nat) (g : RelaySt → RelaySt) : (s.modRelay n g).dram = s.dram := rfl
@[simp] theorem modRelay_poison (s : State) (n : Nat) (g : RelaySt → RelaySt) : (s.modRelay n g).poison = s.poison := rfl
@[simp] theorem modRelay_cals (s : State) (n : Nat) (g : RelaySt → RelaySt) : (s.modRelay n g).cals = s.cals := rfl
@[simp] theorem modRelay_calStoreAgain (s : State) (n : Nat) (g : RelaySt → RelaySt) : (s.modRelay n g).calStoreAgain = s.calStoreAgain := rfl
@[simp] theorem modRelay_mem (s : State) (n : Nat) (g : RelaySt → RelaySt) : (s.modRelay n g).mem = s.mem := rfl
@[simp] theorem modRelay_ports (s : State) (n : Nat) (g : RelaySt → RelaySt) : (s.modRelay n g).ports = s.ports := rfl
@[simp] theorem modRelay_link (s : State) (n : Nat) (g : RelaySt → RelaySt) : (s.modRelay n g).link = s.link := rfl
@[simp] theorem modRelay_bus (s : State) (n : Nat) (g : RelaySt → RelaySt) : (s.modRelay n g).bus = s.bus := rfl
@[simp] theorem modRelay_clock (s : State) (n : Nat) (g : RelaySt → RelaySt) : (s.modRelay n g).clock = s.clock := rfl
@[simp] theorem modRelay_time (s : State) (n : Nat) (g : RelaySt → RelaySt) : (s.modRelay n g).time = s.time := rfl
@[simp] theorem modRelay_power (s : State) (n : Nat) (g : RelaySt → RelaySt) : (s.modRelay n g).power = s.power := rfl
@[simp] theorem modRelay_boot (s : State) (n : Nat) (g : RelaySt → RelaySt) : (s.modRelay n g).boot = s.boot := rfl
@[simp] theorem modRelay_choice (s : State) (n : Nat) (g : RelaySt → RelaySt) : (s.modRelay n g).choice = s.choice := rfl
@[simp] theorem relay_modRelay_same (s : State) (n : Nat) (g : RelaySt → RelaySt) : (s.modRelay n g).relay n = g (s.relay n) := by
  simp [State.relay, State.modRelay]
theorem relay_modRelay_ne (s : State) {n m : Nat} (g : RelaySt → RelaySt) (h : m ≠ n) : (s.modRelay n g).relay m = s.relay m := by
  simp [State.relay, State.modRelay, sget_sput_ne _ _ _ h]
@[simp] theorem modRelay_f (s : State) (n : Nat) (g : RelaySt → RelaySt) (x : Fld) (i j : Nat) : (s.modRelay n g).f x i j = s.f x i j := rfl

@[simp] theorem modInput_regs (s : State) (n : Nat) (g : InputSt → InputSt) : (s.modInput n g).regs = s.regs := rfl
@[simp] theorem modInput_pending (s : State) (n : Nat) (g : InputSt → InputSt) : (s.modInput n g).pending = s.pending := rfl
@[simp] theorem modInput_chans (s : State) (n : Nat) (g : InputSt → InputSt) : (s.modInput n g).chans = s.chans := rfl
@[simp] theorem modInput_voices (s : State) (n : Nat) (g : InputSt → InputSt) : (s.modInput n g).voices = s.voices := rfl
@[simp] theorem modInput_cores (s : State) (n : Nat) (g : InputSt → InputSt) : (s.modInput n g).cores = s.cores := rfl
@[simp] theorem modInput_dmem (s : State) (n : Nat) (g : InputSt → InputSt) : (s.modInput n g).dmem = s.dmem := rfl
@[simp] theorem modInput_bindings (s : State) (n : Nat) (g : InputSt → InputSt) : (s.modInput n g).bindings = s.bindings := rfl
@[simp] theorem modInput_buffers (s : State) (n : Nat) (g : InputSt → InputSt) : (s.modInput n g).buffers = s.buffers := rfl
@[simp] theorem modInput_trigOuts (s : State) (n : Nat) (g : InputSt → InputSt) : (s.modInput n g).trigOuts = s.trigOuts := rfl
@[simp] theorem modInput_trigIns (s : State) (n : Nat) (g : InputSt → InputSt) : (s.modInput n g).trigIns = s.trigIns := rfl
@[simp] theorem modInput_sram (s : State) (n : Nat) (g : InputSt → InputSt) : (s.modInput n g).sram = s.sram := rfl
@[simp] theorem modInput_dram (s : State) (n : Nat) (g : InputSt → InputSt) : (s.modInput n g).dram = s.dram := rfl
@[simp] theorem modInput_poison (s : State) (n : Nat) (g : InputSt → InputSt) : (s.modInput n g).poison = s.poison := rfl
@[simp] theorem modInput_cals (s : State) (n : Nat) (g : InputSt → InputSt) : (s.modInput n g).cals = s.cals := rfl
@[simp] theorem modInput_calStoreAgain (s : State) (n : Nat) (g : InputSt → InputSt) : (s.modInput n g).calStoreAgain = s.calStoreAgain := rfl
@[simp] theorem modInput_mem (s : State) (n : Nat) (g : InputSt → InputSt) : (s.modInput n g).mem = s.mem := rfl
@[simp] theorem modInput_ports (s : State) (n : Nat) (g : InputSt → InputSt) : (s.modInput n g).ports = s.ports := rfl
@[simp] theorem modInput_link (s : State) (n : Nat) (g : InputSt → InputSt) : (s.modInput n g).link = s.link := rfl
@[simp] theorem modInput_bus (s : State) (n : Nat) (g : InputSt → InputSt) : (s.modInput n g).bus = s.bus := rfl
@[simp] theorem modInput_clock (s : State) (n : Nat) (g : InputSt → InputSt) : (s.modInput n g).clock = s.clock := rfl
@[simp] theorem modInput_time (s : State) (n : Nat) (g : InputSt → InputSt) : (s.modInput n g).time = s.time := rfl
@[simp] theorem modInput_power (s : State) (n : Nat) (g : InputSt → InputSt) : (s.modInput n g).power = s.power := rfl
@[simp] theorem modInput_boot (s : State) (n : Nat) (g : InputSt → InputSt) : (s.modInput n g).boot = s.boot := rfl
@[simp] theorem modInput_choice (s : State) (n : Nat) (g : InputSt → InputSt) : (s.modInput n g).choice = s.choice := rfl
@[simp] theorem input_modInput_same (s : State) (n : Nat) (g : InputSt → InputSt) : (s.modInput n g).input n = g (s.input n) := by
  simp [State.input, State.modInput]
theorem input_modInput_ne (s : State) {n m : Nat} (g : InputSt → InputSt) (h : m ≠ n) : (s.modInput n g).input m = s.input m := by
  simp [State.input, State.modInput, sget_sput_ne _ _ _ h]
@[simp] theorem modInput_f (s : State) (n : Nat) (g : InputSt → InputSt) (x : Fld) (i j : Nat) : (s.modInput n g).f x i j = s.f x i j := rfl

@[simp] theorem modCable_regs (s : State) (n : Nat) (g : CableSt → CableSt) : (s.modCable n g).regs = s.regs := rfl
@[simp] theorem modCable_pending (s : State) (n : Nat) (g : CableSt → CableSt) : (s.modCable n g).pending = s.pending := rfl
@[simp] theorem modCable_fabric (s : State) (n : Nat) (g : CableSt → CableSt) : (s.modCable n g).fabric = s.fabric := rfl
@[simp] theorem modCable_chans (s : State) (n : Nat) (g : CableSt → CableSt) : (s.modCable n g).chans = s.chans := rfl
@[simp] theorem modCable_voices (s : State) (n : Nat) (g : CableSt → CableSt) : (s.modCable n g).voices = s.voices := rfl
@[simp] theorem modCable_cores (s : State) (n : Nat) (g : CableSt → CableSt) : (s.modCable n g).cores = s.cores := rfl
@[simp] theorem modCable_dmem (s : State) (n : Nat) (g : CableSt → CableSt) : (s.modCable n g).dmem = s.dmem := rfl
@[simp] theorem modCable_bindings (s : State) (n : Nat) (g : CableSt → CableSt) : (s.modCable n g).bindings = s.bindings := rfl
@[simp] theorem modCable_buffers (s : State) (n : Nat) (g : CableSt → CableSt) : (s.modCable n g).buffers = s.buffers := rfl
@[simp] theorem modCable_trigOuts (s : State) (n : Nat) (g : CableSt → CableSt) : (s.modCable n g).trigOuts = s.trigOuts := rfl
@[simp] theorem modCable_trigIns (s : State) (n : Nat) (g : CableSt → CableSt) : (s.modCable n g).trigIns = s.trigIns := rfl
@[simp] theorem modCable_sram (s : State) (n : Nat) (g : CableSt → CableSt) : (s.modCable n g).sram = s.sram := rfl
@[simp] theorem modCable_dram (s : State) (n : Nat) (g : CableSt → CableSt) : (s.modCable n g).dram = s.dram := rfl
@[simp] theorem modCable_poison (s : State) (n : Nat) (g : CableSt → CableSt) : (s.modCable n g).poison = s.poison := rfl
@[simp] theorem modCable_cals (s : State) (n : Nat) (g : CableSt → CableSt) : (s.modCable n g).cals = s.cals := rfl
@[simp] theorem modCable_calStoreAgain (s : State) (n : Nat) (g : CableSt → CableSt) : (s.modCable n g).calStoreAgain = s.calStoreAgain := rfl
@[simp] theorem modCable_mem (s : State) (n : Nat) (g : CableSt → CableSt) : (s.modCable n g).mem = s.mem := rfl
@[simp] theorem modCable_ports (s : State) (n : Nat) (g : CableSt → CableSt) : (s.modCable n g).ports = s.ports := rfl
@[simp] theorem modCable_link (s : State) (n : Nat) (g : CableSt → CableSt) : (s.modCable n g).link = s.link := rfl
@[simp] theorem modCable_bus (s : State) (n : Nat) (g : CableSt → CableSt) : (s.modCable n g).bus = s.bus := rfl
@[simp] theorem modCable_clock (s : State) (n : Nat) (g : CableSt → CableSt) : (s.modCable n g).clock = s.clock := rfl
@[simp] theorem modCable_power (s : State) (n : Nat) (g : CableSt → CableSt) : (s.modCable n g).power = s.power := rfl
@[simp] theorem modCable_boot (s : State) (n : Nat) (g : CableSt → CableSt) : (s.modCable n g).boot = s.boot := rfl
@[simp] theorem modCable_choice (s : State) (n : Nat) (g : CableSt → CableSt) : (s.modCable n g).choice = s.choice := rfl
@[simp] theorem cable_modCable_same (s : State) (n : Nat) (g : CableSt → CableSt) : (s.modCable n g).cable n = g (s.cable n) := by
  simp [State.cable, State.modCable]
theorem cable_modCable_ne (s : State) {n m : Nat} (g : CableSt → CableSt) (h : m ≠ n) : (s.modCable n g).cable m = s.cable m := by
  simp [State.cable, State.modCable, sget_sput_ne _ _ _ h]
@[simp] theorem modCable_f (s : State) (n : Nat) (g : CableSt → CableSt) (x : Fld) (i j : Nat) : (s.modCable n g).f x i j = s.f x i j := rfl

/-! ### Free values and the instant -/

@[simp] theorem drawn_regs (s : State) : s.drawn.regs = s.regs := rfl
@[simp] theorem drawn_pending (s : State) : s.drawn.pending = s.pending := rfl
@[simp] theorem drawn_fabric (s : State) : s.drawn.fabric = s.fabric := rfl
@[simp] theorem drawn_chans (s : State) : s.drawn.chans = s.chans := rfl
@[simp] theorem drawn_voices (s : State) : s.drawn.voices = s.voices := rfl
@[simp] theorem drawn_cores (s : State) : s.drawn.cores = s.cores := rfl
@[simp] theorem drawn_dmem (s : State) : s.drawn.dmem = s.dmem := rfl
@[simp] theorem drawn_bindings (s : State) : s.drawn.bindings = s.bindings := rfl
@[simp] theorem drawn_buffers (s : State) : s.drawn.buffers = s.buffers := rfl
@[simp] theorem drawn_trigOuts (s : State) : s.drawn.trigOuts = s.trigOuts := rfl
@[simp] theorem drawn_trigIns (s : State) : s.drawn.trigIns = s.trigIns := rfl
@[simp] theorem drawn_sram (s : State) : s.drawn.sram = s.sram := rfl
@[simp] theorem drawn_dram (s : State) : s.drawn.dram = s.dram := rfl
@[simp] theorem drawn_poison (s : State) : s.drawn.poison = s.poison := rfl
@[simp] theorem drawn_cals (s : State) : s.drawn.cals = s.cals := rfl
@[simp] theorem drawn_calStoreAgain (s : State) : s.drawn.calStoreAgain = s.calStoreAgain := rfl
@[simp] theorem drawn_mem (s : State) : s.drawn.mem = s.mem := rfl
@[simp] theorem drawn_ports (s : State) : s.drawn.ports = s.ports := rfl
@[simp] theorem drawn_link (s : State) : s.drawn.link = s.link := rfl
@[simp] theorem drawn_bus (s : State) : s.drawn.bus = s.bus := rfl
@[simp] theorem drawn_clock (s : State) : s.drawn.clock = s.clock := rfl
@[simp] theorem drawn_time (s : State) : s.drawn.time = s.time := rfl
@[simp] theorem drawn_power (s : State) : s.drawn.power = s.power := rfl
@[simp] theorem drawn_boot (s : State) : s.drawn.boot = s.boot := rfl

/-- DTIME reaches an instant, and only DTIME and the fabric change (R227). -/
theorem reach_regs (s : State) (t : Nat) : (s.reach t).regs = s.regs := by unfold State.reach; split <;> rfl
@[simp] theorem reach_f (s : State) (t : Nat) (x : Fld) (i j : Nat) : (s.reach t).f x i j = s.f x i j := f_congr (reach_regs s t) x i j

/-- An instant that has passed moves nothing. -/
theorem reach_passed (s : State) (t : Nat) (h : t ≤ s.now) : s.reach t = s := by
  unfold State.reach; rw [if_neg (by omega)]

/-- In OFF and in REST, DTIME reaches t itself. -/
theorem reach_rest (s : State) (t : Nat) (hd : (s.off || s.resting) = true) (ht : s.now < t) (h : t < 2 ^ 96) : (s.reach t).now = t := by
  unfold State.reach; rw [if_pos ht]
  simp only [State.now, hd, if_true, BitVec.toNat_ofNat, Nat.mod_eq_of_lt h]

/-- The count of the first edge at or after t lies at t or less than one cycle after it. -/
theorem edgeAt_bounds (x : TimeSt) (t : Nat) (h : x.count ≤ t * 2400000000) :
    t * 2400000000 ≤ x.edgeAt t ∧ x.edgeAt t < t * 2400000000 + second := by
  have := Nat.div_add_mod (t * 2400000000 - x.count + (second - 1)) second
  have hm : (t * 2400000000 - x.count + (second - 1)) % second < second := Nat.mod_lt _ (by decide)
  have hs : 0 < second := by decide
  simp only [TimeSt.edgeAt, Nat.mul_comm _ second]
  omega

/-- DTIME after reaching t that has not passed: t, or the next edge, less than one cycle of the Reference PLL after it (R227). -/
theorem reach_now (s : State) (t : Nat) (hr : s.time.residue < 2400000000) (ht : s.now < t) (h : t + 117282 ≤ 2 ^ 96) :
    t ≤ (s.reach t).now ∧ (s.reach t).now < t + 117282 := by
  by_cases hd : (s.off || s.resting) = true
  · rw [reach_rest s t hd ht (by omega)]; omega
  · have hb := edgeAt_bounds s.time t (by unfold State.now at ht; unfold TimeSt.count; omega)
    have h2 : second = 281474976710656 := rfl
    unfold State.reach; rw [if_pos ht]
    simp only [State.now, hd, TimeSt.atCount]
    rw [if_neg (by simp)]
    simp only [BitVec.toNat_ofNat]
    rw [Nat.mod_eq_of_lt (by omega)]
    omega

end Sys2Proof.Machine
end

