-- ==== Sys2Proof/Laws/Ops.lean ====
section
/-! SUPPORT. What the shared operations touch, said once for each: most leave all but registers, the fabric, the
instant of the error log and the count of free values. -/

namespace Sys2Proof.Machine

/-- From s to t, only registers, the fabric's state, the instant of the error log and the count of free values may have changed. -/
structure Recorded (s t : State) : Prop where
  pending : t.pending = s.pending
  chans : t.chans = s.chans
  voices : t.voices = s.voices
  cores : t.cores = s.cores
  dmem : t.dmem = s.dmem
  bindings : t.bindings = s.bindings
  buffers : t.buffers = s.buffers
  trigOuts : t.trigOuts = s.trigOuts
  trigIns : t.trigIns = s.trigIns
  sram : t.sram = s.sram
  dram : t.dram = s.dram
  poison : t.poison = s.poison
  cals : t.cals = s.cals
  calStoreAgain : t.calStoreAgain = s.calStoreAgain
  ports : t.ports = s.ports
  link : t.link = s.link
  bus : t.bus = { s.bus with refusedAt := t.bus.refusedAt }
  clock : t.clock = s.clock
  time : t.time = s.time
  power : t.power = s.power
  boot : t.boot = s.boot
  mem : t.mem = { s.mem with logAt := t.mem.logAt }

theorem Recorded_refl (s : State) : Recorded s s := by constructor <;> rfl

theorem Recorded_trans {s t u : State} (h : Recorded s t) (k : Recorded t u) : Recorded s u := by
  constructor
  case mem => rw [k.mem, h.mem]
  case bus => rw [k.bus, h.bus]
  all_goals first
    | exact k.pending.trans h.pending
    | exact k.chans.trans h.chans
    | exact k.voices.trans h.voices
    | exact k.cores.trans h.cores
    | exact k.dmem.trans h.dmem
    | exact k.bindings.trans h.bindings
    | exact k.buffers.trans h.buffers
    | exact k.trigOuts.trans h.trigOuts
    | exact k.trigIns.trans h.trigIns
    | exact k.sram.trans h.sram
    | exact k.dram.trans h.dram
    | exact k.poison.trans h.poison
    | exact k.cals.trans h.cals
    | exact k.calStoreAgain.trans h.calStoreAgain
    | exact k.ports.trans h.ports
    | exact k.link.trans h.link
    | exact k.clock.trans h.clock
    | exact k.time.trans h.time
    | exact k.power.trans h.power
    | exact k.boot.trans h.boot

theorem Recorded_setRw (s : State) (r : Reg) (w : Word) (i j : Nat) : Recorded s (s.setRw r w i j) := by constructor <;> rfl
theorem Recorded_setF (s : State) (x : Fld) (v i j : Nat) : Recorded s (s.setF x v i j) := by constructor <;> rfl
theorem Recorded_flag (s : State) (x : Fld) (i j : Nat) : Recorded s (s.flag x i j) := by constructor <;> rfl
theorem Recorded_bump (s : State) (x : Fld) (i j : Nat) : Recorded s (s.bump x i j) := by constructor <;> rfl
theorem Recorded_trouble (s : State) (x : Trouble) : Recorded s (s.trouble x) := by constructor <;> rfl
theorem Recorded_logAt (s : State) (a : Option Nat) : Recorded s { s with mem := { s.mem with logAt := a } } := by constructor <;> rfl
theorem Recorded_drawn (s : State) : Recorded s s.drawn := by constructor <;> rfl

theorem Recorded.gens {s t : State} (h : Recorded s t) : t.mem.gens = s.mem.gens := by rw [h.mem]

/-! ### Firing -/

theorem fire_recorded (s : State) (src t : Nat) : Recorded s (s.fire src t) := by
  unfold State.fire; split
  · constructor <;> rfl
  · exact Recorded_refl s

theorem fireNow_recorded (s : State) (src : Nat) : Recorded s (s.fireNow src) := fire_recorded s src _

theorem fire_fabric (s : State) (src t : Nat) :
    (s.fire src t).fabric.fired = if s.mayFire src then s.fabric.fired ++ [⟨.source src, t⟩] else s.fabric.fired := by
  unfold State.fire; split <;> rfl

/-- While the device state lets a source fire, it is in the fabric after. -/
theorem fire_fired (s : State) (src t : Nat) : FiredAt s (s.fire src t) src t := by
  intro h; simp [fire_fabric, h]

@[simp] theorem fire_regs (s : State) (src t : Nat) : (s.fire src t).regs = s.regs := by unfold State.fire; split <;> rfl
@[simp] theorem fire_f (s : State) (src t : Nat) (x : Fld) (i j : Nat) : (s.fire src t).f x i j = s.f x i j := f_congr (fire_regs s src t) x i j
@[simp] theorem fireNow_regs (s : State) (src : Nat) : (s.fireNow src).regs = s.regs := fire_regs s src _
@[simp] theorem fireNow_f (s : State) (src : Nat) (x : Fld) (i j : Nat) : (s.fireNow src).f x i j = s.f x i j := fire_f s src _ x i j

/-! ### Errors of memories -/

/-- The error log touches registers and the fabric. -/
theorem logError_recorded (s : State) (kind req addr : Nat) : Recorded s (s.logError kind req addr) := by
  have h := fireNow_recorded (s.trouble .eccUe) 624
  unfold State.logError
  dsimp only
  generalize (s.trouble .eccUe).fireNow 624 = u at h ⊢
  split
  · exact Recorded_trans (Recorded_trouble s _) (Recorded_trans h (Recorded_trans (Recorded_setF u _ kind 0 0) (Recorded_trans
      (Recorded_setF _ _ req 0 0) (Recorded_trans (Recorded_setF _ _ addr 0 0) (Recorded_trans (Recorded_flag _ _ 0 0)
        (Recorded_logAt _ _))))))
  · exact Recorded_trans (Recorded_trouble s _) h

/-- What a read of SRAM or DRAM meets touches registers and the fabric. -/
theorem eccEvent_recorded (s : State) (e : Ecc) (d marked : Bool) (req addr : Nat) : Recorded s (s.eccEvent e d marked req addr) := by
  unfold State.eccEvent
  split
  · exact Recorded_refl s
  · exact Recorded_trans (Recorded_trouble s _) (Recorded_bump _ _ _ _)
  · exact logError_recorded s _ req addr
  · exact Recorded_trans (logError_recorded s _ req addr) (Recorded_bump _ _ _ _)

/-- What a read of a core's own memory meets touches registers, the fabric and the count of free values. -/
theorem coreEcc_recorded (s : State) (e : Ecc) (addr : Nat) : Recorded s (s.coreEcc e addr) := by
  unfold State.coreEcc
  split
  · exact Recorded_refl s
  · exact Recorded_trouble s _
  · exact Recorded_trans (Recorded_drawn s) (logError_recorded s.drawn _ _ addr)

@[simp] theorem coreEcc_clean (s : State) (addr : Nat) : s.coreEcc .clean addr = s := rfl

theorem coreEcc_pc (s : State) (e : Ecc) (addr k : Nat) : (s.coreEcc e addr).pc k = s.pc k := by
  simp only [State.pc, State.core, (coreEcc_recorded s e addr).cores]

/-! ### Cores -/

/-- A change of a core's state above ARMED touches the register file alone. -/
theorem setSt_recorded {s : State} (k n : Nat) (h : 3 < s.st k) : Recorded s (s.setSt k n) := by
  unfold State.setSt
  rw [if_neg (by omega)]
  exact Recorded_setF _ _ _ _ _

/-- A fault of a core past ARMED touches registers and the fabric (R51). -/
theorem coreFault_recorded {s : State} (k code : Nat) (h : 3 < s.st k) : Recorded s (s.coreFault k code) :=
  Recorded_trans (setSt_recorded k 10 h) (Recorded_trans (Recorded_setF _ _ _ _ _) (Recorded_trans (Recorded_setF _ _ _ _ _)
    (Recorded_trans (Recorded_bump _ _ _ _) (fireNow_recorded _ _))))

/-- A register of a core reads what was written; g0 reads 0 (R55). -/
theorem greg_setGreg_same (s : State) (k : Nat) (d : Fin 32) (w : Word) : (s.setGreg k d w).greg k d = if d = 0 then 0 else w := by
  unfold State.setGreg State.greg; split <;> simp

/-- Writing a register of a core touches the register file alone. -/
theorem setGreg_only (s : State) (k : Nat) (d : Fin 32) (w : Word) : s.setGreg k d w = { s with regs := (s.setGreg k d w).regs } := by
  unfold State.setGreg; split <;> rfl

@[simp] theorem pc_setPc_same (s : State) (k n : Nat) : (s.setPc k n).pc k = n := by simp [State.pc, State.setPc]

@[simp] theorem setPc_regs (s : State) (k n : Nat) : (s.setPc k n).regs = s.regs := rfl

/-! ### Protection -/

/-- What PROT_LAST keeps of a refused access is a register and an instant. -/
theorem Recorded_refused (s : State) (w : Word) (a : Option Nat) :
    Recorded s { s.setRw .PROT_LAST w with bus := { s.bus with refusedAt := a } } := by constructor <;> rfl

/-- A refused access touches registers and the fabric (R341). -/
theorem refuseAccess_recorded (s : State) (q : Requester) (c : Cause) (read : Bool) (space addr : Nat) :
    Recorded s (s.refuseAccess q c read space addr) := by
  have h := Recorded_trouble s .protViolation
  unfold State.refuseAccess
  dsimp only
  generalize s.trouble .protViolation = u at h ⊢
  have k : ∀ w, Recorded s { u.setRw .PROT_LAST w with bus := { u.bus with refusedAt := some s.now } } := fun w =>
    Recorded_trans h (Recorded_refused u w (some s.now))
  split
  · split
    · exact Recorded_trans h (fireNow_recorded _ _)
    · exact h
  · split
    · exact Recorded_trans (k _) (fireNow_recorded _ _)
    · exact k _

/-- A note of a write to a reserved field touches the register file alone (R331). -/
theorem noteReserved_recorded (s : State) (q : Requester) (off : Nat) : Recorded s (s.noteReserved q off) := by
  have h := Recorded_flag s F.GLB_STATUS_RSVD_WR 0 0
  unfold State.noteReserved
  dsimp only
  split
  · exact Recorded_trans h (Recorded_setRw _ _ _ 0 0)
  · exact h

/-! ### The canonical form under the operations of memory -/

theorem memOk_eccEvent {s : State} (e : Ecc) (d marked : Bool) (req addr : Nat) (h : s.memOk) : (s.eccEvent e d marked req addr).memOk :=
  have k := eccEvent_recorded s e d marked req addr
  memOk_congr k.sram k.dram k.gens h

theorem memOk_readChecked {s : State} (d : Bool) (a : Nat) (e : Ecc) (req : Nat) (h : s.memOk) : (s.readChecked d a e req).memOk :=
  memOk_eccEvent e d _ req a h

theorem memOk_writeMasked {s : State} (d : Bool) (a : Nat) (be : BitVec 8) (data : Word) (e : Ecc) (req : Nat) (h : s.memOk) :
    (s.writeMasked d a be data e req).memOk := by
  unfold State.writeMasked
  split
  · exact h
  · split
    · exact memOk_writeWord d a data h
    · have k := memOk_writeWord d a (mergeBytes be data (s.readWord d a)) (memOk_eccEvent e d (s.poisoned d a) req a h)
      dsimp only
      split <;> exact k

theorem memOk_barAccess {s : State} (four write : Bool) (x : Nat) (be : BitVec 8) (data : Word) (e : Ecc) (h : s.memOk) :
    (s.barAccess four write x be data e).memOk := by
  unfold State.barAccess
  split
  · split
    · exact memOk_writeMasked four _ be data e 2 h
    · exact memOk_readChecked four _ e 2 h
  · exact h

theorem memOk_setMail {s : State} (off n v : Nat) (h : s.memOk) : (s.setMail off n v).memOk := by
  unfold State.setMail
  exact forN_keeps _ (fun i t ht => memOk_writeMasked false _ _ _ _ 5 ht) h

theorem memOk_writeWords {s : State} (d : Bool) (a : Nat) (l : List Word) (h : s.memOk) : (s.writeWords d a l).memOk := by
  induction l generalizing s a with
  | nil => exact h
  | cons w ws ih => exact ih (a + 8) (memOk_writeWord d a w h)

end Sys2Proof.Machine
end

