-- ==== Sys2Proof/Machine/Figures.lean ====
section
/-! DEFINITION. What the spec states of the filters whose taps it does not give (R80, R149, R150, R152, R154). The taps are constants of Config
without a body, so a claim about the frequency content of an output takes Figures.Met, or the part of it that it needs, as its hypothesis. -/

namespace Sys2Proof.Machine.Figures

/-- Filter tap, of the inputs within n of the present one, answers z times an input of unit amplitude at f cycles per input. -/
def Responds (tap : Int → Int) (n : Nat) (f : ℝ) (z : ℂ) : Prop :=
  z * 2 ^ 30 = ((around 0 n).map fun d => (tap d : ℂ) * Complex.exp (2 * Real.pi * f * d * Complex.I)).sum

/-- A gain from a to b, in dB. -/
def Decibels (g a b : ℝ) : Prop := (10 : ℝ) ^ (a / 20) ≤ g ∧ g ≤ (10 : ℝ) ^ (b / 20)

/-- At frequency f, z delays by d inputs, within a tolerance. -/
def Delays (z : ℂ) (f d tol : ℝ) : Prop :=
  |Complex.arg (z * Complex.exp (2 * Real.pi * f * d * Complex.I))| ≤ 2 * Real.pi * |f| * tol

/-- R80: ripple 0.005 dB and the delay VOFF, flat to half of its unit, within 0.40 F_V. -/
def VoiceFilter : Prop :=
  ∀ voff : Nat, 0 < voff → voff < 1024 → ∀ f : ℝ, |f| ≤ 0.40 → ∀ z, Responds (Config.voiceTap voff) 16 f z →
    Decibels ‖z‖ (-0.005) 0.005 ∧ Delays z f (voff / 1024) (1 / 2048)

/-- A rate-raising filter of factor r passes pass of its input rate within 0.005 dB and rejects its images by 90 dB, in linear phase. -/
def Raises (tap : Int → Int) (r n : Nat) (pass : ℝ) : Prop :=
  (∀ d, tap (-d) = tap d) ∧
  (∀ f : ℝ, |f| * r ≤ pass → ∀ z, Responds tap (r * n) f z → Decibels (‖z‖ / r) (-0.005) 0.005) ∧
  ∀ k : Nat, 0 < k → k < r → ∀ f : ℝ, |f - k / r| * r ≤ pass → ∀ z, Responds tap (r * n) f z → ‖z‖ ≤ r * (10 : ℝ) ^ (-90 / 20 : ℝ)

/-- R149. -/
def Interpolator : Prop :=
  (∀ ra : Nat, 2 ≤ ra → ra ≤ 16 → Raises (Config.stageATap ra) ra (stageA ra) 0.40) ∧ Raises Config.halfBandTap 2 10 0.20

/-- R150: within 0.40 of the word rate the resampler answers as a gain within 0.01 dB at every phase, all images together staying 80 dB below. -/
def Resampler : Prop :=
  ∀ f : ℝ, |f| ≤ 0.40 → ∃ c : ℂ, Decibels ‖c‖ (-0.01) 0.01 ∧ ∀ mu : Nat, mu < 2 ^ 32 → ∀ z : Nat → ℂ,
    (∀ p < 5, Responds (Config.farrowTap p) 12 f (z p)) →
      ‖(∑ p ∈ Finset.range 5, ((mu : ℂ) / 2 ^ 32) ^ p * z p) * Complex.exp (-(2 * Real.pi * f * (mu / 2 ^ 32) * Complex.I)) - c‖ ≤
        (10 : ℝ) ^ (-80 / 20 : ℝ)

/-- R152: ripple 0.005 dB and the delay FRAC / 1024 within 0.002 DAC sample, within 0.40 F_DAC. A place down the coarse buffer's line is one
sample back. -/
def TrimFilter : Prop :=
  ∀ frac : Nat, 0 < frac → frac < 1024 → ∀ f : ℝ, |f| ≤ 0.40 → ∀ z, Responds (Config.trimTap frac) 16 (-f) z →
    Decibels ‖z‖ (-0.005) 0.005 ∧ Delays z f (frac / 1024) 0.002

/-- A correction over a band: at most 0 dB, and flat with the hold response hold within tol dB. -/
def Corrects (mode : Nat) (a tol : ℝ) (hold : ℝ → ℝ) : Prop :=
  ∃ level : ℝ, 0 < level ∧ ∀ f : ℝ, a ≤ f → f ≤ 0.45 → ∀ z, Responds (Config.droopTap mode) 24 (-f) z →
    ‖z‖ ≤ 1 ∧ Decibels (‖z‖ * |hold f| / level) (-tol) tol

/-- The gain at 0 Hz, in dB, to the two places that the table gives. -/
def AtZero (mode : Nat) (g : ℝ) : Prop := ∀ z, Responds (Config.droopTap mode) 24 0 z → Decibels ‖z‖ (g - 0.005) (g + 0.005)

/-- R154, with the hold responses of R161; MIX is used at F_DAC − f. -/
def Droop : Prop :=
  (Corrects 1 0 0.05 (fun f => Real.sinc (Real.pi * f)) ∧ AtZero 1 (-3.11)) ∧
  (Corrects 2 0 0.05 (fun f => Real.sinc (Real.pi * f / 2)) ∧ AtZero 2 (-0.74)) ∧
  Corrects 3 0.10 0.10 (fun f => Real.sin (Real.pi * (1 - f) / 2) ^ 2 / (Real.pi * (1 - f) / 2))

/-- All of them. -/
def Met : Prop := VoiceFilter ∧ Interpolator ∧ Resampler ∧ TrimFilter ∧ Droop

end Sys2Proof.Machine.Figures
end

