-- ==== Sys2Proof/Machine/Pins.lean ====
section
/-! DEFINITION. What stands at the output pins of a channel (R158, R160, R161, R163, R177 to R179): the DAC pair and the marker lanes, read
from State. -/

namespace Sys2Proof.Machine

/-- Whether the rail of PWR_EN line l powers its pins: switched on, with its PG high, and PORST_N not low, under which outputs are held as
for POR (R349, R352, R369). -/
def State.powered (s : State) (l : Nat) : Bool := s.power.lines.contains l && s.power.good.contains l && !s.power.porstLow

/-! ### The DAC pair (R158, R161, R163) -/

/-- What a DAC output pair does: one of the states of R163, or a code driven. -/
inductive Pair where
  | unpowered
  | park
  | zero
  | drive (code : Int)
  deriving DecidableEq, Repr

/-- The pair of channel n at the DAC sample last presented: unpowered without VDD_DAC, and until its PG input asserts (R164); PARK
under precedences 1 to 3, without the analog domain (R164) and under EXTEST (R372); ZERO under 4 and 5 and after sample 64 of a RAMP
(R169). -/
def State.pair (s : State) (n : Nat) : Pair :=
  let c := s.chan n
  let k := s.outState n
  if ¬ s.powered 2 then .unpowered
  else if k ≤ 3 ∨ s.power.jtag = .extest then .park
  else if k ≤ 5 then .zero
  else if k = 6 ∧ (c.setAt (c.nextDac - 1)).ufl = 1 ∧ 64 < c.ufl then .zero
  else .drive c.code

/-- The two halves of a DAC sample by MODE (R161). -/
def halves (mode : Nat) (p : Pair) : Pair × Pair :=
  match p with
  | .drive c => if mode = 1 then (.drive c, .zero) else if mode = 2 then (.drive c, .drive (-c - 1)) else (.drive c, .drive c)
  | x => (x, x)

/-- The halves of the DAC sample that channel n last presented. -/
def State.shownHalves (s : State) (n : Nat) : Pair × Pair :=
  let c := s.chan n
  halves (c.setAt (c.nextDac - 1)).mode (s.pair n)

/-- Nominal leg currents I_P and I_N in units of 10 mA / 131,072 (R158, R159, R163). -/
def legs (range : Nat) (p : Pair) : Int × Int :=
  let full : Int := (range + 1) * 131072
  match p with
  | .unpowered => (0, 0)
  | .park | .zero => (full / 2, full / 2)
  | .drive c => let i := (range + 1) * (2 * (c + 32768) + 1); (i, full - i)

/-! ### Marker lanes (R177 to R179) -/

/-- The level that lane l of channel n shows at its pins now: that of the latest transition that has arrived (R177, R178). -/
def State.laneNow (s : State) (n l : Nat) : Bool :=
  match ((s.chan n).lane l).find? fun q => decide (q.1 ≤ (s.now : Int)) with
  | some q => q.2
  | none => false

/-- The level of the pair of lane l of channel n: none without VDD_AUX and while its datapath domain is off (R369); logic 0 from the channel's
stop until its output leaves PARK after the start, while it parks under precedence 2, and with PARK_FOLLOW under precedence 3; inverted by INV
after all that (R179). -/
def State.lanePin (s : State) (n l : Nat) : Option Bool :=
  let c := s.chan n
  if ¬ s.powered 4 ∨ ¬ s.dom (16 + n) then none
  else
    let forced := s.idlePark n || c.unlocked || c.cond == 2 ||
      ((c.brown || c.cond == 3) && s.on F.MK_CFG_PARK_FOLLOW n l)
    some ((!forced && s.laneNow n l) != s.on F.MK_CFG_INV n l)

/-! ### CLKOUT pairs (R223, R224) -/

/-- What a leg of a CLKOUT pair does: high-impedance, at the inactive level, driven low, or carrying the divided clock. -/
inductive ClkLeg where
  | highZ
  | inactive
  | low
  | clock
  deriving DecidableEq, Repr

/-- Legs P and N of CLKOUT pair j by format (R223, R224): LVCMOS drives leg P alone, low while the pair is inactive. No leg is driven
without VDD_AUX (R369). -/
def State.coLegs (s : State) (j : Nat) : ClkLeg × ClkLeg :=
  if ¬ s.powered 4 then (.highZ, .highZ)
  else if s.f F.CO_CFG_FMT j = 3 then (if s.coDrives j then .clock else .low, .highZ)
  else if s.coDrives j then (.clock, .clock) else (.inactive, .inactive)

/-! ### Other pins (table of pin states through start-up, R349, R353, R369) -/

/-- The level of TRIG_OUT pair m: none without VDD_AUX. -/
def State.trigPair (s : State) (m : Nat) : Option Bool := if s.powered 4 then some (s.trigOutPin m) else none

/-- SFP TX_DISABLE of port p + 1: high until ETH_CFG.EN is 1. -/
def State.txDisable (s : State) (p : Nat) : Bool := !s.on F.ETH_CFG_EN p

/-- SPI_CS_N and SPI_CLK: high impedance until the PG of VDD_IO and after the loader has done; high and low from that PG until the boot;
none of the model's while the loader reads flash (R349, R357). -/
def State.spiPins (s : State) : Option (Bool × Bool) :=
  if s.powered 5 ∧ s.power.stage ≠ .up ∧ ¬ s.dozing then some (true, false) else none

/-- PORT0's transmitters are in electrical idle until link training. -/
def State.pcieIdle (s : State) : Bool := !s.link.training && !s.on F.P0_LINK_UP

/-- What an output pin of a DRAM group does: undriven without VDDQ, at a level, or driven by the controller's commands. -/
inductive DdrPin where
  | undriven
  | level (b : Bool)
  | driven
  deriving DecidableEq, Repr

/-- DDRc_RESET_N (R349, R369): undriven without VDDQ; at its reset level, low, while the domain is on with POP = 0; and otherwise, held by
the retention latch while the domain is off, low from the first application of VDDQ until the first FULL run and high after it, as
self-refresh requires. -/
def State.ddrResetN (s : State) (c : Nat) : DdrPin :=
  if ¬ s.power.lines.contains 3 then .undriven
  else if s.dom (56 + c) ∧ ¬ s.on F.MEM_CFG_POP then .level false
  else .level (s.mem.unreset.contains c)

/-- A CS_N of DRAM group c (R349, R369): undriven without VDDQ; held by the retention latch at the level that self-refresh requires while
the domain is off, and at its reset level while the domain is on with POP = 0, both free since the spec gives neither; else driven. -/
def State.ddrCsN (s : State) (c : Nat) : DdrPin :=
  if ¬ s.power.lines.contains 3 then .undriven
  else if ¬ s.dom (56 + c) then .level Config.csSelfRefresh
  else if ¬ s.on F.MEM_CFG_POP then .level Config.csReset
  else .driven

/-! ### JTAG (R372) -/

/-- Groups of pins, as R372 tells them apart. -/
inductive PinGroup where
  | lvcmos | xtal | lvds | cml | ddrResetN | ddrAlertN | ddrCa | ddrCsN | ddrCk | ddrDq | ddrCb | ddrDqs | dac | reference | pcie
  | ethernet
  deriving DecidableEq, Repr

/-- Whether the boundary-scan register covers a group of pins. -/
def PinGroup.scanned : PinGroup → Bool
  | .lvcmos | .lvds | .cml | .ddrResetN | .ddrAlertN | .ddrCa | .ddrCsN | .ddrCk => true
  | .xtal | .ddrDq | .ddrCb | .ddrDqs | .dac | .reference | .pcie | .ethernet => false

/-- What the TAP shifts out under an instruction: the identification word of IDCODE, whose value the spec does not give, or one bit of
BYPASS; the others shift the boundary-scan register, or nothing. -/
def Jtag.shifts : Jtag → List Bool
  | .idcode => (List.range 32).map fun i => bit Config.idcode.toNat i
  | .bypass => [false]
  | _ => []

end Sys2Proof.Machine
end

