-- ==== Sys2Proof/Tests/Slice0.lean ====
section
/-! SUPPORT. Tests of the model: ill-formed commands that WellFormed refuses, instruction words written out from the spec's encodings, and
for every obligation concrete states that meet its hypotheses, with results of single commands. Expected values come from the rules. -/

namespace Sys2Proof.Tests

open Sys2Proof Sys2Proof.Machine

set_option Elab.async false

/-- The command answers a next state that passes the test. -/
def ran (r : Res) (f : State → Bool) : Bool := match r with | .next t => f t | _ => false

/-- DTIME stands at the first edge of the Reference PLL output at or after x. -/
def near (t : State) (x : Nat) : Bool := decide (x ≤ t.now ∧ t.now < x + 117282)

/-- Fields set, in turn: the field, its value, and the member. -/
def put (l : List (Fld × Nat × Nat × Nat)) (s : State) : State := l.foldl (fun s p => s.setF p.1 p.2.1 p.2.2.1 p.2.2.2) s

/-- Register words set, in turn: the register, its word, and the member. -/
def words (l : List (Reg × Nat × Nat × Nat)) (s : State) : State :=
  l.foldl (fun s p => s.setRw p.1 (BitVec.ofNat 64 p.2.1) p.2.2.1 p.2.2.2) s

/-- General registers of core 0 set, in turn. -/
def gregs (l : List (Fin 32 × Nat)) (s : State) : State := l.foldl (fun s p => s.setGreg 0 p.1 (BitVec.ofNat 64 p.2)) s

/-- Core 0 in the given state with instruction o at PC = 0, in a text of 32 instructions. -/
def holding (st : Nat) (o : CoreOp) : State :=
  put [(F.CORE_STATUS_STATE, st, 0, 0)] (words [(.CORE_IMEM, encodeCore o, 0, 0), (.CORE_HDR, 0x100 * 2 ^ 32, 0, 2)] {})

/-- Core 0 in RUN at instruction o. -/
abbrev running (o : CoreOp) : State := holding 5 o

/-- The device in ACTIVE with its domains on and its Service Cores running. -/
def up : State := words [(.PWR_DOM_STAT0, 2 ^ 64 - 1, 0, 0), (.PWR_DOM_STAT1, 0xFF, 0, 0)]
  { State.reset with boot := { running := true }, power := { stage := .up } }

/-- Core 0 in a state of its own in the device that runs, with the header of an armable RT program: TEXT_LEN 8, ENTRY 0, one cost entry. -/
def armable (st : Nat) : State :=
  put [(F.CORE_STATUS_STATE, st, 0, 0)] (words [(.CORE_HDR, 0x960000015844564E, 0, 0), (.CORE_HDR, 8 * 2 ^ 32, 0, 2), (.CORE_HDR, 2 ^ 32, 0, 4)] up)

/-- Words of waveform SRAM set, in turn: the address and the word. -/
def sramW (l : List (Nat × Nat)) (s : State) : State := l.foldl (fun s p => s.writeWord false p.1 (BitVec.ofNat 64 p.2)) s

/-- The queue of voice 0 holding n TRIGOs. -/
def queued (n : Nat) (s : State) : State := s.modVoice 0 fun x => { x with queue := List.replicate n { desc := .trigo 0, written := 0 } }

/-- Buffer 1 live in SRAM, one page, held by core 0 and once by the host. Its handle is 0x1000001. -/
def buffered (s : State) : State := s.modBuffer 1 fun _ => { life := .live, page := 0x5FFF, pages := 1, host := 1, progs := [0] }

/-- Core 0 in RUN, CH0 running at 24 GS/s with 6 G voice samples a second, entry 0 of the table of V0 a SEG of 512 samples in SRAM, and V0 as g makes it. -/
def voiced (g : VoiceSt → VoiceSt) : State :=
  (((sramW [(0, 2 ^ 63 + 8 * 2 ^ 32), (8, 64)] (put [(F.CH_STATUS_RUN, 1, 0, 0), (F.CH_CTL_EN, 1, 0, 0), (F.CORE_STATUS_STATE, 5, 0, 0)] up)).modChan 0 fun c =>
    { c with grid := { num := 2 ^ 48, den := 24000000000, vnum := 2 ^ 48, vden := 6000000000 } }).modVoice 0 g)

/-- Stream binding 5 of PORT0, or of another source, on the ring of `buffered`: packets of 64 real samples, 4 slots. -/
def streaming (src en : Nat) : State :=
  put [(F.STM_CFG_SRC, src, 5, 0), (F.STM_CFG_PKT64, 1, 5, 0), (F.STM_CFG_EN, en, 5, 0), (F.STM_RING_HANDLE, 0x1000001, 5, 0),
    (F.STM_RING_NSLOT, 4, 5, 0), (F.P0_QCFG_CMD_EN, 1, 0, 0), (F.P0_CMD_IDX_TAIL, 1, 0, 0)] (buffered up)

/-- CH0 enabled or not, running or not, on the grid of `voiced`, as g makes it. -/
def channel (en run : Nat) (g : ChanSt → ChanSt) : State :=
  (put [(F.CH_STATUS_RUN, run, 0, 0), (F.CH_CTL_EN, en, 0, 0), (F.CH_CFG_R, 8, 0, 0), (F.CH_CFG_RHO_BYP, 1, 0, 0)] up).modChan 0 fun c =>
    g { c with grid := { num := 2 ^ 48, den := 24000000000, vnum := 2 ^ 48, vden := 6000000000 } }

/-- The rings of PORT0 enabled with one command to fetch, or PORT1 bound, up, and with a station address; a session is open or not. -/
def linked (opened : Bool) : State :=
  (put [(F.P0_QCFG_CMD_EN, 1, 0, 0), (F.P0_QCFG_RSP_EN, 1, 0, 0), (F.P0_CMD_IDX_TAIL, 1, 0, 0), (F.PRT_BIND_EN, 1, 0, 0), (F.ETH_CFG_EN, 1, 0, 0),
    (F.ETH_STAT_UP, 1, 0, 0), (F.ETH_CFG_IP4_EN, 1, 0, 0), (F.ETH_MAC_MAC, 5, 0, 0), (F.ETH_CFG_MTU, 1500, 0, 0)] up).modPort 0 fun x => { x with opened := opened }

/-! ### Well-formed commands -/

/-- One ill-formed command for each check of WellFormed. -/
theorem test_ill_formed : ([.grainStart 0 [⟨false, 0, 513⟩], .kerf ⟨0, [⟨true, 5, 4⟩]⟩, .streamPacketRx 0 false 0 4 0 0 ⟨5001, [], .clean, {}⟩, .trigInEdge 0 (2 ^ 96) true 0, .ppsInEdge (2 ^ 96) true,
    .ptpSyncRx ⟨0, 0, 0, 0, 0⟩ true ⟨0, 0⟩ (2 ^ 96), .ptpDelayReqRx ⟨0, 0, 0, 0, 0⟩ (2 ^ 96), .cdxRx 0 0 0 0 (2 ^ 96), .scrubStep false 4 .clean,
    .wake 0 0 false, .wake 1 (2 ^ 96) false, .govEval [] [] 0, .registerWrite .port0 4 (.full 0) .clean .clean,
    .registerReadLow .port0 1 .low .clean, .registerWriteLow .port0 4 0, .blockCntClr .port0 4, .pcieLinkUp 3 1, .pcieLinkUp 1 0,
    .pcieLinkUp 1 6, .cdExchangeTx 0 (2 ^ 96)] : List Instr).all (fun i => WellFormed i == false) = true := by
  decide +kernel

theorem test_well_formed : ([.grainStart 0 [⟨false, 0, 512⟩], .streamPacketRx 0 false 0 4 0 0 ⟨5001, [7], .clean, {}⟩, .trigInEdge 0 (2 ^ 96 - 1) true 0,
    .scrubStep false 8 .clean, .wake 1 0 false, .registerWrite .port0 8 (.full 0) .clean .clean, .pcieLinkUp 8 5] : List Instr).all
    WellFormed = true := by
  decide +kernel

/-- No row of the table gives bits, so no word spells a command and nothing is put in front of the queue. -/
theorem test_no_words (s : State) (n w : Nat) : decodeTableWord n w = none ∧ s.withFetchWord n w = s := ⟨rfl, rfl⟩

/-! ### Instruction words, written out from R54 to R77 -/

theorem test_words : decodeCore 0x0818440000000000 = .op (.rr .add 3 1 2) ∧ decodeCore 0x11290000FFFFFFFF = .op (.ri .addi 5 4 (-1)) ∧
    decodeCore 0x1808FFFFFFFFFFFF = .op (.ldi 1 (-1)) ∧ decodeCore 0x1A0880000000FFF8 = .op (.ld 1 2 0xFFF8) ∧
    decodeCore 0x1B00860000000010 = .op (.st 2 3 0x10) ∧ decodeCore 0x1C08000000000001 = .op (.dtrdFrac 1) ∧
    decodeCore 0x210040000007000C = .op (.bi .eq 1 7 12) ∧ decodeCore 0x2040440000000005 = .op (.br .lt 1 2 5) ∧
    decodeCore 0x2300000000001FFF = .op (.call 8191) ∧ decodeCore 0x2500000000000000 = .op .end_ := by
  and_intros <;> decide +kernel

theorem test_emission_words : decodeCore 0x4000000000030002 = .op (.play (.imm 3) (.imm 2)) ∧
    decodeCore 0x410000000000FF02 = .op (.loop (.imm 255) 2) ∧ decodeCore 0x4340440000000000 = .op (.waitTime 1 2) ∧
    decodeCore 0x4800400000000000 = .op (.setf 1) ∧ decodeCore 0x5150000000000000 = .op (.trigo 5) ∧
    decodeCore 0x5808800000000001 = .op (.bufAlloc 1 2 1) ∧ decodeCore 0x6000000000000011 = .op (.evtFire (.imm 17)) ∧
    decodeCore 0x6808010000000003 = .op (.budget 1 1 3) := by
  and_intros <;> decide +kernel

/-- OPCODE 0 is no instruction (ILLEGAL), and a reserved bit set is RESERVED (R54). -/
theorem test_words_refused : decodeCore 0 = .fault 3 ∧ decodeCore 0x4001000300000005 = .fault 4 ∧ decodeCore 0x0100000000000001 = .fault 4 := by
  decide +kernel

/-! ### The step -/

theorem test_step_front : (step { State.reset with pending := [.por, .coldReset] } = exec .por { State.reset with pending := [.coldReset] }) := rfl

theorem witness_EmptyQueueIsOneCoreCycle : State.reset.pending = [] ∧ State.reset.off = true ∧ up.pending = [] ∧ up.off = false ∧
    up.resting = false ∧ up.time.residue < 2400000000 ∧ up.now + 2 * 117282 < 2 ^ 96 ∧
    (let s := put [(F.PWR_STATUS_STATE, 3, 0, 0), (F.TM_REST_CFG_REFA_CORR, 0, 0, 0)] up;
      s.pending = [] ∧ s.off = false ∧ s.resting = true ∧ s.on F.TM_REST_CFG_REFA_CORR = false ∧ s.time.measured = false ∧
        s.now + 2 ^ 33 < 2 ^ 96 ∧ ran (step s) (·.now == 2 ^ 33)) ∧
    ({ residue := 2399999999, dtime := BitVec.ofNat 96 (2 ^ 96 - 117283) } : TimeSt).dtime.toNat + 117282 < 2 ^ 96 := by
  and_intros <;> decide +kernel

theorem witness_StepKeepsCanonical : State.reset.canonical = true ∧ ran (step State.reset) (·.canonical) = true := by
  and_intros <;> decide +kernel

theorem witness_DecodeOfEncode : CoreOp.ok (.rr .add 3 1 2) = true ∧ CoreOp.ok (.ri .shli 1 2 63) = true ∧
    CoreOp.ok (.mark 3 2 (2 ^ 28 - 1) 0xFFFF) = true ∧ CoreOp.ok (.budget 31 3 15) = true := by
  decide +kernel

/-! ### Core instructions -/

theorem witness_ArithmeticInstructions : ∀ o ∈ ([.rr .add 3 1 2, .rr .sub 3 1 2, .rr .and 3 1 2, .rr .or 3 1 2, .rr .xor 3 1 2,
    .rr .shl 3 1 2, .rr .shr 3 1 2, .rr .sra 3 1 2, .rr .mul 3 1 2, .ri .addi 3 1 (-1), .ri .andi 3 1 (-1), .ri .ori 3 1 (-1),
    .ri .xori 3 1 (-1), .ri .shli 3 1 63, .ri .shri 3 1 63, .ri .srai 3 1 63, .ldi 3 (-1), .ldih 3 (-1), .rr .add 0 1 2] : List CoreOp),
    Issues (running o) 0 .clean o := by
  decide +kernel

/-- R59 at the edges: the sum wraps, a shift counts by gb[5:0], the sign fills, and LDIH keeps the lower bits. -/
theorem test_arithmetic :
    ran (exec (.add 0 .clean 3 1 2) (gregs [(1, 2 ^ 64 - 1), (2, 2)] (running (.rr .add 3 1 2)))) (fun t => t.greg 0 3 == 1 && t.pc 0 == 1) ∧
    ran (exec (.sub 0 .clean 3 1 2) (gregs [(1, 1), (2, 2)] (running (.rr .sub 3 1 2)))) (fun t => t.greg 0 3 == -1) ∧
    ran (exec (.shl 0 .clean 3 1 2) (gregs [(1, 3), (2, 65)] (running (.rr .shl 3 1 2)))) (fun t => t.greg 0 3 == 6) ∧
    ran (exec (.sra 0 .clean 3 1 2) (gregs [(1, 2 ^ 63), (2, 63)] (running (.rr .sra 3 1 2)))) (fun t => t.greg 0 3 == -1) ∧
    ran (exec (.mul 0 .clean 3 3 3) (gregs [(3, 2 ^ 32 + 1)] (running (.rr .mul 3 3 3)))) (fun t => t.greg 0 3 == 0x200000001) ∧
    ran (exec (.ldih 0 .clean 3 0xABCD) (gregs [(3, 5)] (running (.ldih 3 0xABCD)))) (fun t => t.greg 0 3 == 0xABCD000000000005) ∧
    ran (exec (.ldi 0 .clean 0 (-1)) (running (.ldi 0 (-1)))) (fun t => t.greg 0 0 == 0 && t.pc 0 == 1) := by
  and_intros <;> decide +kernel

theorem witness_RegisterInstructionFrame : (running .nop).st 0 = 5 ∧ ran (exec (.nop 0 .clean) (running .nop)) (fun t => t.st 0 == 5) ∧
    ran (exec (.beq 0 .clean 1 2 31) (running (.br .eq 1 2 31))) (fun t => t.st 0 == 5 && t.pc 0 == 31) := by
  and_intros <;> decide +kernel

/-- The last data word, 0x7FF8, the first address beyond it, and one that is not a multiple of 8. -/
theorem witness_LoadsAndStores : (let s := gregs [(2, 0x8000)] (running (.ld 1 2 0xFFF8));
      Issues s 0 .clean (.ld 1 2 0xFFF8) ∧ (s.greg 0 2 + (0xFFF8 : BitVec 16).signExtend 64).toNat = 8 * (4095 : Fin 4096).val) ∧
    (let s := gregs [(2, 0x8000), (3, 7)] (running (.st 2 3 0xFFF8));
      Issues s 0 .clean (.st 2 3 0xFFF8) ∧ ran (exec (.st 0 .clean 2 3 0xFFF8) s) (fun t => t.dmemWord 0 4095 == 7)) ∧
    (let s := gregs [(2, 0x8000)] (running (.ld 1 2 0));
      Issues s 0 .clean (.ld 1 2 0) ∧ 0x8000 ≤ (s.greg 0 2 + (0 : BitVec 16).signExtend 64).toNat ∧
      ran (exec (.ld 0 .clean .clean 1 2 0) s) (fun t => t.f F.CORE_FAULT_CODE == 8)) ∧
    (let s := gregs [(2, 0x8000)] (running (.st 2 3 1));
      Issues s 0 .clean (.st 2 3 1) ∧ ran (exec (.st 0 .clean 2 3 1) s) (fun t => t.f F.CORE_FAULT_CODE == 7)) ∧
    (let s := running (.ld 1 2 0);
      Issues s 0 .clean (.ld 1 2 0) ∧ (s.greg 0 2 + (0 : BitVec 16).signExtend 64).toNat % 8 = 0 ∧ Ecc.uncorrected.bad = true) := by
  and_intros <;> decide +kernel

theorem witness_BranchConditions : (∀ c ∈ [Cond.eq, .ne, .lt, .ge, .ltu, .geu, .bs, .bc],
      Issues (running (.br c 1 2 31)) 0 .clean (.br c 1 2 31) ∧ Issues (running (.bi c 1 63 31)) 0 .clean (.bi c 1 63 31)) ∧
    decodeCore 0x2040440000000005 = .op (.br .lt 1 2 5) ∧ decodeCore 0x210040000007000C = .op (.bi .eq 1 7 12) ∧
    bits 0x21C0400000400000 63 56 = 0x21 ∧ 6 ≤ bits 0x21C0400000400000 55 53 ∧ bits 0x21C0400000400000 45 22 ≠ 0 ∧
    decodeCore 0x21C0400000400000 = .fault 4 := by
  and_intros <;> decide +kernel

/-- A target at the end of the text, TEXT_LEN / 8 = 32, is beyond it; a branch not taken does not look at it. -/
theorem witness_TargetsInTheText : Issues (running (.goto_ 31)) 0 .clean (.goto_ 31) ∧ Issues (running (.call 32)) 0 .clean (.call 32) ∧
    (running (.call 32)).textWords 0 ≤ 32 ∧ Issues (running (.call 31)) 0 .clean (.call 31) ∧ 31 < (running (.call 31)).textWords 0 ∧
    (∀ back ∈ [31, 32], let s := put [(F.CORE_STATUS_SP, 1, 0, 0), (F.CORE_STACK_RET, back, 0, 0)] (running .ret);
      Issues s 0 .clean .ret ∧ 0 < s.f F.CORE_STATUS_SP ∧ s.f F.CORE_STACK_RET 0 0 = back) ∧
    ran (exec (.goto 0 .clean 32) (running (.goto_ 32))) (fun t => t.st 0 == 10 && t.f F.CORE_FAULT_CODE == 2) ∧
    ran (exec (.bne 0 .clean 1 2 32) (running (.br .ne 1 2 32))) (fun t => t.st 0 == 5 && t.pc 0 == 1) := by
  and_intros <;> decide +kernel

theorem witness_ControlInstructions : (let s := put [(F.CORE_STATUS_SP, 7, 0, 0)] (running (.call 31));
      Issues s 0 .clean (.call 31) ∧ 31 < s.textWords 0 ∧ s.f F.CORE_STATUS_SP < 8 ∧ s.pc 0 < 8192 ∧
      ran (exec (.call 0 .clean 31) s) (fun t => t.pc 0 == 31 && t.f F.CORE_STATUS_SP == 8 && t.f F.CORE_STACK_RET 0 7 == 1)) ∧
    Issues (running .end_) 0 .clean .end_ ∧ (running .end_).active = true ∧ Issues (running .nop) 0 .clean .nop ∧
    ran (exec (.end_ 0 .clean) (running .end_)) (fun t => t.st 0 == 9 && t.fabric.fired == [⟨.source 6, 0⟩]) := by
  and_intros <;> decide +kernel

theorem witness_ControlInstructions_faults : (let s := put [(F.CORE_STATUS_STATE, 5, 0, 0)] {};
      s.st 0 = 5 ∧ (s.core 0).blocked = false ∧ s.textWords 0 ≤ s.pc 0) ∧
    (let s := words [(.CORE_IMEM, 0, 0, 0)] (running .nop);
      s.pc 0 < s.textWords 0 ∧ decodeCore (s.rw .CORE_IMEM 0 (s.pc 0)).toNat = .fault 3 ∧
      ran (exec (.nop 0 .clean) s) (fun t => t.st 0 == 10 && t.f F.CORE_FAULT_CODE == 3)) ∧
    (let s := words [(.CORE_IMEM, 0x4380000000000000, 0, 0)] (running .nop);
      s.pc 0 < s.textWords 0 ∧ decodeCore (s.rw .CORE_IMEM 0 (s.pc 0)).toNat = .op .waitOther ∧
      ran (exec (.nop 0 .clean) s) (fun t => t.st 0 == 10 && t.f F.CORE_FAULT_CODE == 0x0A)) ∧
    Issues (running .nop) 0 .clean .nop ∧ Ecc.uncorrected.bad = true ∧
    (let s := put [(F.CORE_STATUS_SP, 8, 0, 0)] (running (.call 31)); Issues s 0 .clean (.call 31) ∧ 8 ≤ s.f F.CORE_STATUS_SP) ∧
    Issues (running .ret) 0 .clean .ret ∧ (running .ret).f F.CORE_STATUS_SP = 0 := by
  and_intros <;> decide +kernel

/-! ### Emissions, buffers, events and budget of a core -/

/-- Entry 0 of the table in force is a SEG of 8 × 64 samples in SRAM, and 31 descriptors wait. -/
theorem witness_Emissions : (let s := queued 31 (sramW [(0, 2 ^ 63 + 8 * 2 ^ 32)] (running (.play (.imm 0) (.imm 0))));
      Issues s 0 .clean (.play (.imm 0) (.imm 0)) ∧ s.qfill 0 < 32 ∧ issueChecks (s.entryCount 0) 0 (wordOf (s.readEntry 0 0) 0) = true ∧
      s.entryInDram (s.readEntry 0 0) = false ∧
      ran (exec (.play 0 ⟨.clean, .clean⟩ (.imm 0) (.imm 0)) s) (fun t => ((t.voice 0).queue[31]?.map (·.desc)) == some (.play 0 0) && t.pc 0 == 1)) ∧
    (∀ o ∈ ([.loop (.imm 0xFFFFFF) 16, .jumpDisarm false, .waitTrig 15, .waitEvent 127, .waitTime 1 2, .waitKerf 15, .setf 1,
        .setp true (.imm 5), .rampf 1 2, .mark 3 2 5 1, .trigo 15] : List CoreOp), Issues (queued 31 (running o)) 0 .clean o) ∧
    Room (queued 31 (running .nop)) 0 ∧ (running .nop).on F.EC_CTL_LK_CORE 127 = false ∧ ((running .nop).voiceChan 0).isSome = true ∧
    (let s := put [(F.VOICE_JT_STAT_LOADED, 0x8000, 0, 0)] (running (.jump 2 true 0x80 15));
      Issues s 0 .clean (.jump 2 true 0x80 15) ∧ Room s 0 ∧ bit (s.f F.VOICE_JT_STAT_LOADED) 15 = true) ∧
    ran (exec (.loop 0 .clean (.imm 2) 1) (running (.loop (.imm 2) 1))) (fun t => ((t.voice 0).queue[0]?.map (·.desc)) == some (.loop 2 1)) := by
  and_intros <;> decide +kernel

theorem witness_EmissionFaultsAndStalls : (let s := running (.play (.imm 0) (.imm 1));
      Issues s 0 .clean (.play (.imm 0) (.imm 1)) ∧ issueChecks (s.entryCount 0) 1 (wordOf (s.readEntry 0 1) 0) = false ∧
      ran (exec (.play 0 ⟨.clean, .clean⟩ (.imm 1) (.imm 0)) s) (fun t => t.f F.CORE_FAULT_CODE == 0x0A)) ∧
    (let s := sramW [(0, 2 ^ 63 + 2 ^ 59 + 8 * 2 ^ 32)] (running (.play (.imm 0) (.imm 0)));
      Issues s 0 .clean (.play (.imm 0) (.imm 0)) ∧ issueChecks (s.entryCount 0) 0 (wordOf (s.readEntry 0 0) 0) = true ∧
      s.entryInDram (s.readEntry 0 0) = true ∧ s.hasSlot 0 = false ∧ s.hdrDramv 0 = false ∧
      ran (exec (.play 0 ⟨.clean, .clean⟩ (.imm 0) (.imm 0)) s) (fun t => t.f F.CORE_FAULT_CODE == 0x0B)) ∧
    (∀ o ∈ ([.loop (.imm 0) 1, .loop (.imm 1) 0, .loop (.imm 1) 17, .jump 0 false 0x80 0, .waitTrig 16, .waitEvent 128, .waitTime 1 2,
        .waitKerf 16, .waitKerf 0, .mark 3 2 5 0] : List CoreOp),
      let s := gregs [(1, 2 ^ 48)] (running o); Issues s 0 .clean o ∧ 2 ^ 48 ≤ (s.greg 0 1).toNat) ∧
    (∀ o ∈ ([.jumpDisarm false, .bufFree 1, .loop (.imm 1) 1] : List CoreOp),
      let s := (running o).modVoice 0 fun x => { x with queue := [{ desc := .loop 1 1, written := 0 }] };
      Issues s 0 .clean o ∧ 0 < (s.voice 0).openBody) ∧
    (let s := queued 32 (running (.setf 1)); Issues s 0 .clean (.setf 1) ∧ 32 ≤ s.qfill 0 ∧
      ran (exec (.setf 0 .clean 1) s) (fun t => t.st 0 == 7 && t.pc 0 == 0 && (t.core 0).stalled.isSome)) ∧
    (∀ n ∈ [31, 32], let s := queued n ((holding 7 (.trigo 1)).modCore 0 fun c => { c with stalled := some { desc := .trigo 1, written := 0 } });
      (s.core 0).stalled = some { desc := .trigo 1, written := 0 } ∧ s.st 0 = 7 ∧ s.qfill 0 = n) := by
  and_intros <;> decide +kernel

theorem witness_BufferInstructions : (∀ n ∈ [0, 1, 2 ^ 30, 2 ^ 30 + 1], let s := gregs [(2, n)] (running (.bufAlloc 1 2 1));
      Issues s 0 .clean (.bufAlloc 1 2 1) ∧ (s.greg 0 2).toNat = n ∧ s.heldCount 0 < 16) ∧
    (let s := gregs [(2, 0x1000001)] (buffered (running (.bufAttach 1 2)));
      Issues s 0 .clean (.bufAttach 1 2) ∧ s.liveHandle 0x1000001 = true ∧ s.liveHandle 0x1000002 = false ∧ s.heldCount 0 < 16) ∧
    (∀ o ∈ ([.bufFree 2, .bufFence 2] : List CoreOp), let s := gregs [(2, 0x1000001)] (buffered (running o));
      Issues s 0 .clean o ∧ Room s 0 ∧ s.holds 0 0x1000001 = true ∧ s.holds 0 0 = false) ∧
    (∀ o ∈ ([.bufGet 1 2 3 4095 0, .bufPut 1 2 3 4095 0] : List CoreOp),
      let s := gregs [(2, 0x1000001), (3, 4088)] (buffered (running o));
      Issues s 0 .clean o ∧ s.holds 0 0x1000001 = true ∧ (s.greg 0 3).toNat + 8 ≤ s.bufferSize 0x1000001 ∧
        s.poisoned false (s.bufferBase 0x1000001 + 4088) = false) ∧
    Issues (running (.bufGet 1 2 3 4095 1)) 0 .clean (.bufGet 1 2 3 4095 1) ∧ 4096 < (4095 : BitVec 12).toNat + ((1 : BitVec 8).toNat + 1) ∧
    ran (exec (.bufGet 0 .clean .clean 1 2 3 4095 0) (gregs [(2, 0x1000001), (3, 4088)]
      (sramW [(0x5FFF * 4096 + 4088, 77)] (buffered (running (.bufGet 1 2 3 4095 0)))))) (fun t => t.dmemWord 0 4095 == 77 && (t.core 0).blocked) := by
  and_intros <;> decide +kernel

theorem witness_TimeEventAndBudgetInstructions : (∀ lk ∈ [0, 1], let s := put [(F.EC_CTL_LK_CORE, lk, 127, 0)] (running (.evtFire (.imm 127)));
      Issues s 0 .clean (.evtFire (.imm 127)) ∧ s.on F.EC_CTL_LK_CORE 127 = (lk == 1) ∧ s.active = true) ∧
    Issues (running (.evtWaitArm 1 0 0x80)) 0 .clean (.evtWaitArm 1 0 0x80) ∧ (running .nop).deniedWait 0 0x80 = false ∧
    (∀ b ∈ [true, false], let s := (running (.evtWait 1 5 0x80 1)).modCore 0 fun c => { c with ei0 := ⟨some 5, b⟩ };
      Issues s 0 .clean (.evtWait 1 5 0x80 1) ∧ (s.core 0).ei0.latch = b ∧ (s.core 0).ei0.sel = some 5) ∧
    (let s := (holding 6 .nop).modCore 0 fun c => { c with ei0 := ⟨some 5, true⟩, gd := 1 }; s.st 0 = 6 ∧ (s.core 0).gd = 1 ∧ (s.core 0).ei0.latch = true) ∧
    (∀ c ∈ ([0, 1] : List (Fin 4)), let s := words [(.CORE_HDR, c, 0, 1), (.CORE_HDR, 2 * 2 ^ 32, 0, 4), (.CORE_COST, 2 ^ 60, 0, 4)] (running (.budget 1 c 1));
      Issues s 0 .clean (.budget 1 c 1) ∧ c.val = s.hdrClass 0 ∧ s.costCount 0 = 2 ∧ s.phaseCost 0 0 < s.phaseCost 0 1) ∧
    Issues (running (.budget 1 1 0)) 0 .clean (.budget 1 1 0) ∧ (running (.budget 1 1 0)).hdrClass 0 = 0 ∧ (running (.budget 1 0 0)).costCount 0 = 0 ∧
    Issues (running (.dtrdSec 1)) 0 .clean (.dtrdSec 1) ∧ Issues (running (.dtrdFrac 0)) 0 .clean (.dtrdFrac 0) ∧
    ran (exec (.evtWait 0 .clean 1 5 0x80 1) ((running (.evtWait 1 5 0x80 1)).modCore 0 fun c => { c with ei0 := ⟨some 5, true⟩ }))
      (fun t => t.greg 0 1 == 1 && t.pc 0 == 1 && !(t.core 0).ei0.latch) ∧
    ran (exec (.evtWait 0 .clean 1 5 0x80 1) (running (.evtWait 1 5 0x80 1))) (fun t => t.st 0 == 6 && (t.core 0).deadline.isSome) ∧
    ran (exec (.dtrdSec 0 .clean 1) { running (.dtrdSec 1) with time := { dtime := BitVec.ofNat 96 (3 * 2 ^ 48 + 7) } })
      (fun t => t.greg 0 1 == 3 && (t.core 0).dtrd == 7) := by
  and_intros <;> decide +kernel

/-! ### Commands to a core, admission and waits -/

theorem witness_CoreControl : (let s := armable 2; Admits s .port0 .CORE_CTL 0 0 (force 0 1 1 1) ∧ s.st 0 = 2) ∧
    (let s := armable 2; let u := s.wrote .CORE_CTL 0 0 (force 0 1 1 1);
      u.armCode 0 = 0 ∧ ¬ (u.f F.CORE_CTL_START_SRC 0 = 2 ∧ s.startTime 0 < s.now) ∧ s.hdrClass 0 = 0) ∧
    (let s := words [(.CORE_HDR, 0, 0, 2)] (armable 2); Admits s .port0 .CORE_CTL 0 0 (force 0 1 1 1) ∧ (s.wrote .CORE_CTL 0 0 (force 0 1 1 1)).armCode 0 = 4) ∧
    (∀ c ∈ [0, 1], let s := put [(F.CORE_BUDGET_CLASS, c, 0, 0)] (armable 3); Admits s .port0 .CORE_CTL 0 0 (force 0 2 2 1) ∧ s.st 0 = 3) ∧
    (Admits (armable 2) .port0 .CORE_CTL 0 0 (force 0x300 2 2 1) ∧ bits (0x300 : Word).toNat 9 8 ≠ 0) ∧
    (∀ p ∈ ([(3, false), (8, false), (5, true), (9, false)] : List (Nat × Bool)),
      let s := (armable p.1).modCore 0 fun c => { c with blocked := p.2 }; Admits s .port0 .CORE_CTL 0 0 (force 0x80 3 3 1)) ∧
    (∀ c ∈ [0, 1], let s := put [(F.CORE_BUDGET_CLASS, c, 0, 0)] (armable 2); Admits s .port0 .CORE_CTL 0 0 (force 0 4 4 1)) ∧
    (∀ st ∈ [2, 9, 10, 5], Admits (armable st) .port0 .CORE_CTL 0 0 (force 0 5 5 1)) ∧
    (∀ o ∈ ([.rr .add 3 1 2, .setf 1] : List CoreOp), let s := queued 32 (words [(.CORE_IMEM, encodeCore o, 0, 0)] (armable 2));
      Admits s .port0 .CORE_CTL 0 0 (force 0 6 6 1) ∧ s.pc 0 < s.textWords 0 ∧ decodeCore (s.rw .CORE_IMEM 0 (s.pc 0)).toNat = .op o ∧ 32 ≤ s.qfill 0) := by
  and_intros <;> decide +kernel

/-- ARM arms, START starts, STOP halts, RESUME goes on, RESET clears, and STEP performs one instruction (R44, R46, R47, R377). -/
theorem test_core_control : ran (exec (.arm 0 .port0 0) (armable 2)) (fun t => t.st 0 == 3 && t.f F.CORE_BUDGET_ADMIT == 1) ∧
    ran (exec (.start 0 .port0 0) (armable 3)) (fun t => t.st 0 == 5) ∧
    ran (exec (.stop 0 .port0 0) (armable 6)) (fun t => t.st 0 == 2) ∧
    ran (exec (.resume 0 .port0 0) (armable 2)) (fun t => t.st 0 == 5) ∧
    ran (exec (.resume 0 .port0 0) (armable 3)) (fun t => t.st 0 == 3 && t.on F.CORE_STATUS_CMD_IGNORED) ∧
    ran (exec (.reset 0 .port0 0) (gregs [(1, 7)] (armable 9))) (fun t => t.st 0 == 2 && t.greg 0 1 == 0) ∧
    ran (exec (.step 0 .port0 0 .clean .clean) (gregs [(1, 7)] (words [(.CORE_IMEM, encodeCore (.rr .add 3 1 1), 0, 0)] (armable 2))))
      (fun t => t.st 0 == 2 && t.pc 0 == 1 && t.greg 0 3 == 14) := by
  and_intros <;> decide +kernel

theorem witness_CoreCommandsComplete : (let s := armable 2;
      Admits s .port0 .CORE_CTL 0 0 (force 0 1 1 1) ∧ s.st 0 = 2 ∧ (s.wrote .CORE_CTL 0 0 (force 0 1 1 1)).armCode 0 = 0 ∧
      bits (0 : Word).toNat 9 8 ≠ 2 ∧ bits (0 : Word).toNat 6 1 = 0) ∧
    (let s := armable 3; Admits s .port0 .CORE_CTL 0 0 (force 0 2 2 1) ∧ s.st 0 = 3) ∧
    (∀ st ∈ [3, 4, 5, 6, 7, 8], let s := armable st; Admits s .port0 .CORE_CTL 0 0 (force 0 3 3 1) ∧ s.st 0 = st ∧ (s.core 0).blocked = false) ∧
    (let s := armable 2; Admits s .port0 .CORE_CTL 0 0 (force 0 4 4 1)) ∧
    (∀ st ∈ [2, 9, 10], let s := armable st; Admits s .port0 .CORE_CTL 0 0 (force 0 5 5 1) ∧ s.st 0 = st) ∧
    (let s := words [(.CORE_IMEM, encodeCore (.rr .mul 31 1 2), 0, 0)] (armable 2);
      Admits s .port0 .CORE_CTL 0 0 (force 0 6 6 1) ∧ s.pc 0 < s.textWords 0 ∧
      decodeCore (s.rw .CORE_IMEM 0 (s.pc 0)).toNat = .op (.rr .mul 31 1 2)) ∧
    (let s := queued 31 ((holding 7 (.trigo 1)).modCore 0 fun c => { c with stalled := some { desc := .trigo 1, written := 0 } });
      (s.core 0).stalled = some { desc := .trigo 1, written := 0 } ∧ s.st 0 = 7 ∧ s.qfill 0 < 32) ∧
    (∀ o ∈ ([.bufAlloc 1 2 1, .bufAttach 1 2, .bufFree 2, .bufFence 2, .bufGet 1 2 3 4095 0, .bufPut 1 2 3 4095 0, .evtFire (.imm 127),
        .evtWaitArm 1 0 0x80, .evtWait 1 5 0x80 1, .dtrdSec 1, .dtrdFrac 1] : List CoreOp),
      let s := gregs [(2, 0x1000001)] (buffered (running o));
      Issues s 0 .clean o ∧ Room s 0 ∧ s.holds 0 (s.greg 0 2).toNat = true ∧ s.on F.EC_CTL_LK_CORE 127 = false ∧
        s.deniedWait 0 0x80 = false ∧ s.deniedWait 5 0x80 = false) ∧
    (let s := words [(.CORE_HDR, 2 ^ 32, 0, 4)] (running (.budget 1 0 0));
      Issues s 0 .clean (.budget 1 0 0) ∧ (0 : Fin 4).val = s.hdrClass 0 ∧ (0 : Fin 16).val < s.costCount 0) := by
  and_intros <;> decide +kernel

theorem witness_CoreStartsAndWaits : (let s := put [(F.BG_CFG_PWR_LIMIT_MW, 65535, 0, 0)] ((armable 8).modGov fun g => { g with std := [0] });
      (s.core 0).gd = 0 ∧ s.st 0 = 8 ∧ s.grantable 0 = true) ∧
    (let s := (put [(F.CORE_BUDGET_CLASS, 1, 0, 0), (F.CORE_BUDGET_ADMIT_TMO, 1, 0, 0)] (armable 8)).modCore 0 fun c => { c with gd := 1 };
      s.st 0 = 8 ∧ s.mayTimeOut 0 = true ∧ (s.core 0).gd = 1 ∧
      ran (exec (.budgetTimeout 0) s) (fun t => t.greg 0 1 == 1 && t.st 0 == 5 && near t (millis 1))) ∧
    (∀ b ∈ [true, false], let s := (armable 6).modCore 0 fun c => { c with gd := 1, deadline := some 64, ei0 := ⟨some 1, b⟩ };
      s.st 0 = 6 ∧ (s.core 0).deadline = some 64 ∧ ((s.core 0).latched = 0 ↔ b = false)) ∧
    (∀ b ∈ [true, false], let s := (armable 5).modCore 0 fun c => { c with blocked := true, stopLater := b };
      s.st 0 = 5 ∧ (s.core 0).blocked = true ∧ (s.core 0).stopLater = b) ∧
    (∀ st ∈ [2, 3], let s := put [(F.CORE_CTL_START_SRC, 2, 0, 0), (F.CORE_START_SEC_SEC, 1, 0, 0)] (armable st);
      s.f F.CORE_CTL_START_SRC = 2 ∧ s.st 0 = st ∧ ran (exec (.timeStart 0) s) (fun t => near t second)) ∧
    (let s := put [(F.BG_CFG_PWR_LIMIT_MW, 65535, 0, 0)] ((armable 4).modGov fun g => { g with std := [0] }); s.st 0 = 4 ∧ s.grantable 0 = true) ∧
    ((armable 4).st 0 = 4 ∧ (armable 4).grantable 0 = false) ∧
    (let s := put [(F.CORE_BUDGET_CLASS, 1, 0, 0), (F.CORE_BUDGET_ADMIT_TMO, 1, 0, 0)] (armable 4); s.st 0 = 4 ∧ s.mayTimeOut 0 = true) ∧
    (armable 1).st (4 * (0 : Fin 16).val + (0 : Fin 4).val) = 1 ∧ ran (exec (.clusterFillDone 0) (armable 1)) (fun t => t.st 0 == 2) := by
  and_intros <;> decide +kernel

/-! ### Voices -/

/-- A PLAY with KERF 3 is taken, and with nothing taken the voice starves; grain 1 of an item of 1,024 samples is the last. -/
theorem witness_KerfsAndGrains : (let s := voiced fun x => { x with kerfAt := some 0, taken := [{ item := .play 3 0, words := [2 ^ 63 + 8 * 2 ^ 32] }] };
      s.voiceChan 0 = some 0 ∧ (s.voice 0).kerfAt = some 0 ∧ (s.voice 0).item = none ∧ s.posTime 0 0 < 2 ^ 96 ∧ s.earlyClose 0 0 = none ∧
      ran (exec (.kerf ⟨0, []⟩) s) (fun t => ((t.voice 0).item.map (·.first)) == some 3072)) ∧
    (let s := voiced fun x => { x with kerfAt := some 0, item := some { kind := .idle, closed := true } };
      (s.voice 0).taken = [] ∧ (s.voice 0).kerfAt = some 0 ∧
      ran (exec (.kerf ⟨0, []⟩) s) (fun t => t.on F.CORE_STATUS_STARVED && (t.voice 0).kerfAt == some 524288)) ∧
    (∀ n ∈ [0, 1], let s := voiced fun x => { x with item := some { kind := .play, len := 1024, next := n }, fetched := n, slots := [.covered, .flying] };
      s.voiceChan 0 = some 0 ∧ (s.voice 0).fetched = n ∧ n < grains 1024 ∧ LineSlot.flying ∈ (s.voice 0).slots ∧ s.coveredRun 0 0 0 512 = false ∧
        (s.voice 0).pending = none) ∧
    (let ws : List Word := [BitVec.ofNat 64 (2 ^ 63 + 8 * 2 ^ 32), 64]; let s := voiced fun x => { x with item := some { kind := .play, words := ws } };
      s.entryInDram ws = false ∧ s.coveredRun 0 0 0 512 = false ∧ s.grainSpans ws 512 0 ≠ [] ∧ s.poisoned false 64 = false ∧
      ran (exec (.grainFetchIssue 0 .clean 64) s) (fun t => (t.voice 0).fetched == 1 && (t.voice 0).lines == [(0, 0, s.copyOf (s.grainSpans ws 512 0))])) ∧
    (let ws : List Word := [BitVec.ofNat 64 (2 ^ 63 + 2 ^ 59 + 8 * 2 ^ 32), 64];
      let s := voiced fun x => { x with item := some { kind := .play, words := ws }, slots := [.flying] };
      s.dramAhead 0 = [{ words := ws, grain := 0, at_ := some 0 }] ∧ s.mem.pllLost = none ∧ s.poisoned true 64 = false ∧
      ran (exec (.refillGrainArrive 0 .clean 64) s) (fun t => (t.voice 0).slots.head? == some (.here 0 (s.copyOf (s.grainSpans ws 512 0))))) ∧
    (let s := (put [(F.CH_SLOT_EN, 1, 0, 1), (F.CH_SLOT_VQ, 0, 0, 1), (F.CH_SLOT_EN, 1, 0, 0), (F.CH_SLOT_VQ, 1, 0, 0), (F.CH_SLOT_OP, 1, 0, 0),
        (F.CH_SLOT_GATE, 1, 0, 0)] (voiced fun x => { x with item := some { kind := .play } }));
      s.coveredRun 0 0 0 512 = true ∧ ran (exec (.grainFetchIssue 0 .clean 0) s) (fun t => (t.voice 0).covered == [0])) := by
  and_intros <;> decide +kernel

theorem witness_WindowsAndWaits : (∀ t0 ∈ [0, 1], let s := voiced fun x => { x with item := some { kind := .wait, start := 1024, cond := some (.waitTime (t0 * second)) } };
      (s.voice 0).kerfAt = none ∧ (s.chan 0).grid.before (t0 * second) 1024 = (t0 == 0)) ∧
    (∀ c ∈ [Desc.waitTrig 15, .waitEvent 127, .waitKerf 15], let s := voiced fun x => { x with item := some { kind := .wait, cond := some c, seen := some second } };
      s.voiceChan 0 = some 0 ∧ ((s.voice 0).item.bind (·.seen)) = some second) ∧
    (let s := voiced fun x => { x with item := some { kind := .wait, cond := some (.waitTrig 0) } }; ((s.voice 0).item.map (·.seen)) = some none ∧
      ran (exec (.waitRelease 0 ⟨.clean, false⟩) s) (· == s)) ∧
    (let s := voiced fun x => { x with item := some { kind := .play, len := 1024 }, queue := [{ desc := .play 3 0, written := 0 }] };
      s.on F.CH_STATUS_RUN = true ∧ ((s.voice 0).item.bind (·.closes (s.chan 0).grid)) = some 524288 ∧ (s.chan 0).grid.before 0 524288 = true ∧ s.playsQueue 0 = true ∧
      (s.chan 0).grid.before (s.voice 0).takesFrom 524288 = true ∧ (s.voice 0).taken = [] ∧ (s.voice 0).loop = none ∧
      segMode (wordOf (s.readEntry 0 0) 0) ≠ 5 ∧ s.snapshotOk 0 0 0 (s.readEntry 0 0) .clean = true ∧
      ran (exec (.windowClose 0 ⟨.clean, false⟩) s) (fun t => (t.voice 0).taken.map (·.item) == [.play 3 0])) ∧
    (let k : Taken := { item := .waitTime (2 ^ 48), words := [], kerf := some 12288000000000000 };
      let s := voiced fun x => { x with item := some { kind := .play, len := 1024, closed := true }, taken := [k] };
      s.on F.CH_STATUS_RUN = true ∧ s.earlyClose 0 0 = some (6143999475712, 12288000000000000) ∧ (s.voice 0).taken.getLast? = some k ∧
      ran (exec (.windowClose 0 ⟨.clean, false⟩) s) (fun t => ((t.voice 0).taken.map (·.closed)) == [true])) ∧
    (let s := voiced fun x => { x with since := some 0, queue := [{ desc := .play 3 0, written := 0 }] };
      (s.voice 0).item = none ∧ (s.voice 0).kerfAt = none ∧ s.firstKerf 0 0 0 = some 1048576) := by
  and_intros <;> decide +kernel

/-- A jump on EC5 with its event seen, a jump without event, and landings in a loaded and in an unloaded entry. -/
theorem witness_Jumps : (∀ ec ∈ [5, 0x80], let s := voiced fun x => { x with armed := some ⟨2, true, ec, 15, 7⟩, jumpSeen := some second };
      (s.voice 0).armed = some ⟨2, true, ec, 15, 7⟩ ∧ (s.voice 0).pending = none ∧ bit ec 7 = (ec == 0x80) ∧
      ran (exec (.jumpAccept 0) s) (fun t => t.on F.VOICE_JT_STAT_PEND && t.f F.VOICE_JT_STAT_PEND_ENTRY == 15)) ∧
    (∀ b ∈ [true, false], let s := (put [(F.VOICE_JT_STAT_LOADED, b.toNat * 0x8000, 0, 0)]
        (voiced fun x => { x with pending := some ⟨2, true, 5, 15, 0, some 0, false, false, [], none, false⟩, item := some { kind := .idle } }));
      s.voiceChan 0 = some 0 ∧ (s.voice 0).armed = none ∧ ((s.voice 0).pending.bind (·.land)) = some 0 ∧
      bit (s.f F.VOICE_JT_STAT_LOADED) 15 = b ∧
      ran (exec (.jumpLand 0) s) (fun t => t.on F.VOICE_STATUS_JUMP_MISS == !b && (t.voice 0).pending.isNone)) := by
  and_intros <;> decide +kernel

theorem witness_VoiceTables : (let s := voiced id; let w : Word := 0x8000000000000000#64;
      Admits s .port0 .VOICE_JT 0 15 w ∧ Admits s .port0 .VOICE_JT 0 15 0 ∧ (s.jtEntry 0 15).refs = [] ∧ s.entryInDram (s.readEntry 0 0) = false ∧
      s.snapshotOk 0 ((s.voiceChan 0).getD 0) 0 (s.readEntry 0 0) .clean = true ∧
      ran (exec (.voiceJtWrite 0 15 .port0 w .clean) s) (fun t => (t.jtEntry 0 15).loading &&
        ran (exec (.jtPreloadDone 0 15 .clean) t) (fun u => bit (u.f F.VOICE_JT_STAT_LOADED) 15))) ∧
    ((voiced id).modJt 0 15 fun j => { j with loading := true }).jtEntry 0 15 = { loading := true } ∧
    (∀ p ∈ ([(0xFFFF, 1), (0, 0)] : List (Nat × Nat)), let w := BitVec.ofNat 64 (p.1 * 2 ^ 48 + (96 * 2 ^ 20 - (p.1 + 1) * 32));
      let s := voiced fun x => { x with item := if p.2 = 1 then some { kind := .idle } else none };
      Admits s .port0 .VOICE_SEGTAB 0 0 w ∧ bits w.toNat 26 5 * 32 + (bits w.toNat 63 48 + 1) * 32 ≤ 96 * 2 ^ 20) ∧
    (let w := BitVec.ofNat 64 (2 ^ 48 + (96 * 2 ^ 20 - 32)); Admits (voiced id) .port0 .VOICE_SEGTAB 0 0 w ∧
      96 * 2 ^ 20 < bits w.toNat 26 5 * 32 + (bits w.toNat 63 48 + 1) * 32 ∧
      ran (exec (.voiceSegtabWrite 0 .port0 w) (voiced id)) (fun t => t.on F.VOICE_STATUS_SEGTAB_ERR)) := by
  and_intros <;> decide +kernel

theorem witness_MarksAndRamps : (∀ m ∈ [0, 1, 2, 3], let s := voiced fun x => { x with acts := [⟨3, m, 1024, 5, {}⟩], level := 8 };
      (s.voice 0).firstMark = some ⟨3, m, 1024, 5, {}⟩ ∧
      ran (exec (.markAction 0) s) (fun t => bit (t.voice 0).level 3 == (m == 0 || m == 2) && (t.voice 0).pulses == (if m == 2 then [⟨3, 6144, {}⟩] else []))) ∧
    (let s := voiced fun x => { x with pulses := [⟨0, 2048, {}⟩, ⟨3, 1024, {}⟩] }; (s.voice 0).firstEnd = some ⟨3, 1024, {}⟩ ∧
      ran (exec (.markPulseEnd 0) s) (fun t => (t.voice 0).pulses == [⟨0, 2048, {}⟩])) ∧
    (let s := voiced fun x => { x with ramping := true, rampLeft := some 0, fw := 5 }; (s.voice 0).ramping = true ∧
      ran (exec (.rampEnd 0) s) (fun t => !(t.voice 0).ramping && (t.voice 0).fw == 5)) := by
  and_intros <;> decide +kernel

/-! ### Streams and host buffers -/

theorem witness_StreamPackets : (∀ n ∈ [64, 65], let s := streaming 1 1; let m : StreamMsg := ⟨0, 0x4D53 + 5 * 2 ^ 16 + 7 * 2 ^ 32, BitVec.ofNat 64 n, 0, 0, List.replicate 16 1⟩;
      s.receives 0 = true ∧ s.injects 0 0 = false ∧ (∀ p : Fin 5, (s.port p).ready = []) ∧ s.streamBinding 0 m = some 5 ∧
      s.streamPort 0 0 5 = true ∧ s.takesPacket 5 m = (n == 64)) ∧
    (∀ n ∈ [64, 65], let s := streaming 6 1;
      let t := sramW [(s.slotAddr 5 7, 0x4D53 + 5 * 2 ^ 16 + 7 * 2 ^ 32), (s.slotAddr 5 7 + 8, n)] s;
      t.on F.STM_CFG_EN 5 = true ∧ t.f F.STM_CFG_SRC 5 = 6 ∧ t.takesPacket 5 (t.slotPacket 5 7) = (n == 64) ∧
      (∀ i < 4, t.poisoned false (t.slotAddr 5 7 + 8 * i) = false)) ∧
    (let s := streaming 6 1; let h0 : Word := 5 * 2 ^ 16 + 7 * 2 ^ 32; Ecc.uncorrected.bad = true ∧
      ran (exec (.streamPacketRx 5 false h0 0 0 0 ⟨0, [], .uncorrected, {}⟩) s) (fun t => t.on F.STM_STAT_BAD_PKT 5 && t.f F.STM_CNT_DROP 5 == 1)) ∧
    (∀ udp ∈ [5001, 5002], let s := put [(F.STM_CFG_UDP_PORT, 5001, 5, 0)] (streaming 2 1); let m : StreamMsg := ⟨BitVec.ofNat 16 udp, 0x4D53 + 5 * 2 ^ 16 + 7 * 2 ^ 32, 64, 0, 0, []⟩;
      s.on F.STM_CFG_EN 5 = true ∧ s.streamPort 1 udp 5 = (udp == 5001) ∧ (udp = 5001 → s.streamBinding 1 m = some 5)) ∧
    (let s := put [(F.ETH_CFG_IP4_EN, 1, 0, 0), (F.ETH_CFG_VLAN_EN, 1, 0, 0), (F.ETH_CFG_VLAN_ID, 7, 0, 0)] (streaming 2 1);
      s.takesFrame 1 { tags := [7] } = true ∧ s.takesFrame 1 {} = false ∧ s.takesFrame 1 { tags := [7], v6 := true } = false ∧
      s.takesFrame 1 { tags := [7], frag := true } = false ∧ s.takesFrame 0 {} = true) ∧
    (let s := streaming 1 1; let h0 : Word := 0x4D53 + 5 * 2 ^ 16 + 7 * 2 ^ 32;
      ran (exec (.streamPacketRx 0 false h0 64 0 0 ⟨0, List.replicate 16 9, .clean, {}⟩) s) (fun t =>
        t.readWord false (s.slotAddr 5 7) == h0 && t.readWord false (s.slotAddr 5 7 + 32 + 120) == 9 && ((t.binding 5).packets.map (·.seq)) == [7]) ∧
      ran (exec (.streamPacketRx 0 false h0 65 0 0 ⟨0, List.replicate 17 9, .clean, {}⟩) s) (fun t => t.on F.STM_STAT_BAD_PKT 5 && t.f F.STM_CNT_DROP 5 == 1)) := by
  and_intros <;> decide +kernel

/-- The block at voice sample 512, its packet present from DTIME 0 on, or missing. -/
theorem witness_StreamBindings : (∀ b ∈ [true, false], let x : StreamPlay := { block := some 512, placed := [⟨7, 512, 512⟩] };
      let it : Item := { kind := .play, words := [BitVec.ofNat 64 (2 ^ 63 + 2 ^ 60 + 8 * 2 ^ 32 + 5)], len := 1024 };
      let u := voiced fun y => { y with item := some it, stream := x };
      let s := { u with bindings := if b then [(5, { packets := [⟨7, false, false, 0, 64, 0⟩] })] else [] };
      s.voiceChan 0 = some 0 ∧ it.binding = some 5 ∧ s.blockCovered 0 it 512 = false ∧ s.poisoned (s.ringDram 5) 0 = false ∧ s.gapShared 0 5 7 = false ∧ x.placement 512 = some ⟨7, 512, 512⟩ ∧
      (s.packet 5 7).isSome = b ∧ s.f F.STM_CFG_POLICY 5 ≠ 2 ∧ (s.chan 0).grid.before 0 ((512 - s.stmLead 5 : Int) * 1024) = true ∧
      ran (exec (.streamBlockCheck 0 ⟨.clean, 0, ⟨.clean, false⟩⟩) s) (fun t => t.f F.STM_STAT_STATE 5 == (if b then 2 else 3) && t.f F.STM_CNT_GAPS 5 == 1 - b.toNat) ∧
      let v := s.modVoice 4 fun y => { y with item := some it, stream := { x with gap := some 7 } }; v.gapShared 0 5 7 = true ∧
      ran (exec (.streamBlockCheck 0 ⟨.clean, 0, ⟨.clean, false⟩⟩) v) (fun t => t.f F.STM_CNT_GAPS 5 == 0)) ∧
    (∀ n ∈ [1, 4], let s := put [(F.STM_RING_NSLOT, n, 5, 0)] (streaming 1 0); let w : Word := s.rw .STM_CFG 5;
      Admits s .port0 .STM_CFG 5 0 (force w 0 0 1) ∧ s.on F.STM_CFG_EN 5 = false ∧ (s.setRw .STM_CFG (w &&& ~~~1#64) 5).stmLegal 5 = (n == 4) ∧
      ran (exec (.stmCfgEnable 5 .port0 w) s) (fun t => t.on F.STM_CFG_EN 5 == (n == 4) && t.on F.STM_STAT_CFG_ERR 5 == (n == 1))) := by
  and_intros <;> decide +kernel

theorem witness_HostBuffers : (∀ op ∈ [0, 1, 2, 3], ∀ n ∈ [0x1000001, 0x300000000, 0, 262144, 262145],
      Admits (buffered up) .port0 .BUF_CMD 0 0 (force (force (BitVec.ofNat 64 n) 57 56 op) 63 63 1)) ∧
    (buffered up).liveHandle 0x1000001 = true ∧ (buffered up).liveHandle 262145 = false ∧ 0 < ((buffered up).buffer (indexOf 0x1000001)).host ∧
    ran (exec (.hostBufFree .port0 0x1000001) (buffered up)) (fun t => t.f F.BUF_RES_STATUS == 0 && (t.buffer 1).host == 0 && (t.buffer 1).life == .live) ∧
    ran (exec (.hostBufAttach .port0 0x1000001) (buffered up)) (fun t => (t.buffer 1).host == 2) ∧
    ran (exec (.hostBufQuery .port0 7) (buffered up)) (fun t => t.rw .BUF_INFO == 0 && t.f F.BUF_RES_HANDLE == 7) := by
  and_intros <;> decide +kernel

/-- An allocation fails when the pool begins at the end of SRAM, and one page fits after reset, wherever the drawn page lies. -/
theorem witness_Allocation (f : BufferSt → BufferSt) :
    (put [(F.MEM_POOL_SRAM_BASE4K, 24576, 0, 0)] up).alloc 0 1 f = none ∧ up.alloc 0 1 f ≠ none := by
  constructor
  · have hb : (put [(F.MEM_POOL_SRAM_BASE4K, 24576, 0, 0)] up).poolBase false = 24576 := by decide +kernel
    have he : (put [(F.MEM_POOL_SRAM_BASE4K, 24576, 0, 0)] up).poolEnd false = 24576 := by decide +kernel
    have hf : ∀ p, (put [(F.MEM_POOL_SRAM_BASE4K, 24576, 0, 0)] up).fits false p 1 = false := by
      intro p
      have h : ¬ (24576 ≤ p ∧ p + 1 ≤ 24576) := by omega
      simp only [State.fits, hb, he, Bool.and_eq_false_iff, decide_eq_false_iff_not]
      omega
    simp [State.alloc, State.allocIn, State.placement, State.firstFit, hf]
  · have hp : up.firstFit false 1 = some 0 := by decide +kernel
    simp only [State.alloc, State.allocIn, State.placement, State.entryFor, hp, if_true]
    by_cases h : up.fits false (up.poolBase false + up.free.toNat % 2 ^ 32) 1 = true
    · rw [if_pos h]; exact Option.some_ne_none _
    · rw [if_neg h]; exact Option.some_ne_none _

/-! ### Channels and the output -/

theorem witness_ChannelLife : (∀ r ∈ [8, 4], let s := put [(F.CH_CFG_R, r, 0, 0)] (channel 0 0 id);
      Admits s .port0 .CH_CTL 0 0 (force 0 0 0 1) ∧ s.on F.CH_CTL_EN = false ∧ (s.chan 0).stop = none ∧ (s.chanCode 0 = 0 ↔ r = 8) ∧
      ran (exec (.chEnable 0 .port0 0) s) (fun t => t.on F.CH_CTL_EN == (r == 8) && t.on F.CH_STATUS_CFG_ERR == (r == 4))) ∧
    (∀ run ∈ [0, 1], let s := channel 1 run id; Admits s .port0 .CH_CTL 0 0 (force 0 0 0 0) ∧ s.on F.CH_CTL_EN = true ∧ s.f F.CH_STATUS_RUN = run) ∧
    (let s := channel 1 0 fun c => { c with start := some 3 }; (s.chan 0).start = some 3 ∧ s.voiceChan 0 = some 0 ∧
      ran (exec (.channelStart 0) s) (fun t => t.on F.CH_STATUS_RUN && near t 72057594 && (t.voice 0).since == some 1572864)) ∧
    (let s := channel 0 1 fun c => { c with stop := some 3 }; (s.chan 0).stop = some 3 ∧ (s.chan 0).again = false ∧
      ran (exec (.channelStop 0) s) (fun t => !t.on F.CH_STATUS_RUN && (t.chan 0).stopDac == some 6144)) ∧
    (let s := put [(F.SP_STATUS_STATE, 4, 0, 0)] (channel 1 1 fun c => { c with unlocked := true });
      (s.chan 0).unlocked = true ∧ s.f F.SP_STATUS_STATE = 4 ∧ (s.chan 0).restart = false) ∧
    (let s := channel 1 1 fun c => { c with brown := true }; (s.chan 0).unlocked = false ∧ s.on F.PWR_STATUS_BO_ACTIVE = false ∧
      ran (exec (.channelUnpark 0) s) (fun t => !(t.chan 0).brown)) := by
  and_intros <;> decide +kernel

theorem witness_ChannelSettings : (∀ w ∈ [0x8001, 0x8110, 0x8030, 0x8002], ∀ en ∈ [0, 1], let s := channel en en id;
      Admits s .port0 .CH_SLOT 0 0 (BitVec.ofNat 64 w) ∧
      ran (exec (.chSlotWrite 0 0 .port0 (BitVec.ofNat 64 w)) s) (fun t => t.on F.CH_STATUS_XB_ERR == (w != 0x8001))) ∧
    (let s := channel 1 1 fun c => { c with held := [⟨Reg.CH_TRIM.addr 0 0, 30, 0, 0, 5⟩] }; s.nextBoundary 0 = some 5 ∧
      ran (exec (.runtimeBoundary 0) s) (fun t => (t.chan 0).held.isEmpty && near t 120095990)) ∧
    (let s := (channel 1 1 id).modVoice 1 fun x => { x with drives := some none, join := some (0, 5) };
      (s.voice 1).join = some (0, 5) ∧ s.slotNaming 1 = some (0, 1) ∧
      ran (exec (.voiceJoin 1) s) (fun t => t.voiceChan 1 == some 0 && (t.voice 1).since == some 2621440)) ∧
    (∀ e ∈ [0, 1], let s := put [(F.CH_NCO_EPOCH_SEC_SEC, e, 0, 0)] (channel 1 1 id); Admits s .port0 .CH_CTL 0 0 (force 1 1 1 1) ∧
      ran (exec (.ncoResync 0 .port0 1) s) (fun t => ((t.chan 0).ncoReset.map (·.late)) == some (e == 0))) ∧
    (∀ b ∈ [true, false], let s := channel 1 1 fun c => { c with ncoReset := some ⟨100, b, 0, 0⟩ }; (s.chan 0).ncoReset = some ⟨100, b, 0, 0⟩ ∧ s.on F.CH_CTL_EN = true ∧
      ran (exec (.ncoReset 0) s) (fun t => (t.chan 0).ncoZero == some 100 && t.on F.CH_STATUS_NCO_LATE == b)) := by
  and_intros <;> decide +kernel

theorem witness_RangesAndLimits : (∀ en ∈ [0, 1], let s := channel en en id; Admits s .port0 .CH_DAC_RANGE 0 0 2 ∧ Admits s .port0 .CH_DAC_CTL 0 0 1 ∧
      s.f F.CH_CTL_EN = en ∧ 2 ≠ s.f F.CH_DAC_RANGE_RANGE_ACT ∧ (s.chan 0).held = [] ∧
      ran (exec (.rangeRequest 0 .port0 2) s) (fun t => t.f F.CH_DAC_RANGE_RANGE_NEXT == 2 && t.on F.CH_DAC_RANGE_RC_PEND == (en == 1))) ∧
    (let s := put [(F.CH_DAC_RANGE_RANGE_NEXT, 2, 0, 0)] (channel 1 1 fun c => { c with rangeAt := some 100 }); (s.chan 0).rangeAt = some 100 ∧ s.on F.CH_CTL_EN = true ∧
      ran (exec (.rangeChangeStart 0) (put [(F.CH_CTL_EN, 0, 0, 0)] s)) (fun t => t.f F.CH_DAC_RANGE_RANGE_ACT == s.f F.CH_DAC_RANGE_RANGE_ACT) ∧
      ran (exec (.rangeChangeStart 0) s) (fun t => t.f F.CH_DAC_RANGE_RANGE_ACT == 2 && t.on F.CH_DAC_STATUS_RANGE_BUSY && (t.chan 0).rangeTo.isSome)) ∧
    (let s := put [(F.CH_DAC_STATUS_RANGE_BUSY, 1, 0, 0)] (channel 1 1 fun c => { c with rangeTo := some 100 });
      s.on F.CH_DAC_STATUS_RANGE_BUSY = true ∧ ran (exec (.rangeDone 0) s) (fun t => t.f F.CH_DAC_CNT_RANGE_CHG == 1)) ∧
    (∀ p ∈ [true, false], ((channel 1 1 id).chan 0).leg p = none ∧ ((channel 1 1 fun c => { c with legP := some 7, legN := some 7 }).chan 0).leg p = some 7) ∧
    (channel 1 1 id).on F.CH_DAC_STATUS_SC_ACTIVE = false ∧
    ran (exec (.scEpisode 0 true) (channel 1 1 fun c => { c with legP := some 7 })) (fun t => t.on F.CH_DAC_STATUS_SC_FLAG && near t (7 + nanos 20)) ∧
    (let s := put [(F.CH_DAC_STATUS_SC_ACTIVE, 1, 0, 0)] (channel 1 1 id); s.on F.CH_DAC_STATUS_SC_ACTIVE = true ∧ (s.chan 0).legP = none ∧ (s.chan 0).legN = none) ∧
    up.dom (32 + (15 : Fin 16)) = true := by
  and_intros <;> decide +kernel

/-- MOD (R145): a carrier at 0, an envelope at 64 of points 2^15 and 2^14 with phase 0, then 2^14 at a half turn. Halfway between the
first two the gain is 0.75; on the second point it is 0.5; on the last, held, a half turn changes the sign. -/
theorem test_mod_sample : let s := sramW [(0, 0x03E8_03E8_03E8_03E8), (8, 0x03E8_03E8_03E8_03E8), (64, 0x0000_4000_0000_8000), (72, 0x8000_4000)] up
    let it : Item := { kind := .play, words := [BitVec.ofNat 64 (2 * 2 ^ 60), 0, 1], len := 6 }
    (s.modSample 0 0 it 1 0).1 = (750, 0) ∧ (s.modSample 0 0 it 2 0).1 = (500, 0) ∧ (s.modSample 0 0 it 5 0).1 = (-500, 0) := by
  and_intros <;> decide +kernel

theorem witness_Samples : (let s := channel 1 1 id; s.on F.CH_STATUS_RUN = true ∧ (s.chan 0).restart = false ∧
      ran (exec (.voiceSample 0) s) (fun t => (t.chan 0).nextVoice == 1)) ∧
    (∀ b ∈ [true, false], let s := put [(F.CH_CFG_R, 1, 0, 0)] (channel 1 1 fun c => { c with bias := b, carried := true, nextVoice := 100, code := 5 });
      let u := forN (41 - (s.chan 0).ahead) (fun _ t => t.pushSlot 0) s;
      s.parkedAt 0 0 = false ∧ s.needs 0 ≤ (s.chan 0).nextVoice ∧ (u.chan 0).line[40]? = some ⟨0, 0, 0⟩ ∧ s.condAt 0 0 = (if b then 8 else 1) ∧
      ran (exec (.dacSample 0) s) (fun t => (t.chan 0).nextDac == 1 && (t.chan 0).shown && (t.chan 0).code == (if b then 0 else 5))) ∧
    (let s := put [(F.CH_CFG_R, 1, 0, 0)] (channel 1 1 fun c => { c with sums := [(0, 7, 3)] });
      s.f F.CH_CFG_R = 1 ∧ s.on F.CH_CFG_RHO_BYP = true ∧ s.on F.CH_CFG_NCO_EN = false ∧ (s.nextWord 0).1 = 14) := by
  and_intros <;> decide +kernel

/-! ### Triggers and the event fabric -/

/-- An edge after no other, one exactly 2.5 ns after the last (accepted), one closer (ignored), and one that EDGE leaves out. -/
theorem witness_Triggers : (∀ t0 ∈ [703687441777, 703687441778], let s := (put [(F.TI_CFG_EN, 1, 15, 0)] up).modTrigIn 15 fun x => { x with last := some 703686738090 };
      s.active = true ∧ tiSelects (s.tiCfg 15 t0) true 0 = true ∧ tiSelects (s.tiCfg 15 t0) false 0 = false ∧
      tiIgnored (s.tiCfg 15 t0) 703686738090 t0 = (t0 == 703687441777)) ∧
    (let s := (put [(F.TI_CFG_EN, 1, 15, 0)] (voiced fun x => { x with item := some { kind := .wait, cond := some (.waitTrig 15) } }));
      (s.trigIn 15).last = none ∧ s.voiceChan 0 = some 0 ∧ (s.chan 0).grid.placeAt 0 ≤ 512 ∧
      ran (exec (.trigInEdge 15 512 true 7) s) (fun t => ((t.voice 0).item.bind (·.seen)) == some 512 && t.f F.TI_TS_SEC_ESEQ 15 == 1)) ∧
    (let s := (put [(F.TO_CFG_EN, 1, 15, 0)] up).modTrigOut 15 fun x => { x with due := [(9 * 2 ^ 48, 9600000000), (7 * 2 ^ 48, 9600000000)], fall := some 8 };
      s.firstPulse 15 = some ((7 * 2 ^ 48, 9600000000), 7, 103) ∧ (s.trigOut 15).fall = some 8 ∧
      ran (exec (.trigOutPulse 15) s) (fun t => (t.trigOut 15).due == [(9 * 2 ^ 48, 9600000000)] && (t.trigOut 15).fall == some 103 && t.trigOutPin 15) ∧
      ran (exec (.trigOutPulseEnd 15) s) (fun t => (t.trigOut 15).fall == some 103)) ∧
    (let s := (put [(F.TO_CFG_EN, 1, 15, 0)] up).modTrigOut 15 fun x => { x with due := [(9 * 2 ^ 48, 9600000000)], fall := some 8 };
      s.firstPulse 15 = some ((9 * 2 ^ 48, 9600000000), 9, 105) ∧ ran (exec (.trigOutPulseEnd 15) s) (fun t => !t.trigOutPin 15)) := by
  and_intros <;> decide +kernel

/-- At 20 mA code 0 gives I_FS / 65,536 and code 0x7FFF gives I_FS (1 − 2^-16) (R158); MIX drives −c − 1 in the second half and RZ differential
zero (R161). -/
theorem test_dac_pair : legs 1 (.drive 0) = (131074, 131070) ∧ legs 1 (.drive 0x7FFF) = (262142, 2) ∧ legs 1 .park = (131072, 131072) ∧
    halves 2 (.drive 5) = (.drive 5, .drive (-6)) ∧ halves 1 (.drive 5) = (.drive 5, .zero) ∧ up.pair 0 = .unpowered ∧
    ((channel 1 1 id).modPower fun p => { p with lines := [2], good := [2] }).pair 0 = .park := by and_intros <;> decide +kernel

/-- A lane is 0 while its channel does not run, INV inverts it, an undriven pair has no level (R179), and D_MK of the fast-path set with EFF = 64 at
24 GS/s is 29 ns and two DAC samples (R178). -/
theorem test_marker_pin : (∀ inv ∈ [0, 1], ∀ run ∈ [0, 1],
      let s := ((put [(F.MK_CFG_INV, inv, 0, 3)] (channel 1 run fun c => { c with shown := true, lanes := [(3, [(0, true)])] })).modPower fun p =>
        { p with lines := [4], good := [4] });
      s.lanePin 0 3 = some ((run == 1) != (inv == 1))) ∧ (words [(.PWR_DOM_STAT0, 0, 0, 0)] (channel 1 1 id)).lanePin 0 3 = none ∧
    (let s := channel 1 1 id; let q := (s.chan 0).grid.delay (s.fixedDelay 0) (64 * 32); roundDiv q.1 q.2 = 8186231) := by and_intros <;> decide +kernel
/-- The fabric of the running device as g makes it. EC3 lists source 5, and EI0 of core 0 selects it. -/
def weaving (g : FabricSt → FabricSt) : State :=
  let s := (words [(.EC_SRC_A, 0x8005, 3, 0)] up).modCore 0 fun c => { c with ei0 := ⟨some 3, false⟩ }
  { s with fabric := g s.fabric }

theorem witness_EventFabric : (let s := weaving fun x => { x with fired := [⟨.source 5, 7⟩] };
      s.fabric.fired[0]? = some ⟨.source 5, 7⟩ ∧ s.lists 3 5 = true ∧ s.on F.EC_CTL_LOOP_PERMIT 3 = false ∧
      ran (exec (.eventPass 0) s) (fun t => t.fabric.flight == [⟨3, 7, []⟩])) ∧
    (∀ b ∈ [0, 1], let s := put [(F.EC_CTL_LOOP_PERMIT, b, 3, 0)] (weaving fun x => { x with fired := [⟨.channel 3, 7⟩], refr := [(3, some 6)] });
      s.fabric.fired[0]? = some ⟨.channel 3, 7⟩ ∧ s.f F.EC_CTL_LOOP_PERMIT 3 = b ∧ sget (fun _ => none) s.fabric.refr 3 = some 6 ∧
      ran (exec (.eventPass 0) s) (fun t => t.fabric.flight.length == 1 - b && t.f F.EC_CTL_REFR_CNT 3 == b)) ∧
    (∀ w ∈ [none, some 7, some 10000000], let s := weaving fun x => { x with flight := [⟨3, 7, []⟩], inputs := [(0, { window := w })] };
      s.selection 0 = some 3 ∧ s.live 0 = true ∧ s.busy 0 = false ∧ (s.input 0).window = w ∧
      ran (exec (.eventDelivery 0 0) s) (fun t => (t.core 0).ei0.latch == (w != some 7) && (t.input 0).coincide == (if w == some 7 then 1 else 0))) ∧
    (let s := (weaving fun x => { x with flight := [⟨3, 7, []⟩] }).modCore 0 fun c => { c with ei0 := ⟨some 3, true⟩ };
      s.busy 0 = true ∧ ran (exec (.eventDelivery 0 0) s) (fun t => (t.input 0).overrun == 1)) ∧
    (let s := words [(.EVF_IRQ_SEL, 0x8080808080808003, 0, 0)] (weaving fun x => { x with flight := [⟨3, 7, []⟩] });
      s.selection 336 = some 3 ∧ s.live 336 = true ∧ ran (exec (.eventDelivery 0 336) s) (fun t => bit (t.f F.EVF_IRQ_PEND_PEND) 0)) ∧
    (let s := put [(F.EVR_CFG_MODE, 1, 0, 0), (F.EVR_CFG_EC, 3, 0, 0)] (weaving fun x => { x with flight := [⟨3, 7, []⟩] });
      s.selection 408 = some 3 ∧ s.live 408 = true ∧ s.busy 408 = false ∧ s.f F.EVR_CFG_MODE = 1) ∧
    (let s := weaving fun x => { x with unsettled := [⟨Reg.EC_SRC_A.addr 3 0, 15, 0, 0⟩, ⟨Reg.EC_SRC_A.addr 4 0, 15, 0, 0⟩] };
      s.fabric.unsettled.length = 2 ∧ s.eff (Reg.EC_SRC_A.addr 3 0) 15 0 = 0 ∧
      ran (exec (.routingApply 0) s) (fun t => t.eff (Reg.EC_SRC_A.addr 3 0) 15 0 == 0x8005)) := by
  and_intros <;> decide +kernel

/-- EC3 fires, lists relay 0 (source 608) without a loop, lists a source that does not exist, and would close the loop over relay 0. -/
theorem witness_EventFabric_writes : Admits up .port0 .EVT_FIRE 1 0 (2 ^ 63) ∧
    ran (exec (.evtFireWrite 1 .port0 (2 ^ 63)) up) (fun t => t.fabric.fired == [⟨.channel 127, 0⟩]) ∧
    (let w : Word := 0x827F; Admits up .port0 .EC_SRC_A 3 0 w ∧ (∀ j : Fin 4, bit w.toNat (16 * j + 15) = true → bits w.toNat (16 * j + 9) (16 * j) < 640) ∧
      (up.setRouted .EC_SRC_A w 3 0).loopAt = none ∧ ran (exec (.ecSrcWrite 3 false .port0 w) up) (fun t => t.rw .EC_SRC_A 3 == w)) ∧
    (let w : Word := 0x8280; Admits up .port0 .EC_SRC_B 3 0 w ∧ bits w.toNat 9 0 = 640 ∧
      ran (exec (.ecSrcWrite 3 true .port0 w) up) (fun t => t.on F.EVF_STATUS_SRC_ERR && t.rw .EC_SRC_B 3 == 0)) ∧
    (let s := put [(F.EVR_CFG_MODE, 1, 0, 0), (F.EVR_CFG_EC, 3, 0, 0)] up; let w : Word := 0x8260;
      Admits s .port0 .EC_SRC_A 3 0 w ∧ (s.setRouted .EC_SRC_A w 3 0).loopAt = some 3 ∧
      ran (exec (.ecSrcWrite 3 false .port0 w) s) (fun t => t.on F.EVF_STATUS_LOOP_REJ && t.f F.EVF_LOOP_LAST_EC == 3)) ∧
    (∀ n ∈ [0, 0x10000], let w := BitVec.ofNat 64 n; Admits up .port0 .EC_CTL 3 0 w ∧
      (up.setRouted .EC_CTL (storedWord Reg.EC_CTL.spec (up.rw .EC_CTL 3) w) 3 0).loopAt = none) ∧
    (let s := words [(.EC_SRC_A, 0x8260, 3, 0), (.EC_CTL, 1, 3, 0)] (put [(F.EVR_CFG_MODE, 1, 0, 0), (F.EVR_CFG_EC, 3, 0, 0)] up);
      Admits s .port0 .EC_CTL 3 0 0 ∧ (s.setRouted .EC_CTL (storedWord Reg.EC_CTL.spec (s.rw .EC_CTL 3) 0) 3 0).loopAt = some 3 ∧
      ran (exec (.ecCtlWrite 3 .port0 0) s) (fun t => t.on F.EVF_STATUS_LOOP_REJ && t.on F.EC_CTL_LOOP_PERMIT 3)) := by
  and_intros <;> decide +kernel

theorem witness_Relays : (let s := up.modRelay 7 fun x => { x with held := some 5, due := [6, 9], next := some 7 };
      (s.relay 7).held = some 5 ∧ (s.relay 7).due = 6 :: [9] ∧ (s.relay 7).next = some 7 ∧ s.active = true ∧
      ran (exec (.relayDelayOutput 7) s) (fun t => t.fabric.fired == [⟨.source 615, 5⟩] && near t 5) ∧
      ran (exec (.relayDivideOutput 7) s) (fun t => (t.relay 7).due == [9]) ∧
      ran (exec (.relayTimerOutput 7) s) (fun t => (t.relay 7).next == some (7 + s.relayPeriod 7) && t.f F.EVR_TS_FRAC_FRAC 7 == 7)) ∧
    (∀ m ∈ [0, 1, 3], let w := BitVec.ofNat 64 (m + 3 * 2 ^ 8); Admits up .port0 .EVR_CFG 7 0 w ∧ (up.setRouted .EVR_CFG w 7 0).loopAt = none ∧
      ran (exec (.evrCfgWrite 7 .port0 w) up) (fun t => (t.relay 7).next.isSome == (m == 3))) ∧
    (let s := words [(.EC_SRC_A, 0x8260 + 7, 3, 0)] up; let w : Word := 0x301; Admits s .port0 .EVR_CFG 7 0 w ∧ (s.setRouted .EVR_CFG w 7 0).loopAt = some 3) ∧
    (∀ m ∈ [1, 2, 3], let s := put [(F.EVR_CFG_MODE, m, 7, 0)] up; Admits s .port0 .EVR_PARAM 7 0 9 ∧ Admits s .port0 .EVR_START_SEC 7 0 9 ∧
      Admits s .port0 .EVR_START_FRAC 7 0 9 ∧ s.f F.EVR_CFG_MODE 7 = m) := by
  and_intros <;> decide +kernel

/-! ### Clocks -/

theorem witness_ReferenceClock : up.resting = false ∧
    (∀ x ∈ [0, 1], let s := put [(F.CLK_REF_CFG_EN_A, 1, 0, 0), (F.CLK_REF_CFG_EN_B, 1, 0, 0), (F.CLK_REF_CFG_MODE, 0, 0, 0), (F.CLK_REF_CFG_MAN_SRC, x, 0, 0),
        (F.CLK_REF_STATUS_A_VALID, 1, 0, 0), (F.CLK_REF_STATUS_B_VALID, 1, 0, 0), (F.CLK_REF_STATUS_STATE, 2, 0, 0)] up;
      s.refValid x = true ∧ s.f F.CLK_REF_CFG_MODE = 0 ∧ s.f F.CLK_REF_CFG_MAN_SRC = x ∧ s.f F.CLK_REF_STATUS_STATE = 2) ∧
    (let s := put [(F.CLK_REF_CFG_EN_A, 1, 0, 0), (F.CLK_REF_CFG_MODE, 0, 0, 0), (F.CLK_REF_STATUS_A_VALID, 1, 0, 0), (F.CLK_REF_STATUS_STATE, 2, 0, 0)] up;
      ran (exec (.refInputLost 0) s) (fun t => t.f F.CLK_REF_STATUS_STATE == 3 && t.on F.CLK_REF_STATUS_COASTED)) ∧
    (put [(F.CLK_REF_CFG_EN_A, 0, 0, 0)] up).refEn 0 = false ∧ ((up.modRefIn 0 fun r => { r with fault := true }).refIn 0).fault = true ∧
    (let s := (put [(F.CLK_REF_CFG_EN_A, 1, 0, 0)] up).modRefIn 0 fun r => { r with edges := true };
      s.refEn 0 = true ∧ s.refValid 0 = false ∧ (s.refIn 0).edges = true ∧ (s.refIn 0).fault = false ∧
      ran (exec (.refInputValid 0) s) (fun t => t.refValid 0) ∧ (-1 : BitVec 32).toInt.natAbs ≤ s.f F.REF_MON_FWIN * 1000 ∧
      ran (exec (.refGateEnd (some (-1)) none) s) (fun t => t.f F.REF_MEAS_FOFF_A == 0xFFFFFFFF && t.refValid 0)) ∧
    up.f F.REF_MON_FWIN * 1000 < (2 ^ 31 - 1 : BitVec 32).toInt.natAbs ∧
    (let s := put [(F.CLK_REF_CFG_EN_A, 1, 0, 0), (F.CLK_REF_CFG_MODE, 0, 0, 0), (F.CLK_REF_CFG_MAN_SRC, 0, 0, 0), (F.CLK_REF_STATUS_A_VALID, 1, 0, 0)] up;
      s.refValid 0 = true ∧ s.refQual 0 = false ∧ s.f F.CLK_REF_STATUS_STATE = 0 ∧
      ran (exec (.refQualified 0) s) (fun t => t.refQual 0 && t.f F.CLK_REF_STATUS_STATE == 1)) ∧
    (let s := put [(F.CLK_REF_CFG_EN_A, 1, 0, 0), (F.CLK_REF_CFG_EN_B, 1, 0, 0), (F.CLK_REF_CFG_MODE, 0, 0, 0), (F.CLK_REF_CFG_MAN_SRC, 1, 0, 0), (F.CLK_REF_STATUS_B_QUAL, 1, 0, 0),
        (F.CLK_REF_STATUS_STATE, 2, 0, 0)] (up.modRefIn 1 fun r => { r with edges := true }); let w := s.rw .CLK_REF_CFG; let u := s.setRw .CLK_REF_CFG w;
      Admits s .port0 .CLK_REF_CFG 0 0 w ∧ (s.refIn 1).edges = true ∧ (s.refIn 1).fault = false ∧ u.refEn 1 = true ∧ u.f F.CLK_REF_CFG_MODE = 0 ∧ u.f F.CLK_REF_CFG_MAN_SRC = 1 ∧ u.refQual 1 = true) ∧
    (∀ st ∈ [1, 3], let s := put [(F.CLK_REF_CFG_MODE, 0, 0, 0), (F.CLK_REF_CFG_MAN_SRC, 0, 0, 0), (F.CLK_REF_STATUS_A_QUAL, 1, 0, 0), (F.CLK_REF_STATUS_STATE, st, 0, 0)] up;
      s.refPick = some 0 ∧ s.f F.CLK_REF_STATUS_STATE = st ∧
      ran (exec (.refPllLock (-5)) s) (fun t => t.f F.CLK_REF_STATUS_STATE == 2 && t.time.returns == (if st == 3 then 1 else 0))) := by
  and_intros <;> decide +kernel

theorem witness_Spindles : (∀ st ∈ [1, 4], let s := put [(F.SP_STATUS_STATE, st, 3, 0)] up; Admits s .port0 .SP_CTL 3 0 (force 0 16 16 1) ∧
      freqLegal (s.rw .SP_FREQ 3).toNat = true ∧ ran (exec (.spRetune 3 .port0 0) s) (fun t => t.f F.SP_STATUS_STATE 3 == 1)) ∧
    (let s := words [(.SP_FREQ, 0, 3, 0)] up; Admits s .port0 .SP_CTL 3 0 (force 0 16 16 1) ∧ freqLegal (s.rw .SP_FREQ 3).toNat = false) ∧
    (∀ b ∈ [0, 1], let s := words [(.SP_BAND, b * 2 ^ 63 + 0xFFFFFF * 2 ^ 24, 3, 63)] (put [(F.SP_STATUS_STATE, 1, 3, 0)] up);
      s.f F.SP_STATUS_STATE 3 = 1 ∧ firstN 64 (s.bandCovers 3) = (if b = 1 then some 63 else none)) ∧
    (∀ p ∈ ([(true, 0), (false, 1), (true, 1)] : List (Bool × Nat)),
      let s := (put [(F.SP_STATUS_STATE, 3, 3, 0), (F.SP_CTL_POLICY, p.2, 3, 0)] up).modSp 3 fun x => { x with relock := p.1 };
      s.f F.SP_STATUS_STATE 3 = 3 ∧ ran (exec (.spAlignDone 3) s) (fun t => t.f F.SP_STATUS_STATE 3 == (if p.1 && p.2 == 1 then 6 else 4))) ∧
    (let s := put [(F.SP_STATUS_STATE, 4, 3, 0), (F.CH_STATUS_RUN, 1, 15, 0)] up; s.f F.SP_STATUS_STATE 3 = 4 ∧
      ran (exec (.spindleUnlock 3 false) s) (fun t => t.f F.SP_STATUS_STATE 3 == 5 && (t.chan 15).unlocked)) ∧
    (∀ en ∈ [0, 1], let s := put [(F.SP_STATUS_STATE, 4, 3, 0), (F.CH_CTL_EN, en, 15, 0)] up; Admits s .port0 .SP_CTL 3 0 (force 0 4 4 1) ∧ s.f F.CH_CTL_EN 15 = en ∧
      ran (exec (.spBmeas 3 .port0 0) s) (fun t => t.on F.SP_STATUS_BMEAS_REJ 3 == (en == 1) && (t.sp 3).measuring == (en == 0))) ∧
    ran (exec (.spBmeasDone 3 7 9) (up.modSp 3 fun x => { x with measuring := true })) (fun t => t.on F.SP_BMEAS_DONE 3 && t.f F.SP_BMEAS_FHI 3 == 9) ∧
    (let s := put [(F.SP_STATUS_STATE, 6, 3, 0)] up; Admits s .port0 .CLK_RELEASE 0 0 8 ∧ Admits s .port0 .CLK_RELEASE 0 0 0 ∧ s.f F.SP_STATUS_STATE 3 = 6 ∧
      Admits s .port0 .SP_CTL 3 0 (force 0 0 0 0) ∧ ran (exec (.clkRelease .port0 8) s) (fun t => t.f F.SP_STATUS_STATE 3 == 4)) := by
  and_intros <;> decide +kernel

/-- A lock in COAST is a return, but for one after a switch of the source in use (R207, R235). -/
theorem witness_ReferenceClock_switch : ∀ b ∈ [true, false],
    let u := put [(F.CLK_REF_CFG_MODE, 0, 0, 0), (F.CLK_REF_CFG_MAN_SRC, 0, 0, 0), (F.CLK_REF_STATUS_A_QUAL, 1, 0, 0),
      (F.CLK_REF_STATUS_STATE, 3, 0, 0)] up
    let s : State := { u with clock := { u.clock with switching := b } };
    s.refPick = some 0 ∧ s.f F.CLK_REF_STATUS_STATE = 3 ∧ s.clock.switching = b ∧
      ran (exec (.refPllLock (-5)) s) (fun t => t.f F.CLK_REF_STATUS_STATE == 2 && t.time.returns == (if b then 0 else 1)) := by
  decide +kernel

/-- From LOST the PLL takes up ACQUIRE, or BAND after a loss at a band's end (R213). -/
theorem witness_Spindles_lost : ∀ b ∈ [true, false], let s := (put [(F.SP_STATUS_STATE, 5, 3, 0)] up).modSp 3 fun x => { x with rail := b };
    s.f F.SP_STATUS_STATE 3 = 5 ∧ ∀ y ∈ [Instr.spBandSelect 3, .spLockDeclared 3], ran (exec y s) (fun t => t.f F.SP_STATUS_STATE 3 == if b then 1 else 2) := by
  decide +kernel

/-- AUX1 enabled, with N = 12 in its points 0 and 1 and T = 1. -/
def auxed (ramp rmode npts : Nat) : State :=
  put [(F.AUX_CTL_EN, 1, 1, 0), (F.AUX_CTL_RMODE, rmode, 1, 0), (F.AUX_CTL_NPTS, npts, 1, 0), (F.AUX_STATUS_RAMP, ramp, 1, 0), (F.AUX_STATUS_PT, 1, 1, 0),
      (F.AUX_STATUS_STATE, 2, 1, 0)]
    (words [(.AUX_PT_N, 0xC000000, 1, 0), (.AUX_PT_N, 0xC000000, 1, 1), (.AUX_PT_T, 1, 1, 0), (.AUX_PT_T, 1, 1, 1)] up)

theorem witness_Synthesizers : (∀ m ∈ [0, 1], let s := auxed 0 m 1; let w := s.rw .AUX_CTL 1; let u := s.wrote .AUX_CTL 1 0 (force w 8 8 1);
      Admits s .port0 .AUX_CTL 1 0 (force w 8 8 1) ∧ bit w.toNat 9 = false ∧ s.on F.AUX_CTL_EN 1 = true ∧ u.on F.AUX_CTL_EN 1 = true ∧
      auxLegal (s.rw .AUX_FREQ 1).toNat = true ∧ u.f F.AUX_CTL_ADIV 1 ≤ 4 ∧ s.f F.AUX_STATUS_STATE 1 ≠ 0 ∧ u.f F.AUX_CTL_RMODE 1 = m) ∧
    (let s := words [(.AUX_FREQ, 0, 1, 0)] (auxed 0 1 1); auxLegal (s.rw .AUX_FREQ 1).toNat = false) ∧
    (∀ n ∈ [0, 1], let s := words [(.AUX_START_SEC, n, 1, 0)] (auxed 0 1 1); let t := { s with time := { dtime := BitVec.ofNat 96 (2 ^ 48 - 1 + n) } };
      let w := t.rw .AUX_CTL 1; let u := t.wrote .AUX_CTL 1 0 (force w 9 9 1);
      Admits t .port0 .AUX_CTL 1 0 (force w 9 9 1) ∧ bit w.toNat 8 = false ∧ u.f F.AUX_CTL_RMODE 1 = 1 ∧ u.rampLegal 1 = true ∧
      ran (exec (.auxArm 1 .port0 w) t) (fun v => v.f F.AUX_STATUS_RAMP 1 == (if n == 1 then 1 else 2))) ∧
    (let s := words [(.AUX_PT_T, 0, 1, 1)] (auxed 0 1 1); (s.wrote .AUX_CTL 1 0 (force (s.rw .AUX_CTL 1) 9 9 1)).rampLegal 1 = false) ∧
    (auxed 1 1 0).f F.AUX_STATUS_RAMP 1 = 1 ∧ ran (exec (.auxRampStart 1) (auxed 1 1 0)) (fun t => t.f F.AUX_STATUS_RAMP 1 == 3) ∧
    (∀ p ∈ ([(1, 1), (1, 2), (2, 1)] : List (Nat × Nat)), let s := auxed 2 p.1 p.2; s.f F.AUX_STATUS_RAMP 1 = 2 ∧ s.f F.AUX_STATUS_PT 1 = 1 ∧
      ran (exec (.auxRampPoint 1) s) (fun t => t.f F.AUX_STATUS_RAMP 1 == (if p.1 == 1 && p.2 == 1 then 3 else 2) && near t (2 ^ 24))) ∧
    (let s := auxed 1 1 1; let w := s.rw .AUX_CTL 1; Admits s .port0 .AUX_CTL 1 0 (force w 5 4 0) ∧ (s.wrote .AUX_CTL 1 0 (force w 5 4 0)).on F.AUX_CTL_EN 1 = true ∧
      ran (exec (.auxRampStop 1 .port0 w) s) (fun t => t.f F.AUX_STATUS_RAMP 1 == 0)) ∧
    (∀ st ∈ [1, 2], (put [(F.AUX_STATUS_STATE, st, 1, 0)] up).f F.AUX_STATUS_STATE 1 = st) ∧
    (∀ n ∈ [0x20020, 0x70020], let w := BitVec.ofNat 64 n; Admits up .port0 .CO_CFG 7 0 (force w 0 0 1)) ∧
    up.coLegal 0x50020 = true ∧ up.coLegal 0x70 = false ∧
    ran (exec (.coEnable 7 .port0 0x50020) up) (fun t => (t.clkout 7).running && t.f F.CO_CFG_DIV_M1 7 == 5) := by
  and_intros <;> decide +kernel

/-- A domain that has acknowledged an entry does no work (R291). -/
theorem witness_Synthesizers_frozen : let s := (auxed 2 1 1).modPower fun p => { p with entry := some ⟨2, [56], [71], 1, false⟩ }
    s.frozen 71 = true ∧ (auxed 2 1 1).frozen 71 = false ∧ ran (exec (.auxRampPoint 1) s) (· == s) ∧
      (let t := (auxed 1 1 1).modPower fun p => { p with entry := some ⟨2, [56], [71], 1, false⟩ }; ran (exec (.auxRampStart 1) t) (· == t)) := by
  and_intros <;> decide +kernel
/-! ### Device time -/

/-- s at DTIME t. -/
def timed (t : Nat) (s : State) : State := { s with time := { s.time with dtime := BitVec.ofNat 96 t } }

/-- TM_CMD with an operation. -/
def timeWord (op : Nat) : Word := force (force 0 3 0 op) 63 63 1

theorem witness_TimeCommands : (∀ op ∈ [0, 1, 2, 3, 4, 5], Admits up .port0 .TM_CMD 0 0 (timeWord op)) ∧ up.time.ppsWait = none ∧ up.servoOwns = false ∧ up.remain = 0 ∧
    (let s := put [(F.PTP_CFG_ROLE, 2, 0, 0)] up; s.servoOwns = true ∧ Admits s .port0 .TM_CMD 0 0 (timeWord 2)) ∧
    (let s := { up with time := { ppsWait := some ⟨true, 0, 0⟩ } }; s.time.ppsWait ≠ none ∧ Admits s .port0 .TM_CMD 0 0 (timeWord 5) ∧ Admits s .port0 .TM_CMD 0 0 (timeWord 0)) ∧
    (∀ st ∈ [2, 3], let s := put [(F.TM_HO_REMAIN_REMAIN, 2 ^ 64 - 5, 0, 0), (F.CLK_REF_STATUS_STATE, st, 0, 0)] (timed 100 up);
      Admits s .port0 .TM_CMD 0 0 (timeWord 4) ∧ s.remain = -5 ∧ s.f F.CLK_REF_STATUS_STATE = st ∧
      ran (exec (.timeStep .port0 0) s) (fun t => t.now == (if st == 2 then 95 else 100) && t.f F.TM_STATUS_CMD_CODE == (if st == 2 then 0 else 4))) ∧
    ran (exec (.set .port0 0) (put [(F.TM_ARG_SEC_SEC, 9, 0, 0), (F.SP_STATUS_STATE, 4, 3, 0)] up)) (fun t => t.now == 9 * second && t.f F.SP_STATUS_STATE 3 == 3) ∧
    ran (exec (.adj .port0 0) (words [(.TM_ARG_SEC, 2 ^ 48 - 1, 0, 0), (.TM_ARG_FRAC, 2 ^ 48 - 1, 0, 0)] (timed 100 up))) (fun t => t.now == 99) := by
  and_intros <;> decide +kernel

theorem witness_TimeEvents : (let s := { up with time := { ppsWait := some ⟨false, 5, 0⟩ } }; s.time.ppsWait = some ⟨false, 5, 0⟩ ∧
      ran (exec .ppsCmdTimeout s) (fun t => near t (2 * second) && t.f F.TM_STATUS_CMD_CODE == 5)) ∧
    (∀ p ∈ [none, some (⟨false, 5, 0⟩ : PpsWait)], let s := put [(F.TM_PPS_CFG_EN, 1, 0, 0), (F.TM_PPS_CFG_EDGE, 0, 0, 0)] { up with time := { ppsWait := p } };
      s.time.ppsWait = p ∧ (0 : Int) ≤ (second : Int) - signed 32 (s.f F.TM_PPS_CFG_COMP) * 256 ∧ s.on F.TM_PPS_CFG_EN = true ∧
      second / 100000 ≤ second ∧ true = !s.on F.TM_PPS_CFG_EDGE ∧
      ran (exec (.ppsInEdge second true) s) (fun t => near t (if p.isSome then 5 * second else second) && t.time.ppsLast.isSome)) ∧
    (let s := put [(F.TM_STATUS_PPS_VALID, 1, 0, 0)] { up with time := { ppsLast := some 5 } }; s.time.ppsLast = some 5 ∧ s.on F.TM_STATUS_PPS_VALID = true) ∧
    up.answers .port0 0x30000 = true ∧ up.access (up.level .port0) (regionOf 0x30000) ≠ 0 ∧ up.readShadow .port0 = none ∧ up.writeShadow .port0 = none ∧
    ran (exec (.tmNowRead .port0 .full) (timed (3 * second + 7) up)) (fun t => sget (fun _ => 0) t.bus.got 0 == 3 && sget (fun _ => 0) t.time.latches 0 == 7) ∧
    (let s := put [(F.TM_STATUS_SLEWING, 1, 0, 0), (F.TM_HO_CFG_SLEW_RATE, 10, 0, 0), (F.TM_HO_REMAIN_REMAIN, 2 ^ 64 - 5, 0, 0)] up;
      s.on F.TM_STATUS_SLEWING = true ∧ s.f F.TM_HO_CFG_SLEW_RATE ≠ 0 ∧ ran (exec .slewComplete s) (fun t => t.remain == 0 && near t 500000000000000)) ∧
    Admits up .port0 .TM_HO_CFG 0 0 0 ∧ ran (exec .second up) (fun t => near t second && t.time.nextSecond == 2) := by
  and_intros <;> decide +kernel

/-- PTP enabled on PORT1 with a role and a port state, the link of PORT1 up. -/
def ptp (role st : Nat) : State :=
  put [(F.PTP_CFG_EN, 1, 0, 0), (F.PTP_CFG_ROLE, role, 0, 0), (F.PTP_PORT_EN, 1, 0, 0), (F.PTP_PSTAT_STATE, st, 0, 0), (F.ETH_CFG_EN, 1, 0, 0),
    (F.ETH_STAT_UP, 1, 0, 0), (F.ETH_MAC_MAC, 5, 0, 0), (F.ETH_CFG_CD_RESP, 1, 0, 0), (F.ETH_CFG_IP4_EN, 1, 0, 0)] up

/-- One nanosecond is 281,474.98 units of DTIME, rounded down, and half a second 500,000,000 ns (R228). -/
theorem test_ptp_time : dtimeOfPtp 2 1 0 = 2 * 2 ^ 48 + 281474 ∧ ptpOfDtime (3 * 2 ^ 48 + 2 ^ 47) = (3, 500000000, 0) ∧
    ptpOfDtime 281474 = (0, 0, 65535) := by decide +kernel

theorem witness_PtpReceives : (let s := ptp 3 9; let h : PtpHead := ⟨0, 0, 0, 7, 0⟩; s.ptpTakes h = true ∧ s.portState 0 = 9 ∧ s.time.ptp.parent = none ∧
      s.on F.PTP_PORT_TX_ONLY 0 = false ∧ s.ethSends 1 = true ∧ 2 ≤ s.f F.PTP_CFG_ROLE ∧
      ran (exec (.ptpSyncRx h true ⟨0, 1⟩ 281500) s) (fun t => t.time.ptp.waiting == some ⟨0, 7, 281500⟩ &&
        ran (exec (.ptpFollowUpRx h ⟨0, 1⟩) t) (fun u => u.f F.PTP_OFFSET_OFFSET == 26)) ∧
      ran (exec (.ptpAnnounceRx h 128 6 0x21 0 128 5 0xFFFF) s) (fun t => t.f F.PTP_STAT_CLASS == 6 && t.f F.PTP_STAT_STEPS == 0 && t.time.ptp.parent.isSome) ∧
      ran (exec (.ptpManagementRx h true) s) (fun t => t.time.ptp.sent.map (·.kind) == [.managed])) ∧
    (let s := ptp 1 6; let h : PtpHead := ⟨0, 0, 0, 7, 0⟩; s.portState 0 = 6 ∧ s.ethSends 1 = true ∧
      ran (exec (.ptpDelayReqRx h 50) s) (fun t => t.time.ptp.sent.map (·.time) == [50])) ∧
    (let s := (ptp 3 9).modPtp fun x => { x with reqTime := some 281444, reqSeq := 7, t2 := 30, t1 := 20 }; s.time.ptp.reqTime = some 281444 ∧
      ran (exec (.ptpDelayRespRx ⟨0, 0, 0, 7, 0⟩ ⟨0, 1⟩) s) (fun t => t.f F.PTP_MPD_MPD == 20)) ∧
    (let s := put [(F.PTP_STAT_SERVO, 2, 0, 0)] ((ptp 3 9).modPtp fun x => { x with parent := some ⟨0, []⟩ }); s.time.ptp.parent ≠ none ∧
      ran (exec .ptpAnnounceTimeout s) (fun t => t.f F.PTP_STAT_SERVO == 3 && t.time.ptp.parent.isNone)) := by
  and_intros <;> decide +kernel

theorem witness_PtpSendsAndCable : (ptp 1 6).ethSends 1 = true ∧ (ptp 1 6).portState 0 = 6 ∧ (ptp 1 6).f F.PTP_STAT_RX_PORT = 0 ∧ (ptp 3 9).portState 0 = 9 ∧ (ptp 1 6).ptpRuns = true ∧ (ptp 3 9).ptpRuns = true ∧
    (ptp 1 6).receives 1 = true ∧ (ptp 1 6).on F.ETH_CFG_IP4_EN 0 = true ∧ (ptp 1 6).boot.running = true ∧
    (let s := (ptp 1 6).modPtp fun x => { x with sentAt := [(0, second)] }; (s.time.ptp.sentAt.find? fun p => p.1 == 4 * 0 + 0) = some (0, second) ∧
      ran (exec (.ptpSyncTx 0) s) (fun t => near t (second + logSeconds s.logSync))) ∧
    (let s : State := { ptp 1 6 with boot := {} }; s.ptpRuns = false ∧ ran (exec (.ptpSyncTx 0) s) (· == s)) ∧
    ran (exec (.ptpSyncTx 0) (ptp 1 6)) (fun t => t.time.ptp.sent.map (·.kind) == [.sync, .followUp]) ∧
    (let s := put [(F.CD_STAT_BUSY, 1, 0, 0)] (ptp 1 6); s.f F.CD_CFG_METHOD 0 < 2 ∧ (s.cable 0).begun < s.cableN 0 ∧
      ran (exec (.cdExchangeTx 0 5) s) (fun t => (t.cable 0).outs == [5])) ∧
    (let s := ptp 1 6; (s.cable 0).outs.find? (fun y => y % second == (9 : BitVec 64).toNat) = none ∧ s.on F.ETH_CFG_CD_RESP 0 = true ∧
      ran (exec (.cdxRx 0 9 0 0 5) s) (fun t => (t.port 1).sent.length == 1)) ∧
    (let s := (ptp 1 6).modCable 0 fun x => { x with outs := [9], begun := 1 }; (s.cable 0).outs.find? (fun y => y % second == (9 : BitVec 64).toNat) = some 9 ∧
      ran (exec (.cdxRx 0 9 0 0 50) s) (fun t => (t.cable 0).done == 1 && (t.cable 0).outs.isEmpty)) ∧
    Admits up .port0 .CD_CFG 3 0 (force 0 0 0 1) ∧ Admits up .port0 .CD_CFG 3 0 (force 0 1 1 1) ∧ up.on F.CD_STAT_BUSY 3 = false ∧
    (let s := put [(F.CD_CFG_PERIOD, 5, 3, 0)] (up.modCable 3 fun x => { x with repeating := true });
      (s.cable 3).repeating = true ∧ s.on F.CD_STAT_BUSY 3 = false ∧ s.on F.CD_CFG_PERIOD 3 = true ∧
      ran (exec (.cdRepeat 3) s) (fun t => near t ((5 * second + 999) / 1000) && t.on F.CD_STAT_BUSY 3)) ∧
    (∀ b ∈ [true, false], let s := (put [(F.CD_STAT_BUSY, 1, 3, 0)] up).modCable 3 fun x => { x with done := 1, failed := b };
      (s.cable 3).done = s.cableN 3 ∧ s.f F.CD_CFG_METHOD 3 ≠ 2 ∧ s.f F.CD_CFG_SPREAD_MAX 3 = 0 ∧
      ran (exec (.cdResult 3) s) (fun t => t.on F.CD_STAT_FAIL 3 == b && t.f F.CD_STAT_NRES 3 == 1 - b.toNat)) := by
  and_intros <;> decide +kernel

/-! ### Memory -/

theorem witness_MemoryWindows : up.resting = false ∧ up.dozing = false ∧ up.access (up.level .port0) 88 = 2 ∧ up.boot.running = true ∧
    up.barAddr false (96 * 2 ^ 20 - 8) = some (96 * 2 ^ 20 - 8) ∧ up.barAddr false (96 * 2 ^ 20) = none ∧
    (put [(F.MEM_CFG_POP, 1, 0, 0)] up).barAddr true 0 = some 0 ∧ up.barAddr true 0 = none ∧
    (∀ n ∈ [0, 0x1], let s := (put [(F.PRT_BIND0_LEVEL, 1, 0, 0)] up).setWord 0x158 (BitVec.ofNat 64 n); s.level .port0 = 1 ∧ s.access 1 88 = n ∧
      ran (exec (.bar2Access true 0 0xFF 7 .clean) s) (fun t => bit (t.rw .PROT_LAST).toNat 63 && t.sram == s.sram)) ∧
    ran (exec (.bar2Access true (BitVec.ofNat 27 (96 * 2 ^ 20 - 8)) 0x0F 0x1122334455667788 .clean) up)
      (fun t => t.readWord false (96 * 2 ^ 20 - 8) == 0x55667788) ∧
    ran (exec (.bar2Access false (BitVec.ofNat 27 (96 * 2 ^ 20)) 0xFF 0 .clean) up) (fun t => t.on F.MEM_STATUS_BAR_OOR && sget (fun _ => 0) t.bus.got 0 == 0) := by
  and_intros <;> decide +kernel

/-- While the DRAM PLL is unlocked a BAR4 access waits, and is served once it has locked again (R360). -/
theorem witness_MemoryWindows_held : let s := (put [(F.MEM_CFG_POP, 1, 0, 0)] up).modMem fun m => { m with pllLost := some 0 };
    s.mem.pllLost ≠ none ∧ s.access (s.level .port0) 89 = 2 ∧ ran (exec (.bar4Access true 8 0xFF 7 .clean) s) (fun t => t.mem.held.length == 1 && t.dram == s.dram &&
      ran (exec .dramPllRelock t) (fun u => u.mem.held.isEmpty && u.readWord true 8 == 7)) := by
  and_intros <;> decide +kernel

theorem witness_MemoryUpkeep : (∀ p ∈ up.buffers, p.2.life = .free) ∧ Admits up .port0 .MEM_POOL 0 0 24576 ∧ Admits up .port0 .MEM_POOL 0 0 24577 ∧
    ran (exec (.memPoolWrite .port0 24577) up) (fun t => t.on F.MEM_STATUS_POOL_ERR) ∧
    ¬ (∀ p ∈ (buffered up).buffers, p.2.life = .free) ∧ Admits (buffered up) .port0 .MEM_POOL 0 0 0 ∧
    Admits up .port0 .MEM_CFG 0 0 1 ∧ (∀ c : Fin 4, up.ddr c = 0) ∧ up.dom 59 = true ∧
    (let s := put [(F.DDR_STAT_STATE, 1, 3, 0)] up; Admits s .port0 .MEM_CFG 0 0 1 ∧ s.ddr 3 ≠ 0 ∧ s.f F.MEM_CFG_POP ≠ 1 ∧
      ran (exec (.memCfgWrite .port0 1) s) (fun t => t.on F.MEM_STATUS_CFG_ERR)) ∧
    (let s := { sramW [(0, 7), (64 * 6, 9)] up with power := { up.power with fills := [5] } };
      ran (exec (.bankFillDone 0) (s)) (fun t => t.readWord false 0 == 7 && t.readWord false (64 * 6) == 9 && t.power.fills.isEmpty)) ∧
    (let s := (put [(F.MEM_SCRUB_SRAM_EN, 1, 0, 0)] up).modGov fun g => { g with tasks := [.scrub] }; s.on F.MEM_SCRUB_SRAM_EN = true ∧
      s.on F.PWR_STATUS_BO_ACTIVE = false ∧ s.poisoned false 8 = false ∧ s.on F.MEM_ECC_LOG_VALID = false ∧
      s.scrubEnd false = s ∧ s.inService false 8 = true ∧ (false, 8 / 64) ∉ s.mem.scrubbed ∧ s.scrubDue false = true ∧
      ran (exec (.scrubStep false 8 .uncorrected) s) (fun t => t.f F.MEM_ECC_LOG_REQ == 6 && t.f F.MEM_ECC_LOG_ADDR == 8)) ∧
    (let s := put [(F.MEM_SCRUB_SRAM_EN, 1, 0, 0), (F.PWR_STATUS_GOV_TRIM, 1, 0, 0)] up; s.admits = false ∧ s.power.gov.tasks = [] ∧ s.scrubEnd false = s ∧
      s.inService false 8 = true ∧ s.scrubDue false = true ∧ ran (exec (.scrubStep false 8 .clean) s) (fun t => t.power.gov.bg.contains .scrub)) ∧
    (let s := put [(F.DDR_STAT_STATE, 4, 3, 0), (F.MEM_CFG_POP, 2, 0, 0)] up; s.refreshes 3 true = true ∧
      ran (exec (.trefiTick 3 true ⟨true, true, true⟩) s) (fun t => t.debt 15 == 1 && t.f F.DDR_STAT_PREEMPT 3 == 0 && t.f F.DDR_STAT_DEBT_B 3 == 1 &&
        ran (exec (.refreshSetDone 3 true true false) t) (fun u => u.debt 15 == 0)) ∧
      ran (exec (.refreshSetDone 3 true true false) ((s.setDebt 3 15 2).modMem fun m => { m with pllLost := some 0 })) (fun u => u.debt 15 == 2)) := by
  and_intros <;> decide +kernel

theorem witness_DramService : (∀ p ∈ ([(0, 0, 0), (1, 1, 0), (1, 0, 1), (1, 0, 0)] : List (Nat × Nat × Nat)),
      let s := put [(F.MEM_CFG_POP, p.1, 0, 0), (F.MEM_STATUS_FREQ_BUSY, p.2.1, 0, 0), (F.DRAM_BACKED_VOICES, p.2.2, 0, 0), (F.DDR_STAT_STATE, 4, 3, 0)] up;
      Admits s .port0 .MEM_FREQ 0 0 (force 1 63 63 1) ∧ s.on F.MEM_STATUS_FREQ_ACT = false ∧ s.untrainedFor true = [3] ∧
      ran (exec (.memFreqRequest .port0 1) s) (fun t => t.f F.MEM_STATUS_FREQ_CODE == (if p.1 == 0 then 1 else if p.2.1 == 1 then 2 else if p.2.2 == 1 then 3 else 0))) ∧
    (let s := (put [(F.DDR_STAT_STATE, 6, 3, 0), (F.DDR_STAT_TRAINED, 2, 3, 0)] up).modMem fun m => { m with change := some true, filled := [3] };
      s.mem.change = some true ∧ s.mem.hold = false ∧ s.trained 3 true = true ∧ ran (exec .freqChangeDone s) (fun t => t.ddr 3 == 4 && t.on F.MEM_STATUS_FREQ_ACT)) ∧
    (∀ k ∈ [0, 1], let s := put [(F.DDR_STAT_STATE, 4, 3, 0), (F.DRAM_BACKED_VOICES, 1 - k, 0, 0)] up; let w := force (BitVec.ofNat 64 (0x800 + k)) 63 63 1;
      Admits s .port0 .MEM_TRAIN 0 0 w ∧ (s.wrote .MEM_TRAIN 0 0 w).f F.MEM_TRAIN_KIND = k ∧ s.mem.run = none ∧
      ran (exec (.memTrainRequest .port0 w) s) (fun t => t.on F.MEM_TRAIN_STAT_REFUSED == (k == 0) && t.f F.MEM_TRAIN_STAT_STEP == k)) ∧
    (let s := put [(F.DDR_STAT_STATE, 4, 3, 0)] up; s.ddr 3 = 4 ∧ s.mem.run = none ∧ s.mem.change = none ∧ s.mem.waits = [] ∧
      s.f F.MEM_TRAIN_STAT_STEP = 0 ∧ ran (exec (.periodicTrain 3) s) (fun t => t.f F.MEM_TRAIN_STAT_STEP == 1)) ∧
    (∀ st ∈ [1, 7, 8], let s := (put [(F.MEM_TRAIN_STAT_STEP, st, 0, 0), (F.DDR_STAT_STATE, 2, 3, 0)] up).modMem fun m => { m with run := some ⟨true, [3], false⟩ };
      s.mem.run = some ⟨true, [3], false⟩ ∧ s.mem.hold = false ∧ s.mem.waits = [] ∧ s.on F.PWR_STATUS_BO_ACTIVE = false ∧
      ran (exec (.trainStepDone true) s) (fun t => t.on F.MEM_TRAIN_STAT_FAIL) ∧
      ran (exec (.trainStepDone false) s) (fun t => t.f F.MEM_TRAIN_STAT_STEP == (if st == 8 then 0 else st + 1) && t.trained 3 false == (st == 8))) ∧
    (let s := (put [(F.MEM_TRAIN_STAT_STEP, 1, 0, 0), (F.DDR_STAT_STATE, 2, 3, 0)] up).modMem fun m => { m with run := some ⟨true, [3], false⟩, hold := true, change := some true };
      s.mem.pllLost = none ∧ s.mem.hold = true ∧
      ran (exec (.trainStepDone true) s) (fun t => t.on F.MEM_TRAIN_STAT_FAIL && t.on F.MEM_TRAIN_STAT_ABORTED && t.mem.asked == some ⟨true, [3], false⟩) ∧
      let u := s.modMem fun m => { m with pllLost := some 0 }; u.mem.pllLost ≠ none ∧ ran (exec (.trainStepDone true) u) (· == u)) ∧
    ran (exec (.dramFillDone 3) (put [(F.DDR_STAT_STATE, 3, 3, 0)] up)) (fun t => t.ddr 3 == 4 && t.mem.filled == [3]) ∧
    (put [(F.CLK_REF_STATUS_DRAM_LOCK, 1, 0, 0)] up).on F.CLK_REF_STATUS_DRAM_LOCK = true ∧
    (∀ d ∈ [2814749767, 2814749768], let s := timed d ((put [(F.DDR_STAT_STATE, 4, 3, 0)] up).modMem fun m => { m with pllLost := some 0 });
      (s.now * 100000 ≤ second ↔ d = 2814749767) ∧ s.mem.run = none ∧ s.mem.held = [] ∧ s.mem.waits = [] ∧ 1 < s.ddr 3 ∧
      ran (exec .dramPllRelock s) (fun t => t.on F.CLK_REF_STATUS_DRAM_LOCK && t.ddr 3 == (if d == 2814749767 then 4 else 1))) := by
  and_intros <;> decide +kernel


/-- The last byte of 64 GB and of 128 GB, a request that begins at the end of a visit, and orders at both ends of their ranges. -/
theorem witness_DramPlacesAndOrder : (∀ p ∈ ([(1, 2 ^ 36), (2, 2 ^ 37), (3, 2 ^ 37)] : List (Nat × Nat)), let s := put [(F.MEM_CFG_POP, p.1, 0, 0)] up;
      p.2 - 1 < s.dramBytes ∧ (s.dramPlace (p.2 - 1)).byte = 255 ∧ (s.dramPlace (p.2 - 1)).rank = (if p.1 = 2 then 1 else 0)) ∧
    258 + 255 ≤ 256 * 3 ∧ visits 255 258 3 = [(255, 1), (256, 256), (512, 1)] ∧
    portUrgency 4 3 = 0 ∧ portUrgency 4 2 = 1 ∧ portUrgency 4 1 = 2 ∧ portUrgency 4 0 = 3 ∧
    (∀ d ∈ [1, 2, 4], let s := put [(F.MEM_MAINT_MAX_POSTPONE, 4, 0, 0)] up;
      s.dramOrder (.refresh d) = some (if d = 4 then 1 else if d = 2 then 3 else 5)) ∧
    (⟨1, false, 7⟩ : DramVisit).before ⟨2, true, 0⟩ = true ∧ (⟨2, true, 7⟩ : DramVisit).before ⟨2, false, 0⟩ = true ∧
    (⟨2, true, 0⟩ : DramVisit).before ⟨2, true, 7⟩ = true ∧
    bankNext [⟨.scrub, 1, 0⟩, ⟨.voiceLine, 9, 3⟩, ⟨.voiceLine, 4, 3⟩, ⟨.voiceLine, 4, 6⟩] = some ⟨.voiceLine, 4, 3⟩ ∧
    bankServe ⟨.voiceLine, 4, 3⟩ [⟨.scrub, 1, 0⟩, ⟨.voiceLine, 9, 3⟩, ⟨.voiceLine, 4, 3⟩] = [⟨.scrub, 1, 0⟩] := by
  and_intros <;> decide +kernel
/-! ### Ports -/

/-- A header with an HSN. -/
def head (hsn : Nat) (oob : Bool) : MlpHead := ⟨BitVec.ofNat 32 hsn, oob, true, 1024, none, {}⟩

theorem witness_OutOfBandCommands : Quiet (linked false) 0 (head 5 true) ∧ Quiet (linked false) 1 (head 5 true) ∧ (head 5 true).oob = true ∧
    (linked false).link.journal.countP (fun e => decide ((e.eseq + 2 ^ 32 - (0 : BitVec 32).toNat) % 2 ^ 32 < (32 : BitVec 32).toNat)) ≤ 32 ∧
    ran (exec (.ping 1 (head 5 true)) (linked false)) (fun t => (t.port 1).sent.length == 1) ∧
    ran (exec (.open_ 0 (head 5 true)) (linked false)) (fun t => t.session 0 == 1 && (t.port 0).opened && t.f F.PRT_SEQ_NEXT_HSN == 5) ∧
    ran (exec (.journalRead 0 (head 5 true) 0 33) (linked false)) (fun t => (t.port 0).sent.map (fun | .mlp m => m.status | _ => 99) == [5]) ∧
    ran (exec (.noteRead 0 (head 5 true) 0 16) (linked false)) (fun t => (t.port 0).sent.map (fun | .mlp m => m.status | _ => 99) == [0]) := by
  and_intros <;> decide +kernel

/-- An opcode that is no command, and FLAGS.OOB against the table, are answered OPCODE (R275). -/
theorem witness_OutOfBandCommands_opcode : (0x99 : BitVec 16).toNat ∉ mlpCodes ∧ (∀ p : Fin 5, p.val < 2 → Quiet (linked false) p (head 5 true)) ∧
    ran (exec (.ping 1 { head 5 true with code := some 0x99 }) (linked false)) (fun t => (t.port 1).sent.map (fun | .mlp m => (m.code, m.status) | _ => (0, 0)) == [(0x99, 3)]) ∧
    ran (exec (.ping 1 (head 5 false)) (linked false)) (fun t => (t.port 1).sent.map (fun | .mlp m => m.status | _ => 0) == [3]) ∧
    ran (exec (.noteCfg 1 (head 5 true) 6) (linked false)) (fun t => (t.port 1).sent.map (fun | .mlp m => (m.code, m.status) | _ => (0, 0)) == [(0x40, 3)]) := by
  and_intros <;> decide +kernel

/-- An image with one instruction word, one cost entry and its CRC in the last half of the header. -/
def image (crc : Nat) : List Word := [0x960000015844564E, 0, 96 + 8 * 2 ^ 32, 0, 64 + 2 ^ 32, 0, 0, BitVec.ofNat 64 (crc * 2 ^ 32), 0, 0, 0, 0, 0x0100000000000000]

theorem witness_SequencedCommands : InTurn (linked true) 0 (head 0 false) ∧ InTurn ((linked true).modPort 1 fun x => { x with opened := true }) 1 (head 0 false) ∧
    Reg.ofOffset (Reg.GLB_CFG.addr 0 0) = some (.GLB_CFG, 0, 0) ∧ (linked true).answers .port0 (Reg.GLB_CFG.addr 0 0) = true ∧
    runOk (2 ^ 24 - 512) 64 = true ∧ Admits (linked true) .port0 .GLB_CFG 0 0 3 ∧
    (let s := put [(F.CORE_STATUS_STATE, 2, 63, 0)] (linked true); s.level .port0 = 0 ∧ s.power.entry = none ∧ s.st 63 = 2) ∧
    (let s := put [(F.PRT_BIND0_LEVEL, 1, 0, 0)] (linked true); InTurn s 0 (head 0 false) ∧ 0 < s.level .port0 ∧
      ran (exec (.regWrite 0 (head 0 false) (BitVec.ofNat 64 (Reg.GLB_ONCE.addr 0 0)) 1 [7] .clean) s) (fun t => t.rw .GLB_ONCE == s.rw .GLB_ONCE)) ∧
    (linked true).spanGood 0 (96 * 2 ^ 20 - 8) 8 = true ∧ (linked true).spanGood 0 (96 * 2 ^ 20) 8 = false ∧
    (linked true).access ((linked true).level .port0) 88 = 2 ∧
    (let s := (put [(F.PRT_BIND0_LEVEL, 1, 0, 0)] (linked true)).setWord 0x158 0; InTurn s 0 (head 0 false) ∧ s.access (s.level .port0) 88 = 0) ∧
    (let s := (linked true).setDataset 0x2003 [1, 0]; InTurn s 0 (head 0 false) ∧ s.dataset 0x2003 ≠ [] ∧ (s.dataset 0x2003).length ≤ 1024) ∧
    bit ((linked true).port 0).mask 3 = false ∧
    (let s := put [(F.PRT_BIND0_LEVEL, 2, 0, 0)] (linked true); InTurn s 0 (head 0 false) ∧ s.level .port0 = 2) ∧
    ran (exec (.memWrite 0 (head 0 false) 0 8 8 [77]) (linked true)) (fun t => t.readWord false 8 == 77 && t.f F.PRT_SEQ_NEXT_HSN == 1) ∧
    ran (exec (.regRead 0 (head 0 false) 0 1 .clean) (linked true)) (fun t => t.link.journal.map (fun e => (e.opcode, e.status)) == [(0x10, 0)]) ∧
    ((linked true).portDs 0).length = 26 ∧
    ran (exec (.noteCfg 0 (head 0 false) 6) (linked true)) (fun t => (t.port 0).mask == 6) := by
  and_intros <;> decide +kernel

/-- IMAGE_LOAD for a core that does not exist, one that runs, a broken image, and the good one. -/
theorem witness_SequencedCommands_images : (let s := put [(F.CORE_STATUS_STATE, 2, 63, 0)] (linked true);
      InTurn s 0 (head 0 false) ∧ s.st 63 = 2 ∧ s.imageArmCode 63 (image 0) = 0 ∧ imgAt (image 0) 0x2C 2 = 0 ∧ imgAt (image 0) 8 1 % 4 = 0 ∧
      s.power.entry = none ∧ s.st 0 ≠ 2) ∧ imgGood (image 0) = false ∧ imgGood (image 764954391) = true ∧
    (let im := (image 4070492885).set 1 1; let s := put [(F.CORE_STATUS_STATE, 2, 63, 0)] (linked true);
      imgGood im = true ∧ s.imageArmCode 63 im = 0 ∧ imgAt im 0x2C 2 = 0 ∧ imgAt im 8 1 % 4 = 1 ∧ s.f F.CORE_CTL_START_SRC 63 = 0 ∧
      (s.rw .CORE_CTL 63).toNat % 128 = 0 ∧ ran (exec (.imageLoad 0 (head 0 false) 63 true im) s) (fun t => t.st 63 == 3)) ∧
    ran (exec (.imageLoad 0 (head 0 false) 63 false (image 764954391)) (put [(F.CORE_STATUS_STATE, 2, 63, 0)] (linked true)))
      (fun t => t.rw .CORE_IMEM 63 == 0x0100000000000000 && t.link.journal.map (·.status) == [0]) := by
  and_intros <;> decide +kernel

theorem witness_SequenceNumbers : (∀ b ∈ [true, false], ∀ hsn ∈ [1, 16, 17, 2 ^ 31, 2 ^ 32 - 1], Quiet (linked b) 0 (head hsn false) ∧
      (head hsn false).oob = false ∧ ((linked b).port 0).opened = b ∧ (linked b).f F.PRT_SEQ_NEXT_HSN = 0) ∧
    (linked true).link.journal = [] ∧
    (let e : JEntry := { eseq := 0, hsn := 2 ^ 32 - 1, opcode := 0x40, port := 0, session := 0, done := true };
      let s := { linked true with link := { journal := [e] } }; Quiet s 0 (head (2 ^ 32 - 1) false) ∧
      ran (exec (.noteCfg 0 (head (2 ^ 32 - 1) false) 6) s) (fun t => (t.port 0).sent.map (fun | .mlp m => m.replay | _ => false) == [true])) ∧
    ran (exec (.noteCfg 0 (head 16 false) 6) (linked true)) (fun t => (t.port 0).held.length == 1 && (t.port 0).gap == some 0) ∧
    ran (exec (.noteCfg 0 (head 17 false) 6) (linked true)) (fun t => (t.port 0).held.isEmpty && t.f F.PRT_CNT_DROP == 1) ∧
    (let s := (linked true).modPort 0 fun x => { x with gap := some 5, held := [⟨head 16 false, .noteCfg 6⟩] }; Quiet s 0 (head 16 false) ∧
      ran (exec (.seqgapTimeout 0) s) (fun t => (t.port 0).held.isEmpty && t.f F.PRT_CNT_SEQGAP == 1)) ∧
    Admits (linked true) .port0 .P0_CMD_IDX 0 0 (force ((linked true).rw .P0_CMD_IDX) 15 0 7) ∧
    Admits (linked true) .port0 .P0_RSP_IDX 0 0 (force ((linked true).rw .P0_RSP_IDX) 15 0 7) ∧ ((linked true).port 0).waiting = [] ∧ ((linked true).port 0).unsent = [] := by
  and_intros <;> decide +kernel

theorem witness_SequenceNumbers_discards : ∀ b ∈ [true, false], Quiet (linked true) 1 (head 1 false) ∧
    ran (exec (.mlpDiscard 1 ⟨b, 64⟩) (linked true)) (fun t => t.f F.PRT_CNT_FOREIGN 1 == b.toNat && t.f F.PRT_CNT_DROP 1 == 1 - b.toNat) := by
  decide +kernel

theorem witness_PortAndEthernetEvents : up.power.stage = .up ∧ up.link.perstLow = false ∧
    ran (exec (.port0Reset .perst) (linked true)) (fun t => t.link.perstLow && t.rw .P0_QCFG == 0) ∧
    (let s := { up with link := { training := true } }; s.link.training = true ∧
      ran (exec (.pcieLinkUp 4 5) s) (fun t => t.f F.P0_LINK_WIDTH == 4 && t.f F.P0_LINK_SPEED == 5)) ∧
    (∀ w ∈ [1, 0], Admits (linked true) .port0 .PRT_BIND 0 0 (BitVec.ofNat 64 w) ∧ differ 0xFFFF00000007 ((linked true).rw .PRT_BIND) (BitVec.ofNat 64 w) = (w == 0)) ∧
    (∀ w ∈ [0, 2], Admits up .port0 .PRT_BIND0 0 0 (BitVec.ofNat 64 w) ∧ differ 6 (up.rw .PRT_BIND0) (BitVec.ofNat 64 w) = (w == 2)) ∧
    (let s := (linked true).modPort 1 fun x => { x with bind := some 1, opened := true, mask := 6 }; (s.port 1).bind ≠ none ∧ (s.port 1).exec = none ∧
      ran (exec (.bindingApply 1) s) (fun t => !(t.port 1).opened && t.session 1 == 1)) ∧
    (up.modPort 1 fun x => { x with exec := some ⟨0, 0, 0, 0, 0, false⟩ }).port 1 ≠ {} ∧
    (let s := put [(F.P0_IRQ_EN, 1, 0, 0), (F.P0_IRQ_COAL_US, 3, 0, 0)] (up.modPort 0 fun x => { x with coalAt := some 5, coal := 2 });
      (s.port 0).coalAt = some 5 ∧ s.on F.P0_IRQ_EN = true ∧ s.on F.P0_IRQ_COAL_US = true ∧
      ran (exec .irqCoalesceTimeout s) (fun t => (t.port 0).coal == 0 && near t (5 + micros 3))) ∧
    (∀ w ∈ [0, 1], Admits up .port0 .PRT_FI 1 0 (BitVec.ofNat 64 w)) ∧ (up.port 1).rxGroup = [] ∧ (∀ r : Fin 5, (up.port r).ready = []) ∧
    (let s := (linked true).modPort 1 fun x => { x with txGroup := [.mlp { note := false, code := 1 }, .mlp { note := false, code := 2 }] }; s.canSend 1 = true ∧
      ran (exec (.reorderTimeout 1 true) s) (fun t => (t.port 1).sent.map (fun | .mlp m => m.code | _ => 0) == [2, 1])) ∧
    (let s := (linked true).modPort 1 fun x => { x with rxGroup := List.replicate 16 (.bad 32) }; (∀ f ∈ (s.port 1).rxGroup, f = .bad 32) ∧
      ran (exec (.reorderTimeout 1 false) s) (fun t => t.f F.PRT_CNT_DROP 1 == 16)) ∧
    (let s := put [(F.ETH_CFG_IP4_EN, 1, 0, 0), (F.ETH_CFG_IP6_EN, 1, 0, 0), (F.ETH_IP4_ADDR, 9, 0, 0)] (linked true); s.active = true ∧ s.ethSends 1 = true ∧
      s.f F.ETH_IP4_ADDR = (9 : BitVec 32).toNat ∧ (s.port 1).waiting = [] ∧
      ran (exec (.ethLinkDown 0 ⟨true, true, 9⟩) (put [(F.ETH_CFG_FEC, 1, 0, 0)] s)) (fun t => t.on F.ETH_STAT_MOD_ABS 0 && t.f F.ETH_STAT_FEC_UNC 0 == 9) ∧
      s.dom 65 = true ∧ State.reset.dom 65 = false ∧ ran (exec (.ethLinkUp 0) s) (fun t => t.on F.ETH_STAT_BLOCK_LOCK 0) ∧
      ran (exec (.arpRx 0 9) s) (fun t => (t.port 1).sent == [.arp]) ∧ ran (exec (.arpRx 0 8) s) (fun t => (t.port 1).sent == []) ∧
      ran (exec (.ndRx 0 (s.rw .ETH_IP6_HI) (s.rw .ETH_IP6_LO)) s) (fun t => (t.port 1).sent == [.neighbour])) := by
  and_intros <;> decide +kernel

/-! ### Power -/

/-- PWR_REQ with a target. -/
def powerWord (t : Nat) : Word := force (force 0 2 0 t) 63 63 1

/-- The running device with these domains on. -/
def domains (lo hi : Nat) : State := words [(.PWR_DOM_STAT0, lo, 0, 0), (.PWR_DOM_STAT1, hi, 0, 0)] up

theorem witness_PowerRequests : (∀ j ∈ [0, 1, 2, 3], Admits up .port0 .PWR_REQ 0 0 (powerWord j)) ∧ up.on F.PWR_STATUS_IN_PROGRESS = false ∧
    up.f F.PWR_STATUS_STATE = 0 ∧ (∀ j ∈ [2, 3], ∀ y ∈ up.affected j, (up.wrote .PWR_REQ 0 0 (powerWord j)).refuses j y = 0 ∧ up.delays y = false) ∧
    (let s := put [(F.PWR_STATUS_IN_PROGRESS, 1, 0, 0)] up; Admits s .port0 .PWR_REQ 0 0 (powerWord 3) ∧
      ran (exec (.pwrReqRest .port0 0) s) (fun t => t.f F.PWR_STATUS_RESULT == 1)) ∧
    (∀ g ∈ [0, 1], let s := put [(F.PWR_STATUS_STATE, 1, 0, 0), (F.PWR_STATUS_GOV_TRIM, g, 0, 0), (F.PWR_STATUS_HOST_TRIM, 1, 0, 0)] up;
      Admits s .port0 .PWR_REQ 0 0 (powerWord 0) ∧ ran (exec (.pwrReqActive .port0 0) s) (fun t => t.f F.PWR_STATUS_STATE == g)) ∧
    ran (exec (.pwrReqTrim .port0 0) (put [(F.CORE_BUDGET_CLASS, 1, 5, 0)] up)) (fun t => t.f F.PWR_STATUS_STATE == 1 &&
      t.f F.CORE_BUDGET_THR_DIV 5 == up.f F.BG_CFG_TRIM_DIV) ∧
    (∀ j ∈ [2, 3], let s := put [(F.CORE_STATUS_STATE, 5, 0, 0)] (domains 1 0); Admits s .port0 .PWR_REQ 0 0 (powerWord j) ∧ s.affected j = [0] ∧
      (s.wrote .PWR_REQ 0 0 (powerWord j)).refuses j 0 = 2) ∧
    (∀ j ∈ [2, 3], let s := put [(F.MEM_TRAIN_STAT_RUNNING, 1, 0, 0)] (domains (2 ^ 56) 0); Admits s .port0 .PWR_REQ 0 0 (powerWord j) ∧ s.affected j = [56] ∧
      (s.wrote .PWR_REQ 0 0 (powerWord j)).refuses j 56 = 0 ∧ s.delays 56 = true) ∧
    (∀ n ∈ [3, 4], let s := (put [(F.MEM_TRAIN_STAT_RUNNING, 1, 0, 0), (F.PWR_STATUS_IN_PROGRESS, 1, 0, 0)] (domains (2 ^ 56) 0)).modPower fun p =>
        { p with entry := some ⟨2, [56], [], n, false⟩ }; s.refuses 2 56 = 0 ∧ s.delays 56 = true ∧
      ran (exec .handshakeRetry s) (fun t => t.power.entry.isSome == (n == 3) && t.f F.PWR_REFUSER_REASON == (if n == 4 then 10 else 0))) ∧
    (let s := (put [(F.PWR_STATUS_IN_PROGRESS, 1, 0, 0)] (domains (2 ^ 56) 0)).modPower fun p => { p with entry := some ⟨2, [56], [], 1, false⟩ };
      s.delays 56 = false ∧ ran (exec .handshakeRetry s) (fun t => t.f F.PWR_STATUS_STATE == 2)) ∧
    (let s := put [(F.PWR_STATUS_STATE, 2, 0, 0)] up; s.bound .port0 = true ∧ s.dozing = true ∧ s.power.entry = none ∧
      s.checkWrite .port0 .PWR_REQ 0 0 0x10000 (powerWord 0) = ⟨none, some (powerWord 0)⟩ ∧
      ran (exec (.pwrReqActive .port0 0) s) (fun t => t.power.stage == .domains && t.f F.PWR_WAKE_REC_SRC == 12)) := by
  and_intros <;> decide +kernel

theorem witness_DomainsAndRestMemory : (∀ w ∈ ([0, 2 ^ 64 - 1, 2 ^ 64 - 2] : List Nat), Admits up .port0 .PWR_DOM_ON0 0 0 (BitVec.ofNat 64 w)) ∧
    Admits up .port0 .PWR_DOM_ON1 0 0 0xFE ∧ up.domAsked 64 = true ∧ ran (exec (.pwrDomOnWrite true .port0 0xFE) up) (fun t => t.f F.PWR_STATUS_RESULT == 4) ∧
    (∀ y < 64, up.domAsked y = true ∧ bit (2 ^ 64 - 2) y = false ↔ y = 0) ∧ up.dom 0 = true ∧ up.refuses 4 0 = 0 ∧ up.delays 0 = false ∧
    ran (exec (.pwrDomOnWrite false .port0 (BitVec.ofNat 64 (2 ^ 64 - 2))) up) (fun t => !t.dom 0 && !t.domAsked 0) ∧
    (let s := put [(F.CORE_STATUS_STATE, 5, 0, 0)] up; s.refuses 4 0 = 2 ∧
      ran (exec (.pwrDomOnWrite false .port0 (BitVec.ofNat 64 (2 ^ 64 - 2))) s) (fun t => t.dom 0 && t.f F.PWR_REFUSER_REASON == 2)) ∧
    (let s := put [(F.PWR_STATUS_IN_PROGRESS, 1, 0, 0)] up; Admits s .port0 .PWR_DOM_ON0 0 0 0) ∧
    (∀ i ∈ [0x6000, 0x5FFF, 0x7FFF], let s := put [(F.PWR_RMEM_ADDR_WORD, i, 0, 0)] up; Admits s .port0 .PWR_RMEM_DATA 0 0 7 ∧
      s.answers .port0 0x100B0 = true ∧ s.access (s.level .port0) (regionOf 0x100B0) ≠ 0 ∧
      ran (exec (.pwrRmemAccess .port0 true 7 .clean) s) (fun t => t.f F.PWR_RMEM_ADDR_WORD == (i + 1) % 2 ^ 15 && t.on F.PWR_STATUS_RMEM_ERR == (i == 0x5FFF))) := by
  and_intros <;> decide +kernel

/-- The device at a stage of its wake, its wake sources enabled. -/
def staged (st : Nat) (g : PowerSt → PowerSt) : State := (put [(F.PWR_STATUS_STATE, st, 0, 0), (F.PWR_WAKE_EN_EN, 0x7FF, 0, 0)] up).modPower g

/-- Of two wake sources at one sampling edge the lower is on record (R297), and a PG input that is high as its line is switched on is accepted
at once (R287). -/
theorem witness_WakesAndSupplies_coincide : (∀ src ∈ ([3, 7] : List (Fin 12)), let s := put [(F.PWR_WAKE_REC_SRC, 5, 0, 0)] (staged 3 fun p => { p with stage := .supplies 0, woke := some 1 });
      s.power.woke = some (wakeEdge 9) ∧ bit (s.f F.PWR_WAKE_EN_EN) (src - 1 : Nat) = true ∧
      ran (exec (.wake src 9 true) s) (fun t => t.f F.PWR_WAKE_REC_SRC == min src.val 5 && t.f F.PWR_WAKE_REC_WAKES == 0 && t.power == s.power)) ∧
    (let s := staged 3 fun p => { p with stage := .supplies 0, lines := [supplyOrder.getD 0 6], good := [supplyOrder.getD 1 6] };
      supplyOrder.getD 1 0 ∉ s.power.lines ∧ supplyOrder.getD 1 0 ∈ s.power.good ∧ supplyOrder.getD 2 0 ∉ s.power.lines ∧ supplyOrder.getD 2 0 ∉ s.power.good ∧
      ran (exec (.pgGood (Fin.ofNat 6 (supplyOrder.getD 0 6))) s) (fun t => t.power.stage == .supplies 2)) := by
  and_intros <;> decide +kernel

theorem witness_WakesAndSupplies : (∀ at_ ∈ [7, 6], let s := staged 3 fun p => { p with stage := .rest, window := 7 }; s.resting = true ∧ s.power.stage = .rest ∧ s.power.woke = none ∧
      bit (s.f F.PWR_WAKE_EN_EN) 4 = true ∧ ran (exec (.wake 5 at_ true) s) (fun t => t.f F.PWR_WAKE_REC_SRC == (if at_ == 7 then 5 else 0))) ∧
    (let s := staged 2 id; s.dozing = true ∧ s.power.stage = .up ∧ ran (exec (.wake 5 9 true) s) (fun t => t.power.stage == .domains)) ∧
    (let s := staged 0 fun p => { p with entry := some ⟨3, [], [], 0, false⟩ }; s.active = true ∧ s.power.entry = some ⟨3, [], [], 0, false⟩ ∧
      ran (exec (.wake 5 9 true) s) (fun t => t.f F.PWR_STATUS_RESULT == 3 && t.power.entry.isNone)) ∧
    bit (up.f F.PWR_WAKE_EN_EN) 4 = false ∧
    (∀ n ∈ [0, 5], let s := staged 3 fun p => { p with stage := .supplies n, lines := [supplyOrder.getD n 6], oscReady := true };
      s.power.stage = .supplies n ∧ ran (exec (.pgGood (Fin.ofNat 6 (supplyOrder.getD n 6))) s) (fun t => t.power.stage == (if n == 0 then .supplies 1 else .domains)) ∧
      ran (exec .pgTimeout s) (fun t => t.power.stage == .retry && t.f F.PWR_FAULT_WHAT == supplyOrder.getD n 0)) ∧
    (let s := staged 3 fun p => { p with stage := .oscillator, osc := some 5 }; s.power.osc = some 5 ∧ s.power.oscReady = false ∧
      ran (exec .oscReady s) (fun t => t.power.stage == .domains) ∧ ran (exec .oscTimeout s) (fun t => t.f F.PWR_FAULT_WHAT == 0x10)) ∧
    (∀ n ∈ [0, 99], let s := staged 3 fun p => { p with stage := .retry, fails := n }; s.power.stage = .retry ∧
      ran (exec .wakeRetry s) (fun t => (t.power.stage == .rest) == (n == 99))) ∧
    (let s := staged 3 fun p => { p with stage := .domains }; s.power.stage = .domains) ∧
    (let s := staged 0 fun p => { p with lines := [0, 3] }; 3 ∈ s.power.lines ∧ 0 ∈ s.power.lines) ∧
    (let s := (put [(F.PWR_BO_CFG_PARK, 1, 0, 0), (F.CH_STATUS_RUN, 1, 15, 0)] up).modPower fun p => { p with lines := [0] };
      s.power.lowRest = false ∧ s.power.lowCore = false ∧ 0 ∈ s.power.lines ∧ s.on F.PWR_BO_CFG_PARK = true ∧ s.on F.CH_STATUS_RUN 15 = true) ∧
    (∀ rest ∈ [true, false], ∀ both ∈ [true, false], ran (exec (.brownoutClear rest) ((put [(F.PWR_STATUS_BO_ACTIVE, 1, 0, 0)] up).modPower fun p =>
      { p with lines := [0], lowRest := rest || both, lowCore := !rest || both })) (fun t => t.on F.PWR_STATUS_BO_ACTIVE == both)) ∧
    up.power.stage ∉ [.unreleased, .crystal, .porst, .held] := by
  and_intros <;> decide +kernel

theorem witness_GovernorEvents : (let s := (put [(F.BG_STATUS_P_MEAS_MW, 65535, 0, 0), (F.CORE_BUDGET_CLASS, 1, 63, 0), (F.CORE_BUDGET_THR_DIV, 200, 63, 0),
        (F.PWR_STATUS_GOV_TRIM, 1, 0, 0)] up).modGov fun g => { g with level := 1, due := 7 };
      s.boot.running = true ∧ s.headroom < 0 ∧ s.lowH = true ∧ s.active = true ∧ s.on F.PWR_STATUS_GOV_TRIM = true ∧ s.throttleable 63 = true ∧
      ran (exec .govThrottleDouble s) (fun t => t.f F.CORE_BUDGET_THR_DIV 63 == 255 && near t 7) ∧
      ran (exec .govTrimEnter s) (fun t => t.f F.PWR_STATUS_STATE == 1)) ∧
    (∀ d ∈ [3, 4], let s := (put [(F.PWR_STATUS_STATE, 1, 0, 0), (F.BG_CFG_PWR_LIMIT_MW, 65535, 0, 0), (F.BG_CFG_THETA, 0, 0, 0), (F.CORE_BUDGET_CLASS, 1, 63, 0), (F.CORE_BUDGET_THR_DIV, d, 63, 0),
        (F.PWR_STATUS_GOV_TRIM, 1, 0, 0)] up).modGov fun g => { g with level := 2, due := 7 };
      s.margin ≤ s.headroom ∧ s.highH = true ∧ s.throttleable 63 = true ∧ s.f F.CORE_BUDGET_THR_DIV 63 = d ∧
      ran (exec .govThrottleHalve s) (fun t => t.f F.CORE_BUDGET_THR_DIV 63 == (if d == 4 then 2 else 1) && t.on F.PWR_STATUS_GOV_TRIM == (d == 4))) ∧
    (let s : State := { put [(F.BG_TEMP_T, 0x7FFF, 7, 0)] up with boot := {} }; s.boot.running = false ∧ s.on F.BG_STATUS_HW_GUARD = false ∧
      (s.f F.BG_CFG_TJ_LIMIT * 16 : Nat) ≤ s.sensor 7 ∧ ran (exec .hwGuardEngage s) (fun t => t.on F.BG_STATUS_HW_GUARD)) ∧
    (let s := (put [(F.BG_STATUS_HW_GUARD, 1, 0, 0)] up).modGov fun g => { g with heldTrim := true }; s.on F.BG_STATUS_HW_GUARD = true ∧
      (∀ j : Fin 8, s.sensor j < ((s.f F.BG_CFG_TJ_LIMIT : Int) - 5) * 16) ∧ ran (exec .hwGuardRelease s) (fun t => t.on F.PWR_STATUS_GOV_TRIM)) ∧
    ran (exec (.govEval (List.replicate 8 3) (List.replicate 72 1000) 1) up) (fun t => t.f F.BG_TEMP_T 7 == 3 && t.f F.BG_STATUS_P_MEAS_MW == 73) ∧
    ran (exec (.coefUpdate 1 2 3 4) up) (fun t => t.f F.BG_COEF_K_CORE == 1 && t.f F.BG_COEF_K_DR == 4) := by
  and_intros <;> decide +kernel


/-! ### Calibration -/

/-- Channel 15 biased, with its domain and its quad's synthesizer running, and its calibration as f and g make it. -/
def calibrating (f : List (Fld × Nat)) (g : CalSt → CalSt) : State :=
  ((put ((F.SP_STATUS_STATE, 4, 3, 0) :: f.map fun p => (p.1, p.2, 15, 0)) up).modChan 15 fun c => { c with bias := true }).modCal 15 g

theorem witness_CalibrationCommands_writes : (∀ f ∈ [[], [(F.CAL_STATUS_RUNNING, 1)]], let s := calibrating f id;
      ∀ b ∈ [0, 2, 3], Admits s .port0 .CAL_CTL 15 0 (force 0 b b 1)) ∧
    (let s := calibrating [] id; s.thisCycle (s.cal 15).cutAt = false ∧ s.dom (32 + 15) = true) ∧
    (let s := words [(.PWR_DOM_STAT0, 0, 0, 0)] (calibrating [(F.CAL_CTL_SEL, 1)] id); s.dom (32 + 15) = false ∧ Admits s .port0 .CAL_B_MAIN 15 0 7 ∧
      ran (exec (.calBankWrite 15 0 .port0 7) s) (fun t => t.cals == s.cals)) ∧
    (let s := calibrating [] id; (s.flag F.CAL_STATUS_DUE 15).calReady 15 = true ∧ s.on F.CAL_STATUS_WAITING 15 = false) ∧
    ran (exec (.calStart 15 .port0 0) (calibrating [] id)) (fun t => t.on F.CAL_STATUS_WAITING 15) ∧
    ran (exec (.calStart 15 .port0 0) (calibrating [(F.CAL_STATUS_RUNNING, 1)] id)) (fun t => (t.cal 15).again) ∧
    (∀ act ∈ [0, 1], let s := calibrating [(F.CAL_STATUS_RUNNING, 1), (F.CAL_STATUS_ACTIVE, act)] fun c => { c with a := { main := 1 }, b := { main := 2 } };
      ran (exec (.calAbort 15 .port0 0) s) (fun t => t.f F.CAL_STATUS_RESULT 15 == 2 && (t.calBank 15).main == (if act = 0 then 1 else 2))) ∧
    (∀ en ∈ [0, 1], let s := put [(F.CH_CTL_EN, en, 15, 0)] (calibrating [] fun c => { c with b := { main := BitVec.ofNat 64 (2 ^ 63) } });
      (s.cal 15).b.valid = true ∧ Admits s .port0 .CAL_CTL 15 0 (force 0 2 2 1) ∧
      ran (exec (.calFlip 15 .port0 0) s) (fun t => t.on F.CAL_STATUS_ACTIVE 15 == (en == 0))) ∧
    ran (exec (.calFlip 15 .port0 0) (calibrating [] id)) (fun t => t.on F.CAL_STATUS_WR_ERR 15) := by
  and_intros <;> decide +kernel

theorem witness_CalibrationCommands_runs : (∀ d ∈ [4, 5], let s := put [(F.BG_TEMP_T, d, 3, 0)] (calibrating [(F.CAL_CTL_AUTO, 1), (F.CAL_TEMP_DELTA_T, 4)] id);
      ran (exec (.calTempCheck 15) s) (fun t => t.on F.CAL_STATUS_DUE 15 == (d == 5))) ∧
    (let s := (put [(F.BG_CFG_PWR_LIMIT_MW, 65535, 0, 0), (F.BG_CFG_THETA, 0, 0, 0)] (calibrating [(F.CAL_STATUS_DUE, 1)] id));
      s.calRequests.on F.CAL_STATUS_WAITING 15 = true ∧ s.calRequests.taskGrantable (.cal 15) = true ∧
      ran (exec (.calRunStart 15) s) (fun t => t.f F.CAL_STATUS_STEP 15 == 1)) ∧
    (∀ j : Fin 10, let s := calibrating [(F.CAL_CTL_SEL, 1)] id;
      Admits s .port0 (if j = 0 then .CAL_B_MAIN else if j = 1 then .CAL_B_MK else .CAL_B_SLICE) 15 (j - 2 : Nat) 7 ∧ (s.cal 15).b.slices.length = 8 ∧
      ran (exec (.calBankWrite 15 j .port0 7) s) (fun t => t.readBank 15 j == 7)) ∧
    ran (exec (.calBankWrite 15 9 .port0 7) (calibrating [] id)) (fun t => t.on F.CAL_STATUS_WR_ERR 15) := by
  and_intros <;> decide +kernel

theorem witness_CalibrationRuns : ran (exec (.calStepDone 15) (calibrating [(F.CAL_STATUS_RUNNING, 1), (F.CAL_STATUS_STEP, 1)] id)) (fun t => t.f F.CAL_STATUS_STEP 15 == 2) ∧
    (∀ step ∈ [2, 3, 4, 5], ∀ slice ∈ [0, 62, 63], let s := calibrating [(F.CAL_STATUS_RUNNING, 1), (F.CAL_STATUS_STEP, step), (F.CAL_STATUS_SLICE, slice)] id;
      s.on F.CAL_STATUS_RUNNING 15 = true ∧ s.f F.CAL_STATUS_STEP 15 = step ∧ s.f F.CAL_STATUS_SLICE 15 = slice ∧
      s.mayExchange 15 slice = true ∧ s.mayExchange 15 (slice + 1) = true ∧ s.on F.CH_CTL_EN 15 = false) ∧
    (put [(F.CH_CTL_EN, 1, 15, 0)] (calibrating [(F.CAL_STATUS_RUNNING, 1), (F.CAL_STATUS_STEP, 5)] id)).on F.CH_CTL_EN 15 = true ∧
    (let s := calibrating [(F.CAL_STATUS_RUNNING, 1), (F.CAL_STATUS_STEP, 6)] fun c => { c with flip := some 0 }; (s.cal 15).flip = some 0 ∧
      ran (exec (.calDone 15) s) (fun t => t.on F.CAL_STATUS_ACTIVE 15 && !t.on F.CAL_STATUS_RUNNING 15)) ∧
    Admits up .port0 .CAL_STORE 0 0 (force 0 63 63 1) ∧ ran (exec (.calStore .port0 0) up) (fun t => t.on F.CAL_STORE_BUSY) ∧
    ran (exec (.calStore .port0 0) (put [(F.CAL_STORE_BUSY, 1, 0, 0)] up)) (fun t => t.calStoreAgain) ∧
    (let s := words [(.PWR_DOM_STAT0, 2 ^ 64 - 1, 0, 0)] (put [(F.CAL_STORE_BUSY, 1, 0, 0)] up); s.on F.CAL_STORE_BUSY = true ∧ s.calStoreAgain = false ∧
      ∀ i : Fin 16, (s.storeRecord i).length = 16) := by
  and_intros <;> decide +kernel

/-! ### Register access -/

/-- The running device with PORT0 at PL1, its access to region g as given, by level and region entry. -/
def leveled (region access : Nat) (f : List (Fld × Nat × Nat × Nat)) : State :=
  (put ((F.PRT_BIND0_LEVEL, 1, 0, 0) :: f) up).setWord (0x100 + region / 8 * 8) (BitVec.ofNat 64 (access * 2 ^ (8 * (region % 8))))

theorem witness_RegisterWrites : (∀ r ∈ [Reg.GLB_CFG, .REST_CFG, .PWR_WAKE_EN, .PWR_ALARM_SEC, .TM_ARG_SEC, .PTP_OFFSET, .PRT_CFG, .BG_CFG, .DEV_CAP,
        .ETH_IP4, .VOICE_STATUS, .CH_STATUS], Reg.ofOffset (r.addr 0 0) = some (r, 0, 0) ∧ Admits (put [(F.CORE_STATUS_STATE, 5, 0, 0)] up) .port0 r 0 0 5) ∧ (∀ x : Fin 5, (up.port x).ready = []) ∧
    ran (exec (.registerWrite .port0 (BitVec.ofNat 24 (Reg.TM_ARG_SEC.addr 0 0)) (.full 5) .clean .clean) up) (fun t => t.rw .TM_ARG_SEC == 5) ∧
    (let s := up.setWriteShadow .port0 (some (Reg.TM_ARG_SEC.addr 0 0, 7));
      Admits ((s.setReadShadow .port0 none).setWriteShadow .port0 none) .port0 .TM_ARG_SEC 0 0 ((1 : Half) ++ (7 : Half)) ∧
      ran (exec (.registerWrite .port0 (BitVec.ofNat 24 (Reg.TM_ARG_SEC.addr 0 0)) (.high 1) .clean .clean) s) (fun t => t.rw .TM_ARG_SEC == 0x100000007)) ∧
    (let s := leveled 0 1 []; s.bound .port0 = true ∧ s.active = true ∧ s.readShadow .port0 = none ∧ s.writeShadow .port0 = none ∧
      s.access (s.level .port0) (regionOf (Reg.GLB_CFG.addr 0 0)) ≠ 2 ∧ s.keepsRefused .port0 0 (Reg.GLB_CFG.addr 0 0) = false ∧
      ran (exec (.registerWrite .port0 (BitVec.ofNat 24 (Reg.GLB_CFG.addr 0 0)) (.full 1) .clean .clean) s) (fun t => t.rw .GLB_CFG == s.rw .GLB_CFG &&
        bits (t.rw .PROT_LAST).toNat 62 60 == 1)) ∧
    (let off := Reg.TM_ARG_SEC.addr 0 0; let s := (leveled 3 2 []).setWord (lockOf off) 1; s.bound .port0 = true ∧ s.active = true ∧
      s.access (s.level .port0) (regionOf off) = 2 ∧ s.level .port0 ≠ 0 ∧ bit (s.word (lockOf off)).toNat 0 = true ∧ s.offCore off = false ∧ s.stoppedAt off = false ∧
      Reg.TM_ARG_SEC.spec.rwl = 2 ^ 64 - 1 ∧ ran (exec (.registerWrite .port0 (BitVec.ofNat 24 off) (.full 1) .clean .clean) s) (fun t =>
        t.rw .TM_ARG_SEC == 0 && bits (t.rw .PROT_LAST).toNat 62 60 == 3)) ∧
    up.bound .port1 = false ∧ up.writeShadow .port1 = none ∧ Admits up .port0 .GLB_ONCE 0 0 2 ∧ up.bus.once = false ∧ (∀ x : Fin 5, (up.port x).rxGroup = []) ∧
    ran (exec (.glbOnceWrite .port0 2) (put [(F.PRT_FI_EN, 1, 4, 0)] up)) (fun t => t.bus.once && !t.on F.PRT_FI_EN 4) ∧
    (let s : State := { up with bus := { once := true } }; s.level .port0 = 0 ∧ s.rw .GLB_ONCE ≠ 1 ∧
      ran (exec (.glbOnceWrite .port0 1) s) (fun t => bits (t.rw .PROT_LAST).toNat 62 60 == 4)) ∧
    (∀ p : Fin 12, (Reg.ofOffset (0x100 + 8 * p.val)).isSome = true ∧ up.level .port0 = 0 ∧
      ran (exec (.glbProtWrite p .port0 9) up) (fun t => t.word (0x100 + 8 * p.val) == 9)) ∧
    (let s := leveled 0 2 []; s.level .port0 ≠ 0 ∧ s.access (s.level .port0) 0 = 2 ∧
      ran (exec (.glbProtWrite 11 .port0 9) s) (fun t => t.word 0x158 != 9 && bits (t.rw .PROT_LAST).toNat 62 60 == 2)) := by
  and_intros <;> decide +kernel

theorem test_stored_word (b : Fin 64) : let w := BitVec.ofNat 64 (2 ^ b.val);
    bit (storedWord { base := 0, rw := 2 ^ b.val } 0 w).toNat b = true ∧ bit (storedWord { base := 0, w1c := 2 ^ b.val } w w).toNat b = false ∧
    bit (storedWord { base := 0, wo := 2 ^ b.val } w w).toNat b = false ∧ bit (storedWord { base := 0 } 0 w).toNat b = false := by
  revert b; decide +kernel

theorem witness_ReadsAndCounters : (let off := Reg.TM_ARG_SEC.addr 0 0; let s := words [(.TM_ARG_SEC, 0x100000007, 0, 0)] up;
      Reg.ofOffset off = some (.TM_ARG_SEC, 0, 0) ∧ s.answers .port0 off = true ∧ s.access (s.level .port0) (regionOf off) ≠ 0 ∧ s.writeShadow .port0 = none ∧
      s.readShadow .port0 = none ∧ ran (exec (.registerReadLow .port0 (BitVec.ofNat 24 off) .low .clean) s) (fun t => sget (fun _ => 0) t.bus.got (reqCode .port0) == 7 &&
        ran (exec (.registerReadLow .port0 (BitVec.ofNat 24 off) .high .clean) t) (fun u => sget (fun _ => 0) u.bus.got (reqCode .port0) == 1)) ∧
      ran (exec (.registerReadLow .port0 (BitVec.ofNat 24 off) .full .clean) s) (fun t => sget (fun _ => 0) t.bus.got (reqCode .port0) == 0x100000007) ∧
      (s.setReadShadow .port0 (some (off, 9))).readShadow .port0 = some (off, 9)) ∧
    (let off := Reg.TM_ARG_SEC.addr 0 0; let s := leveled 3 0 []; s.access (s.level .port0) (regionOf off) = 0 ∧ s.answers .port0 off = true ∧
      ran (exec (.registerReadLow .port0 (BitVec.ofNat 24 off) .full .clean) s) (fun t => bit (t.rw .PROT_LAST).toNat 63)) ∧
    up.bound .port0 = true ∧ up.resting = false ∧ ran (exec (.badAccess .port0 true) up) (fun t => t.on F.GLB_STATUS_SIZE_ERR) ∧
    (∀ n ∈ [0, 4095], let s := put [(F.CORE_STATUS_STATE, 2, 63, 0), (F.CORE_DMEM_ADDR_WORD, n, 63, 0)] up; Admits s .port0 .CORE_DMEM_DATA 63 0 7 ∧ 2 ≤ s.st 63 ∧
      ran (exec (.coreDmemAccess 63 .port0 true 7 .full .clean) s) (fun t => t.dmemWord 63 n == 7 && t.f F.CORE_DMEM_ADDR_WORD 63 == (n + 1) % 4096) ∧
      ran (exec (.coreDmemAccess 63 .port0 false 0 .full .clean) (s.setDmem 63 n 8)) (fun t => sget (fun _ => 0) t.bus.got (reqCode .port0) == 8)) ∧
    (∀ c ∈ [0, 16], ∀ w ∈ ([0, 2 ^ 16, 2 ^ 63] : List Nat), let s := put [(troubleFld c, 3, c / 4, 0)] up; Admits s .port0 .GLB_CNT_CLR 0 0 (BitVec.ofNat 64 w) ∧
      ran (exec (.glbCntClr .port0 (BitVec.ofNat 64 w)) s) (fun t => t.f (troubleFld c) (c / 4) == (if bit w 63 || bit w c then 0 else 3))) ∧
    (let off := Reg.STM_CNT.addr 63 0; let s := put [(F.STM_CNT_DROP, 3, 63, 0)] up; Reg.ofOffset off = some (.STM_CNT, 63, 0) ∧
      blockCounts .STM_CNT = some (0, [F.STM_CNT_SHAV, F.STM_CNT_DROP, F.STM_CNT_GAPS]) ∧
      Admits s .port0 .STM_CNT 63 0 (force (s.rw .STM_CNT 63 0 &&& ~~~(BitVec.ofNat 64 Reg.STM_CNT.spec.w1c)) 0 0 1) ∧
      ran (exec (.blockCntClr .port0 (BitVec.ofNat 24 off)) s) (fun t => t.f F.STM_CNT_DROP 63 == 0)) := by
  and_intros <;> decide +kernel

/-! ### Start-up, resets and the loader -/

/-- The device at a stage of power-up. -/
def powering (st : Stage) : State := ({} : State).modPower fun p => { p with stage := st }

theorem witness_ResetsAndPowerUp : (powering .unreleased).power.stage = .unreleased ∧ ran (exec .por State.reset) (fun t => t.power.stage == .crystal) ∧
    up.power.stage ≠ .unreleased ∧ up.power.stage ≠ .crystal ∧ up.power.stage ≠ .porst ∧
    (∀ low ∈ [true, false], ran (exec (.crystalReady low 2) (powering .crystal)) (fun t => (t.power.stage == .porst) == low && t.boot.bootsel == (if low then 0 else 2)) ∧
      ran (exec (.crystalTimeout low 2) (powering .crystal)) (fun t => t.faultN && (t.power.stage == .porst) == low)) ∧
    ran (exec (.porstNRelease 1) (powering .porst)) (fun t => t.boot.bootsel == 1) ∧
    (∀ low ∈ [true, false], let s := (powering .held).modPower fun p => { p with coreLow := low, porstLow := true };
      ran (exec (.porstNRelease 1) s) (fun t => (t.power.stage == .held) == low)) ∧
    (let s := (put [(F.PWR_WAKE_EN_EN, 3, 0, 0)] up).modPower fun p => { p with lines := [5, 0] }; s.power.stage = .up ∧ s.power.lines ≠ [] ∧ s.power.coreLow = false ∧
      s.power.porstLow = false ∧ s.jtagRuns = true ∧ up.jtagRuns = false ∧
      ran (exec (.porstNRelease 1) s) (fun t => t.power.stage != .held && !t.boot.running && t.f F.PWR_WAKE_EN_EN == 3) ∧
      ran (exec .chipReset s) (fun t => t.power.stage != .held && t.power.first && t.f F.PWR_WAKE_EN_EN != 3)) ∧
    (powering .held).power.porstLow = false ∧ ran (exec .coreSupplyReturn (powering .held)) (fun t => t.power.stage != .held) ∧
    up.power.coreLow = false ∧ up.power.porstLow = false ∧ (put [(F.CLK_REF_STATUS_SYS_LOCK, 1, 0, 0)] up).on F.CLK_REF_STATUS_SYS_LOCK = true ∧
    ran (exec .spllRstClear (put [(F.PWR_FAULT_SPLL_RST, 3, 0, 0)] up)) (fun t => t.f F.PWR_FAULT_SPLL_RST == 0) := by
  and_intros <;> decide +kernel

theorem witness_LoaderEvents : (let s : State := ({ up with boot := {} } : State).setMail 0 1 1; s.resting = false ∧ s.dozing = false ∧ s.access (s.level .port0) 88 = 2 ∧
      s.poisoned false 0x18 = false ∧ s.mail 0 1 = 1 ∧ s.mail 0x18 4 ≠ 1 ∧ ran (exec (.doorbell .clean) s) (fun t => t.boot.loading && t.mail 0 1 == 2)) ∧
    ran (exec (.doorbell .clean) up) (fun t => t.mail 0x18 4 == 1) ∧
    (∀ b ∈ [0, 4], ∀ sel ∈ [1, 2], let s : State := { up with boot := { loading := true, source := 2, bootsel := sel } };
      ran (exec (.imageLoaded 0 b 9) s) (fun t => t.mail 1 1 == 2) ∧ ran (exec (.imageLoaded 3 b 9) s) (fun t =>
        if b = 0 then t.mail 1 1 == 3 && t.mail 4 4 == 9 else t.mail 2 1 == 4 && t.mail 0 1 == (if sel = 2 then 1 else 5))) ∧
    (∀ again ∈ [true, false], ∀ stopped ∈ [true, false], let s : State := { up with boot := { loading := true, source := 1, bootsel := 2, again := again, stopped := stopped } };
      s.imageCode = 1 ∧ ran (exec (.imageLoaded 0 0 9) s) (fun t => t.mail 0 1 == (if stopped then 5 else if again then 3 else 1))) ∧
    (let s : State := { ((((up.setMail imageBase 4 0x4653564D).setMail (imageBase + 4) 2 1).setMail (imageBase + 8) 4 1).setMail (imageBase + 0xC) 4 77).setMail (imageBase + 0x10) 4 0xD202EF8D with
        boot := { loading := true, source := 1 } }; s.imageCode = 0 ∧ ran (exec (.imageLoaded 0 0 9) s) (fun t => t.mail 4 4 == 77 && t.boot.running)) ∧
    (∀ n ∈ [2, 3], let s : State := { up with boot := { running := true, halts := List.replicate n 0 } };
      (s.boot.halts.filter fun h => decide (s.now ≤ h + 60 * second)).length = n ∧
      ran (exec .watchdogExpiry s) (fun t => t.mail 0 1 == (if n = 2 then 4 else 5) && t.mail 2 1 == 5 && t.mail 3 1 == 1)) := by
  and_intros <;> decide +kernel

/-! ### Frames -/

theorem witness_BlockFrames : (∀ y ∈ [Instr.second, .ppsMiss, .cdExchangeTx 0 5, .cdxRx 0 1 2 3 4, .cdRepeat 0, .ethLinkUp 0, .ethLinkDown 0 ⟨true, true, 9⟩, .arpRx 0 1, .ndRx 0 1 2,
      .icmpEchoRx 0 true false, .irqCoalesceTimeout, .bindingApply 4, .pcieLinkUp 8 5, .coefUpdate 1 2 3 4, .oscReady, .pgGood 5, .spllRstClear, .trefiTick 0 true ⟨true, true, true⟩,
      .refreshSetDone 0 true true true, .evtWaitTimeout 63], ran (exec y up) (fun _ => true)) := by decide +kernel

end Sys2Proof.Tests
end

section
/-! PROOFS. What the steps of the device start from (chapter 00). -/

namespace Sys2Proof.Machine

/-- Settles O1: `step` is `exec` on the queue's rest. -/
theorem stepRunsTheFrontCommand : Obligations.StepRunsTheFrontCommand := fun _ _ _ => rfl

theorem canonical_reset : State.reset.canonical = true := rfl

/-- Settles O3: each register reads what its table gives. -/
theorem resetState : Obligations.ResetState := by
  refine ⟨canonical_reset, ?_, ?_, ?_, ?_, ?_, ?_, ?_, ?_, ?_, ?_, ?_, ?_⟩
  · decide
  · decide
  · decide
  · decide
  · decide
  · decide
  · decide
  · decide
  · decide
  · decide
  · decide
  · decide +kernel

end Sys2Proof.Machine
end

section
/-! PROOFS. Writes of BAR0 (chapter 16): offsets, access codes, the 32-bit halves, what a write leaves that passes and what one that is refused. -/

namespace Sys2Proof.Machine

/-! ### Offsets -/

/-- A member found at an offset lies there, and its indexes are in range. -/
theorem memberAt_some {r : Reg} {off i j : Nat} (h : r.memberAt off = some (i, j)) :
    off = r.addr i j ∧ j < r.spec.n2 ∧ i < if r.spec.voice then 64 else r.spec.n1 := by
  unfold Reg.memberAt at h
  unfold Reg.addr voiceBase
  cases hv : r.spec.voice
  · simp only [hv, Bool.false_eq_true, if_false] at h ⊢
    split at h
    · cases h
    · generalize (if r.spec.s1 = 0 then 0 else _ : Nat) = a at h
      generalize (if r.spec.s2 = 0 then 0 else _ : Nat) = b at h
      split at h <;> cases h
      omega
  · simp only [hv, if_true] at h ⊢
    split at h
    · cases h
    · generalize (if r.spec.s2 = 0 then 0 else _ : Nat) = b at h
      split at h
      · cases h
      · split at h <;> cases h
        omega

/-- The members of r lie at multiples of 8 and inside BAR0. -/
def Reg.inBar0 (r : Reg) : Bool :=
  let x := r.spec
  x.base % 8 == 0 && x.s1 % 8 == 0 && x.s2 % 8 == 0 &&
    decide ((if x.voice then voiceBase 63 else 0) + x.base + ((if x.voice then 64 else x.n1) - 1) * x.s1 + (x.n2 - 1) * x.s2 < 2 ^ 24)

theorem inBar0_all (r : Reg) : r.inBar0 = true := by cases r <;> decide

theorem addr_inBar0 {r : Reg} {i j : Nat} (hj : j < r.spec.n2) (hi : i < if r.spec.voice then 64 else r.spec.n1) :
    r.addr i j % 8 = 0 ∧ r.addr i j < 2 ^ 24 := by
  have h := inBar0_all r
  simp only [Reg.inBar0, Bool.and_eq_true, beq_iff_eq, decide_eq_true_eq] at h
  obtain ⟨⟨⟨hb, h1⟩, h2⟩, hlt⟩ := h
  have h3 : j * r.spec.s2 ≤ (r.spec.n2 - 1) * r.spec.s2 := Nat.mul_le_mul_right _ (by omega)
  have h4 : i * r.spec.s1 ≤ ((if r.spec.voice then 64 else r.spec.n1) - 1) * r.spec.s1 := Nat.mul_le_mul_right _ (by omega)
  have h5 : j * r.spec.s2 % 8 = 0 := by simp [Nat.mul_mod, h2]
  have h6 : i * r.spec.s1 % 8 = 0 := by simp [Nat.mul_mod, h1]
  unfold Reg.addr voiceBase
  split <;> simp_all [voiceBase] <;> omega

theorem findIn_some {off : Nat} {l : List Reg} {r : Reg} {i j : Nat} (h : Reg.findIn off l = some (r, i, j)) :
    r.memberAt off = some (i, j) := by
  induction l with
  | nil => cases h
  | cons a l ih =>
    unfold Reg.findIn at h
    split at h
    · next hm => cases h; exact hm
    · exact ih h

theorem ofOffset_some {off i j : Nat} {r : Reg} (h : Reg.ofOffset off = some (r, i, j)) :
    off = r.addr i j ∧ off % 8 = 0 ∧ off < 2 ^ 24 := by
  obtain ⟨ho, hj, hi⟩ := memberAt_some (findIn_some h)
  exact ⟨ho, ho ▸ addr_inBar0 hj hi⟩

/-! ### Access codes -/

theorem bit_eq_testBit (n b : Nat) : bit n b = n.testBit b := (Nat.testBit_eq_decide_div_mod_eq (x := n) (i := b)).symm

theorem bit_storedWord (x : RegSpec) (old w : Word) (b : Fin 64) :
    bit (storedWord x old w).toNat b =
      let takes := bit x.rw b || bit x.rwl b || bit x.wonce b
      (bit old.toNat b && !(takes || bit x.w1c b || bit x.wo b) || bit w.toNat b && takes ||
        bit old.toNat b && bit x.w1c b && !bit w.toNat b) := by
  simp only [bit_eq_testBit, BitVec.testBit_toNat, storedWord, BitVec.ofNat_or, BitVec.getLsbD_or, BitVec.getLsbD_and,
    BitVec.getLsbD_not, BitVec.getLsbD_ofNat, b.isLt, decide_true, Bool.true_and, Bool.and_assoc]

theorem storedWord_takes_all {x : RegSpec} (h : x.rw ||| x.rwl ||| x.wonce = 2 ^ 64 - 1) (hc : x.w1c = 0) (old w : Word) :
    storedWord x old w = w := by
  have : BitVec.ofNat 64 (2 ^ 64 - 1) = BitVec.allOnes 64 := rfl
  simp only [storedWord, h, hc, this]
  simp [-BitVec.reduceAllOnes]

theorem merge_all (new old : Word) : merge (2 ^ 64 - 1) new old = new := by
  have : BitVec.ofNat 64 (2 ^ 64 - 1) = BitVec.allOnes 64 := rfl
  simp only [merge, this]
  simp [-BitVec.reduceAllOnes]

theorem differ_all {a b : Word} (h : a ≠ b) : differ (2 ^ 64 - 1) a b = true := by
  have : BitVec.ofNat 64 (2 ^ 64 - 1) = BitVec.allOnes 64 := rfl
  simp only [differ, this, BitVec.and_allOnes, bne_iff_ne]
  simpa using h

theorem differ_same (m : Nat) (a : Word) : differ m a a = false := by simp [differ]

/-! ### Shadows -/

abbrev State.reshadowed (s : State) (a b : List (Nat × Option (Nat × Half))) : State :=
  { s with bus := { s.bus with reads := a, writes := b } }

theorem reshadowed_heldWord (s : State) (a b : List (Nat × Option (Nat × Half))) (r : Reg) (i j : Nat) :
    (s.reshadowed a b).heldWord r i j = s.heldWord r i j := by cases r <;> rfl

theorem reshadowed_checkWrite (s : State) (a b : List (Nat × Option (Nat × Half))) (q : Requester) (r : Reg) (i j off : Nat) (w : Word) :
    (s.reshadowed a b).checkWrite q r i j off w = s.checkWrite q r i j off w := by
  unfold State.checkWrite
  rw [reshadowed_heldWord]
  rfl

/-- s with no half of an access of q held. -/
def State.unshadowed (s : State) (q : Requester) : State := (s.setReadShadow q none).setWriteShadow q none

section
variable (s : State) (q : Requester)

theorem unshadowed_eq : ∃ a b, s.unshadowed q = s.reshadowed a b := ⟨_, _, rfl⟩

theorem unshadowed_checkWrite (q' : Requester) (r : Reg) (i j off : Nat) (w : Word) :
    (s.unshadowed q).checkWrite q' r i j off w = s.checkWrite q' r i j off w := by
  obtain ⟨a, b, h⟩ := unshadowed_eq s q
  rw [h, reshadowed_checkWrite]

@[simp] theorem unshadowed_ports : (s.unshadowed q).ports = s.ports := rfl
@[simp] theorem unshadowed_bound (q' : Requester) : (s.unshadowed q).bound q' = s.bound q' := rfl

@[simp] theorem unshadowed_writeShadow : (s.unshadowed q).writeShadow q = none := by
  simp [State.unshadowed, State.writeShadow, State.setWriteShadow]

theorem nextAccess_of_no_low {s : State} {q : Requester} (h : s.writeShadow q = none) (act : State → State) :
    s.nextAccess q act = act (s.unshadowed q) := by
  simp [State.nextAccess, h, State.unshadowed]

end

/-! ### A write that passes, and one that is refused -/

theorem active_awake {s : State} (h : s.active = true) : s.resting = false ∧ s.dozing = false := by
  simp only [State.active, State.resting, State.dozing, decide_eq_true_eq] at *
  constructor <;> simp <;> omega

/-- From u to t, only GLB_STATUS and GLB_RSVD_LAST may have changed among the register words, and nothing that Recorded keeps. -/
structure Noted (u t : State) : Prop where
  recorded : Recorded u t
  word : ∀ y, y ≠ Reg.GLB_STATUS.addr 0 0 → y ≠ Reg.GLB_RSVD_LAST.addr 0 0 → t.word y = u.word y

theorem Noted_refl (u : State) : Noted u u := ⟨Recorded_refl u, fun _ _ _ => rfl⟩

theorem noteReserved_noted (u : State) (q : Requester) (off : Nat) : Noted u (u.noteReserved q off) := by
  refine ⟨noteReserved_recorded u q off, fun y h1 h2 => ?_⟩
  have hf : (u.flag F.GLB_STATUS_RSVD_WR).word y = u.word y := word_setWord_ne u _ h1
  unfold State.noteReserved
  dsimp only
  split
  · exact (word_setWord_ne _ _ h2).trans hf
  · exact hf

section
variable {s : State} {q : Requester} {off i j : Nat} {r : Reg} {w : Word} (e ecc : Ecc)

/-- The device takes an access of q at an offset that names member (i, j) of r (R326, R333). -/
structure Reaches (s : State) (q : Requester) (off : Nat) (r : Reg) (i j : Nat) : Prop where
  bound : s.bound q = true
  active : s.active = true
  member : Reg.ofOffset off = some (r, i, j)

/-- The state once the checks of a write of q have spoken: a refusal is recorded. -/
def State.judged (s : State) (q : Requester) (off : Nat) : Option Cause → State
  | some k => s.refuseAccess q k false 0 off
  | none => s

theorem busWrite_noted {v : Word} {c : Option Cause} (h : Reaches s q off r i j) (hc : s.checkWrite q r i j off w = ⟨c, some v⟩)
    (hcore : (s.judged q off c).offCore off = false) (hstop : (s.judged q off c).stoppedAt off = false) :
    Noted ((s.judged q off c).act r i j (storedWord r.spec ((s.judged q off c).rw r i j) v) v e ecc) (s.busWrite q off w e ecc).2 := by
  obtain ⟨hr, hd⟩ := active_awake h.active
  unfold State.busWrite
  rw [if_neg (by simp [h.bound, hr]), if_neg (by simp [hd]), h.member]
  dsimp only
  rw [hc]
  cases c <;>
  · simp only [State.judged] at hcore hstop ⊢
    simp only [hcore, hstop, Bool.false_eq_true, if_false]
    split
    · exact noteReserved_noted _ _ _
    · exact Noted_refl _

theorem busWrite_refused {k : Cause} (h : Reaches s q off r i j) (hc : s.checkWrite q r i j off w = ⟨some k, none⟩) :
    (s.busWrite q off w e ecc).2 = s.refuseAccess q k false 0 off := by
  obtain ⟨hr, hd⟩ := active_awake h.active
  unfold State.busWrite
  rw [if_neg (by simp [h.bound, hr]), if_neg (by simp [hd]), h.member]
  dsimp only
  rw [hc]

end

/-! ### What a refused access leaves (R341, R342) -/

/-- The word of PROT_LAST that a refused access of q leaves. -/
def State.refusedWord (s : State) (q : Requester) (c : Cause) (read : Bool) (space addr : Nat) : Nat :=
  2 ^ 63 + c.code * 2 ^ 60 + reqCode q * 2 ^ 57 + s.level q * 2 ^ 55 + read.toNat * 2 ^ 54 + space * 2 ^ 52 + addr % 2 ^ 37

/-- From s to t, an access of q at offset off of BAR0 was refused for cause c: nothing but registers, the fabric and the instant of PROT_LAST
changed, no register word but that of the counter and PROT_LAST; the counter counts, and PROT_LAST tells of it unless it keeps what it
holds (R341, R342). -/
structure Refused (s t : State) (q : Requester) (c : Cause) (off : Nat) : Prop where
  recorded : Recorded s t
  word : ∀ y, y ≠ Reg.GLB_TRB.addr 3 0 → y ≠ Reg.PROT_LAST.addr 0 0 → t.word y = s.word y
  counted : t.f (troubleFld 12) 3 = s.upped (troubleFld 12) 3
  last : t.rw .PROT_LAST = if s.keepsRefused q 0 off then s.rw .PROT_LAST else BitVec.ofNat 64 (s.refusedWord q c false 0 off)

theorem f_bump_same (s : State) (x : Fld) (i j : Nat) (h : x.ok) : (s.bump x i j).f x i j = s.upped x i j := by
  unfold State.bump State.bumpBy State.upped
  rw [f_setF_same _ _ _ _ _ h]
  have := Nat.two_pow_pos (x.hi + 1 - x.lo)
  exact Nat.mod_eq_of_lt (by omega)

/-- A refused access leaves the words of its count and of PROT_LAST. -/
theorem refuseAccess_regs (s : State) (q : Requester) (c : Cause) (off : Nat) :
    (s.refuseAccess q c false 0 off).regs =
      (if s.keepsRefused q 0 off then s.trouble .protViolation
       else (s.trouble .protViolation).setRw .PROT_LAST (BitVec.ofNat 64 (s.refusedWord q c false 0 off))).regs := by
  unfold State.refuseAccess
  dsimp only
  split
  · split
    · exact fireNow_regs _ _
    · rfl
  · split
    · exact fireNow_regs _ _
    · rfl

theorem refuseAccess_refused (s : State) (q : Requester) (c : Cause) (off : Nat) : Refused s (s.refuseAccess q c false 0 off) q c off := by
  have hregs := refuseAccess_regs s q c off
  have hw : ∀ y, y ≠ Reg.GLB_TRB.addr 3 0 → (s.trouble .protViolation).word y = s.word y := fun y h => word_setWord_ne s _ h
  have hf : (s.trouble .protViolation).f (troubleFld 12) 3 = s.upped (troubleFld 12) 3 :=
    f_bump_same s (troubleFld 12) 3 0 (by constructor <;> decide)
  refine ⟨refuseAccess_recorded .., fun y h1 h2 => ?_, ?_, ?_⟩
  · rw [State.word, hregs]
    split
    · exact hw y h1
    · exact (word_setWord_ne _ _ h2).trans (hw y h1)
  · rw [f_congr hregs]
    split
    · exact hf
    · exact (f_setRw_ne _ _ (by decide)).trans hf
  · rw [rw_congr hregs]
    split
    · exact hw _ (by decide)
    · exact rw_setRw_same ..

theorem reqCode_lt (q : Requester) : reqCode q < 8 := by cases q <;> decide

theorem bits_lt (n hi lo : Nat) : bits n hi lo < 2 ^ (hi + 1 - lo) := Nat.mod_lt _ (Nat.two_pow_pos _)

theorem level_lt (s : State) (q : Requester) : s.level q < 4 := by
  cases q
  case sc0 => exact bits_lt _ _ _
  case sc1 => exact bits_lt _ _ _
  all_goals exact Nat.lt_of_le_of_lt (Nat.min_le_left _ _) (by decide)

theorem refusedWord_fields (s : State) (q : Requester) (c : Cause) (off : Nat) :
    bit (BitVec.ofNat 64 (s.refusedWord q c false 0 off)).toNat 63 = true ∧
      bits (BitVec.ofNat 64 (s.refusedWord q c false 0 off)).toNat 62 60 = c.code := by
  have hq := reqCode_lt q
  have hl := level_lt s q
  have ha : off % 2 ^ 37 < 2 ^ 37 := Nat.mod_lt _ (by decide)
  have hc : c.code < 8 := by cases c <;> decide
  simp only [State.refusedWord, bit, bits, BitVec.toNat_ofNat, Bool.toNat_false, beq_iff_eq]
  generalize off % 2 ^ 37 = a at ha ⊢
  omega

/-- PROT_LAST is valid after a refused access. -/
theorem Refused.valid {s t : State} {q : Requester} {c : Cause} {off : Nat} (h : Refused s t q c off) : bit (t.rw .PROT_LAST).toNat 63 = true := by
  rw [h.last]
  split
  · next hk =>
    simp only [State.keepsRefused, Bool.and_eq_true] at hk
    exact hk.1.1.2
  · exact (refusedWord_fields s q c off).1

/-- PROT_LAST tells the cause of a refused access that it does not keep out. -/
theorem Refused.cause {s t : State} {q : Requester} {c : Cause} {off : Nat} (h : Refused s t q c off) (hk : s.keepsRefused q 0 off = false) :
    bits (t.rw .PROT_LAST).toNat 62 60 = c.code := by
  rw [h.last, hk]
  exact (refusedWord_fields s q c off).2

/-! ### Offsets as commands carry them -/

theorem ofNat24_align {off : Nat} (h8 : off % 8 = 0) (hlt : off < 2 ^ 24) : (BitVec.ofNat 24 off).toNat / 8 * 8 = off := by
  rw [BitVec.toNat_ofNat, Nat.mod_eq_of_lt hlt]; omega

theorem ne_of_member {off i j i' j' : Nat} {r r' : Reg} (h : Reg.ofOffset off = some (r, i, j))
    (h' : Reg.ofOffset (r'.addr i' j') = some (r', i', j')) (hr : r ≠ r') : off ≠ r'.addr i' j' := by
  rintro rfl; rw [h] at h'; cases h'; exact hr rfl

/-! ### Ports with nothing to treat -/

/-- No frame waits at a port. -/
def State.calm (s : State) : Prop := ∀ x : Fin 5, (s.port x).ready = []

theorem calm_congr {s t : State} (h : t.ports = s.ports) (hs : s.calm) : t.calm := fun x => by rw [State.port, h]; exact hs x

theorem settlePorts_of_calm {s : State} (h : s.calm) : s.settlePorts = s := by
  have hn : (List.finRange 5).find? (fun (p : Fin 5) => !(s.port p).ready.isEmpty) = none := by simp [h _]
  unfold State.settlePorts State.drainPorts
  rw [hn]

/-! ### Registers without rules of their own -/

/-- The registers, of those that the statement names, of which a write stores what the access codes give and does nothing beside. -/
def plainRegs : List Reg :=
  [.GLB_CFG, .REST_CFG, .PWR_WAKE_EN, .PWR_ALARM_SEC, .TM_ARG_SEC, .PTP_OFFSET, .PRT_CFG, .ETH_IP4, .BG_CFG, .VOICE_STATUS, .CH_STATUS, .DEV_CAP]

theorem act_plain (s : State) (i j : Nat) (stored w : Word) (e ecc : Ecc) :
    ∀ r ∈ plainRegs, s.act r i j stored w e ecc = s.setRw r stored i j := by
  simp only [plainRegs, List.forall_mem_cons, List.not_mem_nil, false_imp_iff, implies_true, and_true]
  and_intros <;> rfl

theorem heldWord_plain (s : State) (i j : Nat) : ∀ r ∈ plainRegs, s.heldWord r i j = s.rw r i j := by
  simp only [plainRegs, List.forall_mem_cons, List.not_mem_nil, false_imp_iff, implies_true, and_true]
  and_intros <;> rfl

theorem fabricRefuses_plain (s : State) (i : Nat) (old w : Word) : ∀ r ∈ plainRegs, s.fabricRefuses r i old w = false := by
  simp only [plainRegs, List.forall_mem_cons, List.not_mem_nil, false_imp_iff, implies_true, and_true]
  and_intros <;> rfl

/-- A plain register is none of PL0's, none that a fuse guards and none of the bus's own records, and holds no write-once field. -/
theorem plain_codes : ∀ r ∈ plainRegs, pl0Reg r = false ∧ r ≠ .PRT_BIND ∧ r ≠ .PRT_FI ∧ r ≠ .GLB_STATUS ∧ r ≠ .GLB_RSVD_LAST ∧
    r ≠ .GLB_TRB ∧ r ≠ .PROT_LAST ∧ r.spec.wonce = 0 := by
  decide

/-- A plain register with a bit of each lies below the instruction memories, has no bit of another code, and is not the LOCK of its block. -/
theorem plain_lockable : ∀ r ∈ plainRegs, r.spec.rwl = 2 ^ 64 - 1 → r.spec.voice = false ∧ r.spec.n2 = 1 ∧
    r.spec.rw = 0 ∧ r.spec.w1c = 0 ∧ r.spec.w1s = 0 ∧ r.spec.wo = 0 ∧
      ∀ i < r.spec.n1, r.addr i 0 ≠ lockOf (r.addr i 0) ∧ r.addr i 0 < 0x400000 := by
  decide

/-! ### REGISTER_WRITE (R326 to R341) -/

section
variable {s : State} {q : Requester} {r : Reg} {i j off : Nat} {w : Word} {e ecc : Ecc}

theorem Reaches.unshadowed (h : Reaches s q off r i j) : Reaches (s.unshadowed q) q off r i j := ⟨h.bound, h.active, h.member⟩

/-- A 64-bit write with no half held goes to the bus, and then the ports work off what they have. -/
theorem registerWrite_full (h8 : off % 8 = 0) (hlt : off < 2 ^ 24) (hlow : s.writeShadow q = none) :
    exec (.registerWrite q (BitVec.ofNat 24 off) (.full w) e ecc) s =
      .next ((s.unshadowed q).busWrite q off w e ecc).2.settlePorts := by
  change Host.Outcome.next (s.put q ((BitVec.ofNat 24 off).toNat / 8 * 8) w e ecc).settlePorts = _
  rw [ofNat24_align h8 hlt, State.put, nextAccess_of_no_low hlow]

/-- A high half that completes the low half held goes to the bus as one word. -/
theorem registerWrite_high {h l : Half} (h8 : off % 8 = 0) (hlt : off < 2 ^ 24) (hlow : s.writeShadow q = some (off, l)) :
    exec (.registerWrite q (BitVec.ofNat 24 off) (.high h) e ecc) s =
      .next ((s.unshadowed q).busWrite q off (h ++ l) e ecc).2.settlePorts := by
  change Host.Outcome.next (s.putHigh q ((BitVec.ofNat 24 off).toNat / 8 * 8) h e ecc).settlePorts = _
  rw [ofNat24_align h8 hlt, State.putHigh, hlow]
  simp [State.unshadowed]

/-- From s to t, a write left x in member (i, j) of r, and beside it only the records of reserved fields. -/
structure Stored (s t : State) (r : Reg) (i j : Nat) (x : Word) : Prop where
  rw : t.rw r i j = x
  word : ∀ y, y ≠ r.addr i j → y ≠ Reg.GLB_STATUS.addr 0 0 → y ≠ Reg.GLB_RSVD_LAST.addr 0 0 → t.word y = s.word y
  recorded : Recorded s t

theorem Noted.stored {t : State} {x : Word} (hn : Noted (s.setRw r x i j) t) (h : Reg.ofOffset (r.addr i j) = some (r, i, j))
    (h1 : r ≠ .GLB_STATUS) (h2 : r ≠ .GLB_RSVD_LAST) : Stored s t r i j x where
  rw := (hn.word _ (ne_of_member h (by decide) h1) (ne_of_member h (by decide) h2)).trans (rw_setRw_same ..)
  word y h0 h1 h2 := (hn.word y h1 h2).trans (word_setWord_ne s x h0)
  recorded := Recorded_trans (Recorded_setRw ..) hn.recorded

/-- What a passing write of a plain register leaves. -/
theorem busWrite_plain (hp : r ∈ plainRegs) (h : Reaches s q (r.addr i j) r i j)
    (hc : s.checkWrite q r i j (r.addr i j) w = ⟨none, some w⟩) (hcore : s.offCore (r.addr i j) = false)
    (hstop : s.stoppedAt (r.addr i j) = false) :
    Stored s (s.busWrite q (r.addr i j) w e ecc).2 r i j (storedWord r.spec (s.rw r i j) w) := by
  obtain ⟨-, -, -, h1, h2, -⟩ := plain_codes r hp
  have hn := busWrite_noted e ecc h hc hcore hstop
  rw [act_plain _ _ _ _ _ _ _ r hp] at hn
  exact hn.stored h.member h1 h2

theorem Recorded.calm {s t : State} (h : Recorded s t) (hs : s.calm) : t.calm := calm_congr h.ports hs

theorem registerWrite_plain_full (hp : r ∈ plainRegs) (hm : Reg.ofOffset (r.addr i j) = some (r, i, j)) (hs : s.calm)
    (ha : Admits s q r i j w) :
    Gives (exec (.registerWrite q (BitVec.ofNat 24 (r.addr i j)) (.full w) e ecc) s) fun t =>
      Stored (s.unshadowed q) t r i j (storedWord r.spec (s.rw r i j) w) := by
  obtain ⟨hb, hact, hc, hcore, hstop, -, hlow⟩ := ha
  obtain ⟨-, h8, hlt⟩ := ofOffset_some hm
  have ht := busWrite_plain (s := s.unshadowed q) (e := e) (ecc := ecc) hp ⟨hb, hact, hm⟩ (by rw [unshadowed_checkWrite, hc]) hcore hstop
  rw [registerWrite_full h8 hlt hlow, settlePorts_of_calm (ht.recorded.calm hs)]
  exact ⟨_, rfl, ht⟩

theorem Recorded.writeShadow {s t : State} (h : Recorded s t) (q : Requester) : t.writeShadow q = s.writeShadow q := by
  rw [State.writeShadow, h.bus]; rfl

theorem registerWrite_plain_high {h l : Half} (hp : r ∈ plainRegs) (hm : Reg.ofOffset (r.addr i j) = some (r, i, j)) (hs : s.calm)
    (hlow : s.writeShadow q = some (r.addr i j, l)) (ha : Admits (s.unshadowed q) q r i j (h ++ l)) :
    Gives (exec (.registerWrite q (BitVec.ofNat 24 (r.addr i j)) (.high h) e ecc) s) fun t =>
      t.rw r i j = storedWord r.spec (s.rw r i j) (h ++ l) ∧ t.writeShadow q = none := by
  obtain ⟨hb, hact, hc, hcore, hstop, -, -⟩ := ha
  obtain ⟨-, h8, hlt⟩ := ofOffset_some hm
  have ht := busWrite_plain (s := s.unshadowed q) (e := e) (ecc := ecc) hp ⟨hb, hact, hm⟩ hc hcore hstop
  rw [registerWrite_high h8 hlt hlow, settlePorts_of_calm (ht.recorded.calm hs)]
  exact ⟨_, rfl, ht.rw, (ht.recorded.writeShadow q).trans (unshadowed_writeShadow s q)⟩

theorem registerWriteLow_holds {l : Half} (hm : Reg.ofOffset off = some (r, i, j)) (hb : s.bound q = true) (hlow : s.writeShadow q = none) :
    Gives (exec (.registerWriteLow q (BitVec.ofNat 24 off) l) s) fun t => t.writeShadow q = some (off, l) ∧ SameWords s t := by
  obtain ⟨-, h8, hlt⟩ := ofOffset_some hm
  have he : exec (.registerWriteLow q (BitVec.ofNat 24 off) l) s = .next ((s.unshadowed q).setWriteShadow q (some (off, l))) := by
    change execRegisterWriteLow q (BitVec.ofNat 24 off) l s = _
    rw [execRegisterWriteLow, if_neg (by simp [hb]), ofNat24_align h8 hlt, nextAccess_of_no_low hlow]
  exact ⟨_, he, by simp [State.writeShadow, State.setWriteShadow], fun _ _ => rfl, rfl, rfl, rfl⟩

theorem registerWrite_refused {c : Cause} (h : Reaches s q off r i j) (hs : s.calm) (hlow : s.writeShadow q = none)
    (hc : s.checkWrite q r i j off w = ⟨some c, none⟩) :
    Gives (exec (.registerWrite q (BitVec.ofNat 24 off) (.full w) e ecc) s) fun t => Refused (s.unshadowed q) t q c off := by
  obtain ⟨-, h8, hlt⟩ := ofOffset_some h.member
  have ht := refuseAccess_refused (s.unshadowed q) q c off
  rw [registerWrite_full h8 hlt hlow, busWrite_refused e ecc h.unshadowed (by rw [unshadowed_checkWrite, hc]),
    settlePorts_of_calm (ht.recorded.calm hs)]
  exact ⟨_, rfl, ht⟩

/-- What the statement says of a refused write of a plain register. -/
theorem Refused.plain {t : State} {c : Cause} (h : Refused (s.unshadowed q) t q c (r.addr i j)) (hp : r ∈ plainRegs)
    (hm : Reg.ofOffset (r.addr i j) = some (r, i, j)) :
    t.rw r i j = s.rw r i j ∧ bit (t.rw .PROT_LAST).toNat 63 = true ∧
      (s.keepsRefused q 0 (r.addr i j) = false → bits (t.rw .PROT_LAST).toNat 62 60 = c.code) ∧
      t.f (troubleFld 12) 3 = s.upped (troubleFld 12) 3 := by
  obtain ⟨-, -, -, -, -, h1, h2, -⟩ := plain_codes r hp
  exact ⟨h.word _ (ne_of_member hm (by decide) h1) (ne_of_member hm (by decide) h2), h.valid, h.cause, h.counted⟩

theorem checkWrite_region (h : s.access (s.level q) (regionOf off) ≠ 2) : s.checkWrite q r i j off w = ⟨some .region, none⟩ := by
  rw [State.checkWrite, if_pos h]

theorem checkWrite_locked (hp : r ∈ plainRegs) (hm : Reg.ofOffset (r.addr i j) = some (r, i, j))
    (hacc : s.access (s.level q) (regionOf (r.addr i j)) = 2) (hl : s.level q ≠ 0)
    (hlock : bit (s.word (lockOf (r.addr i j))).toNat 0 = true) (hrwl : r.spec.rwl = 2 ^ 64 - 1) (hw : w ≠ s.rw r i j) :
    s.checkWrite q r i j (r.addr i j) w = ⟨some .lock, none⟩ := by
  obtain ⟨hpl0, hbind, hfi, -, -, -, -, hwonce⟩ := plain_codes r hp
  obtain ⟨hv, hn2, hrw, hw1c, hw1s, hwo, hno⟩ := plain_lockable r hp hrwl
  obtain ⟨-, hj, hi⟩ := memberAt_some (findIn_some hm)
  obtain rfl : j = 0 := by omega
  obtain ⟨hlk, hlt⟩ := hno i (by simpa [hv] using hi)
  have hbit : s.lockBit (r.addr i 0) = true := by rw [State.lockBit, if_pos hlt]; exact hlock
  unfold State.checkWrite
  simp only [heldWord_plain s i 0 r hp, fabricRefuses_plain _ _ _ _ r hp, hwonce, hbit, hrwl, differ_all hw.symm]
  simp [hacc, hl, hpl0, hlk, hbind, hfi, hrw, hw1c, hw1s, hwo]

end

end Sys2Proof.Machine
end

section
/-! PROOFS. What FI_DIS ends (R283, R340). -/

namespace Sys2Proof.Machine

/-! ### Folds that keep a view of the state -/

theorem foldl_same {σ α β : Type} (v : σ → β) {f : σ → α → σ} (h : ∀ a x, v (f a x) = v a) (l : List α) (a : σ) :
    v (l.foldl f a) = v a := by
  induction l generalizing a with
  | nil => rfl
  | cons x l ih => exact (ih _).trans (h a x)

/-! ### What ends fault injection (R283) -/

/-- What decides which received frames are treated: the words of PRT_FI, and per port the frames that wait and those of the group. -/
def State.intake (s : State) : (Fin 5 → Word) × (Nat → List RxFrame × List RxFrame) :=
  (fun k => s.rw .PRT_FI k, fun x => ((s.port x).ready, (s.port x).rxGroup))

section
variable (s : State) (p : Nat)

theorem intake_setF (x : Fld) (v i j : Nat) (h : ∀ k : Fin 5, Reg.PRT_FI.addr k 0 ≠ x.reg.addr i j) :
    (s.setF x v i j).intake = s.intake := by
  have hk : ∀ k : Fin 5, (s.setF x v i j).rw .PRT_FI k = s.rw .PRT_FI k := fun k => word_setWord_ne s _ (h k)
  simp only [State.intake, hk]
  rfl

@[simp] theorem intake_pbaPend (v : Nat) : (s.setF F.MSIX_PBA_PEND v).intake = s.intake := intake_setF s _ v 0 0 (by decide)
@[simp] theorem intake_rspTail : (s.tick F.P0_RSP_IDX_TAIL).intake = s.intake := intake_setF s _ _ 0 0 (by decide)
@[simp] theorem intake_reordered : (s.bump F.PRT_FI_CNT_REORDERED p).intake = s.intake :=
  intake_setF s _ _ p 0 fun k => by simp [Reg.addr, Reg.spec, F.PRT_FI_CNT_REORDERED]; omega

@[simp] theorem intake_modPort (g : PortSt → PortSt) (h : ∀ x, (g x).ready = x.ready ∧ (g x).rxGroup = x.rxGroup) :
    (s.modPort p g).intake = s.intake := by
  refine Prod.ext rfl (funext fun x => ?_)
  by_cases hx : x = p
  · subst hx; simp [State.intake, h]
  · simp [State.intake, port_modPort_ne _ _ hx]

@[simp] theorem intake_requestVector (i : Nat) : (s.requestVector i).intake = s.intake := by
  unfold State.requestVector
  split
  · exact intake_pbaPend s _
  · rfl

@[simp] theorem intake_ringRequest : s.ringRequest.intake = s.intake := by simp [State.ringRequest]

@[simp] theorem intake_link (l : LinkSt) : State.intake { s with link := l } = s.intake := rfl

@[simp] theorem intake_ringWrite : s.ringWrite.intake = s.intake := by
  unfold State.ringWrite
  extract_lets l u t
  have ht : t.intake = s.intake := by simp [t, u]
  split
  · rw [intake_ringRequest, ht]
  · exact ht

@[simp] theorem intake_sendFrame (m : Sent) : (s.sendFrame p m).intake = s.intake := by
  unfold State.sendFrame
  dsimp only
  split
  · split <;> simp
  · split <;> simp

@[simp] theorem intake_releaseTx : (s.releaseTx p).intake = s.intake := by
  unfold State.releaseTx
  dsimp only
  split
  · simp
  · rw [foldl_same State.intake fun t m => intake_sendFrame t p m]
    simp

/-- Where no frame of a group waits, the end of fault injection lets none through. -/
theorem intake_endInjection (h : (s.port p).rxGroup = []) : (s.endInjection p).intake = s.intake := by
  unfold State.endInjection
  simp only [h, List.isEmpty_nil, if_true, intake_releaseTx, List.reverse_nil, List.append_nil]
  refine Prod.ext rfl (funext fun x => ?_)
  by_cases hx : x = p
  · subst hx; simp [State.intake, h]
  · simp [State.intake, port_modPort_ne _ _ hx]

/-- FI_DIS ends the injection of port p (R340). -/
def State.fiOff (s : State) (p : Nat) : State := (s.clr F.PRT_FI_EN p).endInjection p

/-- No frame waits at a port or in its receive group. -/
def State.quiet (s : State) : Prop := ∀ x : Fin 5, (s.port x).ready = [] ∧ (s.port x).rxGroup = []

theorem quiet_congr {s t : State} (h : t.intake = s.intake) (hs : s.quiet) : t.quiet := fun x => by
  have hx := congrFun (congrArg Prod.snd h) x.val
  have hx' := hs x
  simp only [State.intake, Prod.mk.injEq] at hx
  rw [hx.1, hx.2]; exact hx'

theorem fiOff_quiet {s : State} (k : Fin 5) (p : Fin 5) (h : s.quiet) :
    (s.fiOff p).quiet ∧ (s.fiOff p).rw .PRT_FI k = (s.clr F.PRT_FI_EN p).rw .PRT_FI k := by
  have hq : (s.clr F.PRT_FI_EN p).quiet := h
  have he := intake_endInjection (s.clr F.PRT_FI_EN p) p (hq p).2
  exact ⟨quiet_congr he hq, congrFun (congrArg Prod.fst he) k⟩

/-- FI_DIS leaves no port injecting, and where no frame waited none is let through. -/
theorem forN_fiOff {s : State} (n : Nat) (hn : n ≤ 5) (h : s.quiet) :
    (forN n (fun p u => u.fiOff p) s).quiet ∧ ∀ k : Fin 5, k.val < n → (forN n (fun p u => u.fiOff p) s).on F.PRT_FI_EN k = false := by
  induction n with
  | zero => exact ⟨h, fun k hk => absurd hk (by omega)⟩
  | succ n ih =>
    obtain ⟨hq, hoff⟩ := ih (by omega)
    have hk := fun k => fiOff_quiet k ⟨n, by omega⟩ hq
    have hw : ∀ k : Fin 5, (forN (n + 1) (fun p u => u.fiOff p) s).on F.PRT_FI_EN k =
        ((forN n (fun p u => u.fiOff p) s).clr F.PRT_FI_EN n).on F.PRT_FI_EN k := fun k => by
      simp only [State.on, State.f]; exact congrArg (fun w : Word => bits w.toNat _ _ != 0) (hk k).2
    refine ⟨(hk 0).1, fun k hkn => ?_⟩
    rw [hw]
    by_cases hkn' : k.val = n
    · rw [hkn', State.on, State.clr, f_setF_same _ _ _ _ _ (by constructor <;> decide)]; rfl
    · rw [State.on, State.clr, f_setF_ne _ _ (by simp [Reg.addr, Reg.spec, F.PRT_FI_EN]; omega)]
      exact hoff k (by omega)

end

end Sys2Proof.Machine
end

section
/-! PROOFS. What treats a received frame leaves GLB_ONCE alone once its fields are spent (R339): one lemma for each operation
that a frame can reach, in the order of the model. A lemma that holds by unfolding is proved `by rfl` and not by the term `rfl`, so that
simp cites it and the kernel need not unfold it again. -/

namespace Sys2Proof.Machine

/-- The register GLB_ONCE, and whether its fields are spent (R339). -/
def State.fuses (s : State) : Word × Bool := (s.rw .GLB_ONCE, s.bus.once)

theorem spec_ne_glbOnce (r : Reg) :
    r = .GLB_ONCE ∨ r.spec.voice = true ∨ 0x18 < r.spec.base ∨ (r.spec.base < 0x18 ∧ r.spec.s1 = 0 ∧ r.spec.s2 = 0) := by
  cases r <;> decide

/-- No member of another register lies at GLB_ONCE. -/
theorem addr_ne_glbOnce {r : Reg} (h : r ≠ .GLB_ONCE) (i j : Nat) : Reg.GLB_ONCE.addr 0 0 ≠ r.addr i j := by
  have h0 : Reg.GLB_ONCE.addr 0 0 = 0x18 := rfl
  rw [h0]
  unfold Reg.addr voiceBase
  obtain hr | hv | hb | ⟨hb, h1, h2⟩ := spec_ne_glbOnce r
  · exact absurd hr h
  · rw [hv, if_pos rfl]; omega
  · split <;> omega
  · rw [h1, h2]; split <;> omega

section
variable (s : State)

@[simp] theorem fuses_setRw (r : Reg) (w : Word) (i j : Nat) (h : r ≠ .GLB_ONCE) : (s.setRw r w i j).fuses = s.fuses :=
  Prod.ext (rw_setRw_ne s w (addr_ne_glbOnce h i j)) rfl

@[simp] theorem fuses_setF (x : Fld) (v i j : Nat) (h : x.reg ≠ .GLB_ONCE) : (s.setF x v i j).fuses = s.fuses := fuses_setRw s _ _ i j h

@[simp] theorem fuses_ite (c : Prop) [Decidable c] (s t : State) : (if c then s else t).fuses = if c then s.fuses else t.fuses := apply_ite ..

@[simp] theorem fuses_forN (n : Nat) (f : Nat → State → State) (h : ∀ i t, (f i t).fuses = t.fuses) : (forN n f s).fuses = s.fuses :=
  forN_keeps (P := fun t => t.fuses = s.fuses) n (fun i t ht => (h i t).trans ht) rfl

@[simp] theorem fuses_foldl {α : Type} (f : State → α → State) (l : List α) (h : ∀ t a, (f t a).fuses = t.fuses) :
    (l.foldl f s).fuses = s.fuses := foldl_same State.fuses h l s

/-! A state that differs in another component keeps the fuses. -/

theorem fuses_with_fabric (x : FabricSt) : State.fuses { s with fabric := x } = s.fuses := rfl
theorem fuses_with_dmem (x : List (Nat × Word)) : State.fuses { s with dmem := x } = s.fuses := rfl
theorem fuses_with_sram (x : List Host.Cell) : State.fuses { s with sram := x } = s.fuses := rfl
theorem fuses_with_dram (x : List Host.Cell) : State.fuses { s with dram := x } = s.fuses := rfl
theorem fuses_with_poison (x : List (Bool × Nat)) : State.fuses { s with poison := x } = s.fuses := rfl
theorem fuses_with_calStoreAgain (x : Bool) : State.fuses { s with calStoreAgain := x } = s.fuses := rfl
theorem fuses_with_mem (x : MemSt) : State.fuses { s with mem := x } = s.fuses := rfl
theorem fuses_with_link (x : LinkSt) : State.fuses { s with link := x } = s.fuses := rfl
theorem fuses_with_clock (x : ClockSt) : State.fuses { s with clock := x } = s.fuses := rfl
theorem fuses_with_time (x : TimeSt) : State.fuses { s with time := x } = s.fuses := rfl
theorem fuses_with_boot (x : BootSt) : State.fuses { s with boot := x } = s.fuses := rfl

/-! ### What the shared operations touch, said once for each -/

@[simp] theorem fuses_flag (x : Fld) (i j : Nat) (hx : x.reg ≠ .GLB_ONCE) : (s.flag x i j).fuses = s.fuses := by simp [State.flag, hx]

@[simp] theorem fuses_clr (x : Fld) (i j : Nat) (hx : x.reg ≠ .GLB_ONCE) : (s.clr x i j).fuses = s.fuses := by simp [State.clr, hx]

@[simp] theorem fuses_setB (x : Fld) (b : Bool) (i j : Nat) (hx : x.reg ≠ .GLB_ONCE) :
    (s.setB x b i j).fuses = s.fuses := by simp [State.setB, hx]

@[simp] theorem fuses_bumpBy (x : Fld) (k i j : Nat) (hx : x.reg ≠ .GLB_ONCE) :
    (s.bumpBy x k i j).fuses = s.fuses := by simp [State.bumpBy, hx]

@[simp] theorem fuses_bump (x : Fld) (i j : Nat) (hx : x.reg ≠ .GLB_ONCE) : (s.bump x i j).fuses = s.fuses := by simp [State.bump, hx]

@[simp] theorem fuses_tick (x : Fld) (i j : Nat) (hx : x.reg ≠ .GLB_ONCE) : (s.tick x i j).fuses = s.fuses := by simp [State.tick, hx]

@[simp] theorem fuses_trouble (t : Trouble) : (s.trouble t).fuses = s.fuses :=
  fuses_bump s _ _ 0 (by simp [troubleFld])

@[simp] theorem fuses_troubleBy (t : Trouble) (k : Nat) : (s.troubleBy t k).fuses = s.fuses :=
  fuses_bumpBy s _ k _ 0 (by simp [troubleFld])

@[simp] theorem fuses_drawn : s.drawn.fuses = s.fuses := by rfl

@[simp] theorem fuses_putTime (sec frac : Fld) (t i j : Nat) (hsec : sec.reg ≠ .GLB_ONCE) (hfrac : frac.reg ≠ .GLB_ONCE) :
    (s.putTime sec frac t i j).fuses = s.fuses := by simp [State.putTime, hsec, hfrac]

@[simp] theorem fuses_fire (src t : Nat) : (s.fire src t).fuses = s.fuses := by simp [State.fire, ↓fuses_with_fabric]

@[simp] theorem fuses_fireNow (src : Nat) : (s.fireNow src).fuses = s.fuses := by simp [State.fireNow]

@[simp] theorem fuses_fireChannel (c t : Nat) : (s.fireChannel c t).fuses = s.fuses := by simp [State.fireChannel, ↓fuses_with_fabric]

@[simp] theorem fuses_fireChev (n b t : Nat) : (s.fireChev n b t).fuses = s.fuses := by simp [State.fireChev]

@[simp] theorem fuses_modCore (k : Nat) (g : CoreSt → CoreSt) : (s.modCore k g).fuses = s.fuses := by rfl

@[simp] theorem fuses_modSp (q : Nat) (g : SpindleSt → SpindleSt) : (s.modSp q g).fuses = s.fuses := by rfl

@[simp] theorem fuses_modRefIn (x : Nat) (g : RefIn → RefIn) : (s.modRefIn x g).fuses = s.fuses := by rfl

@[simp] theorem fuses_modAux (i : Nat) (g : AuxSt → AuxSt) : (s.modAux i g).fuses = s.fuses := by rfl

@[simp] theorem fuses_modRelay (r : Nat) (g : RelaySt → RelaySt) : (s.modRelay r g).fuses = s.fuses := by rfl

@[simp] theorem fuses_modInput (i : Nat) (g : InputSt → InputSt) : (s.modInput i g).fuses = s.fuses := by rfl

@[simp] theorem fuses_modCable (p : Nat) (g : CableSt → CableSt) : (s.modCable p g).fuses = s.fuses := by rfl

/-! ### The event fabric -/

@[simp] theorem fuses_unsettle (addr hi lo new : Nat) : (s.unsettle addr hi lo new).fuses = s.fuses := by
  unfold State.unsettle
  dsimp only
  split <;> rfl

@[simp] theorem fuses_setRouted (r : Reg) (w : Word) (i j : Nat) (hr : r ≠ .GLB_ONCE) :
    (s.setRouted r w i j).fuses = s.fuses := by simp [State.setRouted, hr]

@[simp] theorem fuses_guarded (r : Reg) (w : Word) (i : Nat) (hr : r ≠ .GLB_ONCE) : (s.guarded r w i).2.fuses = s.fuses := by
  unfold State.guarded
  dsimp only
  split <;> simp +decide [hr]

@[simp] theorem fuses_restartTimer (r : Nat) : (s.restartTimer r).fuses = s.fuses := by rfl

@[simp] theorem fuses_skipTimers : s.skipTimers.fuses = s.fuses := by
  refine fuses_forN _ _ _ fun r t => ?_
  split
  · split <;> simp
  · rfl

@[simp] theorem fuses_dropRelays : s.dropRelays.fuses = s.fuses := by simp [State.dropRelays]

@[simp] theorem fuses_afterRelayWrite (r : Nat) (reg : Reg) (oldMode : Nat) :
    (s.afterRelayWrite r reg oldMode).fuses = s.fuses := by
  unfold State.afterRelayWrite
  split <;> simp

@[simp] theorem fuses_fireBits (i val : Nat) : (s.fireBits i val).fuses = s.fuses := by simp [State.fireBits]

/-! ### The sample rates and the channel grid -/

@[simp] theorem fuses_modChan (n : Nat) (g : ChanSt → ChanSt) : (s.modChan n g).fuses = s.fuses := by rfl

/-! ### Waveform SRAM and DRAM as bytes -/

@[simp] theorem fuses_setByte (d : Bool) (a : Nat) (b : Byte) :
    (s.setByte d a b).fuses = s.fuses := by simp [State.setByte, ↓fuses_with_sram, ↓fuses_with_dram]

@[simp] theorem fuses_writeLE (d : Bool) (a v n : Nat) : (s.writeLE d a v n).fuses = s.fuses := by
  induction n with
  | zero => rfl
  | succ n ih => rw [State.writeLE, fuses_setByte, ih]

@[simp] theorem fuses_writeWord (d : Bool) (a : Nat) (w : Word) : (s.writeWord d a w).fuses = s.fuses :=
  (fuses_with_poison _ _).trans (fuses_writeLE ..)

@[simp] theorem fuses_logError (kind req addr : Nat) : (s.logError kind req addr).fuses = s.fuses := by
  unfold State.logError
  extract_lets t u
  have ht : t.fuses = s.fuses := by simp [t]
  have hu : u.fuses = s.fuses := by simp +decide [u, ht]
  split
  · exact (fuses_with_mem u _).trans hu
  · exact ht

@[simp] theorem fuses_eccEvent (e : Ecc) (dram marked : Bool) (req addr : Nat) : (s.eccEvent e dram marked req addr).fuses = s.fuses := by
  unfold State.eccEvent
  split
  · rfl
  · cases dram <;> simp +decide
  · simp
  · simp +decide

@[simp] theorem fuses_coreEcc (e : Ecc) (addr : Nat) : (s.coreEcc e addr).fuses = s.fuses := by
  unfold State.coreEcc
  split
  · rfl
  · simp
  · rw [fuses_logError, fuses_drawn]

/-! ### Buffers and their lifetime -/

@[simp] theorem fuses_modBuffer (i : Nat) (g : BufferSt → BufferSt) : (s.modBuffer i g).fuses = s.fuses := by rfl

theorem fuses_allocIn {s t : State} {d : Bool} {n h : Nat} {hold : BufferSt → BufferSt} (ha : s.allocIn d n hold = some (h, t)) :
    t.fuses = s.fuses := by
  unfold State.allocIn at ha
  split at ha
  · cases ha; simp
  · cases ha

theorem fuses_alloc {s t : State} {region n h : Nat} {hold : BufferSt → BufferSt} (ha : s.alloc region n hold = some (h, t)) :
    t.fuses = s.fuses := by
  unfold State.alloc at ha
  split at ha
  · exact fuses_allocIn ha
  · split at ha
    · exact fuses_allocIn ha
    · split at ha
      · next he => cases ha; exact fuses_allocIn he
      · exact fuses_allocIn ha

@[simp] theorem fuses_settle (i : Nat) (last : Option Nat) : (s.settle i last).fuses = s.fuses := by
  unfold State.settle
  split
  · cases last <;> simp
  · rfl

@[simp] theorem fuses_addRef (h : Nat) : (s.addRef h).fuses = s.fuses := by rfl

@[simp] theorem fuses_dropRef (v : Option Nat) (h : Nat) : (s.dropRef v h).fuses = s.fuses := by simp [State.dropRef]

@[simp] theorem fuses_addRefs (hs : List Nat) : (s.addRefs hs).fuses = s.fuses := by simp [State.addRefs]

@[simp] theorem fuses_dropRefs (v : Option Nat) (hs : List Nat) : (s.dropRefs v hs).fuses = s.fuses := by simp [State.dropRefs]

@[simp] theorem fuses_dropDesc (h : Nat) : (s.dropDesc h).fuses = s.fuses := by simp [State.dropDesc]

@[simp] theorem fuses_retireAt (v : Nat) : (s.retireAt v).fuses = s.fuses := by simp [State.retireAt]

@[simp] theorem fuses_moveHold (k h : Nat) : (s.moveHold k h).fuses = s.fuses := by rfl

@[simp] theorem fuses_holdBy (k h : Nat) : (s.holdBy k h).fuses = s.fuses := by rfl

@[simp] theorem fuses_bufCommand : s.bufCommand.fuses = s.fuses := by
  unfold State.bufCommand
  dsimp only
  split
  · split
    · simp +decide
    · split
      · simp +decide
      · split
        · next he => simp +decide [fuses_alloc he]
        · simp +decide
  · split <;> simp +decide
  · split <;> simp +decide
  · split <;> simp +decide

/-! ### Marker lanes, TRIG_IN and TRIG_OUT -/

@[simp] theorem fuses_modVoice (v : Nat) (g : VoiceSt → VoiceSt) : (s.modVoice v g).fuses = s.fuses := by rfl

@[simp] theorem fuses_modTrigOut (m : Nat) (g : TrigOutSt → TrigOutSt) : (s.modTrigOut m g).fuses = s.fuses := by rfl

@[simp] theorem fuses_modTrigIn (n : Nat) (g : TrigInSt → TrigInSt) : (s.modTrigIn n g).fuses = s.fuses := by rfl

@[simp] theorem fuses_writeToCfg (m : Nat) (w : Word) : (s.writeToCfg m w).fuses = s.fuses := by simp [State.writeToCfg]

@[simp] theorem fuses_writeTiCfg (n : Nat) (w : Word) : (s.writeTiCfg n w).fuses = s.fuses := by simp [State.writeTiCfg]

@[simp] theorem fuses_setLane (n l : Nat) (delay skew mk : Int) :
    (s.setLane n l delay skew mk).fuses = s.fuses := by simp +decide [State.setLane]

@[simp] theorem fuses_sendLane (n l : Nat) (t : Int) (b : Bool) : (s.sendLane n l t b).fuses = s.fuses := by rfl

@[simp] theorem fuses_holdLanes (n : Nat) (p : Int) : (s.holdLanes n p).fuses = s.fuses := by simp [State.holdLanes]

@[simp] theorem fuses_modCal (n : Nat) (g : CalSt → CalSt) : (s.modCal n g).fuses = s.fuses := by rfl

/-! ### Segment-table entries -/

@[simp] theorem fuses_takeSlot (v : Nat) : (s.takeSlot v).fuses = s.fuses := by simp +decide [State.takeSlot]

@[simp] theorem fuses_freeSlot (v : Nat) : (s.freeSlot v).fuses = s.fuses := by simp +decide [State.freeSlot]

/-! ### The descriptor queue -/

@[simp] theorem fuses_queueLow (v before : Nat) : (s.queueLow v before).fuses = s.fuses := by simp [State.queueLow]

@[simp] theorem fuses_dropQueue (v : Nat) (gone : QEntry → Bool) : (s.dropQueue v gone).fuses = s.fuses := by simp [State.dropQueue]

@[simp] theorem fuses_showRefill (v : Nat) : (s.showRefill v).fuses = s.fuses := by simp +decide [State.showRefill]

@[simp] theorem fuses_trimSlots (v : Nat) : (s.trimSlots v).fuses = s.fuses := by simp [State.trimSlots]

@[simp] theorem fuses_request (v : Nat) (l : List Ahead) (s : State) : (State.request v l s).fuses = s.fuses := by
  induction l generalizing s with
  | nil => rfl
  | cons a l ih =>
    rw [State.request]
    split_ifs <;> simp [ih]

@[simp] theorem fuses_refill (v : Nat) : (s.refill v).fuses = s.fuses := by simp [State.refill]

/-! ### The Budget Governor -/

@[simp] theorem fuses_modGov (g : GovSt → GovSt) : (s.modGov g).fuses = s.fuses := by rfl

@[simp] theorem fuses_setAdmit (k how mw : Nat) : (s.setAdmit k how mw).fuses = s.fuses := by simp +decide [State.setAdmit]

@[simp] theorem fuses_withdraw (k : Nat) : (s.withdraw k).fuses = s.fuses := by rfl

@[simp] theorem fuses_unadmit (k : Nat) : (s.unadmit k).fuses = s.fuses := by
  unfold State.unadmit
  split <;> simp

@[simp] theorem fuses_release (k : Nat) : (s.release k).fuses = s.fuses := by simp [State.release]

@[simp] theorem fuses_levelH : s.levelH.fuses = s.fuses := by simp [State.levelH]

@[simp] theorem fuses_weigh : s.weigh.fuses = s.fuses := by simp +decide [State.weigh]

@[simp] theorem fuses_weighRequest : s.weighRequest.fuses = s.fuses := by simp [State.weighRequest]

@[simp] theorem fuses_setDiv (k d : Nat) : (s.setDiv k d).fuses = s.fuses := by simp +decide [State.setDiv]

@[simp] theorem fuses_armDiv (k : Nat) : (s.armDiv k).fuses = s.fuses := by simp [State.armDiv]

@[simp] theorem fuses_admitCost (mw : Nat) : (s.admitCost mw).fuses = s.fuses := by rfl

@[simp] theorem fuses_enqueue (k : Nat) : (s.enqueue k).fuses = s.fuses := by simp [State.enqueue]

@[simp] theorem fuses_enqueueTask (t : BgTask) : (s.enqueueTask t).fuses = s.fuses := by simp [State.enqueueTask]

@[simp] theorem fuses_startTask (t : BgTask) : (s.startTask t).fuses = s.fuses := by simp [State.startTask]

@[simp] theorem fuses_endTask (t : BgTask) : (s.endTask t).fuses = s.fuses := by rfl

/-! ### Stream bindings and their rings -/

@[simp] theorem fuses_modBinding (b : Nat) (g : BindingSt → BindingSt) : (s.modBinding b g).fuses = s.fuses := by rfl

@[simp] theorem fuses_enableStream (b : Nat) : (s.enableStream b).fuses = s.fuses := by simp +decide [State.enableStream]

@[simp] theorem fuses_disableStream (b : Nat) : (s.disableStream b).fuses = s.fuses := by simp +decide [State.disableStream]

@[simp] theorem fuses_shave (b n : Nat) : (s.shave b n).fuses = s.fuses := by simp +decide [State.shave]

@[simp] theorem fuses_modStream (v : Nat) (g : StreamPlay → StreamPlay) : (s.modStream v g).fuses = s.fuses := by rfl

@[simp] theorem fuses_placeByTime (v b : Nat) (g : Grid) (it : Item) (pk : Packet) :
    (s.placeByTime v b g it pk).fuses = s.fuses := by simp +decide [State.placeByTime]

@[simp] theorem fuses_closeStream (v : Nat) : (s.closeStream v).fuses = s.fuses := by
  unfold State.closeStream
  split
  · split
    · split
      · rfl
      · simp +decide
    · rfl
  · rfl

/-! ### Voices -/

@[simp] theorem fuses_showVoice (v : Nat) : (s.showVoice v).fuses = s.fuses := by
  unfold State.showVoice
  split <;> simp +decide

@[simp] theorem fuses_presentSamples (v : Nat) (d : Int) : (s.presentSamples v d).fuses = s.fuses := by
  unfold State.presentSamples
  split
  · simp
  · rfl

@[simp] theorem fuses_endItem (v : Nat) : (s.endItem v).fuses = s.fuses := by
  unfold State.endItem
  split
  · simp
  · rfl

/-! ### Jumps and the jump table -/

@[simp] theorem fuses_modJt (v n : Nat) (g : JtSt → JtSt) : (s.modJt v n g).fuses = s.fuses := by rfl

@[simp] theorem fuses_clearPending (v : Nat) : (s.clearPending v).fuses = s.fuses := by simp +decide [State.clearPending]

@[simp] theorem fuses_setLoaded (v n : Nat) (b : Bool) : (s.setLoaded v n b).fuses = s.fuses := by simp +decide [State.setLoaded]

@[simp] theorem fuses_writeJt (v n : Nat) (w : Word) (ecc : Ecc) : (s.writeJt v n w ecc).fuses = s.fuses := by simp +decide [State.writeJt]

@[simp] theorem fuses_writeSegtab (v : Nat) (w : Word) : (s.writeSegtab v w).fuses = s.fuses := by simp +decide [State.writeSegtab]

@[simp] theorem fuses_abandon (v : Nat) : (s.abandon v).fuses = s.fuses := by simp +decide [State.abandon]

@[simp] theorem fuses_startVoice (v : Nat) (p : Int) : (s.startVoice v p).fuses = s.fuses := by rfl

/-! ### What calibration, the power controller and the channels share -/

@[simp] theorem fuses_setDom (d : Nat) (on : Bool) : (s.setDom d on).fuses = s.fuses := by simp +decide [State.setDom]

@[simp] theorem fuses_setDomAsked (d : Nat) (on : Bool) : (s.setDomAsked d on).fuses = s.fuses := by simp +decide [State.setDomAsked]

@[simp] theorem fuses_showBanks (n : Nat) : (s.showBanks n).fuses = s.fuses := by simp +decide [State.showBanks]

@[simp] theorem fuses_modInactive (n : Nat) (g : CalBank → CalBank) : (s.modInactive n g).fuses = s.fuses := by simp [State.modInactive]

@[simp] theorem fuses_calWithdraw (n : Nat) : (s.calWithdraw n).fuses = s.fuses := by simp +decide [State.calWithdraw]

@[simp] theorem fuses_calRequests : s.calRequests.fuses = s.fuses := by simp +decide [State.calRequests]

@[simp] theorem fuses_calAbort (n cause : Nat) : (s.calAbort n cause).fuses = s.fuses := by simp +decide [State.calAbort]

@[simp] theorem fuses_calCut (n cause : Nat) : (s.calCut n cause).fuses = s.fuses := by simp +decide [State.calCut]

@[simp] theorem fuses_calDue (n : Nat) : (s.calDue n).fuses = s.fuses := by simp +decide [State.calDue]

@[simp] theorem fuses_calRescale (n new : Nat) : (s.calRescale n new).fuses = s.fuses := by simp [State.calRescale]

/-! ### Playing streams and fetching grains -/

@[simp] theorem fuses_dropPacket (b : Nat) : (s.dropPacket b).fuses = s.fuses := by simp +decide [State.dropPacket]

@[simp] theorem fuses_writeWords (d : Bool) (a : Nat) (l : List Word) : (s.writeWords d a l).fuses = s.fuses := by
  induction l generalizing s a with
  | nil => rfl
  | cons w ws ih => rw [State.writeWords, ih, fuses_writeWord]

@[simp] theorem fuses_storePacket (b : Nat) (p : StreamMsg) : (s.storePacket b p).fuses = s.fuses := by simp [State.storePacket]

@[simp] theorem fuses_resumePacket (v b : Nat) (g : Grid) (it : Item) (pk : Packet) (was : Int) :
    (s.resumePacket v b g it pk was).fuses = s.fuses := by simp +decide [State.resumePacket]

@[simp] theorem fuses_followPacket (b : Nat) (g : Grid) (it : Item) (pl : Placement) (pk : Packet) :
    (s.followPacket b g it pl pk).fuses = s.fuses := by simp +decide [State.followPacket]

@[simp] theorem fuses_offerPacket (v b : Nat) (g : Grid) (it : Item) (pk : Packet) (was : Int) :
    (s.offerPacket v b g it pk was).fuses = s.fuses := by
  unfold State.offerPacket
  dsimp only
  split
  · simp
  · split
    · simp
    · split
      · rfl
      · split
        · split_ifs <;> simp
        · split <;> simp

@[simp] theorem fuses_offerAll (b : Nat) (pk : Packet) : (s.offerAll b pk).fuses = s.fuses := by
  refine fuses_forN _ _ _ fun v t => ?_
  split
  · split <;> simp
  · rfl

@[simp] theorem fuses_streamRx (b : Nat) (ring : Bool) (p : StreamMsg) : (s.streamRx b ring p).fuses = s.fuses := by
  unfold State.streamRx
  split
  · dsimp only
    split <;> simp
  · split <;> simp

/-! ### Channels -/

@[simp] theorem fuses_showLat (n : Nat) : (s.showLat n).fuses = s.fuses := by simp +decide [State.showLat]

@[simp] theorem fuses_retrimLanes (n : Nat) : (s.retrimLanes n).fuses = s.fuses := by simp [State.retrimLanes]

@[simp] theorem fuses_retrim (n : Nat) : (s.retrim n).fuses = s.fuses := by simp +decide [State.retrim]

@[simp] theorem fuses_pushSet (n : Nat) (d : Int) : (s.pushSet n d).fuses = s.fuses := by rfl

@[simp] theorem fuses_retrimFrom (n : Nat) (p : Int) : (s.retrimFrom n p).fuses = s.fuses := by simp [State.retrimFrom]

@[simp] theorem fuses_retrimNow (n : Nat) : (s.retrimNow n).fuses = s.fuses := by simp [State.retrimNow]

@[simp] theorem fuses_seekJoin (v : Nat) (t : Int × Int) : (s.seekJoin v t).fuses = s.fuses := by
  unfold State.seekJoin
  split <;> simp

@[simp] theorem fuses_leaveChannel (v : Nat) (t : Int × Int) : (s.leaveChannel v t).fuses = s.fuses := by simp [State.leaveChannel]

@[simp] theorem fuses_leavers (n : Nat) (t : Int × Int) : (s.leavers n t).fuses = s.fuses := by simp [State.leavers]

@[simp] theorem fuses_defer (n addr hi lo new : Nat) : (s.defer n addr hi lo new).fuses = s.fuses := by
  unfold State.defer
  dsimp only
  split
  · rfl
  · split <;> simp

@[simp] theorem fuses_rangeMark (n : Nat) : (s.rangeMark n).fuses = s.fuses := by simp [State.rangeMark]

@[simp] theorem fuses_applyFlip (n : Nat) : (s.applyFlip n).fuses = s.fuses := by simp +decide [State.applyFlip]

@[simp] theorem fuses_settleChannel (n : Nat) (p : Int) : (s.settleChannel n p).fuses = s.fuses := by simp [State.settleChannel]

@[simp] theorem fuses_actNow (n addr hi lo : Nat) : (s.actNow n addr hi lo).fuses = s.fuses := by
  unfold State.actNow
  split
  · rfl
  · dsimp only
    split <;> simp

@[simp] theorem fuses_enableCheck (n : Nat) (t : Int × Int) : (s.enableCheck n t).fuses = s.fuses := by simp +decide [State.enableCheck]

@[simp] theorem fuses_enableChannel (n : Nat) : (s.enableChannel n).fuses = s.fuses := by simp [State.enableChannel]

@[simp] theorem fuses_showResync : s.showResync.fuses = s.fuses := by simp +decide [State.showResync]

@[simp] theorem fuses_dropRange (n : Nat) : (s.dropRange n).fuses = s.fuses := by simp [State.dropRange]

@[simp] theorem fuses_rest (n : Nat) (p : Int) : (s.rest n p).fuses = s.fuses := by simp +decide [State.rest]

@[simp] theorem fuses_cutVoices (n : Nat) : (s.cutVoices n).fuses = s.fuses := by simp [State.cutVoices]

@[simp] theorem fuses_disableChannel (n : Nat) : (s.disableChannel n).fuses = s.fuses := by simp +decide [State.disableChannel]

@[simp] theorem fuses_regrid (n : Nat) (delta : Int) : (s.regrid n delta).fuses = s.fuses := by
  unfold State.regrid
  extract_lets t g now u x
  have hx : x.fuses = s.fuses := by simp [x, u, t]
  refine (fuses_forN _ _ _ fun v y => ?_).trans hx
  split
  · split <;> simp
  · rfl

@[simp] theorem fuses_retuneChannel (n : Nat) : (s.retuneChannel n).fuses = s.fuses := by simp +decide [State.retuneChannel]

@[simp] theorem fuses_ncoResync (n : Nat) : (s.ncoResync n).fuses = s.fuses := by simp +decide [State.ncoResync]

@[simp] theorem fuses_writeStatic (r : Reg) (n : Nat) (w : Word) (hr : r ≠ .GLB_ONCE) :
    (s.writeStatic r n w).fuses = s.fuses := by simp +decide [State.writeStatic, hr]

@[simp] theorem fuses_writeRuntime (r : Reg) (n j hi lo : Nat) (w : Word) (hr : r ≠ .GLB_ONCE) :
    (s.writeRuntime r n j hi lo w).fuses = s.fuses := by simp [State.writeRuntime, hr]

@[simp] theorem fuses_writeTrim (n : Nat) (w : Word) : (s.writeTrim n w).fuses = s.fuses := by simp [State.writeTrim]

@[simp] theorem fuses_writeSlot (n p : Nat) (w : Word) : (s.writeSlot n p w).fuses = s.fuses := by simp +decide [State.writeSlot]

@[simp] theorem fuses_writeDacCfg (n : Nat) (w : Word) : (s.writeDacCfg n w).fuses = s.fuses := by simp +decide [State.writeDacCfg]

@[simp] theorem fuses_writeMute (n : Nat) (w : Word) : (s.writeMute n w).fuses = s.fuses := by simp [State.writeMute]

@[simp] theorem fuses_writeRange (n : Nat) (w : Word) : (s.writeRange n w).fuses = s.fuses := by simp +decide [State.writeRange]

/-! ### What every source of a change of device time shares -/

@[simp] theorem fuses_foldUnc : s.foldUnc.fuses = s.fuses :=
  (fuses_with_time _ _).trans (fuses_setF s F.TM_UNC_DTIME_UNC _ 0 0 (by decide))

@[simp] theorem fuses_setUnc (b : Nat) : (s.setUnc b).fuses = s.fuses :=
  (fuses_with_time _ _).trans (fuses_setF s F.TM_UNC_DTIME_UNC _ 0 0 (by decide))

@[simp] theorem fuses_addUnc (z : Int) : (s.addUnc z).fuses = s.fuses := by simp +decide [State.addUnc]

@[simp] theorem fuses_setHoldover (remain build : Int) : (s.setHoldover remain build).fuses = s.fuses := by simp +decide [State.setHoldover]

@[simp] theorem fuses_foldSlew : s.foldSlew.fuses = s.fuses :=
  (fuses_with_time _ _).trans (fuses_setHoldover s _ _)

@[simp] theorem fuses_showHoldover : s.showHoldover.fuses = s.fuses := by simp +decide [State.showHoldover]

@[simp] theorem fuses_dropRemain : s.dropRemain.fuses = s.fuses := by simp [State.dropRemain]

@[simp] theorem fuses_setRefState (st : Nat) : (s.setRefState st).fuses = s.fuses := by simp +decide [State.setRefState]

@[simp] theorem fuses_setSpState (q st : Nat) : (s.setSpState q st).fuses = s.fuses := by simp +decide [State.setSpState]

@[simp] theorem fuses_moveInstants (d : Int) : (s.moveInstants d).fuses = s.fuses := by rfl

@[simp] theorem fuses_stepTime (delta : Int) : (s.stepTime delta).fuses = s.fuses := by simp +decide [State.stepTime, ↓fuses_with_time]

/-! ### Clock synthesis -/

@[simp] theorem fuses_setRefValid (x : Nat) (v : Bool) : (s.setRefValid x v).fuses = s.fuses := by simp +decide [State.setRefValid]

@[simp] theorem fuses_setRefQual (x : Nat) (v : Bool) : (s.setRefQual x v).fuses = s.fuses := by simp +decide [State.setRefQual]

@[simp] theorem fuses_flagRefLost (x : Nat) : (s.flagRefLost x).fuses = s.fuses := by simp +decide [State.flagRefLost]

@[simp] theorem fuses_refCompares : s.refCompares.fuses = s.fuses := by rfl

@[simp] theorem fuses_refSwitch (x : Nat) : (s.refSwitch x).fuses = s.fuses := by simp +decide [State.refSwitch]

@[simp] theorem fuses_refCoast : s.refCoast.fuses = s.fuses := by simp +decide [State.refCoast, ↓fuses_with_clock]

@[simp] theorem fuses_refLose : s.refLose.fuses = s.fuses := by
  unfold State.refLose
  split
  · simp
  · split <;> simp +decide

@[simp] theorem fuses_coastSwitch (x : Nat) : (s.coastSwitch x).fuses = s.fuses := by simp [State.coastSwitch, ↓fuses_with_clock]

@[simp] theorem fuses_coastOn : s.coastOn.fuses = s.fuses := by
  unfold State.coastOn
  split_ifs <;> simp +decide [↓fuses_with_clock]

@[simp] theorem fuses_refReview (chosen : Bool) : (s.refReview chosen).fuses = s.fuses := by
  unfold State.refReview
  split <;> simp +decide

@[simp] theorem fuses_refInvalid (x : Nat) : (s.refInvalid x).fuses = s.fuses := by simp [State.refInvalid]

@[simp] theorem fuses_refJudge (x : Nat) : (s.refJudge x).fuses = s.fuses := by simp [State.refJudge]

@[simp] theorem fuses_writeRefCfg (w : Word) : (s.writeRefCfg w).fuses = s.fuses := by simp [State.writeRefCfg]

@[simp] theorem fuses_eachOf (q : Nat) (f : Nat → State → State) (hf : ∀ i t, (f i t).fuses = t.fuses) :
    (s.eachOf q f).fuses = s.fuses := by simp [State.eachOf, hf]

@[simp] theorem fuses_acquire (q : Nat) (w : Word) : (s.acquire q w).fuses = s.fuses := by simp +decide [State.acquire]

@[simp] theorem fuses_followFreq (q old : Nat) : (s.followFreq q old).fuses = s.fuses := by simp [State.followFreq]

@[simp] theorem fuses_writeSpFreq (q : Nat) (w : Word) : (s.writeSpFreq q w).fuses = s.fuses := by simp [State.writeSpFreq]

@[simp] theorem fuses_retrimIdle (n : Nat) : (s.retrimIdle n).fuses = s.fuses := by simp [State.retrimIdle]

@[simp] theorem fuses_spindleOn (q : Nat) : (s.spindleOn q).fuses = s.fuses := by simp [State.spindleOn]

@[simp] theorem fuses_spLocked (q : Nat) : (s.spLocked q).fuses = s.fuses := by simp [State.spLocked]

@[simp] theorem fuses_spindleOff (q : Nat) : (s.spindleOff q).fuses = s.fuses := by simp +decide [State.spindleOff]

@[simp] theorem fuses_spRetune (q : Nat) : (s.spRetune q).fuses = s.fuses := by simp +decide [State.spRetune]

@[simp] theorem fuses_spBmeas (q : Nat) : (s.spBmeas q).fuses = s.fuses := by simp +decide [State.spBmeas]

@[simp] theorem fuses_spRelease (q : Nat) : (s.spRelease q).fuses = s.fuses := by simp [State.spRelease]

@[simp] theorem fuses_writeSpCtl (q : Nat) (stored w : Word) : (s.writeSpCtl q stored w).fuses = s.fuses := by simp [State.writeSpCtl]

@[simp] theorem fuses_setAuxState (i st : Nat) : (s.setAuxState i st).fuses = s.fuses := by simp +decide [State.setAuxState]

@[simp] theorem fuses_foldTo (i t : Nat) : (s.foldTo i t).fuses = s.fuses := by rfl

@[simp] theorem fuses_auxFold (i : Nat) : (s.auxFold i).fuses = s.fuses := by rfl

@[simp] theorem fuses_auxAcquire (i : Nat) : (s.auxAcquire i).fuses = s.fuses := by simp [State.auxAcquire]

@[simp] theorem fuses_auxApply (i : Nat) : (s.auxApply i).fuses = s.fuses := by
  unfold State.auxApply
  dsimp only
  split_ifs <;> simp +decide

@[simp] theorem fuses_auxStart (i : Nat) : (s.auxStart i).fuses = s.fuses := by simp [State.auxStart]

@[simp] theorem fuses_rampGo (i at_ : Nat) : (s.rampGo i at_).fuses = s.fuses := by simp +decide [State.rampGo]

@[simp] theorem fuses_auxArm (i : Nat) : (s.auxArm i).fuses = s.fuses := by simp +decide [State.auxArm]

@[simp] theorem fuses_auxRampStop (i : Nat) : (s.auxRampStop i).fuses = s.fuses := by simp +decide [State.auxRampStop]

@[simp] theorem fuses_writeAuxCtl (i : Nat) (stored w : Word) : (s.writeAuxCtl i stored w).fuses = s.fuses := by simp [State.writeAuxCtl]

@[simp] theorem fuses_writeAuxPoint (r : Reg) (i k : Nat) (w : Word) (hr : r ≠ .GLB_ONCE) :
    (s.writeAuxPoint r i k w).fuses = s.fuses := by simp +decide [State.writeAuxPoint, hr]

@[simp] theorem fuses_coBegin (j : Nat) : (s.coBegin j).fuses = s.fuses := by rfl

@[simp] theorem fuses_writeCoCfg (j : Nat) (w : Word) : (s.writeCoCfg j w).fuses = s.fuses := by simp +decide [State.writeCoCfg]

/-! ### What a port sends -/

@[simp] theorem fuses_modPort (p : Nat) (g : PortSt → PortSt) : (s.modPort p g).fuses = s.fuses := by rfl

@[simp] theorem fuses_requestVector (i : Nat) :
    (s.requestVector i).fuses = s.fuses := by simp +decide [State.requestVector, ↓fuses_with_link]

@[simp] theorem fuses_writeMsix (i : Nat) (w : Word) : (s.writeMsix i w).fuses = s.fuses := by simp +decide [State.writeMsix]

@[simp] theorem fuses_nextSession (p : Nat) : (s.nextSession p).fuses = s.fuses := by simp +decide [State.nextSession]

@[simp] theorem fuses_dropMessage (p : Nat) : (s.dropMessage p).fuses = s.fuses := by simp +decide [State.dropMessage]

@[simp] theorem fuses_ringRequest : s.ringRequest.fuses = s.fuses := by simp [State.ringRequest]

@[simp] theorem fuses_ringWrite : s.ringWrite.fuses = s.fuses := by simp +decide [State.ringWrite, ↓fuses_with_link]

@[simp] theorem fuses_sendFrame (p : Nat) (m : Sent) : (s.sendFrame p m).fuses = s.fuses := by simp [State.sendFrame]

@[simp] theorem fuses_flushRing : s.flushRing.fuses = s.fuses := by simp [State.flushRing]

@[simp] theorem fuses_releaseTx (p : Nat) : (s.releaseTx p).fuses = s.fuses := by
  unfold State.releaseTx
  dsimp only
  split
  · simp
  · rw [fuses_foldl _ _ _ fun t m => fuses_sendFrame t p m]
    simp +decide

@[simp] theorem fuses_offerTx (p : Nat) (m : Sent) : (s.offerTx p m).fuses = s.fuses := by
  unfold State.offerTx
  split
  · dsimp only
    split
    · simp +decide
    · split_ifs <;> simp +decide
  · simp

@[simp] theorem fuses_transmit (p : Nat) (m : MlpOut) : (s.transmit p m).fuses = s.fuses := by simp [State.transmit]

@[simp] theorem fuses_flushNotes (p : Nat) : (s.flushNotes p).fuses = s.fuses := by simp [State.flushNotes]

@[simp] theorem fuses_queueNote (p : Nat) (m : MlpOut) : (s.queueNote p m).fuses = s.fuses := by simp [State.queueNote]

@[simp] theorem fuses_postNote (p kind : Nat) (sc1 : Bool) (payload : List Byte) :
    (s.postNote p kind sc1 payload).fuses = s.fuses := by simp +decide [State.postNote]

@[simp] theorem fuses_postAll (kind : Nat) (sc1 : Bool) (payload : List Byte) :
    (s.postAll kind sc1 payload).fuses = s.fuses := by simp [State.postAll]

@[simp] theorem fuses_noteBind (p : Nat) : (s.noteBind p).fuses = s.fuses := by simp [State.noteBind]

@[simp] theorem fuses_notePtp : s.notePtp.fuses = s.fuses := by simp [State.notePtp]

/-! ### Who accesses registers and what protection lets through -/

@[simp] theorem fuses_keepTable : s.keepTable.fuses = s.fuses := by
  unfold State.keepTable
  split <;> rfl

@[simp] theorem fuses_refuseAccess (q : Requester) (c : Cause) (read : Bool) (space addr : Nat) :
    (s.refuseAccess q c read space addr).fuses = s.fuses := by
  have hk : ∀ (t : State) (w : Word), State.fuses { t.setRw .PROT_LAST w with bus := { t.bus with refusedAt := some s.now } } = t.fuses :=
    fun t w => Prod.ext (rw_setRw_ne t w (addr_ne_glbOnce (r := .PROT_LAST) (by decide) 0 0)) rfl
  unfold State.refuseAccess
  dsimp only
  by_cases h : s.keepsRefused q space addr = true
  · rw [if_pos h]
    split <;> simp
  · rw [if_neg h]
    split
    · rw [fuses_fireNow, hk, fuses_trouble]
    · rw [hk, fuses_trouble]

@[simp] theorem fuses_keepLock (k : Nat) : (s.keepLock k).fuses = s.fuses := by
  unfold State.keepLock
  split <;> rfl

/-! ### Device time -/

@[simp] theorem fuses_refuseTime (code : Nat) : (s.refuseTime code).fuses = s.fuses := by simp +decide [State.refuseTime]

@[simp] theorem fuses_awaitPps (align : Bool) : (s.awaitPps align).fuses = s.fuses :=
  (fuses_with_time _ _).trans (fuses_flag s F.TM_CMD_GO 0 0 (by decide))

@[simp] theorem fuses_endPps : s.endPps.fuses = s.fuses :=
  (fuses_with_time _ _).trans (fuses_clr s F.TM_CMD_GO 0 0 (by decide))

@[simp] theorem fuses_stepRemain : s.stepRemain.fuses = s.fuses := by simp [State.stepRemain]

@[simp] theorem fuses_timeCommand (op : Nat) : (s.timeCommand op).fuses = s.fuses := by simp [State.timeCommand]

@[simp] theorem fuses_writeTmCmd (stored w : Word) : (s.writeTmCmd stored w).fuses = s.fuses := by simp [State.writeTmCmd]

@[simp] theorem fuses_writeHoCfg (w : Word) : (s.writeHoCfg w).fuses = s.fuses := by simp [State.writeHoCfg]

/-! ### The IEEE 1588-2019 time service -/

@[simp] theorem fuses_modPtp (g : PtpSt → PtpSt) : (s.modPtp g).fuses = s.fuses := by rfl

@[simp] theorem fuses_showPortState (i : Nat) : (s.showPortState i).fuses = s.fuses := by simp +decide [State.showPortState]

@[simp] theorem fuses_showPtpPorts : s.showPtpPorts.fuses = s.fuses := by simp +decide [State.showPtpPorts]

@[simp] theorem fuses_setServo (st : Nat) : (s.setServo st).fuses = s.fuses := by simp +decide [State.setServo]

@[simp] theorem fuses_ptpConfigured : s.ptpConfigured.fuses = s.fuses := by simp +decide [State.ptpConfigured]

@[simp] theorem fuses_setDataset (id : Nat) (data : List Byte) :
    (s.setDataset id data).fuses = s.fuses := by simp +decide [State.setDataset]

/-! ### Cable-delay measurement on PORT1 to PORT4 -/

@[simp] theorem fuses_cableBegin (i : Nat) : (s.cableBegin i).fuses = s.fuses := by simp +decide [State.cableBegin]

@[simp] theorem fuses_writeCdCfg (i : Nat) (stored w : Word) : (s.writeCdCfg i stored w).fuses = s.fuses := by simp [State.writeCdCfg]

/-! ### The memory system -/

@[simp] theorem fuses_modMem (g : MemSt → MemSt) : (s.modMem g).fuses = s.fuses := by rfl

@[simp] theorem fuses_writeMasked (d : Bool) (a : Nat) (be : BitVec 8) (data : Word) (e : Ecc) (req : Nat) :
    (s.writeMasked d a be data e req).fuses = s.fuses := by
  unfold State.writeMasked
  dsimp only
  split_ifs <;> simp [↓fuses_with_poison]

@[simp] theorem fuses_readChecked (d : Bool) (a : Nat) (e : Ecc) (req : Nat) :
    (s.readChecked d a e req).fuses = s.fuses := by simp [State.readChecked]

@[simp] theorem fuses_writeMemPool (w : Word) : (s.writeMemPool w).fuses = s.fuses := by simp +decide [State.writeMemPool]

@[simp] theorem fuses_setDdr (c st : Nat) : (s.setDdr c st).fuses = s.fuses := by simp +decide [State.setDdr]

@[simp] theorem fuses_writeMemCfg (w : Word) : (s.writeMemCfg w).fuses = s.fuses := by simp +decide [State.writeMemCfg]

@[simp] theorem fuses_zeroBanks (p : Nat → Bool) : (s.zeroBanks p).fuses = s.fuses := by rfl

@[simp] theorem fuses_startFill (l : List Nat) : (s.startFill l).fuses = s.fuses := by rfl

@[simp] theorem fuses_loseDram : s.loseDram.fuses = s.fuses := by rfl

@[simp] theorem fuses_dropRun (r : TrainRun) : (s.dropRun r).fuses = s.fuses := by simp +decide [State.dropRun]

@[simp] theorem fuses_tryTrain : s.tryTrain.fuses = s.fuses := by
  unfold State.tryTrain
  split <;> simp +decide

@[simp] theorem fuses_nextTrain : s.nextTrain.fuses = s.fuses := by
  unfold State.nextTrain
  split
  · rfl
  · split
    · dsimp only
      split_ifs <;> simp +decide
    · rfl

@[simp] theorem fuses_askTrain (r : TrainRun) : (s.askTrain r).fuses = s.fuses := by simp [State.askTrain]

@[simp] theorem fuses_writeMemTrain (stored w : Word) : (s.writeMemTrain stored w).fuses = s.fuses := by simp +decide [State.writeMemTrain]

@[simp] theorem fuses_beginChange : s.beginChange.fuses = s.fuses := by simp [State.beginChange]

@[simp] theorem fuses_refuseFreq (code : Nat) : (s.refuseFreq code).fuses = s.fuses := by simp +decide [State.refuseFreq]

@[simp] theorem fuses_writeMemFreq (stored w : Word) : (s.writeMemFreq stored w).fuses = s.fuses := by simp +decide [State.writeMemFreq]

/-! ### Calibration -/

@[simp] theorem fuses_setRest64 (i : Nat) (w : Word) : (s.setRest64 i w).fuses = s.fuses := by rfl

@[simp] theorem fuses_showStore : s.showStore.fuses = s.fuses := by
  unfold State.showStore
  split <;> simp +decide

@[simp] theorem fuses_putRest (i : Nat) (l : List Word) : (s.putRest i l).fuses = s.fuses := by
  induction l generalizing s i with
  | nil => rfl
  | cons w ws ih => rw [State.putRest, ih, fuses_setRest64]

@[simp] theorem fuses_requestStore : s.requestStore.fuses = s.fuses := by simp +decide [State.requestStore, ↓fuses_with_calStoreAgain]

@[simp] theorem fuses_writeStore : s.writeStore.fuses = s.fuses := by simp [State.writeStore]

@[simp] theorem fuses_loseBanks (n : Nat) : (s.loseBanks n).fuses = s.fuses := by simp +decide [State.loseBanks]

@[simp] theorem fuses_loadBanks (n : Nat) : (s.loadBanks n).fuses = s.fuses := by simp +decide [State.loadBanks]

@[simp] theorem fuses_hostFlip (n : Nat) : (s.hostFlip n).fuses = s.fuses := by simp +decide [State.hostFlip]

@[simp] theorem fuses_writeCalCtl (n : Nat) (stored w : Word) : (s.writeCalCtl n stored w).fuses = s.fuses := by simp [State.writeCalCtl]

@[simp] theorem fuses_writeBank (n j : Nat) (w : Word) : (s.writeBank n j w).fuses = s.fuses := by simp +decide [State.writeBank]

/-! ### What an instruction of a Sequencer Core does -/

@[simp] theorem fuses_setSt (k n : Nat) : (s.setSt k n).fuses = s.fuses := by simp +decide [State.setSt]

@[simp] theorem fuses_setGreg (k : Nat) (r : Fin 32) (w : Word) : (s.setGreg k r w).fuses = s.fuses := by simp [State.setGreg]

@[simp] theorem fuses_setPc (k n : Nat) : (s.setPc k n).fuses = s.fuses := by rfl

@[simp] theorem fuses_setDmem (k i : Nat) (w : Word) : (s.setDmem k i w).fuses = s.fuses := by rfl

@[simp] theorem fuses_coreFault (k code : Nat) : (s.coreFault k code).fuses = s.fuses := by simp +decide [State.coreFault]

/-- The fuses of the state that an instruction's result holds. -/
def CoreRes.fuses : CoreRes → Word × Bool
  | .fault _ t => t.fuses
  | .next _ t => t.fuses
  | .stay t => t.fuses

@[simp] theorem fuses_resFault (c : Nat) (t : State) : (CoreRes.fault c t).fuses = t.fuses := rfl
@[simp] theorem fuses_resNext (p : Nat) (t : State) : (CoreRes.next p t).fuses = t.fuses := rfl
@[simp] theorem fuses_resStay (t : State) : (CoreRes.stay t).fuses = t.fuses := rfl

@[simp] theorem fuses_apply (r : CoreRes) (k : Nat) : (r.apply k).fuses = r.fuses := by
  cases r <;> simp [CoreRes.apply]

@[simp] theorem fuses_emitNow (k : Nat) (q : QEntry) : (s.emitNow k q).fuses = s.fuses := by
  unfold State.emitNow
  dsimp only
  rw [fuses_refill, fuses_modVoice]
  split <;> simp

@[simp] theorem fuses_coreAlloc (k region : Nat) (size : Word) : (s.coreAlloc k region size).2.fuses = s.fuses := by
  unfold State.coreAlloc
  dsimp only
  split
  · rfl
  · split
    · rfl
    · split
      · next he => exact fuses_alloc he
      · simp

@[simp] theorem fuses_coreAttach (k : Nat) (h : Word) : (s.coreAttach k h).2.fuses = s.fuses := by
  unfold State.coreAttach
  split
  · rfl
  · split
    · rfl
    · simp

@[simp] theorem fuses_copyIn (k : Nat) (dram : Bool) (addr dst : Nat) (ecc : Ecc) (n : Nat) :
    (s.copyIn k dram addr dst ecc n).fuses = s.fuses := by simp [State.copyIn]

@[simp] theorem fuses_copyOut (k : Nat) (dram : Bool) (addr src n : Nat) :
    (s.copyOut k dram addr src n).fuses = s.fuses := by simp [State.copyOut]

@[simp] theorem fuses_bufGet (k : Nat) (h off : Word) (daddr n : Nat) (ecc : Ecc) : (s.bufGet k h off daddr n ecc).2.fuses = s.fuses := by
  unfold State.bufGet
  split <;> simp

@[simp] theorem fuses_bufPut (k : Nat) (h off : Word) (daddr n : Nat) : (s.bufPut k h off daddr n).2.fuses = s.fuses := by
  unfold State.bufPut
  split <;> simp

@[simp] theorem fuses_selectInputs (k : Nat) (eca ecb : BitVec 8) :
    (s.selectInputs k eca ecb).fuses = s.fuses := by simp [State.selectInputs]

@[simp] theorem fuses_takeLatches (k : Nat) (d : Fin 32) : (s.takeLatches k d).fuses = s.fuses := by simp [State.takeLatches]

@[simp] theorem fuses_setPhase (k p : Nat) : (s.setPhase k p).fuses = s.fuses := by simp +decide [State.setPhase]

@[simp] theorem fuses_fetch (k : Nat) (e : Ecc) : (s.fetch k e).2.fuses = s.fuses := by
  unfold State.fetch
  split_ifs <;> simp

@[simp] theorem fuses_result (k : Nat) (d : Fin 32) (w : Word) : (s.result k d w).fuses = s.fuses := by
  simp [State.result]

theorem fuses_goTo (k tgt : Nat) : (s.goTo k tgt).fuses = s.fuses := by
  unfold State.goTo
  split <;> rfl

theorem fuses_branch (k : Nat) (c : Cond) (a b : Word) (tgt : Fin 8192) : (s.branch k c a b tgt).fuses = s.fuses := by
  unfold State.branch
  split
  · exact fuses_goTo s k tgt
  · rfl

theorem fuses_dataAt (addr : Nat) (go : Nat → CoreRes) (h : ∀ i, (go i).fuses = s.fuses) : (s.dataAt addr go).fuses = s.fuses := by
  unfold State.dataAt
  split
  · rfl
  · split
    · rfl
    · exact h _

theorem fuses_load (k : Nat) (d : Fin 32) (addr : Nat) (ecc : Ecc) : (s.load k d addr ecc).fuses = s.fuses :=
  fuses_dataAt s addr _ fun i => by split <;> simp

theorem fuses_emit (k : Nat) (step : Bool) (q : QEntry) : (s.emit k step q).fuses = s.fuses := by
  unfold State.emit
  split
  · simp
  · split <;> simp

@[simp] theorem fuses_emitIf (k : Nat) (step good : Bool) (d : Desc) : (s.emitIf k step good d).fuses = s.fuses := by
  unfold State.emitIf
  split
  · rfl
  · exact fuses_emit s k step _

theorem fuses_play (k : Nat) (step : Bool) (kerf seg : Operand 16) (ecc : Ecc) : (s.play k step kerf seg ecc).fuses = s.fuses := by
  unfold State.play
  extract_lets g t ws d u
  have ht : t.fuses = s.fuses := by unfold t; split <;> simp
  have hu : u.fuses = s.fuses := by
    rw [← ht]; unfold u; split <;> simp
  split_ifs <;> simp [ht, hu, fuses_emit]

@[simp] theorem fuses_blockOn (k : Nat) (step : Bool) : (s.blockOn k step).fuses = s.fuses := by
  unfold State.blockOn
  split <;> simp

theorem fuses_evtWait (s : State) (k : Nat) (step : Bool) (d : Fin 32) (eca ecb : BitVec 8) (tmo : BitVec 24) :
    (s.evtWait k step d eca ecb tmo).fuses = s.fuses := by
  unfold State.evtWait
  split
  · rfl
  · dsimp only
    split
    · simp
    · split <;> simp

theorem fuses_budget (k : Nat) (step : Bool) (d : Fin 32) (cls p : Nat) : (s.budget k step d cls p).fuses = s.fuses := by
  unfold State.budget
  split_ifs <;> simp +decide

theorem fuses_perform (k : Nat) (step : Bool) (o : CoreOp) (ecc : Ecc) : (s.perform k step o ecc).fuses = s.fuses := by
  cases o <;> dsimp only [State.perform]
  case ld => exact fuses_load ..
  case st => exact fuses_dataAt _ _ _ fun i => by simp
  case br => exact fuses_branch ..
  case bi => exact fuses_branch ..
  case goto_ => exact fuses_goTo ..
  case call => split_ifs <;> simp +decide
  case ret => split_ifs <;> simp +decide
  case play => exact fuses_play ..
  case bufFree => split_ifs <;> simp [fuses_emit]
  case bufFence => split_ifs <;> simp
  case bufGet => split_ifs <;> simp
  case bufPut => split_ifs <;> simp
  case evtFire => split_ifs <;> simp
  case evtWaitArm => split_ifs <;> simp
  case evtWait => exact fuses_evtWait ..
  case budget => exact fuses_budget ..
  all_goals simp

@[simp] theorem fuses_runOne (k : Nat) (step : Bool) (want : Option CoreOp) (e ecc : Ecc) :
    (s.runOne k step want e ecc).fuses = s.fuses := by
  unfold State.runOne
  have ht := fuses_fetch s k e
  split
  · next he => rw [he] at ht; rw [fuses_coreFault]; exact ht
  · next he =>
    rw [he] at ht
    split
    · rw [fuses_apply, fuses_perform]; exact ht
    · rfl

/-! ### Loading, arming, starting, stopping and admitting a core -/

@[simp] theorem fuses_ignoreCmd (k : Nat) : (s.ignoreCmd k).fuses = s.fuses := by simp +decide [State.ignoreCmd]

@[simp] theorem fuses_startCore (k : Nat) : (s.startCore k).fuses = s.fuses := by simp +decide [State.startCore]

@[simp] theorem fuses_startTimed (k : Nat) (late : Bool) : (s.startTimed k late).fuses = s.fuses := by simp +decide [State.startTimed]

@[simp] theorem fuses_arm (k : Nat) : (s.arm k).fuses = s.fuses := by simp +decide [State.arm]

@[simp] theorem fuses_startSource (k : Nat) : (s.startSource k).fuses = s.fuses := by simp +decide [State.startSource]

@[simp] theorem fuses_hostStart (k : Nat) : (s.hostStart k).fuses = s.fuses := by simp [State.hostStart]

@[simp] theorem fuses_dropUncommitted (k : Nat) : (s.dropUncommitted k).fuses = s.fuses := by simp [State.dropUncommitted]

@[simp] theorem fuses_halt (k : Nat) : (s.halt k).fuses = s.fuses := by simp [State.halt]

@[simp] theorem fuses_stop (k : Nat) : (s.stop k).fuses = s.fuses := by
  unfold State.stop
  split
  · simp
  · simp
  · split <;> simp
  · split <;> simp
  · split <;> simp
  · split <;> simp
  · simp

@[simp] theorem fuses_resume (k : Nat) : (s.resume k).fuses = s.fuses := by simp +decide [State.resume]

@[simp] theorem fuses_clearRegs (k : Nat) : (s.clearRegs k).fuses = s.fuses := by simp +decide [State.clearRegs]

@[simp] theorem fuses_raiseSince (v : Nat) : (s.raiseSince v).fuses = s.fuses := by
  unfold State.raiseSince
  dsimp only
  split <;> simp

@[simp] theorem fuses_coreReset (k : Nat) : (s.coreReset k).fuses = s.fuses := by simp +decide [State.coreReset]

@[simp] theorem fuses_stepCore (k : Nat) (e ecc : Ecc) : (s.stepCore k e ecc).fuses = s.fuses := by simp [State.stepCore]

@[simp] theorem fuses_coreCtl (k w : Nat) (e ecc : Ecc) : (s.coreCtl k w e ecc).fuses = s.fuses := by simp [State.coreCtl]

theorem sget_filter {α : Type} (d : Nat → α) (m : List (Nat × α)) (p : Nat × α → Bool) {k : Nat} (h : ∀ v, p (k, v) = true) :
    sget d (m.filter p) k = sget d m k := by
  induction m with
  | nil => rfl
  | cons x m ih =>
    obtain ⟨b, v⟩ := x
    by_cases hb : b = k
    · subst hb; simp [h, sget]
    · by_cases hp : p (b, v) = true <;> simp [hp, sget, hb, ih]

/-- Forgetting register words keeps the fuses where GLB_ONCE stays. -/
theorem fuses_filter (s : State) (p : Nat × Word → Bool) (h : ∀ w, p (0x18, w) = true) :
    State.fuses { s with regs := s.regs.filter p } = s.fuses :=
  Prod.ext (sget_filter resetAt s.regs p h) rfl

theorem fuses_wipe (s : State) {lo hi : Nat} (h : 0x18 < lo) : (s.wipe lo hi).fuses = s.fuses :=
  fuses_filter s _ fun w => by simp [h]

@[simp] theorem fuses_loseCore (k : Nat) : (s.loseCore k).fuses = s.fuses := by
  unfold State.loseCore
  extract_lets x t1 t2 t3 start t4 src t5
  have h3 : t3.fuses = s.fuses := by simp [t3, t2, t1]
  have h4 : t4.fuses = s.fuses := by rw [← h3]; exact (fuses_wipe _ (by omega)).trans (fuses_wipe _ (by omega))
  have h5 : t5.fuses = s.fuses :=
    (fuses_with_dmem _ _).trans ((fuses_wipe t4 (by unfold voiceBase; omega)).trans h4)
  rw [fuses_setRw _ _ _ _ _ (by decide), h5]

@[simp] theorem fuses_clusterOff (c : Nat) : (s.clusterOff c).fuses = s.fuses := by simp [State.clusterOff]

@[simp] theorem fuses_clusterOn (c : Nat) : (s.clusterOn c).fuses = s.fuses := by simp [State.clusterOn]

/-! ### Power states -/

@[simp] theorem fuses_modPower (g : PowerSt → PowerSt) : (s.modPower g).fuses = s.fuses := by rfl

@[simp] theorem fuses_setMail (off n v : Nat) : (s.setMail off n v).fuses = s.fuses := by simp [State.setMail]

@[simp] theorem fuses_loseVoice (v : Nat) : (s.loseVoice v).fuses = s.fuses := by simp [State.loseVoice]

@[simp] theorem fuses_loseChannel (n : Nat) : (s.loseChannel n).fuses = s.fuses := by
  unfold State.loseChannel
  extract_lets t u
  have hu : u.fuses = s.fuses := by
    rw [fuses_modChan, fuses_wipe _ (by omega)]
    exact fuses_forN _ _ _ fun i y => fuses_loseVoice y _
  refine (fuses_forN _ _ _ fun v y => ?_).trans hu
  split
  · split <;> simp
  · rfl

@[simp] theorem fuses_losePort (p : Nat) : (s.losePort p).fuses = s.fuses := by
  unfold State.losePort
  extract_lets sess t
  have h0 := fuses_filter s (fun r => !portReg p r.1) fun w => by simp [portReg]; omega
  have ht : t.fuses = s.fuses := (fuses_setF _ F.PRT_BIND_SESSION _ _ 0 (by decide)).trans h0
  rw [fuses_modPort, ht]

@[simp] theorem fuses_domainOff (d : Nat) : (s.domainOff d).fuses = s.fuses := by
  unfold State.domainOff
  rw [fuses_calRequests, fuses_setDom]
  split_ifs
  · simp
  · simp
  · simp
  · simp
  · exact Eq.trans (b := ((s.setDdr (d - 56) 0).clr F.DDR_STAT_TRAINED (d - 56)).fuses) rfl (by simp +decide)
  all_goals simp

@[simp] theorem fuses_domainOn (d : Nat) : (s.domainOn d).fuses = s.fuses := by simp [State.domainOn]

@[simp] theorem fuses_asked (d : Nat) : (s.asked d).fuses = s.fuses := by simp [State.asked]

@[simp] theorem fuses_acked (d : Nat) : (s.acked d).fuses = s.fuses := by simp [State.acked]

@[simp] theorem fuses_resumed (d : Nat) : (s.resumed d).fuses = s.fuses := by simp [State.resumed]

@[simp] theorem fuses_endRequest (result : Nat) : (s.endRequest result).fuses = s.fuses := by simp +decide [State.endRequest]

@[simp] theorem fuses_resumeAll (l : List Nat) : (s.resumeAll l).fuses = s.fuses := by simp [State.resumeAll]

@[simp] theorem fuses_refuse (l : List Nat) (d reason delays : Nat) :
    (s.refuse l d reason delays).fuses = s.fuses := by simp +decide [State.refuse]

@[simp] theorem fuses_saveList : s.saveList.fuses = s.fuses := by rfl

theorem restOwned_glbOnce : restOwned 0x18 = true := by decide

/-- What REST keeps of the registers holds GLB_ONCE (R339). -/
theorem fuses_restFilter (s t : State) (h : t.regs = s.regs.filter fun p => restOwned p.1)
    (hb : t.bus.once = s.bus.once) : t.fuses = s.fuses := by
  unfold State.fuses State.rw State.word
  rw [h, hb]
  exact congrArg (·, s.bus.once) (sget_filter resetAt s.regs _ fun _ => restOwned_glbOnce)

/-- What REST leaves of the state before registers are given back keeps the fuses. -/
theorem fuses_restCut (s : State) (m : MemSt) (p : List (Nat × PortSt)) (l : LinkSt) (c : ClockSt) (t : TimeSt) (b : BootSt) :
    State.fuses { s with
      regs := s.regs.filter fun p => restOwned p.1
      chans := [], voices := [], cores := [], dmem := [], bindings := [], trigOuts := [], trigIns := [], cals := []
      mem := m, ports := p, link := l, calStoreAgain := false, bus := { once := s.bus.once }, clock := c, time := t, boot := b } = s.fuses :=
  fuses_restFilter _ _ rfl rfl

@[simp] theorem fuses_loseRest (sc : Bool) : (s.loseRest sc).fuses = s.fuses := by
  unfold State.loseRest
  extract_lets s1 s2 s3 set trained freq held session jnl seqs tm bo t0 t1 t2 t3 t4
  have h3 : s3.fuses = s.fuses := by simp [s3, s2, s1, fuses_ite]
  have h0 : t0.fuses = s3.fuses := fuses_restCut ..
  have h1 : t1.fuses = s.fuses := by simp +decide [t1, h0, h3]
  have h2 : t2.fuses = s.fuses := by simp +decide [t2, fuses_ite, h1]
  split
  · simp +decide [t4, t3, h2]
  · exact h2

@[simp] theorem fuses_keepLines (l : List Nat) : (s.keepLines l).fuses = s.fuses := by simp [State.keepLines]

@[simp] theorem fuses_enterRest (save : Bool) : (s.enterRest save).fuses = s.fuses := by
  unfold State.enterRest
  extract_lets s1 refA freqA s2 u1 u2 u3 s3 lines t1 t2 t3 tm t4 t5
  have h1 : s1.fuses = s.fuses := by simp [s1]
  have h2 : s2.fuses = s.fuses := by simp [s2, h1, fuses_ite]
  have h3 : s3.fuses = s.fuses := by simp [s3, u3, u2, u1, h2, fuses_ite]
  have h4 : t4.fuses = t3.fuses := fuses_with_time ..
  simp +decide [t5, h4, t3, t2, t1, h3]

@[simp] theorem fuses_enterDoze (l : List Nat) : (s.enterDoze l).fuses = s.fuses := by
  unfold State.enterDoze
  dsimp only
  split <;> simp +decide [↓fuses_with_boot]

@[simp] theorem fuses_entered (h : Handshake) : (s.entered h).fuses = s.fuses := by
  unfold State.entered
  split_ifs <;> simp

@[simp] theorem fuses_askOn (h : Handshake) (l : List Nat) : (s.askOn h l).fuses = s.fuses := by
  induction l generalizing s h with
  | nil => rw [State.askOn, fuses_entered]
  | cons d ds ih =>
    have h0 : (s.asked d).fuses = s.fuses := fuses_asked s d
    rw [State.askOn]
    dsimp only
    generalize (s.asked d).refuses h.target d = why
    split_ifs <;> simp +decide [ih, h0]

@[simp] theorem fuses_beginEntry (target : Nat) (l : List Nat) :
    (s.beginEntry target l).fuses = s.fuses := by simp +decide [State.beginEntry]

@[simp] theorem fuses_putWake (src t : Nat) : (s.putWake src t).fuses = s.fuses := by simp +decide [State.putWake]

@[simp] theorem fuses_startOsc : s.startOsc.fuses = s.fuses := by rfl

@[simp] theorem fuses_switchOn (n : Nat) : (s.switchOn n).fuses = s.fuses := by
  induction n generalizing s with
  | zero => simp [State.switchOn]
  | succ k ih =>
    rw [State.switchOn]
    dsimp only
    split
    · exact ih s
    · split
      · rw [ih]; split <;> simp
      · simp

@[simp] theorem fuses_nextSupply (n : Nat) : (s.nextSupply n).fuses = s.fuses := by simp [State.nextSupply]

@[simp] theorem fuses_attempt : s.attempt.fuses = s.fuses := by simp [State.attempt]

@[simp] theorem fuses_recordWake (src t edge : Nat) : (s.recordWake src t edge).fuses = s.fuses := by
  simp +decide [State.recordWake]

@[simp] theorem fuses_wakeBy (src t : Nat) (fresh : Bool) : (s.wakeBy src t fresh).fuses = s.fuses := by
  unfold State.wakeBy
  extract_lets level edge
  split
  · split <;> simp
  · split
    · split <;> simp
    · split
      · simp +decide
      · split
        · split
          · rfl
          · simp +decide
        · rfl

@[simp] theorem fuses_setDivs (g : Nat → Nat → Nat) : (s.setDivs g).fuses = s.fuses := by simp [State.setDivs]

@[simp] theorem fuses_takeDoorbell : s.takeDoorbell.fuses = s.fuses := by simp [State.takeDoorbell, ↓fuses_with_boot]

/-! ### Power requests and domain switches as registers, Rest memory, brown-out and the Budget Governor's rows -/

@[simp] theorem fuses_showTrim : s.showTrim.fuses = s.fuses := by simp +decide [State.showTrim]

@[simp] theorem fuses_powerRequest (target : Nat) : (s.powerRequest target).fuses = s.fuses := by simp +decide [State.powerRequest]

@[simp] theorem fuses_writePwrReq (stored w : Word) : (s.writePwrReq stored w).fuses = s.fuses := by simp +decide [State.writePwrReq]

@[simp] theorem fuses_writeDomOn (j : Nat) (w : Word) : (s.writeDomOn j w).fuses = s.fuses := by
  unfold State.writeDomOn
  split <;> simp +decide

@[simp] theorem fuses_nextRest : s.nextRest.fuses = s.fuses := by simp +decide [State.nextRest]

@[simp] theorem fuses_writeRest (w : Word) : (s.writeRest w).fuses = s.fuses := by simp +decide [State.writeRest]

@[simp] theorem fuses_readRest (e : Ecc) : (s.readRest e).fuses = s.fuses := by simp [State.readRest]

/-! ### Writes and reads of BAR0 -/

@[simp] theorem fuses_clrAll (l : List Fld) (i : Nat) (hl : ∀ x ∈ l, x.reg ≠ .GLB_ONCE) : (s.clrAll l i).fuses = s.fuses := by
  induction l generalizing s with
  | nil => rfl
  | cons x l ih =>
    rw [State.clrAll, List.foldl_cons]
    exact (ih _ fun y hy => hl y (by simp [hy])).trans (fuses_clr s x i 0 (hl x (by simp)))

@[simp] theorem fuses_clearGlobal (n : Nat) : (s.clearGlobal n).fuses = s.fuses := by
  unfold State.clearGlobal
  extract_lets t
  have ht : t.fuses = s.fuses := fuses_forN _ _ _ fun k u => by
    split
    · exact fuses_clr u (troubleFld k) (k / 4) 0 (by simp [troubleFld])
    · rfl
  split
  · exact (fuses_forN _ _ _ fun q u => fuses_clr u F.SP_STATUS_UNLK_CNT q 0 (by decide)).trans ht
  · exact ht

@[simp] theorem fuses_clearBlock (r : Reg) (i n : Nat) (hr : r ≠ .GLB_ONCE) : (s.clearBlock r i n).fuses = s.fuses := by
  have hl : ∀ b l, blockCounts r = some (b, l) → ∀ x ∈ l, x.reg ≠ .GLB_ONCE := by
    intro b l hbl
    cases r <;> cases hbl <;> decide
  unfold State.clearBlock
  split
  · next hbl =>
    split
    · rfl
    · split
      · simp
      · exact fuses_clrAll s _ i (hl _ _ hbl)
  · rfl

@[simp] theorem fuses_endInjection (p : Nat) : (s.endInjection p).fuses = s.fuses := by simp +decide [State.endInjection]

@[simp] theorem fuses_writeFi (p : Nat) (w : Word) : (s.writeFi p w).fuses = s.fuses := by simp [State.writeFi]

@[simp] theorem fuses_rebind (p : Nat) (old : Word) : (s.rebind p old).fuses = s.fuses := by rfl

@[simp] theorem fuses_writeBind (r : Reg) (i : Nat) (w : Word) (hr : r ≠ .GLB_ONCE) :
    (s.writeBind r i w).fuses = s.fuses := by simp [State.writeBind, hr]

@[simp] theorem fuses_writeStmCfg (b : Nat) (w : Word) : (s.writeStmCfg b w).fuses = s.fuses := by simp [State.writeStmCfg]

@[simp] theorem fuses_writeStmRing (b : Nat) (w : Word) : (s.writeStmRing b w).fuses = s.fuses := by simp [State.writeStmRing]

@[simp] theorem fuses_writeBufCmd (stored w : Word) : (s.writeBufCmd stored w).fuses = s.fuses := by simp +decide [State.writeBufCmd]

@[simp] theorem fuses_writeChCtl (n : Nat) (stored w : Word) :
    (s.writeChCtl n stored w).fuses = s.fuses := by simp +decide [State.writeChCtl]

@[simp] theorem fuses_writeSrc (r : Reg) (c : Nat) (w : Word) (hr : r ≠ .GLB_ONCE) :
    (s.writeSrc r c w).fuses = s.fuses := by simp +decide [State.writeSrc, hr]

@[simp] theorem fuses_writeRelay (r : Nat) (w : Word) : (s.writeRelay r w).fuses = s.fuses := by
  have hg := fuses_guarded s .EVR_CFG w r (by decide)
  unfold State.writeRelay
  dsimp only
  split
  · next he => rw [he] at hg; rw [fuses_afterRelayWrite]; exact hg
  · next he => rw [he] at hg; exact hg

@[simp] theorem fuses_writeCoreQueue (k : Nat) (stored : Word) :
    (s.writeCoreQueue k stored).fuses = s.fuses := by simp [State.writeCoreQueue]

@[simp] theorem fuses_nextDmem (k : Nat) : (s.nextDmem k).fuses = s.fuses := by simp +decide [State.nextDmem]

@[simp] theorem fuses_writeDmem (k : Nat) (w : Word) : (s.writeDmem k w).fuses = s.fuses := by simp [State.writeDmem]

@[simp] theorem fuses_writeImage (r : Reg) (k j : Nat) (w : Word) (hr : r ≠ .GLB_ONCE) :
    (s.writeImage r k j w).fuses = s.fuses := by simp [State.writeImage, hr]

@[simp] theorem fuses_writePeer (r : Reg) (i : Nat) (w : Word) (hr : r ≠ .GLB_ONCE) :
    (s.writePeer r i w).fuses = s.fuses := by simp [State.writePeer, hr]

@[simp] theorem fuses_act (r : Reg) (i j : Nat) (stored w : Word) (e ecc : Ecc) (hr : r ≠ .GLB_ONCE) :
    (s.act r i j stored w e ecc).fuses = s.fuses := by
  cases r
  case GLB_ONCE => exact absurd rfl hr
  all_goals
    dsimp only [State.act]
    simp +decide

@[simp] theorem fuses_noteReserved (q : Requester) (off : Nat) :
    (s.noteReserved q off).fuses = s.fuses := by simp +decide [State.noteReserved]

/-- GLB_ONCE takes writes at level 0 only, and holds its word once it is spent (R334, R339). -/
theorem checkWrite_glbOnce (s : State) (q : Requester) (off : Nat) (w : Word) :
    s.checkWrite q .GLB_ONCE 0 0 off w =
      if s.access (s.level q) (regionOf off) ≠ 2 then ⟨some .region, none⟩
      else if s.level q ≠ 0 then ⟨some .pl0Only, none⟩
      else if s.bus.once = true ∧ w ≠ s.rw .GLB_ONCE then ⟨some .wonce, some (s.rw .GLB_ONCE)⟩
      else ⟨none, some w⟩ := by
  have hp : pl0Reg .GLB_ONCE = true := rfl
  have hl : Reg.GLB_ONCE.spec.rwl = 0 := rfl
  have ho : Reg.GLB_ONCE.spec.wonce = 0xFFFFFFFFFFFFFFFF := rfl
  have hh : s.heldWord .GLB_ONCE 0 0 = s.rw .GLB_ONCE := rfl
  have hd : differ 0 (s.rw .GLB_ONCE) w = false := by simp [differ]
  have hm : ∀ a b, merge 0xFFFFFFFFFFFFFFFF a b = a := merge_all
  have hw : differ 0xFFFFFFFFFFFFFFFF (s.rw .GLB_ONCE) w = decide (w ≠ s.rw .GLB_ONCE) := by
    by_cases h : w = s.rw .GLB_ONCE
    · simp [h, differ_same]
    · exact (differ_all (Ne.symm h)).trans (by simp [h])
  unfold State.checkWrite
  simp only [hp, hl, ho, hh, hd, hm]
  by_cases h0 : s.level q = 0
  · by_cases hs : s.bus.once = true ∧ w ≠ s.rw .GLB_ONCE
    · simp [h0, hs, hw]
    · simp [h0, hs, hw]
  · simp [h0]

theorem checkWrite_spent {s : State} {q : Requester} {off : Nat} {w v : Word} {c : Option Cause} (h : s.bus.once = true)
    (hc : s.checkWrite q .GLB_ONCE 0 0 off w = ⟨c, some v⟩) : v = s.rw .GLB_ONCE := by
  rw [checkWrite_glbOnce] at hc
  by_cases hw : w = s.rw .GLB_ONCE
  · simp only [hw, ne_eq, not_true_eq_false, and_false, if_false] at hc
    split_ifs at hc <;> cases hc
    rfl
  · simp only [h, hw, ne_eq, not_false_eq_true, and_self, if_true] at hc
    split_ifs at hc <;> cases hc
    rfl

theorem fuses_act_spent (s : State) (v w : Word) (e ecc : Ecc) (h : s.bus.once = true) (hv : v = s.rw .GLB_ONCE) :
    (s.act .GLB_ONCE 0 0 v w e ecc).fuses = s.fuses := by
  change (s.writeOnce v).fuses = _
  rw [State.writeOnce, if_pos h, hv]
  exact Prod.ext (rw_setRw_same ..) rfl

theorem fuses_busWrite (s : State) (q : Requester) (off : Nat) (w : Word) (e ecc : Ecc) (h : s.bus.once = true) :
    (s.busWrite q off w e ecc).2.fuses = s.fuses := by
  unfold State.busWrite
  split
  · rfl
  · split
    · exact fuses_flag s _ 0 0 (by decide)
    · split
      · rfl
      · next r i j ho =>
        extract_lets c t
        have ht : t.fuses = s.fuses := by unfold t; split <;> simp
        split
        · exact ht
        · next v hv =>
          have hact : ∀ a b, (t.act r i j (storedWord r.spec (t.rw r i j) v) v a b).fuses = s.fuses := fun a b => by
            by_cases hr : r = .GLB_ONCE
            · subst hr
              obtain ⟨-, hj, hi⟩ := memberAt_some (findIn_some ho)
              obtain rfl : j = 0 := Nat.lt_one_iff.mp hj
              obtain rfl : i = 0 := Nat.lt_one_iff.mp hi
              have hc : v = s.rw .GLB_ONCE := checkWrite_spent (c := c.cause) h (off := off) (q := q) (w := w) (by rw [← hv])
              obtain ⟨hrw, honce⟩ := Prod.mk.inj ht
              rw [storedWord_takes_all (by decide) (by decide), fuses_act_spent _ _ _ _ _ (honce.trans h) (hc.trans hrw.symm), ht]
            · rw [fuses_act _ _ _ _ _ _ _ _ hr, ht]
          split_ifs
          · exact ht
          · simp +decide [ht]
          · simp [hact]
          · exact hact e ecc

@[simp] theorem fuses_readEffect (q : Requester) (r : Reg) (i j : Nat) (e : Ecc) : (s.readEffect q r i j e).fuses = s.fuses := by
  unfold State.readEffect
  split
  · rfl
  · simp
  · split_ifs <;> simp +decide
  · split_ifs <;> simp +decide
  · rfl

@[simp] theorem fuses_busRead (q : Requester) (off : Nat) (e : Ecc) : (s.busRead q off e).2.fuses = s.fuses := by
  unfold State.busRead
  split
  · split <;> simp +decide
  · split
    · rfl
    · split <;> simp

@[simp] theorem fuses_give (q : Requester) (v : Word) : (s.give q v).fuses = s.fuses := by rfl

@[simp] theorem fuses_setReadShadow (q : Requester) (v : Option (Nat × Half)) : (s.setReadShadow q v).fuses = s.fuses := by rfl

@[simp] theorem fuses_setWriteShadow (q : Requester) (v : Option (Nat × Half)) : (s.setWriteShadow q v).fuses = s.fuses := by rfl

@[simp] theorem fuses_nextAccess (q : Requester) (act : State → State) (hact : ∀ t, (act t).fuses = t.fuses) :
    (s.nextAccess q act).fuses = s.fuses := by simp +decide [State.nextAccess, hact]

@[simp] theorem fuses_get (q : Requester) (off : Nat) (part : ReadPart) (e : Ecc) : (s.get q off part e).fuses = s.fuses := by
  unfold State.get
  split <;> simp

/-! ### The link protocol -/

@[simp] theorem fuses_fit (r : Reply) (p room : Nat) : (r.fit p room).state.fuses = r.state.fuses := by
  unfold Reply.fit
  dsimp only
  split <;> rfl

@[simp] theorem fuses_replyOob (p : Nat) (m : MlpMsg) (status : Nat) (payload : List Byte) :
    (s.replyOob p m status payload).fuses = s.fuses := by simp [State.replyOob]

@[simp] theorem fuses_applyBind (p : Nat) : (s.applyBind p).fuses = s.fuses := by simp +decide [State.applyBind]

@[simp] theorem fuses_openSession (p hsn : Nat) : (s.openSession p hsn).fuses = s.fuses := by simp +decide [State.openSession]

@[simp] theorem fuses_runOob (p hsn : Nat) (o : MlpOp) : (s.runOob p hsn o).state.fuses = s.fuses := by
  cases o <;> dsimp only [State.runOob]
  case openSession => simp
  case journalRead => split <;> rfl
  case noteRead => split <;> rfl

@[simp] theorem fuses_laterCycle : s.laterCycle.fuses = s.fuses := by rfl

@[simp] theorem fuses_sameCycle (t : State) : (s.sameCycle t).fuses = s.fuses := by rfl

@[simp] theorem fuses_readRun (q : Requester) (off : Nat) (e : Ecc) (n : Nat) : (s.readRun q off e n).2.fuses = s.fuses := by
  induction n generalizing s off with
  | zero => rfl
  | succ n ih =>
    rw [State.readRun]
    simp [ih]

theorem once_congr {s t : State} (h : t.fuses = s.fuses) (ho : s.bus.once = true) : t.bus.once = true := (congrArg Prod.snd h).trans ho

theorem fuses_writeRun (s : State) (q : Requester) (off : Nat) (e : Ecc) (l : List Word) (h : s.bus.once = true) :
    (s.writeRun q off e l).2.fuses = s.fuses := by
  induction l generalizing s off with
  | nil => rfl
  | cons w ws ih =>
    have hw := fuses_busWrite s q off w .clean e h
    rw [State.writeRun, fuses_sameCycle, ih _ _ (once_congr ((fuses_laterCycle _).trans hw) h), fuses_laterCycle, hw]

@[simp] theorem fuses_memRun (d : Bool) (addr : Nat) (e : Ecc) (n : Nat) : (s.memRun d addr e n).2.fuses = s.fuses := by
  induction n generalizing s addr e with
  | zero => rfl
  | succ n ih =>
    rw [State.memRun]
    simp [ih]

@[simp] theorem fuses_memRead (q : Requester) (region addr len : Nat) (e : Ecc) :
    (s.memRead q region addr len e).state.fuses = s.fuses := by
  unfold State.memRead
  split_ifs <;> simp

@[simp] theorem fuses_memWrite (q : Requester) (region addr len : Nat) (vals : List Word) :
    (s.memWrite q region addr len vals).state.fuses = s.fuses := by
  unfold State.memWrite
  split_ifs <;> simp

theorem fuses_writesOf (q : Requester) (l : List (Nat × Word)) (s : State) (h : s.bus.once = true) :
    (l.foldl (fun u p => (u.busWrite q p.1 p.2 .clean .clean).2) s).fuses = s.fuses := by
  induction l generalizing s with
  | nil => rfl
  | cons p l ih =>
    have hw := fuses_busWrite s q p.1 p.2 .clean .clean h
    rw [List.foldl_cons, ih _ (once_congr hw h), hw]

theorem fuses_loadImage (s : State) (q : Requester) (k : Nat) (image : List Word) (h : s.bus.once = true) :
    (s.loadImage q k image).state.fuses = s.fuses := by
  unfold State.loadImage
  dsimp only
  split_ifs
  · rfl
  · rfl
  · simp +decide
  · rw [fuses_sameCycle]
    exact (fuses_writesOf q _ s.laterCycle h).trans (fuses_laterCycle s)
  · simp +decide

@[simp] theorem fuses_dsGet (p id : Nat) : (s.dsGet p id).state.fuses = s.fuses := by
  unfold State.dsGet
  split_ifs <;> simp

theorem fuses_performMlp (p : Fin 5) (m : MlpMsg) (h : s.bus.once = true) : (s.performMlp p m).state.fuses = s.fuses := by
  unfold State.performMlp
  dsimp only
  split
  · rfl
  · split
    · rfl
    · split
      · split
        · exact fuses_readRun ..
        · rfl
      · split
        · rfl
        · split
          · rfl
          · have hn : (s.nextAccess (portReq p) id).fuses = s.fuses := by simp
            exact (fuses_writeRun _ _ _ _ _ (once_congr hn h)).trans hn
      · simp
      · simp
      · exact fuses_loadImage _ _ _ _ h
      · simp
      · simp
      · split_ifs <;> simp
      · rfl

@[simp] theorem fuses_journalBegin (p : Nat) (m : MlpMsg) : (s.journalBegin p m).2.fuses = s.fuses := by
  unfold State.journalBegin
  exact (fuses_setF _ F.LNK_JNL_ESEQ _ 0 0 (by decide)).trans (fuses_with_link s _)

@[simp] theorem fuses_modEntry (eseq : Nat) (g : JEntry → JEntry) : (s.modEntry eseq g).fuses = s.fuses := by rfl

@[simp] theorem fuses_complete (r : Reply) (p hsn op session eseq : Nat) (mute : Bool) :
    (r.complete p hsn op session eseq mute).fuses = r.state.fuses := by
  unfold Reply.complete
  dsimp only
  rw [fuses_applyBind]
  split_ifs <;> simp +decide

theorem fuses_execute (p : Fin 5) (m : MlpMsg) (h : s.bus.once = true) : (s.execute p m).fuses = s.fuses := by
  have hj := fuses_journalBegin s p m
  have hp := (fuses_performMlp _ p m (once_congr hj h)).trans hj
  unfold State.execute
  dsimp only
  split
  · split <;> simp [hp]
  · simp [hp]

@[simp] theorem fuses_gapTimer (p : Nat) : (s.gapTimer p).fuses = s.fuses := by rfl

theorem fuses_dueHeld (p : Fin 5) (n : Nat) (h : s.bus.once = true) : (s.dueHeld p n).fuses = s.fuses := by
  induction n generalizing s with
  | zero => simp [State.dueHeld]
  | succ n ih =>
    rw [State.dueHeld]
    split
    · next m _ =>
      split
      · simp
      · have ht := fun g => (fuses_execute (s.modPort p g) p m h).trans (fuses_modPort s p g)
        exact (ih _ (once_congr (ht _) h)).trans (ht _)
    · simp

@[simp] theorem fuses_hold (p : Nat) (m : MlpMsg) : (s.hold p m).fuses = s.fuses := by rfl

@[simp] theorem fuses_behind (p : Nat) (m : MlpMsg) : (s.behind p m).fuses = s.fuses := by
  unfold State.behind
  split
  · split <;> simp
  · simp

theorem fuses_sequence (p : Fin 5) (m : MlpMsg) (h : s.bus.once = true) : (s.sequence p m).fuses = s.fuses := by
  have ht := fun g => (fuses_execute (s.modPort p g) p m h).trans (fuses_modPort s p g)
  unfold State.sequence
  dsimp only
  split
  · simp
  · split
    · split
      · rfl
      · split
        · simp
        · exact (fuses_dueHeld _ p 18 (once_congr (ht _) h)).trans (ht _)
    · split
      · simp
      · split
        · simp
        · exact fuses_behind ..

theorem fuses_treatMlp (p : Fin 5) (m : MlpMsg) (h : s.bus.once = true) : (s.treatMlp p m).fuses = s.fuses := by
  have hb := fuses_applyBind s p
  unfold State.treatMlp
  dsimp only
  split
  · split <;> simp
  · split
    · simp
    · split
      · rw [fuses_replyOob, fuses_fit]
        split
        · exact hb
        · rw [fuses_runOob, hb]
      · exact (fuses_sequence _ p m (once_congr hb h)).trans hb

@[simp] theorem fuses_treatStream (p : Nat) (m : StreamMsg) : (s.treatStream p m).fuses = s.fuses := by
  unfold State.treatStream
  split <;> simp

theorem fuses_treat (p : Fin 5) (f : RxFrame) (h : s.bus.once = true) : (s.treat p f).fuses = s.fuses := by
  cases f with
  | mlp m => exact fuses_treatMlp s p m h
  | stream m => exact fuses_treatStream s p m
  | bad b => exact fuses_dropMessage s p

theorem fuses_drainPorts (n : Nat) (h : s.bus.once = true) : (s.drainPorts n).fuses = s.fuses := by
  induction n generalizing s with
  | zero => rfl
  | succ n ih =>
    rw [State.drainPorts]
    split
    · rfl
    · next p _ =>
      split
      · rfl
      · next f rest _ =>
        have ht := fun g => (fuses_treat (s.modPort p g) p f h).trans (fuses_modPort s p g)
        exact (ih _ (once_congr (ht _) h)).trans (ht _)

/-- Once GLB_ONCE is spent, what the ports treat leaves its word (R339). -/
theorem fuses_settlePorts (s : State) (h : s.bus.once = true) : s.settlePorts.fuses = s.fuses := fuses_drainPorts s 256 h
end

end Sys2Proof.Machine
end

section
/-! PROOFS. Writes of an unbound port, of GLB_ONCE and of the protection table, and what the access codes make of a write (chapter 16). -/

namespace Sys2Proof.Machine

section
variable {s : State} {q : Requester} {w : Word}

/-! ### An unbound port (R333) -/

theorem registerWriteLow_unbound {at_ : BitVec 24} {l : Half} (hb : s.bound q = false) : exec (.registerWriteLow q at_ l) s = .next s := by
  change execRegisterWriteLow q at_ l s = _
  rw [execRegisterWriteLow, if_pos (by simp [hb])]

theorem registerWrite_unbound {at_ : BitVec 24} {e ecc : Ecc} (hs : s.calm) (hb : s.bound q = false) (hlow : s.writeShadow q = none) :
    exec (.registerWrite q at_ (.full w) e ecc) s = .next (s.unshadowed q) := by
  have hbus : ∀ off, ((s.unshadowed q).busWrite q off w e ecc).2 = s.unshadowed q := fun off => by
    rw [State.busWrite, if_pos (by simp [hb])]
  change Host.Outcome.next (s.put q (at_.toNat / 8 * 8) w e ecc).settlePorts = _
  rw [State.put, nextAccess_of_no_low hlow, hbus, settlePorts_of_calm (calm_congr (by simp) hs)]

/-! ### GLB_ONCE (R339, R340) -/

theorem storedWord_glbOnce (old w : Word) : storedWord Reg.GLB_ONCE.spec old w = w := storedWord_takes_all (by decide) (by decide) old w

theorem ofOffset_glbOnce : Reg.ofOffset (Reg.GLB_ONCE.addr 0 0) = some (.GLB_ONCE, 0, 0) := by decide

theorem glbOnce_runs (s : State) : s.offCore (Reg.GLB_ONCE.addr 0 0) = false ∧ s.stoppedAt (Reg.GLB_ONCE.addr 0 0) = false := ⟨rfl, rfl⟩

theorem glbOnceWrite_eq (hlow : s.writeShadow q = none) :
    exec (.glbOnceWrite q w) s = .next ((s.unshadowed q).busWrite q (Reg.GLB_ONCE.addr 0 0) w .clean .clean).2.settlePorts := by
  change Host.Outcome.next (s.put q _ w .clean .clean).settlePorts = _
  rw [State.put, nextAccess_of_no_low hlow]

/-- A write of GLB_ONCE that the checks let reach the register. -/
theorem busWrite_glbOnce {v : Word} {c : Option Cause} (hb : s.bound q = true) (ha : s.active = true)
    (hc : s.checkWrite q .GLB_ONCE 0 0 (Reg.GLB_ONCE.addr 0 0) w = ⟨c, some v⟩) :
    Noted ((s.judged q (Reg.GLB_ONCE.addr 0 0) c).writeOnce v) (s.busWrite q (Reg.GLB_ONCE.addr 0 0) w .clean .clean).2 := by
  have hn := busWrite_noted .clean .clean ⟨hb, ha, ofOffset_glbOnce⟩ hc (glbOnce_runs _).1 (glbOnce_runs _).2
  rwa [storedWord_glbOnce] at hn

/-- The state in which the fields of GLB_ONCE are spent on w. -/
def State.spend (s : State) (w : Word) : State := { s.setRw .GLB_ONCE w with bus := { s.bus with once := true } }

theorem fuses_spend : (s.spend w).fuses = (w, true) := Prod.ext (rw_setRw_same ..) rfl

theorem writeOnce_unspent (h : s.bus.once = false) :
    s.writeOnce w = if bit w.toNat 1 then forN 5 (fun p u => u.fiOff p) (s.spend w) else s.spend w := by
  rw [State.writeOnce, if_neg (by simp [h])]
  rfl

theorem writeOnce_spent (h : s.bus.once = true) : s.writeOnce w = s.setRw .GLB_ONCE w := by simp [State.writeOnce, h]

theorem fuses_fiOff (s : State) (p : Nat) : (s.fiOff p).fuses = s.fuses := by simp +decide [State.fiOff]

theorem fuses_writeOnce_unspent (h : s.bus.once = false) : (s.writeOnce w).fuses = (w, true) := by
  rw [writeOnce_unspent h]
  split
  · rw [fuses_forN _ _ _ fun p t => fuses_fiOff t p, fuses_spend]
  · exact fuses_spend

theorem Noted.fuses {u t : State} (h : Noted u t) : t.fuses = u.fuses :=
  Prod.ext (h.word _ (by decide) (by decide)) (by change t.bus.once = u.bus.once; rw [h.recorded.bus])

/-- FI_DIS ends fault injection at every port at which no frame waits (R340). -/
theorem writeOnce_ends_injection (h : s.bus.once = false) (hfi : bit w.toNat 1 = true) (hq : s.quiet) :
    (s.writeOnce w).quiet ∧ ∀ k : Fin 5, (s.writeOnce w).on F.PRT_FI_EN k = false := by
  obtain ⟨h1, h2⟩ := forN_fiOff (s := s.spend w) 5 (Nat.le_refl 5) hq
  rw [writeOnce_unspent h, if_pos hfi]
  exact ⟨h1, fun k => h2 k k.isLt⟩

theorem glbOnceWrite_unspent (hs : s.calm) (ha : Admits s q .GLB_ONCE 0 0 w) (ho : s.bus.once = false) (k : Fin 5) :
    Gives (exec (.glbOnceWrite q w) s) fun t => t.bus.once = true ∧ t.rw .GLB_ONCE = w ∧
      (bit w.toNat 1 = true → (∀ x : Fin 5, (s.port x).rxGroup = []) → t.on F.PRT_FI_EN k = false) := by
  obtain ⟨hb, hact, hc, -, -, -, hlow⟩ := ha
  have hn := busWrite_glbOnce (s := s.unshadowed q) hb hact (by rw [unshadowed_checkWrite, hc])
  rw [glbOnceWrite_eq hlow]
  refine ⟨_, rfl, ?_⟩
  have hf := hn.fuses.trans (fuses_writeOnce_unspent ho)
  obtain ⟨hw, honce⟩ := Prod.mk.inj ((fuses_settlePorts _ (congrArg Prod.snd hf)).trans hf)
  refine ⟨honce, hw, fun hfi hrx => ?_⟩
  obtain ⟨hq, hoff⟩ := writeOnce_ends_injection (s := s.unshadowed q) ho hfi fun x => ⟨hs x, hrx x⟩
  rw [settlePorts_of_calm (hn.recorded.calm fun x => (hq x).1), ← hoff k]
  simp only [State.on, State.f]
  refine congrArg (fun x : Word => bits x.toNat _ _ != 0) (hn.word _ ?_ ?_)
  · simp [F.PRT_FI_EN, Reg.addr, Reg.spec]; omega
  · simp [F.PRT_FI_EN, Reg.addr, Reg.spec]; omega

theorem glbOnceWrite_spent (hs : s.calm) (hb : s.bound q = true) (hact : s.active = true) (hlow : s.writeShadow q = none)
    (ho : s.bus.once = true) (hl : s.level q = 0) (hw : w ≠ s.rw .GLB_ONCE) :
    Gives (exec (.glbOnceWrite q w) s) fun t => t.rw .GLB_ONCE = s.rw .GLB_ONCE ∧
      (s.keepsRefused q 0 (Reg.GLB_ONCE.addr 0 0) = false → bits (t.rw .PROT_LAST).toNat 62 60 = 4) := by
  have hc : (s.unshadowed q).checkWrite q .GLB_ONCE 0 0 (Reg.GLB_ONCE.addr 0 0) w = ⟨some .wonce, some (s.rw .GLB_ONCE)⟩ := by
    rw [unshadowed_checkWrite, checkWrite_glbOnce, hl, if_neg (by simp [State.access]), if_neg (by simp), if_pos ⟨ho, hw⟩]
  have hr := refuseAccess_refused (s.unshadowed q) q .wonce (Reg.GLB_ONCE.addr 0 0)
  have hn := busWrite_glbOnce (s := s.unshadowed q) hb hact hc
  rw [writeOnce_spent (by rw [State.judged, hr.recorded.bus]; exact ho)] at hn
  rw [glbOnceWrite_eq hlow, settlePorts_of_calm (hn.recorded.calm (hr.recorded.calm hs))]
  refine ⟨_, rfl, (hn.word _ (by decide) (by decide)).trans (rw_setRw_same ..), fun hk => ?_⟩
  have hlast := (hn.word (Reg.PROT_LAST.addr 0 0) (by decide) (by decide)).trans (word_setWord_ne _ _ (by decide))
  exact (congrArg (fun x : Word => bits x.toNat 62 60) hlast).trans (hr.cause hk)

/-! ### The protection table (R334, R336) -/

/-- The registers of the protection table. -/
def protRegs : List Reg := [.GLB_PROT0, .GLB_PROTA, .GLB_PROT11]

theorem prot_codes : ∀ r ∈ protRegs, pl0Reg r = true ∧ r ≠ .PRT_BIND ∧ r ≠ .PRT_FI ∧ r ≠ .GLB_STATUS ∧ r ≠ .GLB_RSVD_LAST ∧
    r ≠ .GLB_TRB ∧ r ≠ .PROT_LAST ∧ r.spec.n2 = 1 ∧ r.spec.wonce = 0 ∧
    r.spec.rw ||| r.spec.rwl ||| r.spec.wonce = 2 ^ 64 - 1 ∧ r.spec.w1c = 0 := by
  decide

theorem act_prot (s : State) (i j : Nat) (stored w : Word) (e ecc : Ecc) :
    ∀ r ∈ protRegs, s.act r i j stored w e ecc = s.keepTable.setRw r stored i := by
  simp only [protRegs, List.forall_mem_cons, List.not_mem_nil, false_imp_iff, implies_true, and_true]
  and_intros <;> rfl

theorem ofOffset_prot : ∀ p : Fin 12, ((Reg.ofOffset (0x100 + 8 * p.val)).map fun x => protRegs.contains x.1) = some true := by decide

theorem checkWrite_level0 {r : Reg} {i j off : Nat} (hl : s.level q = 0) (h1 : r ≠ .PRT_BIND) (h2 : r ≠ .PRT_FI) (h3 : r.spec.wonce = 0) :
    s.checkWrite q r i j off w = ⟨none, some w⟩ := by
  simp [State.checkWrite, State.access, hl, h1, h2, h3]

theorem checkWrite_pl0Only {r : Reg} {i j off : Nat} (hacc : s.access (s.level q) (regionOf off) = 2) (hl : s.level q ≠ 0) (hp : pl0Reg r = true) :
    s.checkWrite q r i j off w = ⟨some .pl0Only, none⟩ := by
  simp [State.checkWrite, hacc, hl, hp]

theorem glbProt_runs (s : State) (p : Fin 12) : s.offCore (0x100 + 8 * p.val) = false ∧ s.stoppedAt (0x100 + 8 * p.val) = false := by
  have hp := p.isLt
  refine ⟨?_, by rw [State.stoppedAt, domainOf, if_pos (by omega)]⟩
  rw [State.offCore, if_neg (by omega), if_neg (by omega), decide_eq_false (by omega), Bool.false_and]

theorem glbProtWrite_eq (p : Fin 12) (hlow : s.writeShadow q = none) :
    exec (.glbProtWrite p q w) s = .next ((s.unshadowed q).busWrite q (0x100 + 8 * p.val) w .clean .clean).2 := by
  change Host.Outcome.next (s.put q _ w .clean .clean) = _
  rw [State.put, nextAccess_of_no_low hlow]

theorem regionOf_prot (p : Fin 12) : regionOf (0x100 + 8 * p.val) = 0 := by
  rw [regionOf, if_pos (by omega)]
  omega

theorem prot_mem {p : Fin 12} {a : Reg} {x y : Nat} (h : Reg.ofOffset (0x100 + 8 * p.val) = some (a, x, y)) : a ∈ protRegs := by
  simpa [h] using ofOffset_prot p

/-- A requester of level 0 writes a word of the protection table. -/
theorem busWrite_prot_level0 {a : Reg} {x y off : Nat} (ha : a ∈ protRegs) (h : Reaches s q off a x y) (hl : s.level q = 0)
    (hcore : s.offCore off = false) (hstop : s.stoppedAt off = false) : (s.busWrite q off w .clean .clean).2.word off = w := by
  obtain ⟨-, h1, h2, h3, h4, -, -, hn2, h5, hall, hw1c⟩ := prot_codes a ha
  obtain ⟨hoff, hj, -⟩ := memberAt_some (findIn_some h.member)
  obtain rfl : y = 0 := by omega
  have hn := busWrite_noted .clean .clean h (checkWrite_level0 (w := w) hl h1 h2 h5) hcore hstop
  rw [storedWord_takes_all hall hw1c, act_prot _ _ _ _ _ _ _ a ha] at hn
  have hw := hn.word off (ne_of_member h.member (by decide) h3) (ne_of_member h.member (by decide) h4)
  rw [hw, hoff]
  exact rw_setRw_same ..

/-- A requester of another level does not, whatever the table grants it. -/
theorem busWrite_prot_refused {a : Reg} {x y off : Nat} (ha : a ∈ protRegs) (h : Reaches s q off a x y) (hl : s.level q ≠ 0)
    (hacc : s.access (s.level q) (regionOf off) = 2) : Refused s (s.busWrite q off w .clean .clean).2 q .pl0Only off := by
  rw [busWrite_refused .clean .clean h (checkWrite_pl0Only hacc hl (prot_codes a ha).1)]
  exact refuseAccess_refused ..

theorem glbProtWrite_level0 {p : Fin 12} {a : Reg} {x y : Nat} (h : Reg.ofOffset (0x100 + 8 * p.val) = some (a, x, y)) (hb : s.bound q = true)
    (hact : s.active = true) (hlow : s.writeShadow q = none) (hl : s.level q = 0) :
    Gives (exec (.glbProtWrite p q w) s) fun t => t.word (0x100 + 8 * p.val) = w := by
  obtain ⟨hcore, hstop⟩ := glbProt_runs (s.unshadowed q) p
  exact ⟨_, glbProtWrite_eq p hlow, busWrite_prot_level0 (prot_mem h) ⟨hb, hact, h⟩ hl hcore hstop⟩

theorem glbProtWrite_refused {p : Fin 12} {a : Reg} {x y : Nat} (h : Reg.ofOffset (0x100 + 8 * p.val) = some (a, x, y)) (hb : s.bound q = true)
    (hact : s.active = true) (hlow : s.writeShadow q = none) (hl : s.level q ≠ 0) (hacc : s.access (s.level q) 0 = 2) :
    Gives (exec (.glbProtWrite p q w) s) fun t => t.word (0x100 + 8 * p.val) = s.word (0x100 + 8 * p.val) ∧
      (s.keepsRefused q 0 (0x100 + 8 * p.val) = false → bits (t.rw .PROT_LAST).toNat 62 60 = 2) := by
  obtain ⟨-, -, -, -, -, h1, h2, -⟩ := prot_codes a (prot_mem h)
  have hr := busWrite_prot_refused (s := s.unshadowed q) (w := w) (prot_mem h) ⟨hb, hact, h⟩ hl (by rw [regionOf_prot]; exact hacc)
  exact ⟨_, glbProtWrite_eq p hlow, hr.word _ (ne_of_member h (by decide) h1) (ne_of_member h (by decide) h2), hr.cause⟩

end

/-! ### Access codes, bit by bit (R9) -/

/-- What the access codes make of each bit of a write (R9). -/
theorem storedWord_bits (x : RegSpec) (old w : Word) (b : Fin 64) :
    let takes := bit x.rw b || bit x.rwl b || bit x.wonce b
    let t := storedWord x old w
    (takes = true → bit x.w1c b = false → bit t.toNat b = bit w.toNat b) ∧
    (takes = false → bit x.w1c b = true → bit x.wo b = false → bit t.toNat b = (bit old.toNat b && !bit w.toNat b)) ∧
    (takes = false → bit x.w1c b = false → bit x.wo b = true → bit t.toNat b = false) ∧
    (takes = false → bit x.w1c b = false → bit x.wo b = false → bit t.toNat b = bit old.toNat b) := by
  intro takes t
  have h := bit_storedWord x old w b
  change bit t.toNat b = (bit old.toNat b && !(takes || bit x.w1c b || bit x.wo b) || bit w.toNat b && takes ||
    bit old.toNat b && bit x.w1c b && !bit w.toNat b) at h
  refine ⟨fun ht hc => ?_, fun ht hc ho => ?_, fun ht hc ho => ?_, fun ht hc ho => ?_⟩
  · simp [h, ht, hc]
  · simp [h, ht, hc]
  · simp [h, ht, hc, ho]
  · simp [h, ht, hc, ho]

end Sys2Proof.Machine
end

section
/-! PROOFS. Writes of registers (O56). -/

namespace Sys2Proof.Machine

/-- Settles O56, case by case: what the bus makes of a write that passes, of one that is refused, of GLB_ONCE and of the protection table. -/
theorem registerWrites : Obligations.RegisterWrites := by
  refine ⟨?_, storedWord_bits⟩
  intro q r i j w h l e ecc p k s off at_ plain calm elsewhere held open_ run refused
  refine ⟨?_, ?_, ?_, ?_, ?_, ?_, ?_, ?_, ?_, ?_⟩
  · rintro ⟨hp, hm⟩ hs ha
    obtain ⟨t, ht, hst⟩ := registerWrite_plain_full (e := e) (ecc := ecc) hp hm hs ha
    exact ⟨t, ht, hst.rw, hst.word, hst.recorded.sram, hst.recorded.dram, hst.recorded.dmem⟩
  · rintro ⟨hp, hm⟩ hs hlow ha
    exact registerWrite_plain_high hp hm hs hlow ha
  · exact registerWriteLow_unbound
  · rintro ⟨hp, hm⟩ - ⟨hb, -, -, hlow⟩
    exact registerWriteLow_holds hm hb hlow
  · rintro ⟨hp, hm⟩ hs ⟨hb, ha, -, hlow⟩ hacc
    obtain ⟨t, ht, hr⟩ := registerWrite_refused (e := e) (ecc := ecc) ⟨hb, ha, hm⟩ hs hlow (checkWrite_region (w := w) hacc)
    exact ⟨t, ht, hr.plain hp hm⟩
  · rintro ⟨hp, hm⟩ hs ⟨hb, ha, -, hlow⟩ hacc hl hlock hrwl hw - -
    obtain ⟨t, ht, hr⟩ := registerWrite_refused (e := e) (ecc := ecc) ⟨hb, ha, hm⟩ hs hlow (checkWrite_locked hp hm hacc hl hlock hrwl hw)
    exact ⟨t, ht, hr.plain hp hm⟩
  · intro hs hb hlow
    exact ⟨_, registerWrite_unbound hs hb hlow, ⟨fun _ _ => rfl, rfl, rfl, rfl⟩, rfl⟩
  · exact fun hs _ ha ho => glbOnceWrite_unspent hs ha ho k
  · rintro hs ⟨hb, ha, -, hlow⟩ ho hl hw
    exact glbOnceWrite_spent hs hb ha hlow ho hl hw
  · rintro a x y hm ⟨hb, ha, -, hlow⟩
    exact ⟨glbProtWrite_level0 hm hb ha hlow, glbProtWrite_refused hm hb ha hlow⟩

end Sys2Proof.Machine
end

section
/-! PROOFS. Words of a packet in its slot, and what voices and ports leave of the rings (R116 to R122, R272). -/

namespace Sys2Proof.Machine

/-! ### Words of a packet in memory -/

/-- From s to t, only contents and marks of SRAM and DRAM may have changed. -/
def MemoryOnly (s t : State) : Prop := t = { s with sram := t.sram, dram := t.dram, poison := t.poison }

theorem MemoryOnly.trans {s t u : State} (h : MemoryOnly s t) (k : MemoryOnly t u) : MemoryOnly s u := by
  unfold MemoryOnly at *
  rw [h] at k
  exact k

theorem setByte_memoryOnly (s : State) (d : Bool) (a : Nat) (b : Byte) : MemoryOnly s (s.setByte d a b) := by
  cases d <;> rfl

theorem writeLE_memoryOnly (s : State) (d : Bool) (a v n : Nat) : MemoryOnly s (s.writeLE d a v n) := by
  induction n with
  | zero => rfl
  | succ n ih => exact ih.trans (setByte_memoryOnly ..)

theorem writeWord_memoryOnly (s : State) (d : Bool) (a : Nat) (w : Word) : MemoryOnly s (s.writeWord d a w) :=
  (writeLE_memoryOnly s d a w.toNat 8).trans rfl

theorem writeWords_memoryOnly (s : State) (d : Bool) (a : Nat) (l : List Word) : MemoryOnly s (s.writeWords d a l) := by
  induction l generalizing s a with
  | nil => rfl
  | cons w l ih => exact (writeWord_memoryOnly s d a w).trans (ih ..)

theorem byte_writeWords_outside (s : State) {d d' : Bool} {a x : Nat} (l : List Word) (h : d' ≠ d ∨ x < a ∨ a + 8 * l.length ≤ x) :
    (s.writeWords d a l).byte d' x = s.byte d' x := by
  induction l generalizing s a with
  | nil => rfl
  | cons w l ih =>
    rw [List.length_cons] at h
    rw [State.writeWords, ih _ (h.imp id fun h => by omega), byte_writeWord_outside _ _ _ _ (h.imp id fun h => by omega)]

theorem readWord_writeWords_below (s : State) {d : Bool} {a x : Nat} (l : List Word) (h : x + 8 ≤ a) :
    (s.writeWords d a l).readWord d x = s.readWord d x := by
  simp only [State.readWord]
  exact congrArg _ (readLE_congr fun i hi => byte_writeWords_outside s l (.inr (.inl (by omega))))

/-- Each word of a list that was written reads back at its place. -/
theorem readWord_writeWords (s : State) (d : Bool) (a : Nat) (l : List Word) {i : Nat} (h : i < l.length) :
    (s.writeWords d a l).readWord d (a + 8 * i) = l.getD i 0 := by
  induction l generalizing s a i with
  | nil => simp at h
  | cons w l ih =>
    rw [State.writeWords]
    cases i with
    | zero => rw [readWord_writeWords_below _ _ (by omega)]; simp
    | succ i =>
      rw [show a + 8 * (i + 1) = a + 8 + 8 * i by omega, ih _ _ (by simpa using h), List.getD_cons_succ]

/-- A slot as the receive engine writes it at byte address a: the payload, then the header from its last word to its first (R118). -/
def State.putPacket (s : State) (d : Bool) (a : Nat) (p : StreamMsg) (body : List Word) : State :=
  ((((s.writeWords d (a + 32) body).writeWord d (a + 24) p.h3).writeWord d (a + 16) p.h2).writeWord d (a + 8) p.h1).writeWord d a p.h0

section
variable (s : State) (d : Bool) (a : Nat) (p : StreamMsg) (body : List Word)

theorem putPacket_memoryOnly : MemoryOnly s (s.putPacket d a p body) :=
  ((((writeWords_memoryOnly s d _ body).trans (writeWord_memoryOnly ..)).trans (writeWord_memoryOnly ..)).trans
    (writeWord_memoryOnly ..)).trans (writeWord_memoryOnly ..)

theorem putPacket_header : (s.putPacket d a p body).readWord d a = p.h0 ∧ (s.putPacket d a p body).readWord d (a + 8) = p.h1 ∧
    (s.putPacket d a p body).readWord d (a + 16) = p.h2 ∧ (s.putPacket d a p body).readWord d (a + 24) = p.h3 := by
  unfold State.putPacket
  generalize s.writeWords d (a + 32) body = u
  refine ⟨readWord_writeWord_same .., ?_, ?_, ?_⟩
  · rw [readWord_writeWord_apart _ _ (by omega), readWord_writeWord_same]
  · rw [readWord_writeWord_apart _ _ (by omega), readWord_writeWord_apart _ _ (by omega), readWord_writeWord_same]
  · rw [readWord_writeWord_apart _ _ (by omega), readWord_writeWord_apart _ _ (by omega), readWord_writeWord_apart _ _ (by omega),
      readWord_writeWord_same]

theorem putPacket_payload {i : Nat} (h : i < body.length) : (s.putPacket d a p body).readWord d (a + 32 + 8 * i) = body.getD i 0 := by
  unfold State.putPacket
  simp (disch := omega) only [readWord_writeWord_apart, readWord_writeWords s d (a + 32) body h]

theorem byte_putPacket_outside {d' : Bool} {x : Nat} (h : d' ≠ d ∨ x < a ∨ a + 32 + 8 * body.length ≤ x) :
    (s.putPacket d a p body).byte d' x = s.byte d' x := by
  have hw : ∀ (t : State) (k : Nat) (w : Word), k < 4 → (t.writeWord d (a + 8 * k) w).byte d' x = t.byte d' x := fun t k w hk =>
    byte_writeWord_outside t d _ w (h.imp id fun h => by omega)
  exact (hw _ 0 _ (by omega)).trans ((hw _ 1 _ (by omega)).trans ((hw _ 2 _ (by omega)).trans ((hw _ 3 _ (by omega)).trans
    (byte_writeWords_outside s body (h.imp id fun h => by omega)))))

end

/-! ### The ring as voices leave it (R120 to R122) -/

/-- What every voice that meets a packet leaves alone: the frames that wait at the ports, SRAM and DRAM, and the packets of every ring. -/
structure RingView where
  ready : Nat → List RxFrame
  sram : List Host.Cell
  dram : List Host.Cell
  gens : List (Nat × Nat)
  packets : Nat → List Packet

def State.rings (s : State) : RingView := ⟨fun x => (s.port x).ready, s.sram, s.dram, s.mem.gens, fun b => (s.binding b).packets⟩

section
variable (s : State)

@[simp] theorem rings_setF (x : Fld) (v i j : Nat) : (s.setF x v i j).rings = s.rings := by rfl
@[simp] theorem rings_flag (x : Fld) (i j : Nat) : (s.flag x i j).rings = s.rings := by rfl
@[simp] theorem rings_shave (b n : Nat) : (s.shave b n).rings = s.rings := (rings_setF ..).trans (rings_setF ..)
@[simp] theorem rings_modStream (v : Nat) (g : StreamPlay → StreamPlay) : (s.modStream v g).rings = s.rings := by rfl

@[simp] theorem rings_modBinding (b : Nat) (g : BindingSt → BindingSt) (h : ∀ x, (g x).packets = x.packets) :
    (s.modBinding b g).rings = s.rings := by
  have hp : ∀ c, ((s.modBinding b g).binding c).packets = (s.binding c).packets := fun c => by
    by_cases hc : c = b
    · subst hc; simp [h]
    · rw [binding_modBinding_ne _ _ hc]
  exact congrArg (RingView.mk _ s.sram s.dram s.mem.gens) (funext hp)

@[simp] theorem rings_placeByTime (v b : Nat) (g : Grid) (it : Item) (pk : Packet) : (s.placeByTime v b g it pk).rings = s.rings := by
  unfold State.placeByTime
  dsimp only
  split <;> simp

@[simp] theorem rings_resumePacket (v b : Nat) (g : Grid) (it : Item) (pk : Packet) (was : Int) :
    (s.resumePacket v b g it pk was).rings = s.rings := by
  unfold State.resumePacket
  dsimp only
  split <;> simp

@[simp] theorem rings_followPacket (b : Nat) (g : Grid) (it : Item) (pl : Placement) (pk : Packet) :
    (s.followPacket b g it pl pk).rings = s.rings := by simp [State.followPacket]

@[simp] theorem rings_offerPacket (v b : Nat) (g : Grid) (it : Item) (pk : Packet) (was : Int) :
    (s.offerPacket v b g it pk was).rings = s.rings := by
  unfold State.offerPacket
  dsimp only
  split
  · simp
  · split
    · simp
    · split
      · rfl
      · split
        · split_ifs <;> simp
        · split_ifs <;> simp

theorem rings_offerAll (b : Nat) (pk : Packet) : (s.offerAll b pk).rings = s.rings := by
  refine forN_keeps (P := fun t : State => t.rings = s.rings) 64 (fun v t ht => ?_) rfl
  split
  · split
    · rw [rings_offerPacket, ht]
    · exact ht
  · exact ht

end

/-! ### What a port sends (R272, R273) -/

/-- The registers of a binding that say how packets come in and what becomes of them. -/
def streamRegs : List Reg := [.STM_CFG, .STM_RING, .STM_STAT, .STM_CNT]

/-- What decides how stream packets are treated, and what becomes of them: beside the rings the bindings, the buffers, DTIME and the words of
the bindings' registers. -/
structure StreamView where
  rings : RingView
  bindings : List (Nat × BindingSt)
  buffers : List (Nat × BufferSt)
  time : TimeSt
  words : {r // r ∈ streamRegs} → Fin 64 → Word

def State.streams (s : State) : StreamView := ⟨s.rings, s.bindings, s.buffers, s.time, fun r b => s.rw r b⟩

/-- No register of a binding lies at BAR0 offset a. -/
def apartFromStreams (a : Nat) : Prop := a < 0x68000 ∨ 0x69000 ≤ a

theorem streamRegs_addr : ∀ r ∈ streamRegs, ∀ b : Fin 64, 0x68000 ≤ r.addr b 0 ∧ r.addr b 0 < 0x69000 := by decide

section
variable (s : State)

theorem streams_setF (x : Fld) (v i j : Nat) (h : apartFromStreams (x.reg.addr i j)) : (s.setF x v i j).streams = s.streams :=
  congrArg (StreamView.mk _ s.bindings s.buffers s.time) (funext fun r => funext fun b => rw_setRw_ne s _ (by
    have hr := streamRegs_addr r.1 r.2 b
    unfold apartFromStreams at h
    omega))

@[simp] theorem streams_pbaPend (v : Nat) : (s.setF F.MSIX_PBA_PEND v).streams = s.streams := streams_setF s _ v 0 0 (.inr (by decide))
@[simp] theorem streams_rspTail : (s.tick F.P0_RSP_IDX_TAIL).streams = s.streams := streams_setF s _ _ 0 0 (.inr (by decide))
@[simp] theorem streams_cmdHead : (s.tick F.P0_CMD_IDX_HEAD).streams = s.streams := streams_setF s _ _ 0 0 (.inr (by decide))

/-- The injector's counters are none of the bindings'. -/
@[simp] theorem streams_fiCount (x : Fld) (p : Nat) (h : x.reg = .PRT_FI_CNT) : (s.bump x p).streams = s.streams :=
  streams_setF s _ _ p 0 (.inr (by rw [h]; simp [Reg.addr, Reg.spec]; omega))

@[simp] theorem streams_modPort (p : Nat) (g : PortSt → PortSt) (h : ∀ x, (g x).ready = x.ready) : (s.modPort p g).streams = s.streams := by
  have hr : ∀ q, ((s.modPort p g).port q).ready = (s.port q).ready := fun q => by
    by_cases hq : q = p
    · subst hq; simp [h]
    · rw [port_modPort_ne _ _ hq]
  exact congrArg (fun r => (⟨⟨r, s.sram, s.dram, s.mem.gens, _⟩, s.bindings, s.buffers, s.time, _⟩ : StreamView)) (funext hr)

@[simp] theorem streams_link (l : LinkSt) : State.streams { s with link := l } = s.streams := by rfl

@[simp] theorem streams_requestVector (i : Nat) : (s.requestVector i).streams = s.streams := by
  unfold State.requestVector
  split <;> simp

@[simp] theorem streams_ringRequest : s.ringRequest.streams = s.streams := by simp [State.ringRequest]

@[simp] theorem streams_ringWrite : s.ringWrite.streams = s.streams := by
  unfold State.ringWrite
  extract_lets l u t
  have ht : t.streams = s.streams := by simp [t, u]
  split
  · rw [streams_ringRequest, ht]
  · exact ht

@[simp] theorem streams_sendFrame (p : Nat) (m : Sent) : (s.sendFrame p m).streams = s.streams := by
  unfold State.sendFrame
  dsimp only
  split
  · split <;> simp
  · split <;> simp

@[simp] theorem streams_releaseTx (p : Nat) : (s.releaseTx p).streams = s.streams := by
  unfold State.releaseTx
  dsimp only
  split
  · simp
  · rw [foldl_same State.streams fun t m => streams_sendFrame t p m]
    simp [F.PRT_FI_CNT_REORDERED]

@[simp] theorem streams_offerTx (p : Nat) (m : Sent) : (s.offerTx p m).streams = s.streams := by
  unfold State.offerTx
  split
  · dsimp only
    split
    · simp [F.PRT_FI_CNT_DROPPED]
    · split_ifs <;> simp [F.PRT_FI_CNT_CORRUPTED]
  · simp

end

end Sys2Proof.Machine
end

section
/-! PROOFS. What the registers of a binding decide, and what a taken packet and a dropped one leave (R117, R118, R361). -/

namespace Sys2Proof.Machine

/-! ### What a memory error leaves (R20, R361) -/

section
variable (s : State)

theorem streams_trouble (x : Trouble) : (s.trouble x).streams = s.streams := streams_setF s _ _ _ 0 (.inl (by cases x <;> decide))

theorem streams_fireNow (src : Nat) : (s.fireNow src).streams = s.streams := by
  unfold State.fireNow State.fire
  split <;> rfl

theorem streams_eccLog (x : Fld) (v : Nat) (h : x.reg = .MEM_ECC_LOG ∨ x.reg = .MEM_ECC_CNT) : (s.setF x v).streams = s.streams :=
  streams_setF s x v 0 0 (.inl (by rcases h with h | h <;> rw [h] <;> decide))

theorem streams_logAt (a : Option Nat) : State.streams { s with mem := { s.mem with logAt := a } } = s.streams := rfl

theorem streams_logError (kind req addr : Nat) : (s.logError kind req addr).streams = s.streams := by
  have ht : ((s.trouble .eccUe).fireNow 624).streams = s.streams := (streams_fireNow ..).trans (streams_trouble ..)
  unfold State.logError
  dsimp only
  split
  · rw [streams_logAt, State.flag, streams_eccLog _ F.MEM_ECC_LOG_VALID _ (.inl rfl), streams_eccLog _ F.MEM_ECC_LOG_ADDR _ (.inl rfl),
      streams_eccLog _ F.MEM_ECC_LOG_REQ _ (.inl rfl), streams_eccLog _ F.MEM_ECC_LOG_KIND _ (.inl rfl), ht]
  · exact ht

theorem streams_eccEvent (e : Ecc) (d marked : Bool) (req addr : Nat) : (s.eccEvent e d marked req addr).streams = s.streams := by
  unfold State.eccEvent
  split
  · rfl
  · exact (streams_eccLog _ _ _ (.inr (by cases d <;> rfl))).trans (streams_trouble ..)
  · exact streams_logError ..
  · exact (streams_eccLog _ _ _ (.inr rfl)).trans (streams_logError ..)

end

/-! ### What the bindings' registers decide -/

section
variable {s t : State} {b : Nat}

theorem byte_rings (h : t.rings = s.rings) (d : Bool) (a : Nat) : t.byte d a = s.byte d a := by
  have hs := congrArg RingView.sram h
  have hd := congrArg RingView.dram h
  have hg := congrArg RingView.gens h
  simp only [State.rings] at hs hd hg
  simp only [State.byte, State.sramByte, State.dramByte, hs, hd]
  congr 2
  funext x
  simp [MemSt.dramDefault, hg]

theorem readWord_rings (h : t.rings = s.rings) (d : Bool) (a : Nat) : t.readWord d a = s.readWord d a :=
  congrArg (BitVec.ofNat 64) (readLE_congr fun _ _ => byte_rings h d _)

theorem packets_rings (h : t.rings = s.rings) (b : Nat) : (t.binding b).packets = (s.binding b).packets :=
  congrFun (congrArg RingView.packets h) b

theorem calm_rings (h : t.rings = s.rings) (hs : s.calm) : t.calm := fun x => (congrFun (congrArg RingView.ready h) x.val).trans (hs x)

theorem binding_streams (h : t.streams = s.streams) (b : Nat) : t.binding b = s.binding b :=
  congrArg (fun v : StreamView => sget (fun _ => ({} : BindingSt)) v.bindings b) h

theorem now_streams (h : t.streams = s.streams) : t.now = s.now := congrArg (fun v : StreamView => v.time.dtime.toNat) h

theorem f_streams (h : t.streams = s.streams) (hb : b < 64) (x : Fld) (hx : x.reg ∈ streamRegs := by decide) : t.f x b = s.f x b :=
  congrArg (fun v : StreamView => bits (v.words ⟨x.reg, hx⟩ ⟨b, hb⟩).toNat x.hi x.lo) h

theorem on_streams (h : t.streams = s.streams) (hb : b < 64) (x : Fld) (hx : x.reg ∈ streamRegs := by decide) : t.on x b = s.on x b :=
  congrArg (· != 0) (f_streams h hb x hx)

theorem streamPort_streams (h : t.streams = s.streams) (hb : b < 64) (p udp : Nat) : t.streamPort p udp b = s.streamPort p udp b := by
  simp only [State.streamPort, f_streams h hb F.STM_CFG_SRC, f_streams h hb F.STM_CFG_UDP_PORT]

theorem stmSamples_streams (h : t.streams = s.streams) (hb : b < 64) : t.stmSamples b = s.stmSamples b := by
  simp only [State.stmSamples, f_streams h hb F.STM_CFG_PKT64]

theorem stmBytes_streams (h : t.streams = s.streams) (hb : b < 64) : t.stmBytes b = s.stmBytes b := by
  simp only [State.stmBytes, on_streams h hb F.STM_CFG_CPLX]

theorem ringDram_streams (h : t.streams = s.streams) (hb : b < 64) : t.ringDram b = s.ringDram b := by
  simp only [State.ringDram, f_streams h hb F.STM_RING_HANDLE]

theorem slotAddr_streams (h : t.streams = s.streams) (hb : b < 64) (q : Nat) : t.slotAddr b q = s.slotAddr b q := by
  have hf : ∀ i, t.buffer i = s.buffer i := fun i => congrArg (fun v : StreamView => sget (fun _ => ({} : BufferSt)) v.buffers i) h
  simp only [State.slotAddr, State.bufferBase, State.slotBytes, hf, f_streams h hb F.STM_RING_HANDLE, f_streams h hb F.STM_RING_NSLOT,
    stmSamples_streams h hb, stmBytes_streams h hb]

theorem takesPacket_streams (h : t.streams = s.streams) (hb : b < 64) (m : StreamMsg) : t.takesPacket b m = s.takesPacket b m := by
  simp only [State.takesPacket, State.slotHolder, on_streams h hb F.STM_CFG_EN, on_streams h hb F.STM_CFG_CPLX, stmSamples_streams h hb,
    f_streams h hb F.STM_RING_NSLOT, binding_streams h b]

theorem streamBinding_lt {p : Nat} {m : StreamMsg} (h : s.streamBinding p m = some b) : b < 64 := by
  unfold State.streamBinding at h
  dsimp only at h
  split at h
  · next hb => cases h; exact hb.1
  · exact List.mem_range.mp (List.mem_of_find?_eq_some h)

theorem streamBinding_streams (h : t.streams = s.streams) (p : Nat) (m : StreamMsg) : t.streamBinding p m = s.streamBinding p m := by
  have hfirst : (firstN 64 fun i => t.on F.STM_CFG_EN i && t.streamPort p m.udp.toNat i) =
      firstN 64 fun i => s.on F.STM_CFG_EN i && s.streamPort p m.udp.toNat i :=
    List.find?_congr fun i hi => by
      have hi := List.mem_range.mp hi
      rw [on_streams h hi F.STM_CFG_EN, streamPort_streams h hi]
  have hnamed : ∀ b : Nat, (b < 64 ∧ (p = 0 ∨ t.streamPort p m.udp.toNat b = true)) ↔
      (b < 64 ∧ (p = 0 ∨ s.streamPort p m.udp.toNat b = true)) := fun b =>
    and_congr_right fun hb => by rw [streamPort_streams h hb]
  simp only [State.streamBinding, hfirst, hnamed]

end

/-! ### A packet that is taken (R118) -/

/-- From s to t, the ring of binding b came to hold packet m, as it arrived (R117, R118). -/
def HoldsPacket (s t : State) (b : Nat) (m : StreamMsg) : Prop :=
  ∃ pk ∈ (t.binding b).packets, pk.seq = m.seq ∧ pk.arrived = s.now ∧ pk.nsamp = s.stmSamples b ∧ pk.ptime = m.ptime ∧
    pk.start = bit m.h0.toNat 24 ∧ pk.stop = bit m.h0.toNat 25

/-- From s to t, the slot of packet m of binding b was written, and no other byte of memory (R118). -/
structure SlotWritten (s t : State) (b : Nat) (m : StreamMsg) : Prop where
  header : t.readWord (s.ringDram b) (s.slotAddr b m.seq) = m.h0 ∧ t.readWord (s.ringDram b) (s.slotAddr b m.seq + 8) = m.h1 ∧
    t.readWord (s.ringDram b) (s.slotAddr b m.seq + 16) = m.h2 ∧ t.readWord (s.ringDram b) (s.slotAddr b m.seq + 24) = m.h3
  payload : ∀ i < m.payload.length, i < s.stmSamples b * s.stmBytes b / 8 →
    t.readWord (s.ringDram b) (s.slotAddr b m.seq + 32 + 8 * i) = m.payload.getD i 0
  region : ∀ x, x < s.slotAddr b m.seq ∨ s.slotAddr b m.seq + s.slotBytes b ≤ x → t.byte (s.ringDram b) x = s.byte (s.ringDram b) x
  other : ∀ x, t.byte (!s.ringDram b) x = s.byte (!s.ringDram b) x

section
variable {s t u : State} {b : Nat} {m : StreamMsg}

/-- The words of a packet that its slot takes. -/
def State.slotBody (s : State) (b : Nat) (m : StreamMsg) : List Word := m.payload.take (s.stmSamples b * s.stmBytes b / 8)

/-- What is stored of a packet beside its words in memory. -/
def State.storedPacket (s : State) (b : Nat) (m : StreamMsg) : Packet :=
  { seq := m.seq, start := bit m.h0.toNat 24, stop := bit m.h0.toNat 25, ptime := m.ptime, nsamp := s.stmSamples b, arrived := s.now }

theorem storePacket_eq (s : State) (b : Nat) (m : StreamMsg) : s.storePacket b m =
    (s.putPacket (s.ringDram b) (s.slotAddr b m.seq) m (s.slotBody b m)).modBinding b fun x =>
      { x with packets := (x.packets.filter fun q => q.seq % max 1 (s.f F.STM_RING_NSLOT b) != m.seq % max 1 (s.f F.STM_RING_NSLOT b)) ++
                 [s.storedPacket b m], onlyStart := false } := by
  have h := putPacket_memoryOnly s (s.ringDram b) (s.slotAddr b m.seq) m (s.slotBody b m)
  have hp : s.storedPacket b m = (s.putPacket (s.ringDram b) (s.slotAddr b m.seq) m (s.slotBody b m)).storedPacket b m := by
    rw [h]; rfl
  rw [hp]
  rfl

theorem storePacket_holds (s : State) (b : Nat) (m : StreamMsg) : HoldsPacket s (s.storePacket b m) b m :=
  ⟨s.storedPacket b m, by rw [storePacket_eq, binding_modBinding_same]; simp, rfl, rfl, rfl, rfl, rfl, rfl⟩

theorem storePacket_written (s : State) (b : Nat) (m : StreamMsg) : SlotWritten s (s.storePacket b m) b m := by
  have hlen : (s.slotBody b m).length ≤ s.stmSamples b * s.stmBytes b / 8 := by simp [State.slotBody]
  have hslot : 32 + 8 * (s.slotBody b m).length ≤ s.slotBytes b := by unfold State.slotBytes; omega
  rw [storePacket_eq]
  refine ⟨putPacket_header .., fun i hi hn => ?_, fun x hx => ?_, fun x => ?_⟩
  · refine (putPacket_payload s _ _ m (s.slotBody b m) (by simpa [State.slotBody] using ⟨hn, hi⟩)).trans ?_
    simp [State.slotBody, hn]
  · exact byte_putPacket_outside s _ _ m _ (.inr (by omega))
  · exact byte_putPacket_outside s _ _ m _ (.inl (by simp))

theorem HoldsPacket.of_rings (h : HoldsPacket s u b m) (ht : t.rings = u.rings) : HoldsPacket s t b m := by
  unfold HoldsPacket
  rw [packets_rings ht]
  exact h

theorem SlotWritten.of_rings (h : SlotWritten s u b m) (ht : t.rings = u.rings) : SlotWritten s t b m := by
  constructor <;> simp only [readWord_rings ht, byte_rings ht]
  · exact h.header
  · exact h.payload
  · exact h.region
  · exact h.other

theorem HoldsPacket.from_streams (h : HoldsPacket u t b m) (hu : u.streams = s.streams) (hb : b < 64) : HoldsPacket s t b m := by
  unfold HoldsPacket
  rw [← now_streams hu, ← stmSamples_streams hu hb]
  exact h

theorem SlotWritten.from_streams (h : SlotWritten u t b m) (hu : u.streams = s.streams) (hb : b < 64) : SlotWritten s t b m := by
  have hslot : u.slotBytes b = s.slotBytes b := by simp only [State.slotBytes, stmSamples_streams hu hb, stmBytes_streams hu hb]
  have hbyte := byte_rings (congrArg StreamView.rings hu)
  obtain ⟨h1, h2, h3, h4⟩ := h
  rw [ringDram_streams hu hb, slotAddr_streams hu hb] at h1 h2 h3
  rw [ringDram_streams hu hb] at h4
  rw [stmSamples_streams hu hb, stmBytes_streams hu hb] at h2
  rw [hslot] at h3
  exact ⟨h1, h2, fun x hx => (h3 x hx).trans (hbyte ..), fun x => (h4 x).trans (hbyte ..)⟩

/-- A packet that its binding takes is stored; the voices that meet it leave its ring. -/
theorem streamRx_taken (s : State) (b : Nat) (ring : Bool) (m : StreamMsg) (h : s.takesPacket b m = true) :
    (s.streamRx b ring m).rings = (s.storePacket b m).rings := by
  unfold State.streamRx
  rw [if_pos h]
  dsimp only
  split
  · exact rings_offerAll ..
  · rfl

theorem streamRx_refused (s : State) (b : Nat) (ring : Bool) (m : StreamMsg) (h : s.takesPacket b m = false) :
    s.streamRx b ring m = if ring then s else s.dropPacket b := by
  unfold State.streamRx
  rw [if_neg (by simp [h])]

/-! ### A packet that is dropped (R118, R361) -/

/-- From s to t, a packet was dropped and counted at binding b. -/
def DroppedPacket (s t : State) (b : Nat) : Prop :=
  t.on F.STM_STAT_BAD_PKT b = true ∧ t.f F.STM_CNT_DROP b = s.upped F.STM_CNT_DROP b ∧ t.sram = s.sram ∧ t.dram = s.dram ∧
    t.bindings = s.bindings

theorem dropPacket_dropped (s : State) (b : Nat) : DroppedPacket s (s.dropPacket b) b := by
  refine ⟨?_, ?_, rfl, rfl, rfl⟩
  · rw [State.on, State.dropPacket, State.flag, f_setF_same _ _ _ _ _ (by constructor <;> decide)]
    rfl
  · rw [State.dropPacket, State.flag, f_setF_ne _ _ (by simp [Reg.addr, Reg.spec, F.STM_CNT_DROP, F.STM_STAT_BAD_PKT]),
      f_bump_same _ _ _ _ (by constructor <;> decide)]

theorem dropped_of_streams (hu : u.streams = s.streams) (ht : t.streams = (u.dropPacket b).streams) (hb : b < 64) :
    DroppedPacket s t b := by
  obtain ⟨hbad, hcnt, hsram, hdram, hbind⟩ := dropPacket_dropped u b
  have sram {x y : State} (e : x.streams = y.streams) : x.sram = y.sram := congrArg (fun v : StreamView => v.rings.sram) e
  have dram {x y : State} (e : x.streams = y.streams) : x.dram = y.dram := congrArg (fun v : StreamView => v.rings.dram) e
  refine ⟨?_, ?_, ?_, ?_, ?_⟩
  · rw [on_streams ht hb F.STM_STAT_BAD_PKT, hbad]
  · rw [f_streams ht hb F.STM_CNT_DROP, hcnt, State.upped, f_streams hu hb F.STM_CNT_DROP, State.upped]
  · rw [sram ht, hsram, sram hu]
  · rw [dram ht, hdram, dram hu]
  · exact ((congrArg StreamView.bindings ht).trans hbind).trans (congrArg StreamView.bindings hu)

/-! ### Arrival at a port (R270) -/

theorem treatStream_streams (s : State) {p : Nat} (hb : s.streamBinding p m = some b) : (s.treatStream p m).streams =
    (if s.streamPort p m.udp.toNat b then s.streamRx b false m else s.dropPacket b).streams := by
  unfold State.treatStream
  rw [hb]
  dsimp only
  generalize (if s.streamPort p m.udp.toNat b then s.streamRx b false m else s.dropPacket b) = u
  split <;> simp

theorem drainPorts_of_calm (hs : s.calm) (n : Nat) : s.drainPorts n = s := by
  cases n with
  | zero => rfl
  | succ n =>
    have hn : (List.finRange 5).find? (fun (p : Fin 5) => !(s.port p).ready.isEmpty) = none := by simp [hs _]
    rw [State.drainPorts, hn]

/-- A frame that waits alone is treated first. -/
theorem drainPorts_one (p : Fin 5) (f : RxFrame) (n : Nat) (h : ∀ q : Fin 5, (s.port q).ready = if q = p then [f] else []) :
    s.drainPorts (n + 1) = ((s.modPort p fun x => { x with ready := [] }).treat p f).drainPorts n := by
  have hfind : ∀ q : Fin 5, (List.finRange 5).find? (fun x => decide (x = q)) = some q := by decide
  have hp : (fun q : Fin 5 => !(s.port q).ready.isEmpty) = fun q => decide (q = p) := by
    funext q
    by_cases hq : q = p <;> simp [h, hq]
  rw [State.drainPorts, hp, hfind]
  simp only [h, if_true]

end

end Sys2Proof.Machine
end

section
/-! PROOFS. Stream packets at a port and in a ring (O24). -/

namespace Sys2Proof.Machine

section
variable {s t u : State} {b : Nat} {m : StreamMsg} {p : Fin 5}

theorem streams_treated (hs : s.calm) (p : Fin 5) (f : RxFrame) :
    ((s.modPort p fun x => { x with ready := x.ready ++ [f] }).modPort p fun x => { x with ready := [] }).streams = s.streams := by
  have hr : ∀ q, (((s.modPort p fun x => { x with ready := x.ready ++ [f] }).modPort p fun x => { x with ready := [] }).port q).ready =
      (s.port q).ready := fun q => by
    by_cases hq : q = p
    · subst hq; simp [hs p]
    · rw [port_modPort_ne _ _ hq, port_modPort_ne _ _ hq]
  exact congrArg (fun r => (⟨⟨r, s.sram, s.dram, s.mem.gens, _⟩, s.bindings, s.buffers, s.time, _⟩ : StreamView)) (funext hr)

theorem treatStream_calm (hs : s.calm) (hb : s.streamBinding p m = some b) : (s.treatStream p m).calm := by
  have ht := congrArg StreamView.rings (treatStream_streams s hb)
  by_cases hp : s.streamPort p m.udp.toNat b = true
  · rw [if_pos hp] at ht
    cases htk : s.takesPacket b m with
    | true =>
      have hst : (s.storePacket b m).calm := by
        rw [storePacket_eq]
        refine calm_congr ?_ hs
        rw [modBinding_ports, putPacket_memoryOnly s]
      exact calm_rings (ht.trans (streamRx_taken s b false m htk)) hst
    | false =>
      rw [streamRx_refused s b false m htk] at ht
      exact calm_rings ht hs
  · rw [if_neg hp] at ht
    exact calm_rings ht hs

/-- A stream packet that arrives alone and meets no injector is treated at once. -/
theorem arrive_stream (hr : s.receives p = true) (hs : s.calm) (hi : s.injects p 0 = false) (hb : s.streamBinding p m = some b) :
    ∃ u : State, u.streams = s.streams ∧ s.arrive p (.stream m) = u.treatStream p m := by
  have key : ∀ v : State, v.streams = s.streams → v.injects p 0 = false →
      ∃ u : State, u.streams = s.streams ∧ (v.offerRx p (.stream m)).settlePorts = u.treatStream p m := fun v hv hvi => by
    have hvc : v.calm := calm_rings (congrArg StreamView.rings hv) hs
    have ho : v.offerRx p (.stream m) = v.modPort p fun x => { x with ready := x.ready ++ [.stream m] } := by
      simp [State.offerRx, hvi]
    have hu := (streams_treated hvc p (.stream m)).trans hv
    refine ⟨_, hu, ?_⟩
    rw [ho, State.settlePorts, drainPorts_one p (.stream m) 255]
    · exact drainPorts_of_calm (treatStream_calm (calm_rings (congrArg StreamView.rings hu) hs) ((streamBinding_streams hu p m).trans hb)) 255
    · intro q
      by_cases hq : q = p
      · subst hq; simp [hvc q]
      · rw [port_modPort_ne _ _ (by simpa [Fin.ext_iff] using hq), hvc q, if_neg hq]
  unfold State.arrive
  rw [if_neg (by simp [hr])]
  split
  · next hp =>
    subst hp
    refine key _ (streams_cmdHead s) ?_
    have hf : ∀ x : Fld, x.reg = .PRT_FI → (s.tick F.P0_CMD_IDX_HEAD).f x 0 = s.f x 0 := fun x hx =>
      f_setF_ne s _ (by rw [hx]; decide)
    rw [← hi]
    simp only [State.injects, State.on, Fin.val_zero, hf F.PRT_FI_EN rfl, hf F.PRT_FI_DIR rfl]
  · exact key s rfl hi

end

theorem anyN_iff (n : Nat) (p : Nat → Bool) : anyN n p = true ↔ ∃ i < n, p i = true := by
  induction n with
  | zero => simp [anyN]
  | succ n ih => rw [anyN, Bool.or_eq_true, ih, Nat.exists_lt_succ_right]

/-! ### STREAM_PACKET_RX (R116 to R118, R270) -/

section
variable {s : State} {p : Fin 5} {peer : Bool} {h0 h1 h2 h3 : Word} {body : StreamBody}

theorem streamPacketRx_arrives (hr : s.receives p = true) (hf : s.takesFrame p body.frame = true)
    (hpeer : p ≠ 0 → s.on F.ETH_CFG_STRM_PEER_ONLY (p.val - 1) = false)
    (hport : p ≠ 0 → ∃ i : Fin 64, s.on F.STM_CFG_EN i = true ∧ s.streamPort p body.udp.toNat i = true) :
    exec (.streamPacketRx p.castSucc peer h0 h1 h2 h3 body) s = .next (s.arrive p (.stream ⟨body.udp, h0, h1, h2, h3, body.words⟩)) := by
  have h5 : p.castSucc ≠ 5 := (Fin.castSucc_lt_last p).ne
  have hp : Fin.ofNat 5 p.castSucc.val = p := Fin.ext (Nat.mod_eq_of_lt p.isLt)
  change execStreamPacketRx .. = _
  unfold execStreamPacketRx
  rw [if_neg h5, hp]
  dsimp only
  rw [if_neg, if_neg]
  · rintro ⟨hn, ho, -⟩
    rw [hpeer hn] at ho
    cases ho
  · rintro (h | h | ⟨hn, ha⟩)
    · exact h hr
    · exact h hf
    · obtain ⟨i, hen, hi⟩ := hport hn
      exact ha ((anyN_iff ..).mpr ⟨i, i.isLt, by rw [hen, hi]; rfl⟩)

theorem streamPacketRx_frame_refused (hf : s.takesFrame p body.frame = false) :
    exec (.streamPacketRx p.castSucc peer h0 h1 h2 h3 body) s = .next s := by
  have h5 : p.castSucc ≠ 5 := (Fin.castSucc_lt_last p).ne
  have hp : Fin.ofNat 5 p.castSucc.val = p := Fin.ext (Nat.mod_eq_of_lt p.isLt)
  change execStreamPacketRx .. = _
  unfold execStreamPacketRx
  rw [if_neg h5, hp]
  exact if_pos (.inr (.inl (by simp [hf])))

/-- A packet at a port: taken, or dropped and counted (R118). -/
theorem streamPacketRx_port {b : Nat} (hr : s.receives p = true) (hf : s.takesFrame p body.frame = true)
    (hpeer : p ≠ 0 → s.on F.ETH_CFG_STRM_PEER_ONLY (p.val - 1) = false) (hi : s.injects p 0 = false)
    (hport : p ≠ 0 → ∃ i : Fin 64, s.on F.STM_CFG_EN i = true ∧ s.streamPort p body.udp.toNat i = true) (hs : s.calm)
    (hb : s.streamBinding p ⟨body.udp, h0, h1, h2, h3, body.words⟩ = some b) :
    let m : StreamMsg := ⟨body.udp, h0, h1, h2, h3, body.words⟩
    let r := exec (.streamPacketRx p.castSucc peer h0 h1 h2 h3 body) s
    ((s.streamPort p body.udp.toNat b && s.takesPacket b m) = true → Gives r fun t => HoldsPacket s t b m ∧ SlotWritten s t b m) ∧
    ((s.streamPort p body.udp.toNat b && s.takesPacket b m) = false → Gives r fun t => DroppedPacket s t b) := by
  intro m r
  have hlt := streamBinding_lt hb
  obtain ⟨u, hu, ht⟩ := arrive_stream (m := m) hr hs hi hb
  have hr : r = .next (u.treatStream p m) := ht ▸ streamPacketRx_arrives hr hf hpeer hport
  have hst : (u.treatStream p m).streams =
      (if s.streamPort p body.udp.toNat b then u.streamRx b false m else u.dropPacket b).streams := by
    rw [treatStream_streams u ((streamBinding_streams hu p m).trans hb), streamPort_streams hu hlt]
  rw [← takesPacket_streams hu hlt]
  cases hsp : s.streamPort p body.udp.toNat b with
  | false =>
    rw [hsp] at hst
    exact ⟨fun h => by simp at h, fun _ => ⟨_, hr, dropped_of_streams hu hst hlt⟩⟩
  | true =>
    rw [hsp, if_pos rfl] at hst
    refine ⟨fun h => ⟨_, hr, ?_⟩, fun h => ⟨_, hr, ?_⟩⟩
    · have hst := (congrArg StreamView.rings hst).trans (streamRx_taken u b false m h)
      exact ⟨((storePacket_holds u b m).of_rings hst).from_streams hu hlt, ((storePacket_written u b m).of_rings hst).from_streams hu hlt⟩
    · rw [streamRx_refused u b false m h] at hst
      exact dropped_of_streams hu hst hlt

theorem streamPacketRx_ring {b : Nat} (hb : b = bits h0.toNat 23 16) (hlt : b < 64) (hen : s.on F.STM_CFG_EN b = true)
    (hsrc : s.f F.STM_CFG_SRC b = 6) :
    exec (.streamPacketRx 5 peer h0 h1 h2 h3 body) s = .next (s.ringRx b (bits h0.toNat 63 32) body.ecc) := by
  subst hb
  change execStreamPacketRx .. = _
  unfold execStreamPacketRx
  rw [if_pos rfl]
  exact if_pos ⟨hlt, hen, hsrc⟩

theorem ringRx_clean {b q : Nat} (h : ∀ i < 4, s.poisoned (s.ringDram b) (s.slotAddr b q + 8 * i) = false) :
    s.ringRx b q .clean = s.streamRx b true (s.slotPacket b q) := by
  unfold State.ringRx
  have h0 := h 0 (by decide)
  have h1 := h 1 (by decide)
  have h2 := h 2 (by decide)
  have h3 := h 3 (by decide)
  simp only [Nat.mul_zero, Nat.add_zero, Nat.mul_one, Nat.reduceMul] at h0 h1 h2 h3
  simp [h0, h1, h2, h3, foundEcc, State.eccEvent, Ecc.bad]

theorem foundEcc_bad (d marked : Bool) {e : Ecc} (h : e.bad = true) : (foundEcc d marked e).bad = true := by
  revert h
  cases e <;> cases d <;> cases marked <;> decide

theorem ringRx_bad {b q : Nat} {e : Ecc} (h : e.bad = true) (hlt : b < 64) : DroppedPacket s (s.ringRx b q e) b := by
  unfold State.ringRx
  extract_lets a d marked u
  rw [if_pos (foundEcc_bad _ _ h)]
  exact dropped_of_streams (streams_eccEvent ..) rfl hlt

end

/-- Settles O24: a packet at a port is treated by `streamPacketRx_port`; a completed slot of a RING source is read and only an uncorrectable
header counts. -/
theorem streamPackets : Obligations.StreamPackets := by
  intro src peer udp h0 h1 h2 h3 payload e frame b s m r d a taken dropped holds
  refine ⟨fun h5 hr hf hpeer hi hport hs hb => ?_, fun h5 _ hf => ?_, fun h5 hb hlt hen hsrc => ?_⟩
  · obtain ⟨p, rfl⟩ := Fin.exists_castSucc_eq.mpr (show src ≠ Fin.last 5 from h5)
    have hp : p ≠ 0 → p.castSucc ≠ 0 := fun h h' => h (Fin.castSucc_injective _ h')
    obtain ⟨htaken, hdropped⟩ := streamPacketRx_port (peer := peer) (body := ⟨udp, payload, e, frame⟩) hr hf (fun h => hpeer (hp h)) hi
      (fun h => hport (hp h)) hs hb
    refine ⟨fun ht => ?_, hdropped⟩
    obtain ⟨t, ht, hh, hw⟩ := htaken ht
    obtain ⟨hw0, hw1, hw2, hw3⟩ := hw.header
    exact ⟨t, ht, hh, hw0, hw1, hw2, hw3, hw.payload, hw.region, hw.other⟩
  · obtain ⟨p, rfl⟩ := Fin.exists_castSucc_eq.mpr (show src ≠ Fin.last 5 from h5)
    exact streamPacketRx_frame_refused hf
  · subst h5
    intro q m'
    have hr : r = .next (s.ringRx b q e) := streamPacketRx_ring hb hlt hen hsrc
    refine ⟨fun he hm => ?_, fun he => ⟨_, hr, ringRx_bad he hlt⟩⟩
    subst he
    rw [ringRx_clean hm] at hr
    refine ⟨fun ht => ⟨_, hr, (storePacket_holds s b m').of_rings (streamRx_taken s b true m' ht)⟩, fun ht => ?_⟩
    rw [hr, streamRx_refused s b true m' ht]
    rfl

end Sys2Proof.Machine
end

section
/-! PROOFS. What composing a voice sample leaves (R141), and what the datapath and the Burr Guard leave (R148 to R154, R28). -/

namespace Sys2Proof.Machine

/-! ### What a voice sample leaves (R69, R79, R141) -/

/-- What a voice sample leaves until it is composed: DTIME, and every channel but the transitions on its lanes. -/
def State.channels (s : State) : TimeSt × (Nat → ChanSt) := (s.time, fun k => { s.chan k with lanes := [] })

section
variable (s : State) (v c : Nat)

@[simp] theorem channels_setF (x : Fld) (k i j : Nat) : (s.setF x k i j).channels = s.channels := by rfl
@[simp] theorem channels_flag (x : Fld) (i j : Nat) : (s.flag x i j).channels = s.channels := by rfl
@[simp] theorem channels_bump (x : Fld) (i j : Nat) : (s.bump x i j).channels = s.channels := by rfl
@[simp] theorem channels_bumpBy (x : Fld) (k i j : Nat) : (s.bumpBy x k i j).channels = s.channels := by rfl
@[simp] theorem channels_modVoice (g : VoiceSt → VoiceSt) : (s.modVoice v g).channels = s.channels := by rfl

@[simp] theorem channels_compSat (n : Nat) : (s.compSat c n).channels = s.channels := by
  unfold State.compSat
  split <;> simp

@[simp] theorem channels_shaped (it : Item) (z : IQ) : (s.shaped v c it z).2.channels = s.channels := by simp [State.shaped]

@[simp] theorem channels_modSample (it : Item) (n voff : Nat) : (s.modSample v c it n voff).2.channels = s.channels := by
  unfold State.modSample
  dsimp only
  split <;> simp

@[simp] theorem channels_tickSample (it : Item) (n : Nat) : (s.tickSample v c it n).2.channels = s.channels := by simp [State.tickSample]

@[simp] theorem channels_patLanes (it : Item) (n : Nat) : (s.patLanes v it n).channels = s.channels := by simp [State.patLanes]

@[simp] theorem channels_streamSample (it : Item) (b n : Nat) (m : Int) : (s.streamSample v c it b n m).2.channels = s.channels := by
  unfold State.streamSample
  split
  · split <;> simp
  · rfl
  · rfl

@[simp] theorem channels_itemSample (it : Item) (n : Nat) (m : Int) : (s.itemSample v c it n m).2.channels = s.channels := by
  unfold State.itemSample
  dsimp only
  split <;> simp

@[simp] theorem channels_coveredSample (it : Item) (n : Nat) (m : Int) : (s.coveredSample v c it n m).2.channels = s.channels := by
  unfold State.coveredSample
  extract_lets t
  have ht : t.channels = s.channels := by
    unfold t
    split <;> simp
  split <;> simp [ht]

@[simp] theorem channels_atSample (n : Nat) : (s.atSample v n).channels = s.channels := by simp [State.atSample]

@[simp] theorem channels_contribution (m : Int) : (s.contribution v c m).2.channels = s.channels := by
  unfold State.contribution
  split
  · rfl
  · dsimp only
    split
    · simp
    · simp
    · split_ifs <;> simp

@[simp] theorem channels_voiceSample (m : Int) : (s.voiceSample v c m).channels = s.channels := by
  unfold State.voiceSample
  dsimp only
  split <;> simp

@[simp] theorem channels_sendLane (l : Nat) (t : Int) (b : Bool) : (s.sendLane c l t b).channels = s.channels := by
  refine Prod.ext rfl (funext fun k => ?_)
  by_cases hk : k = c
  · subst hk; simp [State.channels, State.sendLane]
  · simp [State.channels, State.sendLane, chan_modChan_ne _ _ hk]

@[simp] theorem channels_sendChange (l : Nat) (t : Int × Int) : (s.sendChange c l t).channels = s.channels := by
  unfold State.sendChange
  simp only [apply_ite State.channels, channels_sendLane, ite_self]

@[simp] theorem channels_sendLanes (p : Int) : (s.sendLanes c p).channels = s.channels :=
  forN_keeps (P := fun t : State => t.channels = s.channels) 4 (fun _ _ ht => (channels_sendChange ..).trans ht) rfl

end

/-! ### The composed sample (R141, R142) -/

theorem satTo_bounds (w : Nat) (z : Int) : -2 ^ (w - 1) ≤ (satTo w z).1 ∧ (satTo w z).1 < 2 ^ (w - 1) := by
  have h : (0 : Int) < 2 ^ (w - 1) := by positivity
  unfold satTo
  split_ifs <;> dsimp only <;> omega

theorem composedOut_bounds (s : State) (c : Nat) (m : Int) : -32768 ≤ (s.composedOut c m).i ∧ (s.composedOut c m).i < 32768 :=
  satTo_bounds 16 _

section
variable {s t : State} {c : Nat}

/-- A composed sample depends on the voices, the channel's slots and GAIN, and its run-time writes that wait. -/
theorem composedOut_congr (hv : t.voices = s.voices) (hheld : (t.chan c).held = (s.chan c).held)
    (hslot : ∀ p < 8, t.rw .CH_SLOT c p = s.rw .CH_SLOT c p) (hgain : t.rw .CH_COMP c = s.rw .CH_COMP c) (m : Int) :
    t.composedOut c m = s.composedOut c m := by
  have hvoice : ∀ v, t.voice v = s.voice v := fun v => by rw [State.voice, hv]; rfl
  have hforce : ∀ a hi lo, t.word a = s.word a → t.inForce c a hi lo = s.inForce c a hi lo := fun a hi lo h => by
    rw [State.inForce, State.inForce, hheld, h]
  have hchan : ∀ v, t.voiceChan v = s.voiceChan v := fun v => by rw [State.voiceChan, hvoice]; rfl
  have hgate : ∀ v w, t.gateOpen v w m = s.gateOpen v w m := fun v w => by rw [State.gateOpen, hvoice]; rfl
  have hcompose : ∀ a, ∀ p < 8, t.compose c m a p = s.compose c m a p := fun a p hp => by
    have hw : t.slotInForce c p = s.slotInForce c p := hforce _ _ _ (hslot p hp)
    simp only [State.compose, hw, hchan, hgate, hvoice]
  have hcomposed : t.composed c m = s.composed c m := by
    simp only [State.composed, List.foldl_cons, List.foldl_nil]
    iterate 8 rw [hcompose _ _ (by decide)]
  simp only [State.composedOut, hcomposed, hforce _ _ _ hgain]

end

/-- Counting saturations changes CH_DPCNT and CH_STATUS alone. -/
theorem compSat_word (s : State) (c n : Nat) {o : Nat} (h1 : o ≠ Reg.CH_DPCNT.addr c 0) (h2 : o ≠ Reg.CH_STATUS.addr c 0) :
    (s.compSat c n).word o = s.word o := by
  unfold State.compSat
  split
  · rfl
  · exact (word_setWord_ne _ _ h2).trans (word_setWord_ne _ _ h1)

theorem compSat_recorded (s : State) (c n : Nat) : Recorded s (s.compSat c n) := by
  unfold State.compSat
  split
  · exact Recorded_refl s
  · exact Recorded_trans (Recorded_setF ..) (Recorded_flag ..)

/-! ### What the datapath leaves (R148 to R154) -/

/-- A channel but for its NCO and its coarse buffer. -/
def ChanSt.guarding (c : ChanSt) : ChanSt :=
  { c with nco := 0, nextNco := 0, ncoZero := none, coarse := 0, again_ := 0, line := [], ahead := 0 }

theorem guarding_ncoTo (c : ChanSt) (b : Int) : (c.ncoTo b).guarding = c.guarding := by
  unfold ChanSt.ncoTo
  split
  · split <;> rfl
  · rfl

/-- What decides which condition of R28 governs a DAC sample, and how it is shown: the voices, RUN, and channel n but for its NCO and its
coarse buffer. -/
def State.guarding (s : State) (n : Nat) : List (Nat × VoiceSt) × Bool × ChanSt := (s.voices, s.on F.CH_STATUS_RUN n, (s.chan n).guarding)

section
variable (s : State) (n : Nat)

theorem guarding_reach (t : Nat) : (s.reach t).guarding n = s.guarding n := by
  unfold State.reach
  split <;> rfl

theorem stageSat_recorded (k : Nat) : Recorded s (s.stageSat n k) := by
  unfold State.stageSat
  split
  · exact Recorded_refl s
  · exact Recorded_trans (Recorded_setF ..) (Recorded_flag ..)

theorem stageSat_run (k : Nat) : (s.stageSat n k).on F.CH_STATUS_RUN n = s.on F.CH_STATUS_RUN n := by
  unfold State.stageSat
  split
  · rfl
  · rw [State.on, State.flag, f_setF_apart _ (x := F.CH_STATUS_DP_SAT) (y := F.CH_STATUS_RUN) _ _ _ (by constructor <;> decide) rfl
      (by simp [Fld.apart, F.CH_STATUS_DP_SAT, F.CH_STATUS_RUN]), State.bumpBy,
      f_setF_ne _ _ (by simp [Reg.addr, Reg.spec, F.CH_STATUS_RUN, F.CH_DPCNT_DP_SAT])]
    rfl

theorem stageSat_chan (k c : Nat) : (s.stageSat n k).chan c = s.chan c := by rw [State.chan, (stageSat_recorded s n k).chans]; rfl

theorem guarding_stageSat (k : Nat) : (s.stageSat n k).guarding n = s.guarding n := by
  simp only [State.guarding, (stageSat_recorded s n k).voices, stageSat_run, stageSat_chan]

theorem guarding_modChan {g : ChanSt → ChanSt} (h : ∀ x, (g x).guarding = x.guarding) : (s.modChan n g).guarding n = s.guarding n := by
  refine Prod.ext rfl (Prod.ext rfl ?_)
  simp only [State.guarding, chan_modChan_same, h]

theorem guarding_nextWord : (s.nextWord n).2.guarding n = s.guarding n := by
  unfold State.nextWord
  dsimp only
  rw [guarding_modChan _ n fun x => guarding_ncoTo x _, guarding_stageSat]

theorem guarding_pushSlot : (s.pushSlot n).guarding n = s.guarding n := by
  have hplay : ∀ (u : State) (a b : Nat) (l : ChanSt → List DacSlot), (u.modChan n fun x =>
      { x with coarse := a, again_ := b, line := l x, ahead := x.ahead + 1 }).guarding n = u.guarding n := fun u a b l =>
    guarding_modChan u n fun x => rfl
  unfold State.pushSlot
  dsimp only
  split
  · exact guarding_modChan _ n fun x => rfl
  · rw [hplay, guarding_nextWord]
    exact forN_keeps (P := fun t : State => t.guarding n = s.guarding n) _ (fun _ t ht => (guarding_nextWord t n).trans ht) rfl

theorem guarding_pushSlots (k : Nat) : (forN k (fun _ t => t.pushSlot n) s).guarding n = s.guarding n :=
  forN_keeps (P := fun t : State => t.guarding n = s.guarding n) k (fun _ t ht => (guarding_pushSlot t n).trans ht) rfl

end

section
variable {s t : State} {n : Nat}

theorem parkedAt_guarding (h : t.guarding n = s.guarding n) (d : Int) : t.parkedAt n d = s.parkedAt n d := by
  have hstop : (t.chan n).stopDac = (s.chan n).stopDac := congrArg (fun g => g.2.2.stopDac) h
  have hrun : t.on F.CH_STATUS_RUN n = s.on F.CH_STATUS_RUN n := congrArg (fun g => g.2.1) h
  rw [State.parkedAt, State.parkedAt, hstop, hrun]

theorem condAt_guarding (h : t.guarding n = s.guarding n) (d : Int) : t.condAt n d = s.condAt n d := by
  have hvoice : ∀ v, t.voice v = s.voice v := fun v => congrArg (fun g => sget (fun _ => ({} : VoiceSt)) g v) (congrArg Prod.fst h)
  have hchan : ∀ v, t.voiceChan v = s.voiceChan v := fun v => by rw [State.voiceChan, hvoice]; rfl
  have hunder : t.underrunAt n d = s.underrunAt n d := by
    rw [State.underrunAt, State.voicesOf]
    simp only [hchan, hvoice]
    rfl
  have hg : (t.chan n).guarding = (s.chan n).guarding := congrArg (fun g => g.2.2) h
  have hbias : (t.chan n).bias = (s.chan n).bias := (congrArg ChanSt.bias hg :)
  have hunlocked : (t.chan n).unlocked = (s.chan n).unlocked := (congrArg ChanSt.unlocked hg :)
  have hbrown : (t.chan n).brown = (s.chan n).brown := (congrArg ChanSt.brown hg :)
  have hrange : (t.chan n).inRange d = (s.chan n).inRange d := (congrArg (fun g : ChanSt => g.inRange d) hg :)
  have hset : (t.chan n).setAt d = (s.chan n).setAt d := (congrArg (fun g : ChanSt => g.setAt d) hg :)
  simp only [State.condAt, parkedAt_guarding h, hbias, hunlocked, hbrown, hrange, hset, hunder]

end

end Sys2Proof.Machine
end

section
/-! PROOFS. Voice samples and DAC samples (O30). -/

namespace Sys2Proof.Machine

theorem reached_of_time {s t : State} {x : Nat} (h : t.time = (s.reach x).time) : Reached s t x := by
  have hnow : t.now = (s.reach x).now := congrArg (fun y : TimeSt => y.dtime.toNat) h
  refine fun hx hr => ⟨fun hle => ?_, fun hlt => ?_⟩
  · rw [hnow, reach_passed s x hle]
  · rw [hnow]
    exact reach_now s x hr hlt hx

/-! ### VOICE_SAMPLE (R141) -/

section
variable {s : State}

/-- Channel n's voices and lanes at voice sample m, as it is composed. -/
def State.voiced (s : State) (n : Nat) (m : Int) : State :=
  ((s.voicesOf n).foldl (fun t v => t.voiceSample v n m) s).sendLanes n (m * 1024)

theorem channels_voiced (s : State) (n : Nat) (m : Int) : (s.voiced n m).channels = s.channels :=
  (channels_sendLanes ..).trans (foldl_same State.channels (fun t v => channels_voiceSample t v n m) _ s)

/-- The composed sample a at voice sample m joins the elastic buffer of channel n, or is discarded during an unlock (R217). -/
def State.buffered (s : State) (n : Nat) (m : Int) (a : Acc) : State :=
  (s.compSat n a.sats).modChan n fun x => { x with nextVoice := m + 1, sums := if x.unlocked then [] else x.sums ++ [(m, a.i, a.q)] }

theorem voiceSample_composes {n : Fin 16} (hrun : s.on F.CH_STATUS_RUN n = true) (hre : (s.chan n).restart = false) :
    exec (.voiceSample n) s = .next (
      let u := (s.reach ((s.chan n).grid.voiceAt (s.chan n).nextVoice).toNat).voiced n (s.chan n).nextVoice
      u.buffered n (s.chan n).nextVoice (u.composedOut n (s.chan n).nextVoice)) := by
  change execVoiceSample n s = _
  unfold execVoiceSample
  exact if_neg (by simp [hrun, hre])

theorem compSat_chan (u : State) (c k n : Nat) : (u.compSat c k).chan n = u.chan n := by
  rw [State.chan, (compSat_recorded u c k).chans]; rfl

theorem buffered_chan (u : State) (n : Nat) (m : Int) (a : Acc) : (u.buffered n m a).chan n =
    { u.chan n with nextVoice := m + 1, sums := if (u.chan n).unlocked then [] else (u.chan n).sums ++ [(m, a.i, a.q)] } := by
  rw [State.buffered, chan_modChan_same, compSat_chan]

theorem buffered_time (u : State) (n : Nat) (m : Int) (a : Acc) : (u.buffered n m a).time = u.time := (compSat_recorded u n a.sats).time

/-- What joins the elastic buffer leaves what it was composed of. -/
theorem buffered_composedOut (u : State) (n : Nat) (m : Int) (a : Acc) : (u.buffered n m a).composedOut n m = u.composedOut n m := by
  have hvoices : (u.buffered n m a).voices = u.voices := (compSat_recorded u n a.sats).voices
  have hword : ∀ o, o ≠ Reg.CH_DPCNT.addr n 0 → o ≠ Reg.CH_STATUS.addr n 0 → (u.buffered n m a).word o = u.word o := fun o h1 h2 =>
    compSat_word u n a.sats h1 h2
  have hslot : ∀ p < 8, (u.buffered n m a).rw .CH_SLOT n p = u.rw .CH_SLOT n p := fun p hp =>
    hword _ (by simp [Reg.addr, Reg.spec]; omega) (by simp [Reg.addr, Reg.spec]; omega)
  have hgain : (u.buffered n m a).rw .CH_COMP n = u.rw .CH_COMP n :=
    hword _ (by simp [Reg.addr, Reg.spec]) (by simp [Reg.addr, Reg.spec])
  exact composedOut_congr hvoices (by rw [buffered_chan]) hslot hgain m

end

/-! ### DAC_SAMPLE (R28, R163) -/

/-- What channel n presents: the next DAC sample, whether one was shown, the condition that governed it, and its code. -/
def ChanSt.presents (c : ChanSt) : Int × Bool × Nat × Int := (c.nextDac, c.shown, c.cond, c.code)

section
variable (s : State) (n : Nat)

theorem spareBack_chan (k : Nat) : (s.spareBack n).chan k = s.chan k := by
  unfold State.spareBack
  split
  · split <;> rfl
  · rfl

theorem forget_presents (d : Int) : ((s.forget n d).chan n).presents = (s.chan n).presents := by
  unfold State.forget
  extract_lets t old first busy
  have ht : t.chans = s.chans := foldl_same State.chans (fun u v => modVoice_chans u v _) (s.voicesOf n) s
  rw [chan_modChan_same, State.chan, ht]
  rfl

theorem endUnderrun_code (d : Int) : ((s.endUnderrun n d).chan n).code = (s.chan n).code ∧
    ((s.endUnderrun n d).chan n).carried = (s.chan n).carried := by
  unfold State.endUnderrun
  split
  · exact ⟨rfl, rfl⟩
  · simp

/-- Under the conditions before the underrun hold the code stays. -/
theorem showSample_code_kept (d : Int) {k : Nat} (z : Int) (h6 : k ≠ 6) (h8 : k ≠ 8) :
    ((s.showSample n d k z).chan n).code = (s.chan n).code := by
  unfold State.showSample
  simp [h6, h8]

/-- After a carry hold the code due is shown (R170). -/
theorem showSample_code_due (d : Int) (z : Int) (h : (s.chan n).carried = true) : ((s.showSample n d 8 z).chan n).code = z := by
  unfold State.showSample
  simp [h]

/-- Channel n with the slot q shown under condition k, at or after DTIME x (R28, R148, R169). -/
def State.showSlot (s : State) (n : Nat) (q : DacSlot) (x k : Nat) : State :=
  (((s.reach x).stageSat n (s.chan n).corrected.2).endUnderrun n q.index).showSample n q.index k (s.chan n).corrected.1

/-- The DTIME at which slot q of channel n is presented, 2.50 ns before the first of its samples appears (R28). -/
def State.slotTime (s : State) (n : Nat) (q : DacSlot) : Nat :=
  s.pinTime n q.index - nanos 2 - nanos 1 / 2 - (roundDiv (q.wait * (s.chan n).out.num) (s.chan n).out.den).toNat

theorem present_eq (q : DacSlot) : s.present n q =
    ((((s.showSlot n q (s.slotTime n q) ((s.reach (s.slotTime n q)).condAt n q.index)).modChan n fun x =>
      { x with shown := true, cond := (s.reach (s.slotTime n q)).condAt n q.index, prev := (s.chan n).code,
               nextDac := if q.wait = 0 then q.index + 1 else q.index, ahead := x.ahead - 1 }).spareBack n).forget n q.index) := rfl

/-- A slot that is presented is the last one shown, under the condition that governs it. -/
theorem present_presents (q : DacSlot) : ((s.present n q).chan n).presents = (if q.wait = 0 then q.index + 1 else q.index, true,
    s.condAt n q.index, ((s.showSlot n q (s.slotTime n q) (s.condAt n q.index)).chan n).code) := by
  rw [present_eq, condAt_guarding (guarding_reach ..), forget_presents, spareBack_chan, chan_modChan_same]
  rfl

variable {s n}

/-- The code of a slot that is presented: the one due after a carry hold, and the last one under the conditions before the underrun hold. -/
theorem showSlot_code (q : DacSlot) (x k : Nat) :
    (k = 8 → (s.chan n).carried = true → ((s.showSlot n q x k).chan n).code = (s.chan n).corrected.1) ∧
    (k ≠ 6 → k ≠ 8 → ((s.showSlot n q x k).chan n).code = (s.chan n).code) := by
  have hchan : ((s.reach x).stageSat n (s.chan n).corrected.2).chan n = s.chan n := by
    rw [stageSat_chan]
    unfold State.reach
    split <;> rfl
  obtain ⟨hcode, hcarried⟩ := endUnderrun_code ((s.reach x).stageSat n (s.chan n).corrected.2) n q.index
  rw [hchan] at hcode hcarried
  refine ⟨fun hk hc => ?_, fun h6 h8 => (showSample_code_kept _ n _ _ h6 h8).trans hcode⟩
  subst hk
  exact showSample_code_due _ n _ _ (hcarried.trans hc)

theorem dacSample_presents {n : Fin 16} {q : DacSlot} (hp : s.parkedAt n (s.chan n).nextDac = false) (hre : (s.chan n).restart = false)
    (hneeds : s.on F.CH_STATUS_RUN n = true → (s.chan n).unlocked = false → s.needs n ≤ (s.chan n).nextVoice)
    (hq : ((forN (41 - (s.chan n).ahead) (fun _ t => t.pushSlot n) s).chan n).line[40]? = some q) (hpq : s.parkedAt n q.index = false) :
    exec (.dacSample n) s = .next ((forN (41 - (s.chan n).ahead) (fun _ t => t.pushSlot n) s).present n q) := by
  change execDacSample n s = _
  unfold execDacSample
  dsimp only
  rw [if_neg, hq]
  · exact if_neg (by rw [parkedAt_guarding (guarding_pushSlots s n _), hpq]; simp)
  · rintro (h | h | ⟨hr, hu, hlt⟩)
    · rw [hp] at h; cases h
    · rw [hre] at h; cases h
    · have := hneeds hr (by simpa using hu)
      omega

/-! ### The datapath at R = 1 (R148, R149) -/

theorem nextWord_direct (hr : s.f F.CH_CFG_R n = 1) (hbyp : s.on F.CH_CFG_RHO_BYP n = true) (hnco : s.on F.CH_CFG_NCO_EN n = false) :
    (s.nextWord n).1 = 2 * ((s.chan n).sum (s.chan n).nextNco).1 := by
  have hz : s.resampled n (s.chan n).nextNco =
      ((2 * ((s.chan n).sum (s.chan n).nextNco).1, 2 * ((s.chan n).sum (s.chan n).nextNco).2), 0) := by
    rw [State.resampled, if_pos hbyp, State.interpolated, if_pos hr.le]
    simp
  unfold State.nextWord
  dsimp only
  rw [State.ncoWord, hnco, hz]
  simp

end

/-- Settles O30: a composed sample joins the elastic buffer, a slot is presented under the condition that governs it, and at R = 1 the word is
twice the sum. -/
theorem samples : Obligations.Samples := by
  intro n q s c m u k
  refine ⟨fun hrun hre => ⟨_, voiceSample_composes hrun hre, ?_⟩, fun hp hre hneeds hq hpq => ?_, nextWord_direct⟩
  · have hv := channels_voiced (s.reach (c.grid.voiceAt m).toNat) n m
    generalize State.voiced _ _ _ = v at hv ⊢
    have hvc : ({ v.chan n with lanes := [] } : ChanSt) = { c with lanes := [] } := by
      refine (congrFun (congrArg Prod.snd hv) n).trans ?_
      unfold State.channels State.reach
      split <;> rfl
    have hunlocked : (v.chan n).unlocked = c.unlocked := (congrArg ChanSt.unlocked hvc :)
    have hsums : (v.chan n).sums = c.sums := (congrArg ChanSt.sums hvc :)
    refine ⟨reached_of_time ?_, ?_, ?_, ?_⟩
    · exact (buffered_time ..).trans (congrArg Prod.fst hv)
    · rw [buffered_chan]
    · rw [buffered_composedOut, buffered_chan, hunlocked, hsums]
    · exact composedOut_bounds _ n m
  · have hg := guarding_pushSlots s n (41 - c.ahead)
    have hgc : (u.chan n).guarding = c.guarding := congrArg (fun g => g.2.2) hg
    have hshow := present_presents u n q
    obtain ⟨hdue, hkept⟩ := showSlot_code (s := u) (n := n) q (u.slotTime n q) k
    rw [condAt_guarding hg] at hshow
    simp only [ChanSt.presents, Prod.mk.injEq] at hshow
    obtain ⟨hnext, hshown, hcond, hcode⟩ := hshow
    refine ⟨_, dacSample_presents hp hre hneeds hq hpq, hnext, hshown, hcond, fun h8 hc => hcode.trans (hdue h8 ?_), fun h6 h8 => ?_⟩
    · exact (congrArg ChanSt.carried hgc :).trans hc
    · exact (hcode.trans (hkept h6 h8)).trans (congrArg ChanSt.code hgc :)

end Sys2Proof.Machine
end

section
/-! PROOFS. What the operations of a Sequencer Core read and leave (chapter 02): register addresses of a core, its fields, and its states. -/

namespace Sys2Proof.Machine

/-! ### Addresses of a core's registers (R52) -/

/-- The registers of a core's control block that the model's instructions and commands touch. -/
def coreRegs : List Reg :=
  [.CORE_CTL, .CORE_STATUS, .CORE_PC, .CORE_START_SEC, .CORE_START_FRAC, .CORE_START_EVT, .CORE_FAULT, .CORE_QUEUE, .CORE_BUDGET,
    .CORE_DMEM_ADDR, .CORE_DMEM_DATA, .CORE_LOCK, .CORE_HDR, .CORE_GREG, .CORE_STACK, .CORE_COST]

theorem coreRegs_spec : ∀ r ∈ coreRegs, r.spec.voice = false ∧ r.spec.s1 = 0x8000 ∧ 0x200000 ≤ r.spec.base ∧ 0 < r.spec.n2 ∧
    r.spec.base + (r.spec.n2 - 1) * r.spec.s2 < 0x208000 := by
  decide

theorem coreRegs_apart : ∀ r ∈ coreRegs, ∀ r' ∈ coreRegs, r ≠ r' →
    r.spec.base + (r.spec.n2 - 1) * r.spec.s2 < r'.spec.base ∨ r'.spec.base + (r'.spec.n2 - 1) * r'.spec.s2 < r.spec.base := by
  decide

section
variable {r r' : Reg} {k k' j j' : Nat}

theorem addr_core (h : r ∈ coreRegs) : r.addr k j = r.spec.base + k * 0x8000 + j * r.spec.s2 := by
  obtain ⟨hv, hs, -⟩ := coreRegs_spec r h
  simp [Reg.addr, hv, hs]

theorem addr_core_high (h : r ∈ coreRegs) : 0x200000 ≤ r.addr k j := by
  have := (coreRegs_spec r h).2.2.1
  rw [addr_core h]; omega

theorem addr_core_ne (h : r ∈ coreRegs) (h' : r' ∈ coreRegs) (hj : j < r.spec.n2) (hj' : j' < r'.spec.n2) (hne : r ≠ r' ∨ k ≠ k') :
    r.addr k j ≠ r'.addr k' j' := by
  obtain ⟨-, -, hb, -, hx⟩ := coreRegs_spec r h
  obtain ⟨-, -, hb', -, hx'⟩ := coreRegs_spec r' h'
  have h1 : j * r.spec.s2 ≤ (r.spec.n2 - 1) * r.spec.s2 := Nat.mul_le_mul_right _ (by omega)
  have h2 : j' * r'.spec.s2 ≤ (r'.spec.n2 - 1) * r'.spec.s2 := Nat.mul_le_mul_right _ (by omega)
  rw [addr_core h, addr_core h']
  by_cases hk : k = k'
  · rcases coreRegs_apart r h r' h' (hne.resolve_right (not_not_intro hk)) with h3 | h3 <;> omega
  · omega

end

/-! ### Fields of a core -/

/-- A field of a one-word register of a core. -/
def Fld.ofCore (x : Fld) : Bool := coreRegs.contains x.reg && decide (x.hi < 64) && decide (x.lo ≤ x.hi)

/-- Fields of cores that share no bit. -/
def Fld.coreApart (x y : Fld) : Bool := x.ofCore && y.ofCore && (x.reg != y.reg || decide (x.hi < y.lo) || decide (y.hi < x.lo))

theorem ofCore_iff {x : Fld} : x.ofCore = true ↔ x.reg ∈ coreRegs ∧ x.ok := by
  simp [Fld.ofCore, Fld.ok, and_assoc]

section
variable (s : State) {x y : Fld} (v : Nat) {k l : Nat}

theorem f_setF_core_same (h : x.ofCore = true) : (s.setF x v k).f x k = v % 2 ^ (x.hi + 1 - x.lo) :=
  f_setF_same s x v k 0 (ofCore_iff.1 h).2

/-- A value that fits a field of a core is what the field reads. -/
theorem f_setF_core_fits (h : x.ofCore = true) (hv : v < 2 ^ (x.hi + 1 - x.lo)) : (s.setF x v k).f x k = v :=
  (f_setF_core_same s v h).trans (Nat.mod_eq_of_lt hv)

/-- Putting a field of a core leaves the fields of the other cores. -/
theorem f_setF_core_other (hx : x.ofCore = true) (hy : y.ofCore = true) (h : l ≠ k) : (s.setF x v k).f y l = s.f y l := by
  have hx := (ofCore_iff.1 hx).1
  have hy := (ofCore_iff.1 hy).1
  exact f_setF_ne s v (addr_core_ne hy hx (coreRegs_spec _ hy).2.2.2.1 (coreRegs_spec _ hx).2.2.2.1 (.inr h))

/-- Putting a field of a core leaves every field that shares no bit with it. -/
theorem f_setF_core_ne (h : x.coreApart y = true) : (s.setF x v k).f y l = s.f y l := by
  simp only [Fld.coreApart, Bool.and_eq_true, Bool.or_eq_true, bne_iff_ne, decide_eq_true_eq, or_assoc] at h
  obtain ⟨⟨hx, hy⟩, h⟩ := h
  by_cases hl : l = k
  · subst hl
    by_cases hr : x.reg = y.reg
    · exact f_setF_apart s v l 0 (ofCore_iff.1 hx).2 hr.symm (h.resolve_left (not_not_intro hr))
    · have hx := (ofCore_iff.1 hx).1
      have hy := (ofCore_iff.1 hy).1
      exact f_setF_ne s v (addr_core_ne hy hx (coreRegs_spec _ hy).2.2.2.1 (coreRegs_spec _ hx).2.2.2.1 (.inl (Ne.symm hr)))
  · exact f_setF_core_other s v hx hy hl

end

/-- Registers of a core are no fields of its status words. -/
theorem greg_setF_core (s : State) {x : Fld} (v k l : Nat) (r : Fin 32) (hx : x.reg ∈ coreRegs) (hn : x.reg ≠ .CORE_GREG) :
    (s.setF x v k).greg l r = s.greg l r := by
  unfold State.greg
  split
  · rfl
  · exact rw_setRw_ne s _ (addr_core_ne (by decide) hx r.isLt (coreRegs_spec _ hx).2.2.2.1 (.inl (Ne.symm hn)))

/-! ### What a memory error leaves (R20, R34, R252, R361) -/

/-- From s to t, a memory error was counted and logged, and nothing else happened. -/
structure ErrorNoted (s t : State) : Prop where
  recorded : Recorded s t
  word : ∀ o, o ≠ Reg.GLB_TRB.addr 1 0 → o ≠ Reg.MEM_ECC_LOG.addr 0 0 → o ≠ Reg.MEM_ECC_CNT.addr 0 0 → t.word o = s.word o

theorem ErrorNoted_refl (s : State) : ErrorNoted s s := ⟨Recorded_refl s, fun _ _ _ _ => rfl⟩

theorem ErrorNoted_trans {s t u : State} (h : ErrorNoted s t) (k : ErrorNoted t u) : ErrorNoted s u :=
  ⟨Recorded_trans h.recorded k.recorded, fun o h1 h2 h3 => (k.word o h1 h2 h3).trans (h.word o h1 h2 h3)⟩

theorem setF_noted (s : State) (x : Fld) (v i j : Nat)
    (h : x.reg.addr i j = Reg.GLB_TRB.addr 1 0 ∨ x.reg.addr i j = Reg.MEM_ECC_LOG.addr 0 0 ∨ x.reg.addr i j = Reg.MEM_ECC_CNT.addr 0 0) :
    ErrorNoted s (s.setF x v i j) :=
  ⟨Recorded_setF .., fun o h1 h2 h3 => word_setWord_ne s _ (by rcases h with h | h | h <;> rw [h] <;> assumption)⟩

theorem ErrorNoted_of_regs {s t : State} (h : Recorded s t) (hr : t.regs = s.regs) : ErrorNoted s t :=
  ⟨h, fun o _ _ _ => by rw [State.word, State.word, hr]⟩

theorem logAt_noted (s : State) (a : Option Nat) : ErrorNoted s { s with mem := { s.mem with logAt := a } } :=
  ErrorNoted_of_regs (Recorded_logAt s a) rfl

theorem logError_noted (s : State) (kind req addr : Nat) : ErrorNoted s (s.logError kind req addr) := by
  have h : ErrorNoted s ((s.trouble .eccUe).fireNow 624) :=
    ErrorNoted_trans (setF_noted s _ _ _ 0 (.inl rfl)) (ErrorNoted_of_regs (fireNow_recorded _ _) (fireNow_regs _ _))
  unfold State.logError
  dsimp only
  generalize (s.trouble .eccUe).fireNow 624 = u at h ⊢
  split
  · refine ErrorNoted_trans h (ErrorNoted_trans ?_ (logAt_noted _ _))
    have hl := fun (t : State) (x : Fld) (v : Nat) (hx : x.reg = .MEM_ECC_LOG) => setF_noted t x v 0 0 (.inr (.inl (by rw [hx])))
    exact ErrorNoted_trans (hl u F.MEM_ECC_LOG_KIND kind rfl) (ErrorNoted_trans (hl _ F.MEM_ECC_LOG_REQ req rfl)
      (ErrorNoted_trans (hl _ F.MEM_ECC_LOG_ADDR addr rfl) (hl _ F.MEM_ECC_LOG_VALID 1 rfl)))
  · exact h

theorem trouble_ce_noted (s : State) : ErrorNoted s (s.trouble .eccCe) := setF_noted s _ _ _ 0 (.inl rfl)

theorem eccEvent_noted (s : State) (e : Ecc) (d marked : Bool) (req addr : Nat) : ErrorNoted s (s.eccEvent e d marked req addr) := by
  unfold State.eccEvent
  split
  · exact ErrorNoted_refl s
  · exact ErrorNoted_trans (trouble_ce_noted s) (setF_noted _ _ _ 0 0 (.inr (.inr (by cases d <;> rfl))))
  · exact logError_noted ..
  · exact ErrorNoted_trans (logError_noted ..) (setF_noted _ _ _ 0 0 (.inr (.inr rfl)))

theorem coreEcc_noted (s : State) (e : Ecc) (addr : Nat) : ErrorNoted s (s.coreEcc e addr) := by
  unfold State.coreEcc
  split
  · exact ErrorNoted_refl s
  · exact trouble_ce_noted s
  · exact ErrorNoted_trans (ErrorNoted_of_regs (Recorded_drawn s) rfl) (logError_noted ..)

/-- A word that is no uncorrected one leaves every register word but that of the count (R34). -/
theorem coreEcc_word (s : State) {e : Ecc} (addr : Nat) (h : e.bad = false) {o : Nat} (ho : o ≠ Reg.GLB_TRB.addr 1 0) :
    (s.coreEcc e addr).word o = s.word o := by
  cases e
  · rfl
  · exact word_setWord_ne s _ ho
  all_goals cases h


/-! ### What of a core no memory error touches -/

section
variable {s t : State}

theorem ErrorNoted.word_high (h : ErrorNoted s t) {o : Nat} (ho : 0x100000 ≤ o) : t.word o = s.word o := by
  have h1 : Reg.GLB_TRB.addr 1 0 < 0x100000 := by decide
  have h2 : Reg.MEM_ECC_LOG.addr 0 0 < 0x100000 := by decide
  have h3 : Reg.MEM_ECC_CNT.addr 0 0 < 0x100000 := by decide
  exact h.word o (by omega) (by omega) (by omega)

theorem ErrorNoted.f_high (h : ErrorNoted s t) (x : Fld) {i j : Nat} (ho : 0x100000 ≤ x.reg.addr i j) : t.f x i j = s.f x i j := by
  rw [State.f, State.f, State.rw, State.rw, h.word_high ho]

theorem ErrorNoted.f_core (h : ErrorNoted s t) {x : Fld} (i j : Nat) (hx : x.reg ∈ coreRegs) : t.f x i j = s.f x i j :=
  h.f_high x (Nat.le_trans (by decide) (addr_core_high hx))

theorem ErrorNoted.st (h : ErrorNoted s t) (k : Nat) : t.st k = s.st k := h.f_core k 0 (by decide)

theorem ErrorNoted.core (h : ErrorNoted s t) (k : Nat) : t.core k = s.core k := by rw [State.core, h.recorded.cores]; rfl

theorem ErrorNoted.pc (h : ErrorNoted s t) (k : Nat) : t.pc k = s.pc k := congrArg CoreSt.pc (h.core k)

theorem ErrorNoted.greg (h : ErrorNoted s t) (k : Nat) (r : Fin 32) : t.greg k r = s.greg k r := by
  unfold State.greg State.rw
  rw [h.word_high (Nat.le_trans (by decide) (addr_core_high (by decide)))]

end

/-! ### A change of state (R43) -/

theorem setSt_regs (s : State) (k n : Nat) : (s.setSt k n).regs = (s.setF F.CORE_STATUS_STATE n k).regs := by
  unfold State.setSt; dsimp only; split <;> rfl

theorem f_setSt (s : State) (k n : Nat) (x : Fld) (i j : Nat) : (s.setSt k n).f x i j = (s.setF F.CORE_STATUS_STATE n k).f x i j :=
  f_congr (setSt_regs s k n) x i j

theorem st_setSt_same (s : State) (k n : Nat) : (s.setSt k n).st k = n % 16 := by
  rw [State.st, f_setSt, f_setF_core_same _ _ (by decide)]; rfl

theorem st_setSt_other (s : State) {k l : Nat} (n : Nat) (h : l ≠ k) : (s.setSt k n).st l = s.st l := by
  rw [State.st, f_setSt, f_setF_core_other _ _ (by decide) (by decide) h]; rfl

theorem greg_congr {s t : State} (h : t.regs = s.regs) (k : Nat) (r : Fin 32) : t.greg k r = s.greg k r := by
  unfold State.greg; rw [rw_congr h]

@[simp] theorem greg_setSt (s : State) (k n l : Nat) (r : Fin 32) : (s.setSt k n).greg l r = s.greg l r :=
  (greg_congr (setSt_regs s k n) l r).trans (greg_setF_core s n k l r (by decide) (by decide))

/-- A change of state touches registers and voices alone. -/
theorem setSt_only (s : State) (k n : Nat) : s.setSt k n = { s with regs := (s.setSt k n).regs, voices := (s.setSt k n).voices } := by
  have hF : ∀ v, s.setF F.CORE_STATUS_STATE v k = { s with regs := (s.setF F.CORE_STATUS_STATE v k).regs } := fun _ => rfl
  unfold State.setSt
  rw [hF]
  split
  · rfl
  · rfl

@[simp] theorem setSt_cores (s : State) (k n : Nat) : (s.setSt k n).cores = s.cores := by rw [setSt_only]
@[simp] theorem setSt_dmem (s : State) (k n : Nat) : (s.setSt k n).dmem = s.dmem := by rw [setSt_only]
@[simp] theorem setSt_sram (s : State) (k n : Nat) : (s.setSt k n).sram = s.sram := by rw [setSt_only]
@[simp] theorem setSt_dram (s : State) (k n : Nat) : (s.setSt k n).dram = s.dram := by rw [setSt_only]
@[simp] theorem setSt_time (s : State) (k n : Nat) : (s.setSt k n).time = s.time := by rw [setSt_only]
@[simp] theorem setSt_power (s : State) (k n : Nat) : (s.setSt k n).power = s.power := by rw [setSt_only]

theorem setSt_voices (s : State) {k n : Nat} (h : 3 < s.st k ∨ n ≤ 3) : (s.setSt k n).voices = s.voices := by
  unfold State.setSt; dsimp only; rw [if_neg (by omega), setF_voices]

@[simp] theorem core_setSt (s : State) (k n l : Nat) : (s.setSt k n).core l = s.core l := by rw [State.core, setSt_cores]; rfl
@[simp] theorem pc_setSt (s : State) (k n l : Nat) : (s.setSt k n).pc l = s.pc l := congrArg CoreSt.pc (core_setSt s k n l)

/-! ### A move of PC touches nothing else -/

@[simp] theorem setPc_fabric (s : State) (k n : Nat) : (s.setPc k n).fabric = s.fabric := by rfl
@[simp] theorem setPc_voices (s : State) (k n : Nat) : (s.setPc k n).voices = s.voices := by rfl
@[simp] theorem setPc_dmem (s : State) (k n : Nat) : (s.setPc k n).dmem = s.dmem := by rfl
@[simp] theorem setPc_sram (s : State) (k n : Nat) : (s.setPc k n).sram = s.sram := by rfl
@[simp] theorem setPc_dram (s : State) (k n : Nat) : (s.setPc k n).dram = s.dram := by rfl
@[simp] theorem setPc_time (s : State) (k n : Nat) : (s.setPc k n).time = s.time := by rfl
@[simp] theorem setPc_f (s : State) (k n : Nat) (x : Fld) (i j : Nat) : (s.setPc k n).f x i j = s.f x i j := by rfl
@[simp] theorem setPc_word (s : State) (k n o : Nat) : (s.setPc k n).word o = s.word o := by rfl
@[simp] theorem setPc_st (s : State) (k n l : Nat) : (s.setPc k n).st l = s.st l := by rfl
@[simp] theorem setPc_greg (s : State) (k n l : Nat) (r : Fin 32) : (s.setPc k n).greg l r = s.greg l r := by rfl
@[simp] theorem setPc_voice (s : State) (k n v : Nat) : (s.setPc k n).voice v = s.voice v := by rfl

/-! ### A fault (R51) -/

section
variable (s : State) (k code : Nat)

/-- The registers that a fault of core k leaves. -/
theorem coreFault_regs : (s.coreFault k code).regs =
    ((((s.setF F.CORE_STATUS_STATE 10 k).setF F.CORE_FAULT_CODE code k).setF F.CORE_FAULT_FPC (s.pc k) k).bump F.CORE_FAULT_COUNT k).regs := by
  refine (fireNow_regs _ _).trans ?_
  simp only [State.bump, State.bumpBy, State.setF, State.setRw, State.setWord, State.rw, State.word, State.f, setSt_regs]

theorem coreFault_st : (s.coreFault k code).st k = 10 := by
  rw [State.st, f_congr (coreFault_regs s k code)]
  simp (disch := decide) only [State.bump, State.bumpBy, f_setF_core_ne, f_setF_core_same]
  rfl

theorem coreFault_code : (s.coreFault k code).f F.CORE_FAULT_CODE k = code % 256 := by
  rw [f_congr (coreFault_regs s k code)]
  simp (disch := decide) only [State.bump, State.bumpBy, f_setF_core_ne, f_setF_core_same]
  rfl

theorem coreFault_fpc : (s.coreFault k code).f F.CORE_FAULT_FPC k = s.pc k % 8192 := by
  rw [f_congr (coreFault_regs s k code)]
  simp (disch := decide) only [State.bump, State.bumpBy, f_setF_core_ne, f_setF_core_same]
  rfl

theorem coreFault_greg (r : Fin 32) : (s.coreFault k code).greg k r = s.greg k r := by
  rw [greg_congr (coreFault_regs s k code), State.bump, State.bumpBy, greg_setF_core _ _ _ _ _ (by decide) (by decide),
    greg_setF_core _ _ _ _ _ (by decide) (by decide), greg_setF_core _ _ _ _ _ (by decide) (by decide),
    greg_setF_core _ _ _ _ _ (by decide) (by decide)]

end

/-- A core past ARMED that faults after no more than a memory error took the fault at its instruction (R34, R51). -/
theorem faulted_of_noted {s t : State} {k code : Nat} (h : ErrorNoted s t) (hst : s.st k = 5) (hc : code < 256) :
    Faulted s (t.coreFault k code) k code := by
  have hr := Recorded_trans h.recorded (coreFault_recorded k code (s := t) (by rw [h.st, hst]; decide))
  refine ⟨coreFault_st .., ?_, ?_, congrArg CoreSt.pc (by rw [State.core, hr.cores]; rfl), fun r => ?_, hr.dmem, hr.voices⟩
  · rw [coreFault_code, Nat.mod_eq_of_lt hc]
  · rw [coreFault_fpc, h.pc]
  · rw [coreFault_greg, h.greg]

/-! ### What the fetch leaves (R33, R34) -/

theorem fetched_noted (s : State) (k : Nat) (e : Ecc) : ErrorNoted s (s.fetched k e) := coreEcc_noted s e _

section
variable {s : State} {k : Nat} {e : Ecc}

theorem fetched_word (he : e.bad = false) {o : Nat} (ho : o ≠ Reg.GLB_TRB.addr 1 0) : (s.fetched k e).word o = s.word o :=
  coreEcc_word s _ he ho

theorem fetched_f (he : e.bad = false) (x : Fld) {i j : Nat} (ho : x.reg.addr i j ≠ Reg.GLB_TRB.addr 1 0) :
    (s.fetched k e).f x i j = s.f x i j := by
  rw [State.f, State.f, State.rw, State.rw, fetched_word he ho]

@[simp] theorem fetched_core (l : Nat) : (s.fetched k e).core l = s.core l := (fetched_noted s k e).core l
@[simp] theorem fetched_pc (l : Nat) : (s.fetched k e).pc l = s.pc l := (fetched_noted s k e).pc l
@[simp] theorem fetched_st (l : Nat) : (s.fetched k e).st l = s.st l := (fetched_noted s k e).st l
@[simp] theorem fetched_greg (l : Nat) (r : Fin 32) : (s.fetched k e).greg l r = s.greg l r := (fetched_noted s k e).greg l r
@[simp] theorem fetched_dmem : (s.fetched k e).dmem = s.dmem := (fetched_noted s k e).recorded.dmem
@[simp] theorem fetched_sram : (s.fetched k e).sram = s.sram := (fetched_noted s k e).recorded.sram
@[simp] theorem fetched_dram : (s.fetched k e).dram = s.dram := (fetched_noted s k e).recorded.dram
@[simp] theorem fetched_voices : (s.fetched k e).voices = s.voices := (fetched_noted s k e).recorded.voices
@[simp] theorem fetched_voice (v : Nat) : (s.fetched k e).voice v = s.voice v := by rw [State.voice, fetched_voices]; rfl
@[simp] theorem fetched_now : (s.fetched k e).now = s.now := by rw [State.now, (fetched_noted s k e).recorded.time]; rfl
@[simp] theorem fetched_dmemWord (l i : Nat) : (s.fetched k e).dmemWord l i = s.dmemWord l i := by rw [State.dmemWord, fetched_dmem]; rfl
@[simp] theorem fetched_oper {w : Nat} (l : Nat) (x : Operand w) : (s.fetched k e).oper l x = s.oper l x := by
  cases x <;> simp [State.oper]
theorem fetched_f_core (x : Fld) (i j : Nat) (hx : x.reg ∈ coreRegs) : (s.fetched k e).f x i j = s.f x i j :=
  (fetched_noted s k e).f_core i j hx

theorem fetched_hdr (l i hi lo : Nat) : (s.fetched k e).hdr l i hi lo = s.hdr l i hi lo :=
  (fetched_f_core ⟨.CORE_HDR, hi, lo⟩ l i (by simp [coreRegs]) :)

@[simp] theorem fetched_textWords (l : Nat) : (s.fetched k e).textWords l = s.textWords l := congrArg (· / 8) (fetched_hdr l 2 63 32)

theorem active_congr {s t : State} (h : t.f F.PWR_STATUS_STATE = s.f F.PWR_STATUS_STATE) : t.active = s.active := by
  rw [State.active, h]; rfl

theorem ErrorNoted.active {s t : State} (h : ErrorNoted s t) : t.active = s.active :=
  active_congr (by rw [State.f, State.f, State.rw, State.rw, h.word _ (by decide) (by decide) (by decide)])

@[simp] theorem fetched_active : (s.fetched k e).active = s.active := (fetched_noted s k e).active

/-- What fires is as before unless the word was uncorrected. -/
theorem fetched_fabric (he : e.bad = false) : (s.fetched k e).fabric = s.fabric := by
  cases e
  · rfl
  · exact setF_fabric s (troubleFld 6) _ 1 0
  all_goals cases he

end

/-! ### Issue (R32 to R34, R54) -/

section
variable {s : State} {k : Nat} {e ecc : Ecc} {o : CoreOp}

theorem issues_ecc (h : Issues s k e o) : e.bad = false := by
  obtain ⟨-, -, -, he, -⟩ := h
  exact he

theorem wakeEvt_of_ne (h : s.st k ≠ 6) : s.wakeEvt k = s := if_neg fun h6 => h h6.1

/-- A core in RUN that nothing blocks issues. -/
theorem issue_running (hst : s.st k = 5) (hb : (s.core k).blocked = false) :
    s.issue k e o ecc = .next (s.runOne k false (some o) e ecc) := by
  unfold State.issue
  rw [wakeEvt_of_ne (by rw [hst]; decide)]
  exact if_pos ⟨hst, by simp [hb]⟩

theorem fetch_word (h : s.pc k < s.textWords k) (he : e.bad = false) :
    s.fetch k e = (decodeCore (s.rw .CORE_IMEM k (s.pc k)).toNat, s.fetched k e) := by
  unfold State.fetch
  rw [if_neg (by omega)]
  simp [he, State.fetched]

/-- An instruction that is issued is performed on what the fetch leaves. -/
theorem issue_performs (h : Issues s k e o) : s.issue k e o ecc = .next (((s.fetched k e).perform k false o ecc).apply k) := by
  obtain ⟨hst, hb, hpc, he, hd⟩ := h
  rw [issue_running hst hb, State.runOne, fetch_word hpc he, hd]
  simp

/-- An instruction that stays within what a memory error leaves, and then faults. -/
theorem issue_faults {t : State} {code : Nat} (h : Issues s k e o) (hp : (s.fetched k e).perform k false o ecc = .fault code t)
    (ht : ErrorNoted (s.fetched k e) t) (hc : code < 256) : Gives (s.issue k e o ecc) fun t => Faulted s t k code := by
  rw [issue_performs h, hp]
  exact ⟨_, rfl, faulted_of_noted (ErrorNoted_trans (fetched_noted s k e) ht) h.1 hc⟩

/-- The same where the instruction does nothing at all. -/
theorem issue_faults_at_once {code : Nat} (h : Issues s k e o) (hp : (s.fetched k e).perform k false o ecc = .fault code (s.fetched k e))
    (hc : code < 256) : Gives (s.issue k e o ecc) fun t => Faulted s t k code := issue_faults h hp (ErrorNoted_refl _) hc

theorem issue_gives {P : State → Prop} (h : Issues s k e o) (hp : P (((s.fetched k e).perform k false o ecc).apply k)) :
    Gives (s.issue k e o ecc) P := ⟨_, issue_performs h, hp⟩

end

end Sys2Proof.Machine
end

section
/-! PROOFS. Loads and stores, and the instructions of control flow (O8, O11). -/

namespace Sys2Proof.Machine

section
variable {s : State} {k : Fin 64} {e ecc : Ecc} {d a b : Fin 32} {off : BitVec 16}

/-! ### Data memory (R33, R59) -/

/-- The byte address of a load or store. -/
theorem fetched_dataAddr : (s.fetched k e).dataAddr k a off = (s.greg k a + off.signExtend 64).toNat := by
  rw [State.dataAddr, fetched_greg]

theorem dataAt_word {t : State} {addr i : Nat} {go : Nat → CoreRes} (h : addr = 8 * i) (hi : i < 4096) : t.dataAt addr go = go i := by
  unfold State.dataAt
  rw [if_neg (by omega), if_neg (by omega), h, Nat.mul_div_cancel_left i (by decide)]

/-- A data address that R33 does not allow is a fault, with the lower code when it is both unaligned and out of range (R51). -/
theorem dataAt_faults {t : State} {addr : Nat} {go : Nat → CoreRes} (h : addr % 8 ≠ 0 ∨ 0x8000 ≤ addr) :
    t.dataAt addr go = .fault (if addr % 8 ≠ 0 then 7 else 8) t := by
  unfold State.dataAt
  by_cases h8 : addr % 8 ≠ 0
  · rw [if_pos h8, if_pos h8]
  · rw [if_neg h8, if_neg h8, if_pos (h.resolve_left h8)]

theorem load_completes {i : Fin 4096} (ha : (s.greg k a + off.signExtend 64).toNat = 8 * i.val) (h : Issues s k e (.ld d a off))
    (hecc : ecc.bad = false) : exec (.ld k e ecc d a off) s =
      .next ((((s.fetched k e).coreEcc ecc (8 * i)).setGreg k d (s.dmemWord k i)).setPc k (s.pc k + 1)) := by
  refine (issue_performs h).trans ?_
  rw [State.perform, fetched_dataAddr, ha, State.load, dataAt_word rfl i.isLt, if_neg (by simp [hecc]), State.result, CoreRes.apply,
    coreEcc_pc, fetched_pc, fetched_dmemWord]

/-- What a store leaves. -/
theorem store_performs {i : Fin 4096} (ha : (s.greg k a + off.signExtend 64).toNat = 8 * i.val) (h : Issues s k e (.st a b off)) :
    exec (.st k e a b off) s = .next (((s.fetched k e).setDmem k i (s.greg k b)).setPc k (s.pc k + 1)) := by
  refine (issue_performs h).trans ?_
  rw [State.perform, fetched_dataAddr, ha, dataAt_word rfl i.isLt, CoreRes.apply, fetched_pc, fetched_greg]

theorem store_completes {i : Fin 4096} (ha : (s.greg k a + off.signExtend 64).toNat = 8 * i.val) (h : Issues s k e (.st a b off)) :
    Gives (exec (.st k e a b off) s) fun t =>
      t.dmemWord k i = s.greg k b ∧ t.pc k = s.pc k + 1 ∧ t.st k = 5 ∧ (∀ r, t.greg k r = s.greg k r) ∧
      (∀ (k' : Fin 64) (j : Fin 4096), (k' ≠ k ∨ j ≠ i) → t.dmemWord k' j = s.dmemWord k' j) ∧
      (∀ o, o ≠ Reg.GLB_TRB.addr 1 0 → t.word o = s.word o) ∧ t.sram = s.sram ∧ t.dram = s.dram := by
  refine ⟨_, store_performs ha h, dmemWord_setDmem_same .., pc_setPc_same .., ?_, fun r => ?_, fun k' j hj => ?_,
    fun o ho => (setPc_word ..).trans (fetched_word (issues_ecc h) ho), ?_, ?_⟩
  · rw [setPc_st]; exact (fetched_st (s := s) k).trans h.1
  · rw [setPc_greg]; exact fetched_greg (s := s) k r
  · have hne := dmem_index_ne i.isLt j.isLt (hj.imp Fin.val_ne_of_ne Fin.val_ne_of_ne)
    exact (dmemWord_setDmem_ne (s.fetched k e) _ hne).trans (fetched_dmemWord ..)
  · rw [setPc_sram]; exact fetched_sram (s := s)
  · rw [setPc_dram]; exact fetched_dram (s := s)

theorem load_faults (h : Issues s k e (.ld d a off))
    (ha : (s.greg k a + off.signExtend 64).toNat % 8 ≠ 0 ∨ 0x8000 ≤ (s.greg k a + off.signExtend 64).toNat) :
    Gives (exec (.ld k e ecc d a off) s) fun t =>
      Faulted s t k (if (s.greg k a + off.signExtend 64).toNat % 8 ≠ 0 then 7 else 8) :=
  issue_faults_at_once h (by rw [State.perform, fetched_dataAddr, State.load, dataAt_faults ha]) (by split <;> decide)

theorem store_faults (h : Issues s k e (.st a b off))
    (ha : (s.greg k a + off.signExtend 64).toNat % 8 ≠ 0 ∨ 0x8000 ≤ (s.greg k a + off.signExtend 64).toNat) :
    Gives (exec (.st k e a b off) s) fun t =>
      Faulted s t k (if (s.greg k a + off.signExtend 64).toNat % 8 ≠ 0 then 7 else 8) :=
  issue_faults_at_once h (by rw [State.perform, fetched_dataAddr, dataAt_faults ha]) (by split <;> decide)

theorem load_uncorrected (h : Issues s k e (.ld d a off)) (h8 : (s.greg k a + off.signExtend 64).toNat % 8 = 0)
    (hlt : (s.greg k a + off.signExtend 64).toNat < 0x8000) (hecc : ecc.bad = true) :
    Gives (exec (.ld k e ecc d a off) s) fun t => Faulted s t k 9 :=
  issue_faults h
    (by rw [State.perform, fetched_dataAddr, State.load, dataAt_word (Nat.mul_div_cancel' (Nat.dvd_of_mod_eq_zero h8)).symm (by omega),
          if_pos hecc])
    (coreEcc_noted ..) (by decide)

end

/-- Settles O8: an address that R33 allows reaches its word, and any other faults before the word is met. -/
theorem loadsAndStores : Obligations.LoadsAndStores :=
  ⟨fun _ _ _ _ _ _ _ _ _ ha => ⟨load_completes ha, store_completes ha⟩,
    fun _ _ _ _ _ _ _ _ => ⟨load_faults, store_faults, load_uncorrected⟩⟩

/-! ### Control flow (R56, R62) -/

section
variable {s : State} {k : Fin 64} {e ecc : Ecc} {tgt : Fin 8192}

theorem goto_completes (h : Issues s k e (.goto_ tgt)) (ht : tgt.val < s.textWords k) :
    exec (.goto k e tgt) s = .next ((s.fetched k e).setPc k tgt) := by
  refine (issue_performs h).trans ?_
  rw [State.perform, State.goTo, fetched_textWords, if_neg (by omega), CoreRes.apply]

theorem nop_completes (h : Issues s k e .nop) : exec (.nop k e) s = .next ((s.fetched k e).setPc k (s.pc k + 1)) := by
  refine (issue_performs h).trans ?_
  rw [State.perform, CoreRes.apply, fetched_pc]

/-- A field of the fetch's state, for the fields of a core's control block. -/
theorem fetched_sp : (s.fetched k e).f F.CORE_STATUS_SP k = s.f F.CORE_STATUS_SP k := fetched_f_core _ _ _ (by decide)

theorem fetched_ret (j : Nat) : (s.fetched k e).f F.CORE_STACK_RET k j = s.f F.CORE_STACK_RET k j := fetched_f_core _ _ _ (by decide)

/-- The state after a CALL: PC + 1 on the stack, one entry more on it, PC at the target (R62). -/
def State.called (s : State) (k tgt : Nat) : State :=
  let sp := s.f F.CORE_STATUS_SP k
  ((s.setF F.CORE_STACK_RET (s.pc k + 1) k sp).setF F.CORE_STATUS_SP (sp + 1) k).setPc k tgt

theorem call_performs (h : Issues s k e (.call tgt)) (ht : tgt.val < s.textWords k) (hsp : s.f F.CORE_STATUS_SP k < 8) :
    exec (.call k e tgt) s = .next ((s.fetched k e).called k tgt) := by
  refine (issue_performs h).trans ?_
  simp only [State.perform, fetched_textWords, fetched_sp]
  rw [if_neg (by omega), if_neg (by omega), CoreRes.apply, State.called, fetched_sp]

/-- Entries of the call stack lie apart from the status word of every core. -/
theorem stack_apart (k l : Nat) {sp : Nat} (hsp : sp < 8) {r : Reg} (hr : r ∈ coreRegs) (hne : r ≠ .CORE_STACK) {j : Nat} (hj : j < r.spec.n2) :
    r.addr l j ≠ Reg.CORE_STACK.addr k sp := addr_core_ne hr (by decide) hj hsp (.inl hne)

theorem called_leaves (hsp : s.f F.CORE_STATUS_SP k < 8) (hpc : s.pc k < 8192) :
    (s.called k tgt).pc k = tgt ∧ (s.called k tgt).f F.CORE_STATUS_SP k = s.f F.CORE_STATUS_SP k + 1 ∧
      (s.called k tgt).f F.CORE_STACK_RET k (s.f F.CORE_STATUS_SP k) = s.pc k + 1 ∧ (s.called k tgt).st k = s.st k ∧
      ∀ r, (s.called k tgt).greg k r = s.greg k r := by
  unfold State.called
  generalize s.f F.CORE_STATUS_SP k = sp at hsp ⊢
  refine ⟨pc_setPc_same .., ?_, ?_, ?_, fun r => ?_⟩
  · rw [setPc_f, f_setF_core_fits _ _ (by decide) (by simp [F.CORE_STATUS_SP]; omega)]
  · rw [setPc_f, f_setF_ne _ _ (stack_apart k k hsp (by decide) (by decide) (by decide)).symm, f_setF_same _ _ _ _ _ (by constructor <;> decide)]
    exact Nat.mod_eq_of_lt (by simp [F.CORE_STACK_RET]; omega)
  · rw [setPc_st, State.st, f_setF_core_ne _ _ (by decide), f_setF_ne _ _ (stack_apart k k hsp (by decide) (by decide) (by decide))]; rfl
  · rw [setPc_greg, greg_setF_core _ _ _ _ _ (by decide) (by decide)]
    unfold State.greg
    split
    · rfl
    · exact rw_setRw_ne s _ (stack_apart k k hsp (by decide) (by decide) r.isLt)

theorem call_completes (h : Issues s k e (.call tgt)) (ht : tgt.val < s.textWords k) (hsp : s.f F.CORE_STATUS_SP k < 8) (hpc : s.pc k < 8192) :
    Gives (exec (.call k e tgt) s) fun t =>
      t.pc k = tgt ∧ t.f F.CORE_STATUS_SP k = s.f F.CORE_STATUS_SP k + 1 ∧ t.f F.CORE_STACK_RET k (s.f F.CORE_STATUS_SP k) = s.pc k + 1 ∧
        t.st k = 5 ∧ (∀ r, t.greg k r = s.greg k r) ∧ t.dmem = s.dmem := by
  have hl := called_leaves (s := s.fetched k e) (k := k) (tgt := tgt) (by rwa [fetched_sp]) (by rwa [fetched_pc])
  simp only [fetched_sp, fetched_pc, fetched_st, fetched_greg, h.1] at hl
  obtain ⟨h1, h2, h3, h4, h5⟩ := hl
  exact ⟨_, call_performs h ht hsp, h1, h2, h3, h4, h5, by rw [State.called, setPc_dmem, setF_dmem, setF_dmem, fetched_dmem]⟩

theorem call_overflows (h : Issues s k e (.call tgt)) (ht : tgt.val < s.textWords k) (hsp : 8 ≤ s.f F.CORE_STATUS_SP k) :
    Gives (exec (.call k e tgt) s) fun t => Faulted s t k 5 :=
  issue_faults_at_once h (by simp only [State.perform, fetched_textWords, fetched_sp]; rw [if_neg (by omega), if_pos hsp]) (by decide)

theorem ret_completes (h : Issues s k e .ret) (hsp : 0 < s.f F.CORE_STATUS_SP k)
    (hback : s.f F.CORE_STACK_RET k (s.f F.CORE_STATUS_SP k - 1) < s.textWords k) :
    Gives (exec (.ret k e) s) fun t =>
      t.pc k = s.f F.CORE_STACK_RET k (s.f F.CORE_STATUS_SP k - 1) ∧ t.f F.CORE_STATUS_SP k = s.f F.CORE_STATUS_SP k - 1 ∧ t.st k = 5 ∧
        (∀ r, t.greg k r = s.greg k r) ∧ t.dmem = s.dmem := by
  refine issue_gives h ?_
  simp only [State.perform, fetched_textWords, fetched_sp, fetched_ret]
  rw [if_neg (by omega), if_neg (by omega), CoreRes.apply]
  refine ⟨pc_setPc_same .., ?_, ?_, fun r => ?_, by rw [setPc_dmem, setF_dmem, fetched_dmem]⟩
  · have hlt : s.f F.CORE_STATUS_SP k - 1 < 2 ^ 4 := Nat.lt_of_le_of_lt (Nat.sub_le _ 1) (bits_lt ..)
    rw [setPc_f, f_setF_core_fits _ _ (by decide) hlt]
  · rw [setPc_st, State.st, f_setF_core_ne _ _ (by decide)]
    exact (fetched_st (s := s) k).trans h.1
  · rw [setPc_greg, greg_setF_core _ _ _ _ _ (by decide) (by decide), fetched_greg]

theorem ret_underflows (h : Issues s k e .ret) (hsp : s.f F.CORE_STATUS_SP k = 0) : Gives (exec (.ret k e) s) fun t => Faulted s t k 6 :=
  issue_faults_at_once h (by simp only [State.perform, fetched_sp]; rw [if_pos hsp]) (by decide)

/-- Source 9k + 6, the END producer of core k, fires in the active states (R191). -/
theorem mayFire_end (hk : k.val < 64) {s : State} (ha : s.active = true) : s.mayFire (9 * k + 6) = true := by
  have h1 : ¬ 635 ≤ 9 * k.val + 6 := by omega
  simp only [State.mayFire, ha]
  simp; omega

theorem end_completes (h : Issues s k e .end_) (ha : s.active = true) : Gives (exec (.end_ k e) s) fun t =>
    t.st k = 9 ∧ t.pc k = s.pc k + 1 ∧ (⟨.source (9 * k + 6), s.now⟩ : Fired) ∈ t.fabric.fired ∧
      (∀ r, t.greg k r = s.greg k r) ∧ t.dmem = s.dmem ∧ t.voices = s.voices := by
  have hst : (s.fetched k e).st k = 5 := (fetched_st (s := s) k).trans h.1
  have hrec := Recorded_trans (fetched_noted s k e).recorded
    (Recorded_trans (setSt_recorded k 9 (by rw [hst]; decide)) (fireNow_recorded _ (9 * k + 6)))
  have hact : ((s.fetched k e).setSt k 9).active = true := by
    rw [active_congr ((f_setSt ..).trans (f_setF_ne _ _ (Nat.ne_of_lt (Nat.lt_of_lt_of_le (by decide) (addr_core_high (by decide)))))),
      fetched_active, ha]
  refine issue_gives h ?_
  simp only [State.perform, fetched_pc, CoreRes.apply]
  refine ⟨(f_congr (fireNow_regs ..) _ _ _).trans (st_setSt_same ..), pc_setPc_same .., ?_, fun r => ?_, hrec.dmem, hrec.voices⟩
  · have hnow : ((s.fetched k e).setSt k 9).now = s.now := by rw [State.now, setSt_time]; exact fetched_now
    exact hnow ▸ fire_fired ((s.fetched k e).setSt k 9) (9 * k + 6) _ (mayFire_end k.isLt hact)
  · exact (greg_congr (fireNow_regs ..) _ _).trans ((greg_setSt ..).trans (fetched_greg k r))

end

/-! ### What a fetch stops on (R33, R34, R51, R54, R68) -/

/-- A word that is no instruction is BAD_OPCODE or RESERVED_BITS (R54). -/
def Decoded.sound (x : Decoded) : Prop := ∀ code, x = .fault code → code = 3 ∨ code = 4

theorem sound_badOpcode : (Decoded.fault 3).sound := fun _ h => by cases h; exact .inl rfl

theorem whenClear_sound (w : Nat) (l : List (Nat × Nat)) (o : CoreOp) : (whenClear w l o).sound := fun code h => by
  unfold whenClear at h
  split at h <;> cases h
  exact .inr rfl

theorem decodeWait_sound (w : Nat) : (decodeWait w).sound := by
  unfold decodeWait
  split
  all_goals apply whenClear_sound

theorem decodeOwn_sound (w : Nat) : (decodeOwn w).sound := by
  unfold decodeOwn
  split
  case h_4 => exact decodeWait_sound w
  case h_18 => exact sound_badOpcode
  case h_3 | h_10 | h_15 | h_16 => split <;> apply whenClear_sound
  all_goals apply whenClear_sound

theorem decodeCore_sound (w : Nat) : (decodeCore w).sound := by
  unfold decodeCore
  extract_lets op
  clear_value op
  split
  · apply whenClear_sound
  split
  · apply whenClear_sound
  split
  · apply whenClear_sound
  split
  case h_12 => exact decodeOwn_sound w
  all_goals apply whenClear_sound

section
variable {s : State} {k : Fin 64} {e ecc : Ecc} {o : CoreOp}

theorem runOne_fault {code : Nat} {t : State} (h : s.fetch k e = (.fault code, t)) : s.runOne k false (some o) e ecc = t.coreFault k code := by
  rw [State.runOne, h]

theorem fetch_beyond (hst : s.st k = 5) (hb : (s.core k).blocked = false) (h : s.textWords k ≤ s.pc k) :
    Gives (s.issue k e o ecc) fun t => Faulted s t k 2 := by
  rw [issue_running hst hb, runOne_fault (if_pos h)]
  exact ⟨_, rfl, faulted_of_noted (ErrorNoted_refl s) hst (by decide)⟩

theorem fetch_uncorrected (hst : s.st k = 5) (hb : (s.core k).blocked = false) (h : s.pc k < s.textWords k) (he : e.bad = true) :
    Gives (s.issue k e o ecc) fun t => Faulted s t k 1 := by
  have hf : s.fetch k e = (.fault 1, s.fetched k e) := by
    unfold State.fetch
    rw [if_neg (by omega)]
    simp [he, State.fetched]
  rw [issue_running hst hb, runOne_fault hf]
  exact ⟨_, rfl, faulted_of_noted (fetched_noted s k e) hst (by decide)⟩

end

section
variable {s : State} {k : Fin 64} {e ecc : Ecc} {o : CoreOp}

theorem fetch_no_instruction {code : Nat} (hst : s.st k = 5) (hb : (s.core k).blocked = false) (h : s.pc k < s.textWords k)
    (he : e.bad = false) (hd : decodeCore (s.rw .CORE_IMEM k (s.pc k)).toNat = .fault code) :
    (code = 3 ∨ code = 4) ∧ Gives (s.issue k e o ecc) fun t => Faulted s t k code := by
  have hc := decodeCore_sound _ _ hd
  rw [issue_running hst hb, runOne_fault ((fetch_word h he).trans (by rw [hd]))]
  exact ⟨hc, _, rfl, faulted_of_noted (fetched_noted s k e) hst (by omega)⟩

/-- A WAIT of KIND 4 to 7 faults whatever instruction command was sent. -/
theorem fetch_waitOther (hst : s.st k = 5) (hb : (s.core k).blocked = false) (h : s.pc k < s.textWords k)
    (he : e.bad = false) (hd : decodeCore (s.rw .CORE_IMEM k (s.pc k)).toNat = .op .waitOther) :
    Gives (s.issue k e o ecc) fun t => Faulted s t k 0x0A := by
  have hr : s.runOne k false (some o) e ecc = (s.fetched k e).coreFault k 0x0A := by
    rw [State.runOne, fetch_word h he, hd]
    simp [State.perform, CoreRes.apply]
  rw [issue_running hst hb, hr]
  exact ⟨_, rfl, faulted_of_noted (fetched_noted s k e) hst (by decide)⟩

end

/-- Settles O11: each instruction of control flow by its own rule, and every stop of a fetch as a fault at PC. -/
theorem controlInstructions : Obligations.ControlInstructions :=
  ⟨fun _ _ _ _ => ⟨goto_completes, call_completes, ret_completes, end_completes, nop_completes⟩,
    fun _ _ _ _ _ _ hst hb => ⟨fetch_beyond hst hb, fetch_uncorrected hst hb, fetch_no_instruction hst hb, fetch_waitOther hst hb⟩,
    fun _ _ _ _ => ⟨call_overflows, ret_underflows⟩⟩
end Sys2Proof.Machine
end

section
/-! PROOFS. What of the cores the shared operations on voices, buffers, memories and the Governor leave (R36, R39, R109, R113, R125, R302): the
hidden state of every core, its registers, its data memory, and waveform memory. A lemma that holds by unfolding is proved `by rfl` and not by
the term `rfl`, so that simp cites it and the kernel need not unfold it again. -/

namespace Sys2Proof.Machine

/-- The cores as their instructions see them, beside the memories: hidden state, data memory, SRAM, DRAM, and the register words from the
control blocks on. -/
structure CoreView where
  cores : List (Nat × CoreSt)
  dmem : List (Nat × Word)
  sram : List Host.Cell
  dram : List Host.Cell
  word : Nat → Word

def State.cored (s : State) : CoreView := ⟨s.cores, s.dmem, s.sram, s.dram, fun o => s.word (0x200000 + o)⟩

section
variable {s t : State}

theorem cored_word (h : t.cored = s.cored) {o : Nat} (ho : 0x200000 ≤ o) : t.word o = s.word o := by
  have := congrFun (congrArg CoreView.word h) (o - 0x200000)
  simpa [State.cored, Nat.add_sub_cancel' ho] using this

theorem cored_core (h : t.cored = s.cored) (k : Nat) : t.core k = s.core k := by
  rw [State.core, show t.cores = s.cores from congrArg CoreView.cores h]; rfl
theorem cored_pc (h : t.cored = s.cored) (k : Nat) : t.pc k = s.pc k := congrArg CoreSt.pc (cored_core h k)
theorem cored_dmem (h : t.cored = s.cored) : t.dmem = s.dmem := congrArg CoreView.dmem h
theorem cored_sram (h : t.cored = s.cored) : t.sram = s.sram := congrArg CoreView.sram h
theorem cored_dram (h : t.cored = s.cored) : t.dram = s.dram := congrArg CoreView.dram h

theorem cored_rw (h : t.cored = s.cored) {r : Reg} (k j : Nat) (hr : r ∈ coreRegs) : t.rw r k j = s.rw r k j :=
  cored_word h (addr_core_high hr)

theorem cored_f (h : t.cored = s.cored) (x : Fld) (k j : Nat) (hx : x.reg ∈ coreRegs) : t.f x k j = s.f x k j := by
  rw [State.f, cored_rw h k j hx]; rfl

theorem cored_st (h : t.cored = s.cored) (k : Nat) : t.st k = s.st k := cored_f h _ k 0 (by decide)

theorem cored_greg (h : t.cored = s.cored) (k : Nat) (r : Fin 32) : t.greg k r = s.greg k r := by
  unfold State.greg; rw [cored_rw h k r (by decide)]

theorem cored_hdr (h : t.cored = s.cored) (k i hi lo : Nat) : t.hdr k i hi lo = s.hdr k i hi lo := by
  rw [State.hdr, cored_rw h k i (by decide)]; rfl

end

section
variable (s : State)

theorem cored_setF {x : Fld} (v i j : Nat) (h : x.reg.addr i j < 0x200000) : (s.setF x v i j).cored = s.cored := by
  have hw : ∀ o, (s.setF x v i j).word (0x200000 + o) = s.word (0x200000 + o) := fun o => word_setWord_ne s _ (by omega)
  simp only [State.cored, hw]; rfl

/-- What records an error or a firing leaves the cores. -/
theorem cored_of_recorded {t : State} (h : Recorded s t) (hw : ∀ o, 0x200000 ≤ o → t.word o = s.word o) : t.cored = s.cored := by
  have hw : (fun o => t.word (0x200000 + o)) = fun o => s.word (0x200000 + o) := funext fun o => hw _ (by omega)
  rw [State.cored, h.cores, h.dmem, h.sram, h.dram, hw]; rfl

theorem cored_noted {t : State} (h : ErrorNoted s t) : t.cored = s.cored :=
  cored_of_recorded s h.recorded fun _ ho => h.word_high (Nat.le_trans (by decide) ho)

@[simp] theorem cored_modVoice (v : Nat) (g : VoiceSt → VoiceSt) : (s.modVoice v g).cored = s.cored := by rfl
@[simp] theorem cored_modBuffer (i : Nat) (g : BufferSt → BufferSt) : (s.modBuffer i g).cored = s.cored := by rfl
@[simp] theorem cored_modInput (i : Nat) (g : InputSt → InputSt) : (s.modInput i g).cored = s.cored := by rfl
@[simp] theorem cored_modGov (g : GovSt → GovSt) : (s.modGov g).cored = s.cored := by rfl
@[simp] theorem cored_drawn : s.drawn.cored = s.cored := by rfl
@[simp] theorem cored_trouble (x : Trouble) : (s.trouble x).cored = s.cored := cored_setF s _ _ 0 (by cases x <;> decide)

@[simp] theorem cored_fire (src t : Nat) : (s.fire src t).cored = s.cored := by unfold State.fire; split <;> rfl
@[simp] theorem cored_fireNow (src : Nat) : (s.fireNow src).cored = s.cored := cored_fire s src _
@[simp] theorem cored_fireChannel (c t : Nat) : (s.fireChannel c t).cored = s.cored := by unfold State.fireChannel; split <;> rfl
@[simp] theorem cored_reach (t : Nat) : (s.reach t).cored = s.cored := by unfold State.reach; split <;> rfl
@[simp] theorem cored_eccEvent (e : Ecc) (d marked : Bool) (req addr : Nat) : (s.eccEvent e d marked req addr).cored = s.cored :=
  cored_noted s (eccEvent_noted ..)
@[simp] theorem cored_coreEcc (e : Ecc) (addr : Nat) : (s.coreEcc e addr).cored = s.cored := cored_noted s (coreEcc_noted ..)

theorem cored_foldl {α : Type} {f : State → α → State} (h : ∀ t a, (f t a).cored = t.cored) (l : List α) : (l.foldl f s).cored = s.cored :=
  foldl_same State.cored h l s

/-! ### Buffers and their lifetime -/

@[simp] theorem cored_settle (i : Nat) (last : Option Nat) : (s.settle i last).cored = s.cored := by
  unfold State.settle
  split
  · cases last <;> rfl
  · rfl

@[simp] theorem cored_moveHold (k h : Nat) : (s.moveHold k h).cored = s.cored := by rfl
@[simp] theorem cored_holdBy (k h : Nat) : (s.holdBy k h).cored = s.cored := by rfl
@[simp] theorem cored_dropDesc (h : Nat) : (s.dropDesc h).cored = s.cored := by simp [State.dropDesc]

theorem cored_allocIn {s t : State} {d : Bool} {n h : Nat} {hold : BufferSt → BufferSt} (ha : s.allocIn d n hold = some (h, t)) :
    t.cored = s.cored := by
  unfold State.allocIn at ha
  split at ha
  · cases ha; rfl
  · cases ha

theorem cored_alloc {s t : State} {region n h : Nat} {hold : BufferSt → BufferSt} (ha : s.alloc region n hold = some (h, t)) :
    t.cored = s.cored := by
  unfold State.alloc at ha
  split at ha
  · exact cored_allocIn ha
  split at ha
  · exact cored_allocIn ha
  split at ha
  · next he => cases ha; exact cored_allocIn he
  · exact cored_allocIn ha

/-! ### The descriptor queue, DRAM slots and refill -/

variable {v : Nat}

theorem cored_refillStat (hv : v < 64) (x : Fld) (n : Nat) (hx : x.reg = .REFILL_STAT) : (s.setF x n v).cored = s.cored :=
  cored_setF s n v 0 (by rw [hx]; simp [Reg.addr, Reg.spec]; omega)

theorem cored_showRefill (hv : v < 64) : (s.showRefill v).cored = s.cored := by
  unfold State.showRefill
  dsimp only
  rw [cored_refillStat _ hv _ _ rfl, cored_refillStat _ hv _ _ rfl, cored_refillStat _ hv _ _ rfl]

theorem cored_request (l : List Ahead) (s : State) : (State.request v l s).cored = s.cored := by
  induction l generalizing s with
  | nil => rfl
  | cons a l ih =>
    rw [State.request]
    split_ifs <;> simp [ih]

theorem cored_refill (hv : v < 64) : (s.refill v).cored = s.cored := by rw [State.refill, cored_showRefill _ hv, cored_request]

theorem cored_trimSlots (hv : v < 64) : (s.trimSlots v).cored = s.cored := by rw [State.trimSlots, cored_showRefill _ hv, cored_modVoice]

theorem cored_freeSlot (hv : v < 64) : (s.freeSlot v).cored = s.cored := by
  unfold State.freeSlot
  split
  · rw [cored_modVoice, State.clr, cored_refillStat _ hv _ _ rfl, cored_setF _ _ _ _ (by decide)]
  · rfl

@[simp] theorem cored_queueLow (before : Nat) : (s.queueLow v before).cored = s.cored := by
  unfold State.queueLow
  dsimp only
  split <;> simp

@[simp] theorem cored_dropQueue (gone : QEntry → Bool) : (s.dropQueue v gone).cored = s.cored := by
  rw [State.dropQueue, cored_queueLow, cored_foldl _ fun t h => cored_dropDesc t h, cored_modVoice]

/-! ### The Budget Governor -/

@[simp] theorem cored_levelH : s.levelH.cored = s.cored := by
  unfold State.levelH
  dsimp only
  rw [apply_ite State.cored, cored_modGov, ite_self]

@[simp] theorem cored_weigh : s.weigh.cored = s.cored := by
  rw [State.weigh, cored_levelH, cored_setF _ _ _ _ (by decide), cored_setF _ _ _ _ (by decide)]

@[simp] theorem cored_weighRequest : s.weighRequest.cored = s.cored := by unfold State.weighRequest; split <;> simp
@[simp] theorem cored_enqueue (k : Nat) : (s.enqueue k).cored = s.cored := by simp [State.enqueue]
@[simp] theorem cored_withdraw (k : Nat) : (s.withdraw k).cored = s.cored := by rfl
@[simp] theorem cored_admitCost (mw : Nat) : (s.admitCost mw).cored = s.cored := by rfl

end

end Sys2Proof.Machine
end

section
/-! PROOFS. Emission: what a queue gains, and the faults and stalls of descriptors (O13; R36, R63 to R71). -/

namespace Sys2Proof.Machine

/-! ### What an emission leaves (R36, R110, R125) -/

section
variable (s : State)

@[simp] theorem modCore_voice (k v : Nat) (g : CoreSt → CoreSt) : (s.modCore k g).voice v = s.voice v := by rfl
@[simp] theorem setF_voice (x : Fld) (n i j v : Nat) : (s.setF x n i j).voice v = s.voice v := by rfl

@[simp] theorem trouble_voice (x : Trouble) (v : Nat) : (s.trouble x).voice v = s.voice v := by rw [State.voice, trouble_voices]; rfl

theorem modVoice_keeps {α : Type} {g : VoiceSt → VoiceSt} (p : VoiceSt → α) (h : ∀ x, p (g x) = p x) (v u : Nat) :
    p ((s.modVoice v g).voice u) = p (s.voice u) := by
  by_cases hu : u = v
  · subst hu; rw [voice_modVoice_same, h]
  · rw [voice_modVoice_ne _ _ hu]

theorem request_queue (v u : Nat) (l : List Ahead) (s : State) : ((State.request v l s).voice u).queue = (s.voice u).queue := by
  induction l generalizing s with
  | nil => rfl
  | cons a l ih =>
    have hk : ∀ (t : State) (g : VoiceSt → VoiceSt), (∀ x, (g x).queue = x.queue) → ((t.modVoice v g).voice u).queue = (t.voice u).queue :=
      fun t g h => modVoice_keeps t (·.queue) h v u
    rw [State.request]
    split_ifs
    · rw [ih]
      exact (hk _ (fun x => { x with slots := x.slots ++ [.covered] }) fun _ => rfl).trans (by rw [trouble_voice])
    · rw [ih]
      exact hk s (fun x => { x with slots := x.slots ++ [.flying] }) fun _ => rfl
    · rfl

theorem refill_queue (v u : Nat) : ((s.refill v).voice u).queue = (s.voice u).queue := by
  rw [State.refill, State.showRefill, setF_voice, setF_voice, setF_voice, request_queue]

variable {k : Nat} (q : QEntry)

theorem emitNow_cored (hk : k < 64) : (s.emitNow k q).cored = s.cored := by
  unfold State.emitNow
  split
  · rw [cored_refill _ hk, cored_modVoice, cored_moveHold]
  · rw [cored_refill _ hk, cored_modVoice]

theorem emitNow_queue : ∃ p : QEntry, ((s.emitNow k q).voice k).queue = (s.voice k).queue ++ [p] ∧ p.desc = q.desc ∧ p.written = s.now := by
  have ha : ∀ t : State, ∃ p : QEntry, (((t.modVoice k fun x => x.append q.desc s.now q.dram q.words).refill k).voice k).queue =
      (t.voice k).queue ++ [p] ∧ p.desc = q.desc ∧ p.written = s.now := fun t =>
    ⟨_, (refill_queue ..).trans (congrArg VoiceSt.queue (voice_modVoice_same ..)), rfl, rfl⟩
  unfold State.emitNow
  split
  · exact ha (s.moveHold k _)
  · exact ha s

/-- A core in RUN whose emission finds room has emitted it, once PC moved on (R36). -/
theorem emitNow_emitted {n : Nat} (hk : k < 64) (hst : s.st k = 5) (hpc : n = s.pc k + 1) :
    Emitted s ((s.emitNow k q).setPc k n) k q.desc := by
  have hc := emitNow_cored s q hk
  have hq := emitNow_queue s q (k := k)
  generalize s.emitNow k q = t at hc hq ⊢
  refine ⟨by rwa [setPc_voice], hpc ▸ pc_setPc_same .., ?_, fun r => ?_, ?_, ?_, ?_⟩
  · rw [setPc_st, cored_st hc, hst]
  · rw [setPc_greg, cored_greg hc]
  · rw [setPc_dmem, cored_dmem hc]
  · rw [setPc_sram, cored_sram hc]
  · rw [setPc_dram, cored_dram hc]

end

/-! ### Descriptors that are not allowed (R63, R65 to R71) -/

section
variable {s : State} {k : Nat} {e : Ecc}

theorem fetched_lockedEc (he : e.bad = false) (c : Nat) : (s.fetched k e).lockedEc c = s.on F.EC_CTL_LK_CORE c := by
  have ho : Reg.EC_CTL.addr c 0 ≠ Reg.GLB_TRB.addr 1 0 := by
    rw [show Reg.EC_CTL.addr c 0 = 0x41010 + c * 0x20 from rfl, show Reg.GLB_TRB.addr 1 0 = 0x208 from rfl]; omega
  rw [State.lockedEc, State.on, fetched_f he F.EC_CTL_LK_CORE ho]; rfl

@[simp] theorem fetched_jtLoaded : (s.fetched k e).f F.VOICE_JT_STAT_LOADED k = s.f F.VOICE_JT_STAT_LOADED k :=
  (fetched_noted s k e).f_high _ (by simp [F.VOICE_JT_STAT_LOADED, Reg.addr, Reg.spec, voiceBase]; omega)

@[simp] theorem fetched_voiceChan (v : Nat) : (s.fetched k e).voiceChan v = s.voiceChan v := by
  unfold State.voiceChan; rw [fetched_voice]

theorem bit_toNat {w : Nat} (x : BitVec w) (i : Nat) : bit x.toNat i = x.getLsbD i := by
  rw [bit_eq_testBit, BitVec.testBit_toNat]

/-- A descriptor that its checks, or an open loop body, do not let pass. -/
theorem emitIf_faults {t : State} {good : Bool} {d : Desc} (h : good = false ∨ 0 < (t.voice k).openBody ∧ d.inBody = false) :
    t.emitIf k false good d = .fault 0x0A t := by
  refine if_pos ?_
  rcases h with h | ⟨ho, hb⟩
  · simp [h]
  · simp [ho, hb]

/-- An instruction that only emits, whose descriptor is not let pass, is DESC_INVALID. -/
theorem emission_faults {o : CoreOp} {ecc : Ecc} {good : Bool} {d : Desc} (h : Issues s k e o)
    (hp : (s.fetched k e).perform k false o ecc = (s.fetched k e).emitIf k false good d)
    (hbad : good = false ∨ 0 < (s.voice k).openBody ∧ d.inBody = false) : Gives (s.issue k e o ecc) fun t => Faulted s t k 0x0A :=
  issue_faults_at_once h (hp.trans (emitIf_faults (by rwa [fetched_voice]))) (by decide)

end

section
variable {s : State} {k : Fin 64} {e : Ecc}

theorem loop_faults {count : Operand 24} {len : BitVec 5} (h : Issues s k e (.loop count len))
    (hbad : s.oper k count = 0 ∨ 2 ^ 24 ≤ s.oper k count ∨ len.toNat = 0 ∨ 16 < len.toNat ∨ 0 < (s.voice k).openBody) :
    Gives (exec (.loop k e count len) s) fun t => Faulted s t k 0x0A := by
  refine emission_faults h rfl ?_
  rw [fetched_oper]
  by_cases ho : 0 < (s.voice k).openBody
  · exact .inr ⟨ho, rfl⟩
  · simp; omega

theorem jump_faults {mode : Fin 3} {discard : Bool} {ec : BitVec 8} {entry : Fin 16} (h : Issues s k e (.jump mode discard ec entry))
    (hbad : bit (s.f F.VOICE_JT_STAT_LOADED k) entry = false ∨
      (ec.getLsbD 7 = false ∧ s.on F.EC_CTL_LK_CORE (ec.toNat % 128) = true) ∨ 0 < (s.voice k).openBody) :
    Gives (exec (.jump k e mode discard ec entry) s) fun t => Faulted s t k 0x0A := by
  refine emission_faults h rfl ?_
  rw [fetched_jtLoaded]
  rcases hbad with hl | ⟨hec, hlk⟩ | ho
  · exact .inl (by rw [hl, Bool.false_and])
  · have hch : channelOf ec = some (ec.toNat % 128) := if_neg (by rw [bit_toNat, hec]; decide)
    exact .inl (by rw [hch]; simp only [fetched_lockedEc (issues_ecc h), hlk, Bool.not_true, Bool.and_false])
  · exact .inr ⟨ho, rfl⟩

theorem jumpDisarm_faults {n : Bool} (h : Issues s k e (.jumpDisarm n)) (ho : 0 < (s.voice k).openBody) :
    Gives (exec (.jumpDisarm k e n) s) fun t => Faulted s t k 0x0A := emission_faults h rfl (.inr ⟨ho, rfl⟩)

theorem waitTrig_faults {arg : BitVec 16} (h : Issues s k e (.waitTrig arg)) (hbad : 16 ≤ arg.toNat) :
    Gives (exec (.waitTrig k e arg) s) fun t => Faulted s t k 0x0A := emission_faults h rfl (.inl (by simp; omega))

theorem waitEvent_faults {arg : BitVec 16} (h : Issues s k e (.waitEvent arg))
    (hbad : 128 ≤ arg.toNat ∨ s.on F.EC_CTL_LK_CORE arg.toNat = true) :
    Gives (exec (.waitEvent k e arg) s) fun t => Faulted s t k 0x0A := by
  refine emission_faults h rfl (.inl ?_)
  rw [fetched_lockedEc (issues_ecc h)]
  by_cases hlt : arg.toNat < 128
  · rw [Nat.mod_eq_of_lt hlt, hbad.resolve_left (by omega)]; simp
  · simp [hlt]

theorem waitTime_faults {a b : Fin 32} (h : Issues s k e (.waitTime a b))
    (hbad : 2 ^ 48 ≤ (s.greg k a).toNat ∨ 2 ^ 48 ≤ (s.greg k b).toNat) :
    Gives (exec (.waitTime k e a b) s) fun t => Faulted s t k 0x0A := by
  refine emission_faults h rfl (.inl ?_)
  rw [Bool.and_eq_false_iff, decide_eq_false_iff_not, decide_eq_false_iff_not, fetched_greg, fetched_greg]
  exact hbad.imp Nat.not_lt.2 Nat.not_lt.2

theorem waitKerf_faults {arg : BitVec 16} (h : Issues s k e (.waitKerf arg)) (hbad : 16 ≤ arg.toNat ∨ arg.toNat = k.val % 16) :
    Gives (exec (.waitKerf k e arg) s) fun t => Faulted s t k 0x0A := by
  refine emission_faults h rfl (.inl ?_)
  rcases hbad with hbad | hbad
  · simp; omega
  · simp [hbad]

theorem mark_faults {lane lm : Fin 4} {offset : BitVec 28} {width : BitVec 16} (h : Issues s k e (.mark lane lm offset width))
    (hbad : (s.voiceChan k).isSome = false ∨ (lm = 2 ∧ width = 0)) :
    Gives (exec (.mark k e lane lm offset width) s) fun t => Faulted s t k 0x0A := by
  refine emission_faults h rfl (.inl ?_)
  rw [fetched_voiceChan]
  rcases hbad with hbad | ⟨rfl, rfl⟩
  · rw [hbad, Bool.false_and]
  · rw [show ((2 : Fin 4).val == 2 && (0 : BitVec 16).toNat == 0) = true from rfl, Bool.not_true, Bool.and_false]

theorem bufFree_faults {a : Fin 32} (h : Issues s k e (.bufFree a)) (ho : 0 < (s.voice k).openBody) :
    Gives (exec (.bufFree k e a) s) fun t => Faulted s t k 0x0A :=
  issue_faults_at_once h (if_pos (by rwa [fetched_voice])) (by decide)

end


/-! ### PLAY (R65, R113) -/

section
/-! What the read of an entry may meet leaves all that PLAY judges: the table in force, the entry, and the slots. -/

variable {s t : State} {k : Nat}

theorem ErrorNoted.voice (h : ErrorNoted s t) (v : Nat) : t.voice v = s.voice v := by rw [State.voice, h.recorded.voices]; rfl

theorem ErrorNoted.f_table (h : ErrorNoted s t) (x : Fld) (hx : x.reg = .VOICE_SEGTAB_ACT) (v : Nat) : t.f x v = s.f x v :=
  h.f_high x (by rw [hx]; simp [Reg.addr, Reg.spec, voiceBase]; omega)

theorem ErrorNoted.f_apart (h : ErrorNoted s t) (x : Fld) {i j : Nat} (ho : 0x60058 ≤ x.reg.addr i j) : t.f x i j = s.f x i j := by
  have h1 : Reg.GLB_TRB.addr 1 0 < 0x60058 := by decide
  have h2 : Reg.MEM_ECC_LOG.addr 0 0 < 0x60058 := by decide
  have h3 : Reg.MEM_ECC_CNT.addr 0 0 < 0x60058 := by decide
  rw [State.f, State.f, State.rw, State.rw, h.word _ (by omega) (by omega) (by omega)]

theorem ErrorNoted.entryCount (h : ErrorNoted s t) (v : Nat) : t.entryCount v = s.entryCount v :=
  congrArg (· + 1) (h.f_table F.VOICE_SEGTAB_ACT_COUNT_M1 rfl v)

theorem ErrorNoted.entryAddr (h : ErrorNoted s t) (v g : Nat) : t.entryAddr v g = s.entryAddr v g :=
  congrArg (· * 32 + g * 32) (h.f_table F.VOICE_SEGTAB_ACT_BASE rfl v)

theorem readLE_sram (h : t.sram = s.sram) (a n : Nat) : t.readLE false a n = s.readLE false a n :=
  readLE_congr fun i _ => congrArg (sget zeroByte · (a + i)) h

theorem ErrorNoted.readEntry (h : ErrorNoted s t) (v g : Nat) : t.readEntry v g = s.readEntry v g := by
  simp only [State.readEntry, State.readWord, h.entryAddr, readLE_sram h.recorded.sram]

theorem ErrorNoted.entryInDram (h : ErrorNoted s t) (ws : List Word) : t.entryInDram ws = s.entryInDram ws := by
  unfold State.entryInDram
  rw [h.f_apart F.STM_RING_HANDLE (by simp [F.STM_RING_HANDLE, Reg.addr, Reg.spec]; omega)]

theorem ErrorNoted.hasSlot (h : ErrorNoted s t) (v : Nat) : t.hasSlot v = s.hasSlot v := by
  rw [State.hasSlot, h.f_apart _ (by decide)]; rfl

theorem ErrorNoted.slotSeen (h : ErrorNoted s t) (v : Nat) : t.slotSeen v = s.slotSeen v := by
  have hn : t.now = s.now := by rw [State.now, h.recorded.time]; rfl
  simp only [State.slotSeen, State.thisCycle, h.f_apart F.DRAM_BACKED_VOICES (by decide : 0x60058 ≤ Reg.DRAM_BACKED.addr 0 0), h.voice, hn]

theorem ErrorNoted.slotCount (h : ErrorNoted s t) (v : Nat) : t.slotCount v = s.slotCount v := by
  simp only [State.slotCount, h.slotSeen]

theorem ErrorNoted.hdrDramv (h : ErrorNoted s t) (v : Nat) : t.hdrDramv v = s.hdrDramv v :=
  congrArg (· == 1) (h.f_core (x := ⟨.CORE_HDR, 2, 2⟩) v 1 (by decide))

end

section
variable {s : State} {k : Fin 64} {e ee : Ecc} {seg kerf : Operand 16}

/-- The state in which PLAY judges its entry: the read has counted what it met. -/
def State.entryRead (s : State) (k g : Nat) (ecc : Ecc) : State :=
  if g < s.entryCount k then s.eccEvent ecc false (s.entryPoisoned k g) 0 (s.entryAddr k g) else s

theorem entryRead_noted (s : State) (k g : Nat) (ecc : Ecc) : ErrorNoted s (s.entryRead k g ecc) := by
  unfold State.entryRead
  split
  · exact eccEvent_noted ..
  · exact ErrorNoted_refl s

/-- PLAY whose entry fails the checks of word 0. -/
theorem play_invalid (s : State) (k : Nat) (hc : issueChecks (s.entryCount k) (s.oper k seg % 65536) (wordOf (s.readEntry k (s.oper k seg % 65536)) 0) = false) :
    s.play k false kerf seg ee = .fault 0x0A (s.entryRead k (s.oper k seg % 65536) ee) := by
  have hn := entryRead_noted s k (s.oper k seg % 65536) ee
  rw [← hn.entryCount, ← hn.readEntry] at hc
  exact if_pos (by simpa [State.entryRead] using hc)

/-- PLAY of a DRAM-backed entry where no slot can be had, or where the header names no DRAM voice. -/
theorem play_unbacked (s : State) (k : Nat)
    (hc : issueChecks (s.entryCount k) (s.oper k seg % 65536) (wordOf (s.readEntry k (s.oper k seg % 65536)) 0) = true)
    (hd : s.entryInDram (s.readEntry k (s.oper k seg % 65536)) = true) (hs : s.hasSlot k = false)
    (hn : 16 ≤ s.slotCount k ∨ s.hdrDramv k = false) :
    s.play k false kerf seg ee = .fault 0x0B (s.entryRead k (s.oper k seg % 65536) ee) := by
  have hr := entryRead_noted s k (s.oper k seg % 65536) ee
  rw [← hr.entryCount, ← hr.readEntry] at hc
  rw [← hr.readEntry, ← hr.entryInDram] at hd
  rw [← hr.hasSlot] at hs
  rw [← hr.slotCount, ← hr.hdrDramv] at hn
  have hno : ((State.entryRead s k (s.oper k seg % 65536) ee).canSlot k && (s.entryRead k (s.oper k seg % 65536) ee).hdrDramv k) = false := by
    rcases hn with hn | hn
    · rw [State.canSlot, hs, decide_eq_false (Nat.not_lt.2 hn)]; rfl
    · rw [hn, Bool.and_false]
  refine (if_neg (by simpa [State.entryRead] using hc)).trans (if_pos ?_)
  simp only [State.entryRead] at *
  rw [hd, hs, hno]; rfl

theorem play_faults_invalid (h : Issues s k e (.play kerf seg)) (hc : issueChecks (s.entryCount k) (s.oper k seg % 2 ^ 16)
      (wordOf (s.readEntry k (s.oper k seg % 2 ^ 16)) 0) = false) :
    Gives (exec (.play k ⟨e, ee⟩ seg kerf) s) fun t => Faulted s t k 0x0A := by
  have hf := fetched_noted s k e
  refine issue_faults h ((play_invalid (ee := ee) (kerf := kerf) (s.fetched k e) k ?_).trans rfl) (entryRead_noted ..) (by decide)
  rwa [hf.entryCount, hf.readEntry, fetched_oper]

theorem play_faults_unbacked (h : Issues s k e (.play kerf seg)) (hc : issueChecks (s.entryCount k) (s.oper k seg % 2 ^ 16)
      (wordOf (s.readEntry k (s.oper k seg % 2 ^ 16)) 0) = true)
    (hd : s.entryInDram (s.readEntry k (s.oper k seg % 2 ^ 16)) = true) (hs : s.hasSlot k = false)
    (hn : 16 ≤ s.slotCount k ∨ s.hdrDramv k = false) :
    Gives (exec (.play k ⟨e, ee⟩ seg kerf) s) fun t => Faulted s t k 0x0B := by
  have hf := fetched_noted s k e
  refine issue_faults h ((play_unbacked (ee := ee) (kerf := kerf) (s.fetched k e) k ?_ ?_ ?_ ?_).trans rfl) (entryRead_noted ..) (by decide)
  · rwa [hf.entryCount, hf.readEntry, fetched_oper]
  · rwa [hf.readEntry, hf.entryInDram, fetched_oper]
  · rwa [hf.hasSlot]
  · rwa [hf.slotCount, hf.hdrDramv]

end

/-! ### A full queue (R36) -/

section
variable {s : State} {k : Fin 64} {e : Ecc}

/-- The state of a core that waits for room for descriptor entry q. -/
def State.stall (s : State) (k : Nat) (q : QEntry) : State := (s.modCore k fun c => { c with stalled := some q }).setSt k 7

theorem emitIf_stalls {t : State} {d : Desc} (hin : d.inBody = true) (hq : 32 ≤ t.qfill k) :
    t.emitIf k false true d = .stay (t.stall k { desc := d, written := t.now }) := by
  have he : t.emitIf k false true d = t.emit k false { desc := d, written := t.now } := if_neg (by simp [hin])
  rw [he, State.emit, if_neg (by omega)]
  rfl

theorem emission_stalls {o : CoreOp} {ecc : Ecc} {d : Desc} (h : Issues s k e o)
    (hp : (s.fetched k e).perform k false o ecc = (s.fetched k e).emitIf k false true d) (hin : d.inBody = true) (hq : 32 ≤ s.qfill k) :
    Gives (s.issue k e o ecc) fun t => t.st k = 7 ∧ t.pc k = s.pc k ∧ t.voices = s.voices ∧
      ∃ q : QEntry, (t.core k).stalled = some q ∧ q.desc = d := by
  have hq : 32 ≤ (s.fetched k e).qfill k := by rwa [State.qfill, fetched_voice]
  refine issue_gives h ?_
  rw [hp, emitIf_stalls hin hq, CoreRes.apply, State.stall]
  refine ⟨st_setSt_same .., ?_, ?_, { desc := d, written := (s.fetched k e).now }, ?_, rfl⟩
  · rw [pc_setSt, State.pc, core_modCore_same]; exact fetched_pc (s := s) k
  · rw [setSt_voices _ (.inl ?_), modCore_voices, fetched_voices]
    rw [State.st, modCore_f]
    exact (fetched_st (s := s) k).trans_gt (by rw [h.1]; decide)
  · rw [core_setSt, core_modCore_same]

theorem setf_stalls {a : Fin 32} (hq : 32 ≤ s.qfill k) (h : Issues s k e (.setf a)) : Gives (exec (.setf k e a) s) fun t =>
    t.st k = 7 ∧ t.pc k = s.pc k ∧ t.voices = s.voices ∧
      ∃ q : QEntry, (t.core k).stalled = some q ∧ q.desc = .setf ((s.greg k a).toNat % 2 ^ 48) :=
  emission_stalls h (by rw [State.perform, fetched_greg]) rfl hq

theorem trigo_stalls {out : Fin 16} (hq : 32 ≤ s.qfill k) (h : Issues s k e (.trigo out)) : Gives (exec (.trigo k e out) s) fun t =>
    t.st k = 7 ∧ t.pc k = s.pc k ∧ t.voices = s.voices ∧ ∃ q : QEntry, (t.core k).stalled = some q ∧ q.desc = .trigo out :=
  emission_stalls h rfl rfl hq

/-- What completing the stalled emission leaves (R36). -/
theorem qstallResume_performs {q : QEntry} (hs : (s.core k).stalled = some q) (hst : s.st k = 7) (hq : s.qfill k < 32) :
    exec (.qstallResume k) s =
      .next ((((s.emitNow k { q with written := s.now }).modCore k fun c => { c with stalled := none }).setPc k (s.pc k + 1)).setSt k 5) := by
  show execQstallResume k s = _
  unfold execQstallResume
  rw [hs]
  exact if_pos ⟨hst, hq⟩

theorem qstallResume_emits {q : QEntry} (hs : (s.core k).stalled = some q) (hst : s.st k = 7) (hq : s.qfill k < 32) :
    Gives (exec (.qstallResume k) s) fun t => Emitted s t k q.desc ∧ (t.core k).stalled = none := by
  have hc := emitNow_cored s { q with written := s.now } k.isLt
  have hqueue := emitNow_queue s { q with written := s.now } (k := k)
  refine ⟨_, qstallResume_performs hs hst hq, ?_⟩
  generalize s.emitNow k { q with written := s.now } = t at hc hqueue ⊢
  have hv : ∀ v, (((t.modCore k fun c => { c with stalled := none }).setPc k (s.pc k + 1)).setSt k 5).voice v = t.voice v := fun v => by
    rw [State.voice, setSt_voices _ (.inl ?_), setPc_voices, modCore_voices]
    · rfl
    · rw [setPc_st, State.st, modCore_f, ← State.st, cored_st hc, hst]; decide
  refine ⟨⟨by rwa [hv], ?_, st_setSt_same .., fun r => ?_, ?_, ?_, ?_⟩, ?_⟩
  · rw [pc_setSt, pc_setPc_same]
  · rw [greg_setSt, setPc_greg, ← cored_greg hc]; rfl
  · rw [setSt_dmem, setPc_dmem, modCore_dmem, cored_dmem hc]
  · rw [setSt_sram, setPc_sram, modCore_sram, cored_sram hc]
  · rw [setSt_dram, setPc_dram, modCore_dram, cored_dram hc]
  · rw [core_setSt, State.setPc, core_modCore_same, core_modCore_same]

theorem qstallResume_waits {q : QEntry} (hs : (s.core k).stalled = some q) (hq : 32 ≤ s.qfill k) : exec (.qstallResume k) s = .next s := by
  show execQstallResume k s = _
  unfold execQstallResume
  rw [hs]
  exact if_neg (by omega)

end

/-- Settles O13: a descriptor that is not let pass faults at once, and a full queue or its freed entry decides the rest. -/
theorem emissionFaultsAndStalls : Obligations.EmissionFaultsAndStalls :=
  ⟨fun k _ _ _ _ _ _ _ _ _ _ _ _ _ _ _ _ _ _ _ =>
      ⟨play_faults_invalid, fun h hc hd hs hn => play_faults_unbacked h hc hd hs (hn.imp_left (· k)), loop_faults, jump_faults, jumpDisarm_faults,
        waitTrig_faults, waitEvent_faults, waitTime_faults, waitKerf_faults, mark_faults, bufFree_faults⟩,
    fun _ _ _ _ _ hq => ⟨setf_stalls hq, trigo_stalls hq⟩,
    fun _ _ _ hs hst => ⟨qstallResume_emits hs hst, qstallResume_waits hs⟩⟩

end Sys2Proof.Machine
end

section
/-! PROOFS. Time, event and budget instructions (O15; R49, R60, R74 to R77), with what each leaves the other cores. -/

namespace Sys2Proof.Machine

/-! ### Registers, PC and state after the shared operations -/

section
variable (s : State) (k l : Nat)

theorem greg_setGreg_ne {r d : Fin 32} (w : Word) (h : r ≠ d) : (s.setGreg k d w).greg l r = s.greg l r := by
  unfold State.setGreg
  split
  · rfl
  · unfold State.greg
    split
    · rfl
    · refine rw_setRw_ne s w ?_
      rw [addr_core (by decide), addr_core (by decide)]
      have := Fin.val_ne_of_ne h
      simp only [Reg.spec]
      omega

theorem f_setGreg (d : Fin 32) (w : Word) (x : Fld) (hx : x.reg ∈ coreRegs) (hne : x.reg ≠ .CORE_GREG) :
    (s.setGreg k d w).f x l = s.f x l := by
  unfold State.setGreg
  split
  · rfl
  · exact f_setRw_ne s w (addr_core_ne hx (by decide) (coreRegs_spec _ hx).2.2.2.1 d.isLt (.inl hne))

@[simp] theorem st_setGreg (d : Fin 32) (w : Word) : (s.setGreg k d w).st l = s.st l := f_setGreg s k l d w _ (by decide) (by decide)
@[simp] theorem setGreg_cores (d : Fin 32) (w : Word) : (s.setGreg k d w).cores = s.cores := by rw [setGreg_only]
@[simp] theorem setGreg_dmem (d : Fin 32) (w : Word) : (s.setGreg k d w).dmem = s.dmem := by rw [setGreg_only]
@[simp] theorem setGreg_time (d : Fin 32) (w : Word) : (s.setGreg k d w).time = s.time := by rw [setGreg_only]
@[simp] theorem core_setGreg (d : Fin 32) (w : Word) : (s.setGreg k d w).core l = s.core l := by rw [State.core, setGreg_cores]; rfl
@[simp] theorem pc_setGreg (d : Fin 32) (w : Word) : (s.setGreg k d w).pc l = s.pc l := congrArg CoreSt.pc (core_setGreg s k l d w)

@[simp] theorem st_modCore (g : CoreSt → CoreSt) : (s.modCore k g).st l = s.st l := by rfl
@[simp] theorem greg_modCore (g : CoreSt → CoreSt) (r : Fin 32) : (s.modCore k g).greg l r = s.greg l r := by rfl
@[simp] theorem setF_core (x : Fld) (n i j : Nat) : (s.setF x n i j).core l = s.core l := by rw [State.core, setF_cores]; rfl
@[simp] theorem setF_pc (x : Fld) (n i j : Nat) : (s.setF x n i j).pc l = s.pc l := congrArg CoreSt.pc (setF_core s l x n i j)
@[simp] theorem core_setPc (n : Nat) : (s.setPc k n).core k = { s.core k with pc := n } := by rw [State.setPc, core_modCore_same]

theorem pc_setPc_ne (n : Nat) (h : l ≠ k) : (s.setPc k n).pc l = s.pc l := by
  rw [State.pc, State.setPc, core_modCore_ne s _ h]; rfl

theorem pc_modCore (g : CoreSt → CoreSt) (h : ∀ c, (g c).pc = c.pc) : (s.modCore k g).pc l = s.pc l := by
  by_cases hl : l = k
  · subst hl; rw [State.pc, core_modCore_same, h]; rfl
  · rw [State.pc, core_modCore_ne s g hl]; rfl

end

/-! ### The other cores -/

/-- No core other than k changes its state or its PC from s to t. -/
def OthersStay (s t : State) (k : Fin 64) : Prop := ∀ l : Fin 64, l ≠ k → t.st l = s.st l ∧ t.pc l = s.pc l

section
variable {s t u : State} {k : Fin 64}

theorem OthersStay.trans (h : OthersStay s t k) (h' : OthersStay t u k) : OthersStay s u k := fun l hl =>
  ⟨(h' l hl).1.trans (h l hl).1, (h' l hl).2.trans (h l hl).2⟩

theorem othersStay_of_cored (h : t.cored = s.cored) : OthersStay s t k := fun l _ => ⟨cored_st h l, cored_pc h l⟩

theorem othersStay_of_same (hr : t.regs = s.regs) (hc : t.cores = s.cores) : OthersStay s t k := fun l _ =>
  ⟨f_congr hr _ _ _, by rw [State.pc, State.core, hc]; rfl⟩

theorem othersStay_setPc (s : State) (k : Fin 64) (n : Nat) : OthersStay s (s.setPc k n) k := fun l hl =>
  ⟨setPc_st .., pc_setPc_ne s k l n (Fin.val_ne_of_ne hl)⟩

theorem othersStay_setSt (s : State) (k : Fin 64) (n : Nat) : OthersStay s (s.setSt k n) k := fun _ hl =>
  ⟨st_setSt_other s n (Fin.val_ne_of_ne hl), pc_setSt ..⟩

theorem othersStay_setGreg (s : State) (k : Fin 64) (d : Fin 32) (w : Word) : OthersStay s (s.setGreg k d w) k := fun _ _ =>
  ⟨st_setGreg .., pc_setGreg ..⟩

theorem othersStay_modCore (s : State) (k : Fin 64) (g : CoreSt → CoreSt) : OthersStay s (s.modCore k g) k := fun _ hl =>
  ⟨st_modCore .., congrArg CoreSt.pc (core_modCore_ne s g (Fin.val_ne_of_ne hl))⟩

theorem othersStay_setF (s : State) (k : Fin 64) {x : Fld} (hx : x.ofCore = true) (n : Nat) : OthersStay s (s.setF x n k) k := fun l hl =>
  ⟨f_setF_core_other s n hx (by decide) (Fin.val_ne_of_ne hl), rfl⟩

theorem othersStay_fetched (s : State) (k : Fin 64) (e : Ecc) : OthersStay s (s.fetched k e) k := fun l _ => ⟨fetched_st l, fetched_pc l⟩

end

/-- From s to t, core k completed the instruction at its PC and stays in RUN, and no other core moved. -/
def Ended (s t : State) (k : Fin 64) : Prop := t.pc k = s.pc k + 1 ∧ t.st k = 5 ∧ OthersStay s t k

section
variable {s t : State} {k : Fin 64} {e ecc : Ecc} {o : CoreOp}

/-- An instruction that leaves core k its state and moves it on has completed. -/
theorem ended_of_setPc (hst : t.st k = 5) (ho : OthersStay (s.fetched k e) t k) : Ended s (t.setPc k (s.pc k + 1)) k :=
  ⟨pc_setPc_same .., (setPc_st ..).trans hst, (othersStay_fetched s k e).trans (ho.trans (othersStay_setPc _ _ _))⟩

/-- An instruction whose result is w in gd. -/
theorem ended_of_result {d : Fin 32} {w : Word} (hst : t.st k = 5) (hpc : t.pc k = s.pc k)
    (ho : OthersStay (s.fetched k e) t k) :
    (t.result k d w).apply k = (t.setGreg k d w).setPc k (s.pc k + 1) ∧ Ended s ((t.setGreg k d w).setPc k (s.pc k + 1)) k :=
  ⟨by rw [State.result, CoreRes.apply, hpc], ended_of_setPc ((st_setGreg ..).trans hst) (ho.trans (othersStay_setGreg _ _ _ _))⟩

/-! ### EVT.FIRE (R74) -/

theorem fetched_running (h : Issues s k e o) : (s.fetched k e).st k = 5 := (fetched_st (s := s) k).trans h.1

theorem evtFire_ends {ec : Operand 7} (h : Issues s k e (.evtFire ec)) (hl : s.on F.EC_CTL_LK_CORE (s.oper k ec % 128) = false) :
    Gives (exec (.evtFire k e ec) s) fun t => Ended s t k ∧
      (s.active = true → t.fabric.fired = s.fabric.fired ++ [⟨.channel (s.oper k ec % 128), s.now⟩]) := by
  refine issue_gives h ?_
  have hp : (s.fetched k e).perform k false (.evtFire ec) .clean =
      .next (s.pc k + 1) ((s.fetched k e).fireChannel (s.oper k ec % 128) s.now) := by
    simp only [State.perform, fetched_oper, fetched_lockedEc (issues_ecc h), hl, fetched_now, fetched_pc]
    rfl
  have hc := cored_fireChannel (s.fetched k e) (s.oper k ec % 128) s.now
  rw [hp, CoreRes.apply]
  refine ⟨ended_of_setPc ((cored_st hc k).trans (fetched_running h)) (othersStay_of_cored hc), fun ha => ?_⟩
  rw [setPc_fabric, State.fireChannel, if_pos (fetched_active.trans ha), fetched_fabric (issues_ecc h)]

theorem evtFire_locked {ec : Operand 7} (h : Issues s k e (.evtFire ec)) (hl : s.on F.EC_CTL_LK_CORE (s.oper k ec % 128) = true) :
    Gives (exec (.evtFire k e ec) s) fun t => Faulted s t k 0x0D :=
  issue_faults_at_once h (by simp only [State.perform, fetched_oper, fetched_lockedEc (issues_ecc h), hl]; rfl) (by decide)

/-! ### EVT.WAIT (R75, R76) -/

theorem channelOf_eq (x : BitVec 8) : channelOf x = if x.getLsbD 7 then none else some (x.toNat % 128) := by
  rw [channelOf, bit_toNat]

theorem select_sel (x : EventIn) (c : Option Nat) : (x.select c).sel = c := by
  unfold EventIn.select; split <;> simp [*]

theorem select_latch (x : EventIn) (c : Option Nat) : (x.select c).latch = true ↔ x.latch = true ∧ x.sel = c := by
  unfold EventIn.select; split <;> simp [*]

theorem selectInputs_regs (s : State) (k : Nat) (a b : BitVec 8) : (s.selectInputs k a b).regs = s.regs := by
  unfold State.selectInputs; dsimp only; split <;> split <;> rfl

theorem selectInputs_cores (s : State) (k : Nat) (a b : BitVec 8) : (s.selectInputs k a b).cores =
    (s.modCore k fun c => { c with ei0 := c.ei0.select (channelOf a), ei1 := c.ei1.select (channelOf b) }).cores := by
  unfold State.selectInputs; dsimp only; split <;> split <;> rfl

theorem core_selectInputs (s : State) (k : Nat) (a b : BitVec 8) : (s.selectInputs k a b).core k =
    { s.core k with ei0 := (s.core k).ei0.select (channelOf a), ei1 := (s.core k).ei1.select (channelOf b) } := by
  rw [State.core, selectInputs_cores, ← State.core, core_modCore_same]

theorem othersStay_selectInputs (s : State) (k : Fin 64) (a b : BitVec 8) : OthersStay s (s.selectInputs k a b) k :=
  (othersStay_modCore s k _).trans (othersStay_of_same (selectInputs_regs ..) (selectInputs_cores ..))

@[simp] theorem st_selectInputs (s : State) (k l : Nat) (a b : BitVec 8) : (s.selectInputs k a b).st l = s.st l :=
    f_congr (selectInputs_regs ..) _ _ _
@[simp] theorem pc_selectInputs (s : State) (k : Nat) (a b : BitVec 8) : (s.selectInputs k a b).pc k = s.pc k := by
  rw [State.pc, core_selectInputs]; rfl

theorem fetched_deniedWait (he : e.bad = false) (a b : BitVec 8) : (s.fetched k e).deniedWait a b = s.deniedWait a b := by
  simp only [State.deniedWait, fetched_lockedEc he]; rfl

theorem evtWaitArm_ends {d : Fin 32} {a b : BitVec 8} (h : Issues s k e (.evtWaitArm d a b)) (hd : s.deniedWait a b = false) :
    Gives (exec (.evtWaitArm k e d a b) s) fun t => Ended s t k ∧ t.greg k d = 0 ∧ (t.core k).ei0.sel = channelOf a ∧
      (t.core k).ei1.sel = channelOf b := by
  refine issue_gives h ?_
  have hp : (s.fetched k e).perform k false (.evtWaitArm d a b) .clean = ((s.fetched k e).selectInputs k a b).result k d 0 := by
    simp only [State.perform, fetched_deniedWait (issues_ecc h), hd]; rfl
  obtain ⟨ha, hend⟩ := ended_of_result (t := (s.fetched k e).selectInputs k a b) (d := d) (w := 0)
    ((st_selectInputs ..).trans (fetched_running h)) ((pc_selectInputs ..).trans (fetched_pc _)) (othersStay_selectInputs _ _ _ _)
  rw [hp, ha]
  refine ⟨hend, ?_, ?_, ?_⟩
  · rw [setPc_greg, greg_setGreg_same, ite_self]
  · rw [core_setPc, core_setGreg, core_selectInputs]; exact select_sel ..
  · rw [core_setPc, core_setGreg, core_selectInputs]; exact select_sel ..

/-- What gd receives of the latched inputs. -/
theorem latched_bits (c : CoreSt) : ((BitVec.ofNat 64 c.latched).getLsbD 0 = true ↔ c.ei0.latch = true) ∧
    ((BitVec.ofNat 64 c.latched).getLsbD 1 = true ↔ c.ei1.latch = true) ∧ BitVec.ofNat 64 c.latched < 4 := by
  unfold CoreSt.latched
  cases c.ei0.latch <;> cases c.ei1.latch <;> decide

theorem latched_eq_zero (c : CoreSt) : c.latched = 0 ↔ c.ei0.latch = false ∧ c.ei1.latch = false := by
  unfold CoreSt.latched
  cases c.ei0.latch <;> cases c.ei1.latch <;> decide

/-- The state in which EVT.WAIT looks at its latches. -/
theorem evtWait_performs {d : Fin 32} {a b : BitVec 8} {tmo : BitVec 24} (h : Issues s k e (.evtWait d a b tmo)) (hd : s.deniedWait a b = false) :
    exec (.evtWait k e d a b tmo) s = .next (CoreRes.apply
      (if (((s.fetched k e).selectInputs k a b).core k).latched ≠ 0 then .next (s.pc k + 1) (((s.fetched k e).selectInputs k a b).takeLatches k d)
      else .stay ((((s.fetched k e).selectInputs k a b).modCore k fun c =>
        { c with gd := d, deadline := if tmo = 0 then none else some (s.afterCycles tmo.toNat) }).setSt k 6)) k) := by
  have ha : (s.fetched k e).afterCycles tmo.toNat = s.afterCycles tmo.toNat := by rw [State.afterCycles, fetched_now]; rfl
  refine (if_neg (by rw [h.1]; decide)).trans ((issue_performs h).trans ?_)
  rw [State.perform, State.evtWait, fetched_deniedWait (issues_ecc h), hd, if_neg (by decide), fetched_pc, ha]
  rfl

theorem takeLatches_core (s : State) (k : Nat) (d : Fin 32) : (s.takeLatches k d).core k =
    { s.core k with ei0 := { (s.core k).ei0 with latch := false }, ei1 := { (s.core k).ei1 with latch := false } } := by
  rw [State.takeLatches, core_modCore_same, core_setGreg]

theorem takeLatches_greg (s : State) (k : Nat) {d : Fin 32} (hd : d ≠ 0) : (s.takeLatches k d).greg k d = BitVec.ofNat 64 (s.core k).latched := by
  rw [State.takeLatches, greg_modCore, greg_setGreg_same, if_neg hd]

@[simp] theorem takeLatches_st (s : State) (k l : Nat) (d : Fin 32) : (s.takeLatches k d).st l = s.st l := by
  rw [State.takeLatches, st_modCore, st_setGreg]

theorem othersStay_takeLatches (s : State) (k : Fin 64) (d : Fin 32) : OthersStay s (s.takeLatches k d) k :=
  (othersStay_setGreg _ _ _ _).trans (othersStay_modCore _ _ _)

theorem evtWait_takes {d : Fin 32} {a b : BitVec 8} {tmo : BitVec 24} (h : Issues s k e (.evtWait d a b tmo)) (hd : s.deniedWait a b = false)
    (hl : (((s.fetched k e).selectInputs k a b).core k).latched ≠ 0) :
    Gives (exec (.evtWait k e d a b tmo) s) fun t => Ended s t k ∧
      (d ≠ 0 → t.greg k d = BitVec.ofNat 64 (((s.fetched k e).selectInputs k a b).core k).latched) ∧
      (t.core k).ei0.latch = false ∧ (t.core k).ei1.latch = false := by
  refine ⟨_, (evtWait_performs h hd).trans (by rw [if_pos hl, CoreRes.apply]), ?_, fun hd => ?_, ?_⟩
  · refine ended_of_setPc ?_ ((othersStay_selectInputs _ _ _ _).trans (othersStay_takeLatches _ _ _))
    rw [takeLatches_st, st_selectInputs, fetched_running h]
  · rw [setPc_greg, takeLatches_greg _ _ hd]
  · rw [core_setPc, takeLatches_core]; exact ⟨rfl, rfl⟩

/-- From s to t, core k went into state n, its PC stayed, and no other core moved. -/
def Halts (s t : State) (k : Fin 64) (n : Nat) : Prop := t.st k = n ∧ t.pc k = s.pc k ∧ OthersStay s t k

theorem evtWait_waits {d : Fin 32} {a b : BitVec 8} {tmo : BitVec 24} (h : Issues s k e (.evtWait d a b tmo)) (hd : s.deniedWait a b = false)
    (hl : (((s.fetched k e).selectInputs k a b).core k).latched = 0) :
    Gives (exec (.evtWait k e d a b tmo) s) fun t => Halts s t k 6 ∧ t.greg k d = s.greg k d ∧ ((t.core k).deadline = none ↔ tmo = 0) := by
  refine ⟨_, (evtWait_performs h hd).trans (by rw [if_neg (not_not_intro hl), CoreRes.apply]), ⟨st_setSt_same .., ?_, ?_⟩, ?_, ?_⟩
  · rw [pc_setSt, pc_modCore, pc_selectInputs, fetched_pc]
    exact fun _ => rfl
  · exact (othersStay_fetched s k e).trans ((othersStay_selectInputs _ _ _ _).trans ((othersStay_modCore _ _ _).trans (othersStay_setSt _ _ _)))
  · rw [greg_setSt, greg_modCore, greg_congr (selectInputs_regs ..), fetched_greg]
  · rw [core_setSt, core_modCore_same]
    by_cases h0 : tmo = 0 <;> simp [h0]

/-- The inputs that EVT.WAIT finds latched are those whose selection it does not change (R75). -/
theorem selected_latched (a b : BitVec 8) : (((s.fetched k e).selectInputs k a b).core k).latched = 0 ↔
    ¬ ((s.core k).ei0.latch = true ∧ (s.core k).ei0.sel = channelOf a) ∧ ¬ ((s.core k).ei1.latch = true ∧ (s.core k).ei1.sel = channelOf b) := by
  rw [latched_eq_zero, core_selectInputs, fetched_core, ← select_latch, ← select_latch, Bool.not_eq_true, Bool.not_eq_true]

/-- A core in EVWAIT with a latch set leaves it (R76). -/
theorem wakeEvt_ends {d : Fin 32} (hst : s.st k = 6) (hg : (s.core k).gd = d) (hl : (s.core k).latched ≠ 0) :
    Ended s (s.wakeEvt k) k ∧ (d ≠ 0 → (s.wakeEvt k).greg k d = BitVec.ofNat 64 (s.core k).latched) ∧ (s.wakeEvt k).time = s.time := by
  have hd : Fin.ofNat 32 (s.core k).gd = d := by rw [hg]; exact Fin.ofNat_val_eq_self d
  have hw : s.wakeEvt k = (((s.takeLatches k d).setPc k (s.pc k + 1)).modCore k fun c => { c with deadline := none }).setSt k 5 := by
    rw [State.wakeEvt, if_pos ⟨hst, hl⟩, hd]
  rw [hw]
  refine ⟨⟨?_, st_setSt_same .., ?_⟩, fun hd => ?_, ?_⟩
  · rw [pc_setSt, pc_modCore, pc_setPc_same]
    exact fun _ => rfl
  · exact (othersStay_takeLatches _ _ _).trans ((othersStay_setPc _ _ _).trans ((othersStay_modCore _ _ _).trans (othersStay_setSt _ _ _)))
  · rw [greg_setSt, greg_modCore, setPc_greg, takeLatches_greg _ _ hd]
  · rw [setSt_time, modCore_time, setPc_time, State.takeLatches, modCore_time, setGreg_time]

theorem evtWait_again {d : Fin 32} {a b : BitVec 8} {tmo : BitVec 24} (hd : d ≠ 0) (hst : s.st k = 6) (hg : (s.core k).gd = d)
    (hl : (s.core k).ei0.latch = true ∨ (s.core k).ei1.latch = true) : Gives (exec (.evtWait k e d a b tmo) s) fun t =>
      (t.pc k = s.pc k + 1 ∧ t.st k = 5) ∧
        t.greg k d = BitVec.ofNat 64 ((s.core k).ei0.latch.toNat + 2 * (s.core k).ei1.latch.toNat) := by
  have hl : (s.core k).latched ≠ 0 := fun h0 => by
    obtain ⟨h1, h2⟩ := (latched_eq_zero _).1 h0
    simp [h1, h2] at hl
  obtain ⟨⟨hpc, hst', -⟩, hr, -⟩ := wakeEvt_ends hst hg hl
  exact ⟨_, if_pos hst, ⟨hpc, hst'⟩, hr hd⟩

/-! ### BUDGET (R49, R77) -/

/-- Cost of a phase depends on the coefficients and the cost table alone (R303). -/
theorem fetched_phaseCost (he : e.bad = false) (p : Nat) : (s.fetched k e).phaseCost k p = s.phaseCost k p := by
  have hc := fun x => fetched_f (s := s) (k := k) he x (i := 0) (j := 0)
  have hb : ∀ i hi lo, (s.fetched k e).costBits k p i hi lo = s.costBits k p i hi lo := fun i hi lo =>
    fetched_f_core ⟨.CORE_COST, hi, lo⟩ k (4 * p + i) (by simp [coreRegs])
  simp only [State.phaseCost, State.phaseDram, hb, hc F.BG_COEF_K_CORE (by decide), hc F.BG_COEF_K_VR (by decide),
    hc F.BG_COEF_K_SR (by decide), hc F.BG_COEF_K_DR (by decide)]

theorem fetched_hdrClass : (s.fetched k e).hdrClass k = s.hdrClass k := fetched_hdr ..
theorem fetched_costCount : (s.fetched k e).costCount k = s.costCount k := fetched_hdr ..

theorem setPhase_phase (s : State) (k p : Nat) : (s.setPhase k p).f F.CORE_BUDGET_PHASE k = p % 16 := by
  unfold State.setPhase
  dsimp only
  split
  · rw [f_setF_core_ne _ _ (by decide), f_setF_core_same _ _ (by decide)]; rfl
  · rw [f_setF_core_same _ _ (by decide)]; rfl

theorem setPhase_cores (s : State) (k p : Nat) : (s.setPhase k p).cores = s.cores := by
  unfold State.setPhase
  dsimp only
  split
  · rw [setF_cores, setF_cores]
  · rw [setF_cores]

theorem setPhase_st (s : State) (k p l : Nat) : (s.setPhase k p).st l = s.st l := by
  unfold State.setPhase State.st
  dsimp only
  split
  · rw [f_setF_core_ne _ _ (by decide), f_setF_core_ne _ _ (by decide)]
  · rw [f_setF_core_ne _ _ (by decide)]

theorem budget_not_class {d : Fin 32} {cls : Fin 4} {p : Fin 16} (h : Issues s k e (.budget d cls p)) (hc : cls.val ≠ s.hdrClass k ∨ cls = 3) :
    Gives (exec (.budget k e d cls p) s) fun t => Faulted s t k 0x0E :=
  issue_faults_at_once h (by
    rw [State.perform, State.budget, fetched_hdrClass]
    exact if_pos (hc.imp_right fun h3 => by rw [h3]; rfl)) (by decide)

theorem budget_no_phase {d : Fin 32} {cls : Fin 4} {p : Fin 16} (h : Issues s k e (.budget d cls p)) (hc : cls.val = s.hdrClass k) (h3 : cls ≠ 3)
    (hp : s.costCount k ≤ p) : Gives (exec (.budget k e d cls p) s) fun t => Faulted s t k 0x0F :=
  issue_faults_at_once h (by
    rw [State.perform, State.budget, fetched_hdrClass, fetched_costCount, if_neg (by omega), if_pos hp]) (by decide)

/-- A phase of class RT, or one that costs no more than the phase in force, takes effect at once. -/
theorem budget_ends {d : Fin 32} {cls : Fin 4} {p : Fin 16} (h : Issues s k e (.budget d cls p)) (hc : cls.val = s.hdrClass k) (h3 : cls ≠ 3)
    (hp : p.val < s.costCount k) (hcost : cls = 0 ∨ s.phaseCost k p ≤ s.phaseCost k (s.f F.CORE_BUDGET_PHASE k)) :
    Gives (exec (.budget k e d cls p) s) fun t => Ended s t k ∧ (d ≠ 0 → t.greg k d = 0) ∧ t.f F.CORE_BUDGET_PHASE k = p := by
  have key : ∀ u : State, u.f F.CORE_BUDGET_PHASE k = p → u.cores = (s.fetched k e).cores → (∀ l, u.st l = (s.fetched k e).st l) →
      (s.fetched k e).perform k false (.budget d cls p) .clean = u.result k d 0 →
      Gives (exec (.budget k e d cls p) s) fun t => Ended s t k ∧ (d ≠ 0 → t.greg k d = 0) ∧ t.f F.CORE_BUDGET_PHASE k = p := by
    intro u hf hcs hst hr
    have hpc : ∀ l, u.pc l = (s.fetched k e).pc l := fun l => by rw [State.pc, State.core, hcs]; rfl
    obtain ⟨ha, hend⟩ := ended_of_result (t := u) (s := s) (e := e) (d := d) (w := 0) ((hst k).trans (fetched_running h))
      ((hpc k).trans (fetched_pc _)) fun l _ => ⟨hst l, hpc l⟩
    refine ⟨_, (issue_performs h).trans (by rw [hr, ha]), hend, fun hd => ?_, ?_⟩
    · rw [setPc_greg, greg_setGreg_same, if_neg hd]
    · rw [setPc_f, f_setGreg _ _ _ _ _ _ (by decide) (by decide), hf]
  have hcost : cls.val = 0 ∨ (s.fetched k e).phaseCost k p ≤ (s.fetched k e).phaseCost k ((s.fetched k e).f F.CORE_BUDGET_PHASE k) := by
    rw [fetched_phaseCost (issues_ecc h), fetched_phaseCost (issues_ecc h), fetched_f_core _ _ _ (by decide)]
    exact hcost.imp_left fun h0 => by rw [h0]; rfl
  have hb : (s.fetched k e).budget k false d cls p = if cls.val = 0 then ((s.fetched k e).setF F.CORE_BUDGET_PHASE p k).result k d 0
      else ((s.fetched k e).setPhase k p).result k d 0 := by
    rw [State.budget, fetched_hdrClass, fetched_costCount, if_neg (by omega), if_neg (by omega)]
    split
    · rfl
    · next h0 => rw [if_pos (hcost.resolve_left h0)]
  by_cases h0 : cls.val = 0
  · rw [if_pos h0] at hb
    refine key ((s.fetched k e).setF F.CORE_BUDGET_PHASE p k) (f_setF_core_fits _ _ (by decide) p.isLt) (setF_cores ..) (fun l => ?_) hb
    rw [State.st, f_setF_core_ne _ _ (by decide)]; rfl
  · rw [if_neg h0] at hb
    exact key ((s.fetched k e).setPhase k p) ((setPhase_phase ..).trans (Nat.mod_eq_of_lt p.isLt)) (setPhase_cores ..) (setPhase_st _ _ _) hb

/-- A dearer phase of another class waits for its grant. -/
theorem budget_waits {d : Fin 32} {cls : Fin 4} {p : Fin 16} (h : Issues s k e (.budget d cls p)) (hc : cls.val = s.hdrClass k) (h3 : cls ≠ 3)
    (hp : p.val < s.costCount k) (h0 : cls ≠ 0) (hcost : s.phaseCost k (s.f F.CORE_BUDGET_PHASE k) < s.phaseCost k p) :
    Gives (exec (.budget k e d cls p) s) fun t => t.st k = 8 ∧ t.pc k = s.pc k ∧ t.f F.CORE_BUDGET_ADMIT k = 3 ∧ (t.core k).phase = p := by
  have hcost : (s.fetched k e).phaseCost k ((s.fetched k e).f F.CORE_BUDGET_PHASE k) < (s.fetched k e).phaseCost k p := by
    rwa [fetched_phaseCost (issues_ecc h), fetched_phaseCost (issues_ecc h), fetched_f_core _ _ _ (by decide)]
  refine issue_gives h ?_
  rw [State.perform, State.budget, fetched_hdrClass, fetched_costCount, if_neg (by omega), if_neg (by omega), if_neg (by omega),
    if_neg (Nat.not_le.2 hcost), if_neg (by decide)]
  have hg := cored_enqueue ((((s.fetched k e).modCore k fun c => { c with gd := d, phase := p, since := (s.fetched k e).now }).setSt k 8).setF
    F.CORE_BUDGET_ADMIT 3 k) k
  refine ⟨(cored_st hg k).trans ?_, (cored_pc hg k).trans ?_, (cored_f hg _ k 0 (by decide)).trans ?_,
    (congrArg CoreSt.phase (cored_core hg k)).trans ?_⟩
  · rw [State.st, f_setF_core_ne _ _ (by decide)]; exact st_setSt_same ..
  · rw [setF_pc, pc_setSt, pc_modCore, fetched_pc]
    exact fun _ => rfl
  · exact f_setF_core_fits _ _ (by decide) (by decide)
  · rw [setF_core, core_setSt, core_modCore_same]

/-! ### DTRD (R60) -/

theorem dtrdSec_performs {d : Fin 32} (h : Issues s k e (.dtrdSec d)) : exec (.dtrdSec k e d) s =
    .next ((((s.fetched k e).modCore k fun c => { c with dtrd := s.now % 2 ^ 48 }).setGreg k d (BitVec.ofNat 64 (s.now / 2 ^ 48))).setPc k
      (s.pc k + 1)) := by
  refine (issue_performs h).trans ?_
  rw [State.perform, State.result, CoreRes.apply, pc_modCore, fetched_pc, fetched_now]
  · rfl
  · exact fun _ => rfl

theorem dtrdSec_ends {d : Fin 32} (h : Issues s k e (.dtrdSec d)) : Gives (exec (.dtrdSec k e d) s) fun t =>
    Ended s t k ∧ (d ≠ 0 → t.greg k d = BitVec.ofNat 64 (s.now / 2 ^ 48)) ∧ (t.core k).dtrd = s.now % 2 ^ 48 ∧
      (∀ r, r ≠ d → t.greg k r = s.greg k r) ∧ t.dmem = s.dmem := by
  refine ⟨_, dtrdSec_performs h, ended_of_setPc ?_ ((othersStay_modCore _ _ _).trans (othersStay_setGreg _ _ _ _)), fun hd => ?_, ?_,
    fun r hr => ?_, ?_⟩
  · rw [st_setGreg, st_modCore, fetched_running h]
  · rw [setPc_greg, greg_setGreg_same, if_neg hd]
  · rw [core_setPc, core_setGreg, core_modCore_same]
  · rw [setPc_greg, greg_setGreg_ne _ _ _ _ hr, greg_modCore, fetched_greg]
  · rw [setPc_dmem, setGreg_dmem, modCore_dmem, fetched_dmem]

theorem dtrdFrac_performs {d : Fin 32} (h : Issues s k e (.dtrdFrac d)) : exec (.dtrdFrac k e d) s =
    .next (((s.fetched k e).setGreg k d (BitVec.ofNat 64 (s.core k).dtrd)).setPc k (s.pc k + 1)) := by
  refine (issue_performs h).trans ?_
  rw [State.perform, State.result, CoreRes.apply, fetched_pc, fetched_core]

end

/-- Settles O15: each instruction by its own rule, what it leaves the other cores set aside. -/
theorem timeEventAndBudgetInstructions : Obligations.TimeEventAndBudgetInstructions := by
  refine ⟨fun k e d ec eca ecb tmo cls p s hd => ?_, fun k e d s => ⟨fun h => ?_, dtrdFrac_performs⟩⟩
  · simp only [← channelOf_eq]
    refine ⟨fun h hl ha => ?_, evtFire_locked, fun h hn => ?_, fun h hn hl => ?_, fun h hn h0 h1 => ?_, fun hst hg hl => evtWait_again hd hst hg hl,
      fun h hc h3 hp hle => ?_, budget_waits, budget_not_class, budget_no_phase⟩
    · obtain ⟨t, ht, ⟨hpc, hst, -⟩, hf⟩ := evtFire_ends h hl
      exact ⟨t, ht, ⟨hpc, hst⟩, hf ha⟩
    · obtain ⟨t, ht, ⟨hpc, hst, -⟩, hr⟩ := evtWaitArm_ends h hn
      exact ⟨t, ht, ⟨hpc, hst⟩, hr⟩
    · obtain ⟨t, ht, ⟨hpc, hst, -⟩, hg, hclear⟩ := evtWait_takes h hn fun hz => hl.elim ((selected_latched ..).1 hz).1 ((selected_latched ..).1 hz).2
      obtain ⟨h0, h1, h4⟩ := latched_bits (((s.fetched k e).selectInputs k eca ecb).core k)
      rw [← hg hd, core_selectInputs, fetched_core, select_latch] at h0 h1
      rw [← hg hd] at h4
      exact ⟨t, ht, ⟨hpc, hst⟩, h0, h1, h4, hclear⟩
    · obtain ⟨t, ht, ⟨hst, hpc, -⟩, hr⟩ := evtWait_waits h hn ((selected_latched ..).2 ⟨h0, h1⟩)
      exact ⟨t, ht, hst, hpc, hr⟩
    · obtain ⟨t, ht, ⟨hpc, hst, -⟩, hg, hf⟩ := budget_ends h hc h3 hp hle
      exact ⟨t, ht, ⟨hpc, hst⟩, hg hd, hf⟩
  · obtain ⟨t, ht, ⟨hpc, -, -⟩, hsec, hfrac, hrest, hdm⟩ := dtrdSec_ends h
    exact ⟨t, ht, hsec, hfrac, hpc, hrest, hdm⟩

end Sys2Proof.Machine
end

section
/-! PROOFS. What the commands to a core do (R44 to R47, R377): arming, starting, stopping, resuming, resetting. -/

namespace Sys2Proof.Machine

/-! ### Fields of a core through the operations of the Governor (R46, R48, R50, R304) -/

section
variable (s : State) (k l : Nat)

@[simp] theorem flag_pc (x : Fld) (i j : Nat) : (s.flag x i j).pc l = s.pc l := by rw [State.flag, setF_pc]

theorem st_flag {x : Fld} (h : x.coreApart F.CORE_STATUS_STATE = true) : (s.flag x k).st l = s.st l := f_setF_core_ne s 1 h

theorem on_flag {x : Fld} (h : x.ofCore = true) : (s.flag x k).on x k = true := by
  have h1 : 1 < 2 ^ (x.hi + 1 - x.lo) := Nat.one_lt_two_pow (by have := (ofCore_iff.1 h).2.2; omega)
  rw [State.on, State.flag, f_setF_core_fits s 1 h h1]; rfl

/-- Fields apart from what an admission records. -/
abbrev Fld.unadmitted (x : Fld) : Bool := F.CORE_BUDGET_ADMIT.coreApart x && F.CORE_BUDGET_RESV_MW.coreApart x

theorem f_setAdmit_ne (how mw : Nat) {x : Fld} (h : x.unadmitted = true) : (s.setAdmit k how mw).f x l = s.f x l := by
  obtain ⟨h1, h2⟩ := Bool.and_eq_true_iff.1 h
  rw [State.setAdmit, f_setF_core_ne _ _ h2, f_setF_core_ne _ _ h1]

theorem setAdmit_admit {how : Nat} (mw : Nat) (h : how < 8) : (s.setAdmit k how mw).f F.CORE_BUDGET_ADMIT k = how := by
  rw [State.setAdmit, f_setF_core_ne _ _ (by decide), f_setF_core_fits _ _ (by decide) h]

theorem setAdmit_resv (how mw : Nat) : (s.setAdmit k how mw).f F.CORE_BUDGET_RESV_MW k = mw % 2 ^ 16 :=
  f_setF_core_same _ _ (by decide)

@[simp] theorem setAdmit_cores (how mw : Nat) : (s.setAdmit k how mw).cores = s.cores := by rw [State.setAdmit, setF_cores, setF_cores]
@[simp] theorem setAdmit_voices (how mw : Nat) : (s.setAdmit k how mw).voices = s.voices := by rw [State.setAdmit, setF_voices, setF_voices]
@[simp] theorem setAdmit_dmem (how mw : Nat) : (s.setAdmit k how mw).dmem = s.dmem := by rw [State.setAdmit, setF_dmem, setF_dmem]

@[simp] theorem withdraw_f (x : Fld) (i j : Nat) : (s.withdraw k).f x i j = s.f x i j := by rfl
@[simp] theorem withdraw_greg (r : Fin 32) : (s.withdraw k).greg l r = s.greg l r := by rfl
@[simp] theorem withdraw_cores : (s.withdraw k).cores = s.cores := by rfl
@[simp] theorem withdraw_voices : (s.withdraw k).voices = s.voices := by rfl
@[simp] theorem withdraw_dmem : (s.withdraw k).dmem = s.dmem := by rfl

theorem greg_setF' {x : Fld} (v : Nat) (r : Fin 32) (hx : x.ofCore = true) (hn : x.reg ≠ .CORE_GREG) : (s.setF x v k).greg l r = s.greg l r :=
  greg_setF_core s v k l r (ofCore_iff.1 hx).1 hn

/-- The end of an admission: what ADMIT and RESV_MW then read follows the RT reservation held. -/
theorem unadmit_eq : s.unadmit k = ((s.setAdmit k (if (s.core k).resv.isSome then 1 else 0) (((s.core k).resv.map (·.mw)).getD 0)).withdraw k) := by
  unfold State.unadmit
  cases (s.core k).resv <;> rfl

theorem f_unadmit_ne {x : Fld} (h : x.unadmitted = true) : (s.unadmit k).f x l = s.f x l := by
  rw [unadmit_eq, withdraw_f, f_setAdmit_ne s k l _ _ h]

@[simp] theorem unadmit_cores : (s.unadmit k).cores = s.cores := by rw [unadmit_eq, withdraw_cores, setAdmit_cores]
@[simp] theorem unadmit_voices : (s.unadmit k).voices = s.voices := by rw [unadmit_eq, withdraw_voices, setAdmit_voices]
@[simp] theorem unadmit_core : (s.unadmit k).core l = s.core l := by rw [State.core, unadmit_cores]; rfl
@[simp] theorem unadmit_st : (s.unadmit k).st l = s.st l := f_unadmit_ne s k l (by decide)

theorem unadmit_admit : (s.unadmit k).f F.CORE_BUDGET_ADMIT k = if (s.core k).resv.isSome then 1 else 0 := by
  rw [unadmit_eq, withdraw_f, setAdmit_admit]
  split <;> decide

theorem unadmit_resv : (s.unadmit k).f F.CORE_BUDGET_RESV_MW k = ((s.core k).resv.map (·.mw)).getD 0 % 2 ^ 16 := by
  rw [unadmit_eq, withdraw_f, setAdmit_resv]

theorem greg_setAdmit (how mw : Nat) (r : Fin 32) : (s.setAdmit k how mw).greg l r = s.greg l r := by
  rw [State.setAdmit, greg_setF' _ _ _ _ _ (by decide) (by decide), greg_setF' _ _ _ _ _ (by decide) (by decide)]

theorem greg_unadmit (r : Fin 32) : (s.unadmit k).greg l r = s.greg l r := by
  rw [unadmit_eq, withdraw_greg, greg_setAdmit]

theorem f_release_ne {x : Fld} (h : x.unadmitted = true) : (s.release k).f x l = s.f x l := by
  rw [State.release, modCore_f, withdraw_f, f_setAdmit_ne s k l _ _ h]

theorem release_admit : (s.release k).f F.CORE_BUDGET_ADMIT k = 0 := by
  rw [State.release, modCore_f, withdraw_f, setAdmit_admit _ _ _ (by decide)]

@[simp] theorem release_st : (s.release k).st l = s.st l := f_release_ne s k l (by decide)
@[simp] theorem release_pc : (s.release k).pc l = s.pc l := by
  rw [State.release, pc_modCore]
  · rw [State.pc, State.core, withdraw_cores, setAdmit_cores]; rfl
  · exact fun _ => rfl
@[simp] theorem release_voices : (s.release k).voices = s.voices := by rw [State.release, modCore_voices, withdraw_voices, setAdmit_voices]
@[simp] theorem release_dmem : (s.release k).dmem = s.dmem := by rw [State.release, modCore_dmem, withdraw_dmem, setAdmit_dmem]
theorem greg_release (r : Fin 32) : (s.release k).greg l r = s.greg l r := by
  rw [State.release, greg_modCore, withdraw_greg, greg_setAdmit]

/-- Fields apart from what throttling records (R50). -/
abbrev Fld.unthrottled (x : Fld) : Bool := F.CORE_BUDGET_THR_DIV.coreApart x && F.CORE_STATUS_THROTTLED.coreApart x

theorem f_armDiv_ne {x : Fld} (h : x.unthrottled = true) : (s.armDiv k).f x l = s.f x l := by
  obtain ⟨h1, h2⟩ := Bool.and_eq_true_iff.1 h
  rw [State.armDiv, State.setDiv, State.setB, f_setF_core_ne _ _ h2, f_setF_core_ne _ _ h1]

@[simp] theorem armDiv_cores : (s.armDiv k).cores = s.cores := by rw [State.armDiv, State.setDiv, State.setB, setF_cores, setF_cores]

end

/-! ### Requests for admission (R48, R302, R305) -/

section
variable (s : State) (k : Nat)

theorem levelH_queues : s.levelH.power.gov.std = s.power.gov.std ∧ s.levelH.power.gov.bg = s.power.gov.bg := by
  unfold State.levelH
  dsimp only
  generalize (if s.headroom < 0 then 1 else if s.margin ≤ s.headroom then 2 else 0) = n
  by_cases h : s.power.gov.level = n
  · rw [if_pos h]; exact ⟨rfl, rfl⟩
  · rw [if_neg h]; exact ⟨rfl, rfl⟩

/-- An evaluation of the model leaves the admission queues. -/
theorem weighRequest_queues : s.weighRequest.power.gov.std = s.power.gov.std ∧ s.weighRequest.power.gov.bg = s.power.gov.bg := by
  unfold State.weighRequest
  split
  · obtain ⟨h1, h2⟩ := levelH_queues ((s.setF F.BG_STATUS_T_MAX (wrap 8 (max (-128) (min 127 s.tMax)))).setF F.BG_STATUS_HEADROOM
      (satHeadroom (s.setF F.BG_STATUS_T_MAX (wrap 8 (max (-128) (min 127 s.tMax)))).headroom))
    rw [setF_power, setF_power] at h1 h2
    exact ⟨h1, h2⟩
  · exact ⟨rfl, rfl⟩

theorem enqueue_queues : k ∈ (s.enqueue k).power.gov.std ∨ BgTask.core k ∈ (s.enqueue k).power.gov.bg := by
  rw [State.enqueue, (weighRequest_queues _).1, (weighRequest_queues _).2]
  by_cases hc : s.f F.CORE_BUDGET_CLASS k = 2
  · refine .inr ?_
    simp only [State.modGov, if_pos hc]
    split
    · next h => exact List.contains_iff_mem.1 h
    · exact List.mem_append_right _ (List.mem_singleton_self _)
  · refine .inl ?_
    simp only [State.modGov, if_neg hc]
    split
    · next h => exact List.contains_iff_mem.1 h
    · exact List.mem_append_right _ (List.mem_singleton_self _)

end

/-- Core k asks for admission and waits (R48), after a start or after a RESUME. -/
def State.ask (s : State) (k : Nat) (start : Bool) : State :=
  (((s.setSt k 4).setF F.CORE_BUDGET_ADMIT 3 k).modCore k fun c => { c with fromStart := start, since := s.now }).enqueue k

section
variable {s : State} {k : Fin 64}

/-- What a request leaves: the core waits at its PC, and the other cores stay. -/
theorem ask_leaves (start : Bool) : Halts s (s.ask k start) k 4 ∧ (s.ask k start).f F.CORE_BUDGET_ADMIT k = 3 ∧
    (k.val ∈ (s.ask k start).power.gov.std ∨ BgTask.core k.val ∈ (s.ask k start).power.gov.bg) := by
  have ho : OthersStay s (((s.setSt k 4).setF F.CORE_BUDGET_ADMIT 3 k).modCore k fun c => { c with fromStart := start, since := s.now }) k :=
    (othersStay_setSt s k 4).trans ((othersStay_setF _ k (by decide) 3).trans (othersStay_modCore _ k _))
  have hpc : (((s.setSt k 4).setF F.CORE_BUDGET_ADMIT 3 k).modCore k fun c => { c with fromStart := start, since := s.now }).pc k = s.pc k := by
    rw [pc_modCore, setF_pc, pc_setSt]
    exact fun _ => rfl
  have hst : (((s.setSt k 4).setF F.CORE_BUDGET_ADMIT 3 k).modCore k fun c => { c with fromStart := start, since := s.now }).st k = 4 := by
    rw [st_modCore, State.st, f_setF_core_ne _ _ (by decide)]
    exact st_setSt_same ..
  have hf : (((s.setSt k 4).setF F.CORE_BUDGET_ADMIT 3 k).modCore k fun c => { c with fromStart := start, since := s.now }).f
      F.CORE_BUDGET_ADMIT k = 3 := by
    rw [modCore_f, f_setF_core_fits _ _ (by decide) (by decide)]
  rw [State.ask]
  generalize ((s.setSt k 4).setF F.CORE_BUDGET_ADMIT 3 k).modCore k (fun c => { c with fromStart := start, since := s.now }) = u at ho hpc hst hf ⊢
  have hc := cored_enqueue u k
  exact ⟨⟨(cored_st hc k).trans hst, (cored_pc hc k).trans hpc, ho.trans (othersStay_of_cored hc)⟩, (cored_f hc _ k 0 (by decide)).trans hf,
    enqueue_queues u k⟩

theorem halts_setSt (s : State) (k : Fin 64) {n : Nat} (hn : n < 16) : Halts s (s.setSt k n) k n :=
  ⟨(st_setSt_same ..).trans (Nat.mod_eq_of_lt hn), pc_setSt .., othersStay_setSt s k n⟩

theorem startCore_rt (h : s.f F.CORE_BUDGET_CLASS k = 0) : s.startCore k = s.setSt k 5 := if_pos h

theorem startCore_waits (h : s.f F.CORE_BUDGET_CLASS k ≠ 0) : s.startCore k = s.ask k true :=
  if_neg h

theorem resume_rt (h2 : s.st k = 2) (h : s.f F.CORE_BUDGET_CLASS k = 0) : s.resume k = s.setSt k 5 :=
  (if_neg (not_not_intro h2)).trans (if_pos h)

theorem resume_waits (h2 : s.st k = 2) (h : s.f F.CORE_BUDGET_CLASS k ≠ 0) :
    s.resume k = s.ask k false :=
  (if_neg (not_not_intro h2)).trans (if_neg h)

/-- A start leaves the core in RUN or in ADMIT_WAIT. -/
theorem startCore_moves : Halts s (s.startCore k) k (if s.f F.CORE_BUDGET_CLASS k = 0 then 5 else 4) := by
  by_cases h : s.f F.CORE_BUDGET_CLASS k = 0
  · rw [startCore_rt h, if_pos h]; exact halts_setSt s k (by decide)
  · rw [startCore_waits h, if_neg h]; exact (ask_leaves _).1

theorem resume_moves (h2 : s.st k = 2) : Halts s (s.resume k) k (if s.f F.CORE_BUDGET_CLASS k = 0 then 5 else 4) := by
  by_cases h : s.f F.CORE_BUDGET_CLASS k = 0
  · rw [resume_rt h2 h, if_pos h]; exact halts_setSt s k (by decide)
  · rw [resume_waits h2 h, if_neg h]; exact (ask_leaves _).1

theorem ignoreCmd_leaves (s : State) (k : Fin 64) : (s.ignoreCmd k).st k = s.st k ∧ (s.ignoreCmd k).on F.CORE_STATUS_CMD_IGNORED k = true :=
  ⟨st_flag s k k (by decide), on_flag s k (by decide)⟩

end

/-! ### The image of a core (R41, R42, R303) -/

/-- The header, the cost table and the coefficients of costs that core k is judged by are in t as in s. -/
structure SameImage (s t : State) (k : Nat) : Prop where
  hdr : ∀ i hi lo, t.hdr k i hi lo = s.hdr k i hi lo
  cost : ∀ p i hi lo, t.costBits k p i hi lo = s.costBits k p i hi lo
  coef : t.rw .BG_COEF = s.rw .BG_COEF

section
variable {s t : State} {k : Nat}

theorem SameImage.phaseCost (h : SameImage s t k) (p : Nat) : t.phaseCost k p = s.phaseCost k p := by
  have hf : ∀ x : Fld, x.reg = .BG_COEF → t.f x = s.f x := fun x hx => by rw [State.f, State.f, hx, h.coef]
  simp only [State.phaseCost, State.phaseDram, h.cost, hf F.BG_COEF_K_CORE rfl, hf F.BG_COEF_K_VR rfl, hf F.BG_COEF_K_SR rfl,
    hf F.BG_COEF_K_DR rfl]

/-- The largest cost of a phase, which an ARM of an RT core reserves (R46). -/
theorem SameImage.resvOf_mw (h : SameImage s t k) : (t.resvOf k).mw = s.phaseMax k (s.phaseCost k) := by
  have hc : t.costCount k = s.costCount k := h.hdr 4 47 32
  change ((List.range (t.costCount k)).map (t.phaseCost k)).foldl max 0 = ((List.range (s.costCount k)).map (s.phaseCost k)).foldl max 0
  rw [hc, funext h.phaseCost]

/-- A status word of a core lies apart from its image and from the coefficients. -/
theorem sameImage_setRw (s : State) {r : Reg} (hr : r ∈ coreRegs) (hb : r.spec.base < 0x200080) (w : Word) (k : Nat) :
    SameImage s (s.setRw r w k) k := by
  have ha : r.addr k 0 = r.spec.base + k * 0x8000 := by rw [addr_core hr, Nat.zero_mul, Nat.add_zero]
  have hlow := (coreRegs_spec r hr).2.2.1
  refine ⟨fun i hi lo => ?_, fun p i hi lo => ?_, ?_⟩
  · have hw : (s.setRw r w k).rw .CORE_HDR k i = s.rw .CORE_HDR k i := rw_setRw_ne s w (by
      rw [ha, show Reg.CORE_HDR.addr k i = 0x200080 + k * 0x8000 + i * 8 from rfl]; omega)
    rw [State.hdr, hw]; rfl
  · have hw : (s.setRw r w k).rw .CORE_COST k (4 * p + i) = s.rw .CORE_COST k (4 * p + i) := rw_setRw_ne s w (by
      rw [ha, show Reg.CORE_COST.addr k (4 * p + i) = 0x200400 + k * 0x8000 + (4 * p + i) * 8 from rfl]; omega)
    rw [State.costBits, hw]; rfl
  · exact rw_setRw_ne s w (by rw [ha, show Reg.BG_COEF.addr 0 0 = 0x10118 from rfl]; omega)

end

section
variable {s : State} {k : Fin 64}

/-! ### ARM (R46) -/

/-- The state of core k once ARM passed its checks, before its reservation and its divider are settled. -/
def State.armed (s : State) (k : Nat) : State :=
  let t := (((s.setPc k (s.hdrEntry k)).setF F.CORE_BUDGET_CLASS (s.hdrClass k) k).setF F.CORE_BUDGET_PHASE 0 k).setSt k 3
  if s.hdrClass k = 0 then t.modCore k fun c => { c with resv := some (s.resvOf k) } else t

theorem arm_passes (h2 : s.st k = 2) (hc : s.armCode k = 0)
    (hs : ¬ ((s.setF F.CORE_STATUS_ARM_ERR 0 k).f F.CORE_CTL_START_SRC k = 2 ∧
      (s.setF F.CORE_STATUS_ARM_ERR 0 k).startTime k < (s.setF F.CORE_STATUS_ARM_ERR 0 k).now)) :
    s.arm k = (((s.setF F.CORE_STATUS_ARM_ERR 0 k).armed k).unadmit k).armDiv k := by
  unfold State.arm State.armed
  rw [if_neg (not_not_intro h2)]
  dsimp only
  rw [hc, if_neg (by decide), if_neg hs]

theorem arm_refuses (h2 : s.st k = 2) (hc : s.armCode k ≠ 0) : s.arm k = s.setF F.CORE_STATUS_ARM_ERR (s.armCode k) k :=
  (if_neg (not_not_intro h2)).trans (if_pos hc)

/-- What of a core the step to ARMED leaves, as a reservation joins or not. -/
theorem armed_core (s : State) (k : Nat) : ((s.armed k).core k).pc = s.hdrEntry k ∧
    ((s.armed k).core k).resv = if s.hdrClass k = 0 then some (s.resvOf k) else (s.core k).resv := by
  unfold State.armed
  dsimp only
  split
  · rw [core_modCore_same, core_setSt, setF_core, setF_core, core_setPc]; exact ⟨rfl, rfl⟩
  · rw [core_setSt, setF_core, setF_core, core_setPc]; exact ⟨rfl, rfl⟩

theorem armed_f (s : State) (k l : Nat) (x : Fld) : (s.armed k).f x l =
    ((((s.setPc k (s.hdrEntry k)).setF F.CORE_BUDGET_CLASS (s.hdrClass k) k).setF F.CORE_BUDGET_PHASE 0 k).setF F.CORE_STATUS_STATE 3 k).f x l := by
  unfold State.armed
  dsimp only
  split
  · rw [modCore_f, f_setSt]
  · rw [f_setSt]

theorem armed_others (s : State) (k : Fin 64) : OthersStay s (s.armed k) k := by
  have h : OthersStay s ((((s.setPc k (s.hdrEntry k)).setF F.CORE_BUDGET_CLASS (s.hdrClass k) k).setF F.CORE_BUDGET_PHASE 0 k).setSt k 3) k :=
    (othersStay_setPc s k _).trans ((othersStay_setF _ k (by decide) _).trans ((othersStay_setF _ k (by decide) _).trans (othersStay_setSt _ k 3)))
  unfold State.armed
  dsimp only
  split
  · exact h.trans (othersStay_modCore _ k _)
  · exact h

/-- What ARM leaves of a core that passes its checks. -/
structure ArmLeaves (s t : State) (k : Fin 64) : Prop where
  st : t.st k = 3
  pc : t.pc k = s.hdrEntry k
  err : t.f F.CORE_STATUS_ARM_ERR k = 0
  cls : t.f F.CORE_BUDGET_CLASS k = s.hdrClass k
  phase : t.f F.CORE_BUDGET_PHASE k = 0
  rt : s.hdrClass k = 0 → t.f F.CORE_BUDGET_ADMIT k = 1 ∧ t.f F.CORE_BUDGET_RESV_MW k = s.phaseMax k (s.phaseCost k) % 2 ^ 16
  other : s.hdrClass k ≠ 0 → t.f F.CORE_BUDGET_ADMIT k = if (s.core k).resv.isSome then 1 else 0
  others : OthersStay s t k

theorem unadmit_others (s : State) (k : Fin 64) : OthersStay s (s.unadmit k) k := fun l _ =>
  ⟨unadmit_st .., congrArg CoreSt.pc (unadmit_core s k l)⟩

theorem armDiv_others (s : State) (k : Fin 64) : OthersStay s (s.armDiv k) k := fun l _ =>
  ⟨f_armDiv_ne s k l (by decide), by rw [State.pc, State.core, armDiv_cores]; rfl⟩

theorem arm_arms (h2 : s.st k = 2) (hc : s.armCode k = 0) (hs : ¬ (s.f F.CORE_CTL_START_SRC k = 2 ∧ s.startTime k < s.now)) :
    ArmLeaves s (s.arm k) k := by
  have himg : SameImage s (s.setF F.CORE_STATUS_ARM_ERR 0 k) k := sameImage_setRw s (by decide) (by decide) _ k
  have hcore : (s.setF F.CORE_STATUS_ARM_ERR 0 k).core k = s.core k := setF_core ..
  have herr : (s.setF F.CORE_STATUS_ARM_ERR 0 k).f F.CORE_STATUS_ARM_ERR k = 0 := f_setF_core_fits _ _ (by decide) (by decide)
  have ho : OthersStay s (s.setF F.CORE_STATUS_ARM_ERR 0 k) k := othersStay_setF s k (by decide) 0
  have hs : ¬ ((s.setF F.CORE_STATUS_ARM_ERR 0 k).f F.CORE_CTL_START_SRC k = 2 ∧
    (s.setF F.CORE_STATUS_ARM_ERR 0 k).startTime k < (s.setF F.CORE_STATUS_ARM_ERR 0 k).now) := by
    have ht : (s.setF F.CORE_STATUS_ARM_ERR 0 k).startTime k = s.startTime k := by
      unfold State.startTime State.at
      rw [f_setF_core_ne _ _ (by decide), f_setF_core_ne _ _ (by decide)]
    have hn : (s.setF F.CORE_STATUS_ARM_ERR 0 k).now = s.now := by unfold State.now; rw [setF_time]
    rwa [f_setF_core_ne _ _ (by decide), ht, hn]
  have hentry : (s.setF F.CORE_STATUS_ARM_ERR 0 k).hdrEntry k = s.hdrEntry k := himg.hdr ..
  have hclass : (s.setF F.CORE_STATUS_ARM_ERR 0 k).hdrClass k = s.hdrClass k := himg.hdr ..
  rw [arm_passes h2 hc hs]
  generalize s.setF F.CORE_STATUS_ARM_ERR 0 k = u at *
  obtain ⟨hpc, hresv⟩ := armed_core u k
  refine ⟨?_, ?_, ?_, ?_, ?_, fun h0 => ⟨?_, ?_⟩, fun h0 => ?_, ?_⟩
  · rw [State.st, f_armDiv_ne _ _ _ (by decide), f_unadmit_ne _ _ _ (by decide), armed_f, f_setF_core_fits _ _ (by decide) (by decide)]
  · rw [State.pc, State.core, armDiv_cores, ← State.core, unadmit_core, hpc, hentry]
  · rw [f_armDiv_ne _ _ _ (by decide), f_unadmit_ne _ _ _ (by decide), armed_f, f_setF_core_ne _ _ (by decide), f_setF_core_ne _ _ (by decide),
      f_setF_core_ne _ _ (by decide), setPc_f, herr]
  · rw [f_armDiv_ne _ _ _ (by decide), f_unadmit_ne _ _ _ (by decide), armed_f, f_setF_core_ne _ _ (by decide), f_setF_core_ne _ _ (by decide),
      f_setF_core_fits _ _ (by decide), hclass]
    rw [hclass]
    exact bits_lt ..
  · rw [f_armDiv_ne _ _ _ (by decide), f_unadmit_ne _ _ _ (by decide), armed_f, f_setF_core_ne _ _ (by decide),
      f_setF_core_fits _ _ (by decide) (by decide)]
  · rw [f_armDiv_ne _ _ _ (by decide), unadmit_admit, hresv, hclass, if_pos h0]; rfl
  · rw [f_armDiv_ne _ _ _ (by decide), unadmit_resv, hresv, hclass, if_pos h0, ← himg.resvOf_mw, Option.map_some, Option.getD_some]
  · rw [f_armDiv_ne _ _ _ (by decide), unadmit_admit, hresv, hclass, if_neg h0, hcore]
  · exact ho.trans ((armed_others u k).trans ((unadmit_others _ k).trans (armDiv_others _ k)))

end

/-! ### Queues as slots are freed and descriptors dropped (R39, R113, R126) -/

section
variable (s : State) (v u : Nat)

variable {α : Type} (p : VoiceSt → α)

theorem freeSlot_keeps (h : ∀ x t, p { x with slotGone := t } = p x) : p ((s.freeSlot v).voice u) = p (s.voice u) := by
  unfold State.freeSlot
  split
  · rw [modVoice_keeps _ p fun x => h x _, State.clr, setF_voice, setF_voice]
  · rfl

theorem trimSlots_keeps (h : ∀ x l, p { x with slots := l } = p x) : p ((s.trimSlots v).voice u) = p (s.voice u) := by
  rw [State.trimSlots, State.showRefill, setF_voice, setF_voice, setF_voice, modVoice_keeps _ p fun x => h x _]

theorem raiseSince_keeps (h : ∀ x t, p { x with since := t } = p x) : p ((s.raiseSince v).voice u) = p (s.voice u) := by
  unfold State.raiseSince
  dsimp only
  split
  · split
    · rw [State.startVoice, modVoice_keeps _ p fun x => h x _]
    · rfl
  · rfl

theorem freeSlot_queue : ((s.freeSlot v).voice u).queue = (s.voice u).queue := freeSlot_keeps s v u (·.queue) fun _ _ => rfl
theorem trimSlots_queue : ((s.trimSlots v).voice u).queue = (s.voice u).queue := trimSlots_keeps s v u (·.queue) fun _ _ => rfl

@[simp] theorem cored_raiseSince : (s.raiseSince v).cored = s.cored := by
  unfold State.raiseSince State.startVoice
  dsimp only
  split
  · split
    · rw [cored_modVoice]
    · rfl
  · rfl

@[simp] theorem fireNow_voices (src : Nat) : (s.fireNow src).voices = s.voices := (fireNow_recorded s src).voices

theorem queueLow_voices (n : Nat) : (s.queueLow v n).voices = s.voices := by
  unfold State.queueLow
  dsimp only
  split
  · exact fireNow_voices ..
  · rfl

theorem settle_voices (i : Nat) (last : Option Nat) : (s.settle i last).voices = s.voices := by
  unfold State.settle
  split
  · cases last <;> rfl
  · rfl

theorem dropDesc_voices (h : Nat) : (s.dropDesc h).voices = s.voices := by rw [State.dropDesc, settle_voices]; rfl

theorem dropQueue_voices (gone : QEntry → Bool) :
    (s.dropQueue v gone).voices = (s.modVoice v fun x => x.keepOnly fun q => !gone q).voices := by
  rw [State.dropQueue, queueLow_voices]
  exact foldl_same State.voices (fun t h => dropDesc_voices t h) _ _

theorem dropQueue_voice (gone : QEntry → Bool) : (s.dropQueue v gone).voice v = (s.voice v).keepOnly fun q => !gone q := by
  rw [State.voice, dropQueue_voices, ← State.voice, voice_modVoice_same]

theorem dropUncommitted_queue : ((s.dropUncommitted v).voice v).queue = (s.voice v).queue.filter (·.committed) := by
  rw [State.dropUncommitted, dropQueue_voice]
  simp [VoiceSt.keepOnly]

end

/-! ### STOP (R44) -/

section
variable {s : State} {k : Fin 64}

/-- A core in HALT that nothing holds on its instruction any more. -/
def State.atHalt (s : State) (k : Nat) : State :=
  (s.setSt k 2).modCore k fun c => { c with blocked := false, stopLater := false, stalled := none, deadline := none }

theorem halt_cored (s : State) (k : Fin 64) : (s.halt k).cored = (s.atHalt k).cored := by
  unfold State.halt
  dsimp only
  split
  · rw [cored_trimSlots _ k.isLt, cored_freeSlot _ k.isLt, State.dropUncommitted, cored_dropQueue, cored_freeSlot _ k.isLt]; rfl
  · rw [cored_freeSlot _ k.isLt]; rfl

theorem halt_queue (s : State) (k : Nat) : ((s.halt k).voice k).queue =
    if s.on F.CORE_CTL_FLUSH k then (s.voice k).queue.filter (·.committed) else (s.voice k).queue := by
  have hv : ((s.setSt k 2).modCore k fun c => { c with blocked := false, stopLater := false, stalled := none, deadline := none }).voice k =
      s.voice k := by rw [modCore_voice, State.voice, setSt_voices _ (.inr (by decide))]; rfl
  unfold State.halt
  dsimp only
  split
  · rw [trimSlots_queue, freeSlot_queue, dropUncommitted_queue, freeSlot_queue, hv]
  · rw [freeSlot_queue, hv]

/-- What a STOP that is taken leaves. -/
structure Stopped (s t : State) (k : Fin 64) : Prop where
  halts : Halts s t k 2
  greg : ∀ r, t.greg k r = s.greg k r
  stalled : (t.core k).stalled = none
  blocked : (t.core k).blocked = false
  f : ∀ x : Fld, F.CORE_STATUS_STATE.coreApart x = true → t.f x k = s.f x k
  queue : (t.voice k).queue = if s.on F.CORE_CTL_FLUSH k then (s.voice k).queue.filter (·.committed) else (s.voice k).queue

theorem halt_stops (s : State) (k : Fin 64) : Stopped s (s.halt k) k := by
  have hc := halt_cored s k
  have hcore : (s.atHalt k).core k = { s.core k with blocked := false, stopLater := false, stalled := none, deadline := none } := by
    rw [State.atHalt, core_modCore_same, core_setSt]
  refine ⟨⟨?_, ?_, ?_⟩, fun r => ?_, ?_, ?_, fun x hx => ?_, halt_queue s k⟩
  · rw [cored_st hc, State.atHalt, st_modCore, st_setSt_same]
  · rw [cored_pc hc, State.pc, hcore]; rfl
  · exact ((othersStay_setSt s k 2).trans (othersStay_modCore _ k _)).trans (othersStay_of_cored hc)
  · rw [cored_greg hc, State.atHalt, greg_modCore, greg_setSt]
  · rw [cored_core hc, hcore]
  · rw [cored_core hc, hcore]
  · have hm : x.reg ∈ coreRegs := (ofCore_iff.1 (by simp only [Fld.coreApart, Bool.and_eq_true] at hx; exact hx.1.2)).1
    rw [cored_f hc x k 0 hm, State.atHalt, modCore_f, f_setSt, f_setF_core_ne _ _ hx]

end

/-! ### RESET (R44, R60, R75, R176) -/

section
variable (s : State) (r : Reg) (k : Nat)

/-- The first n members (k, i) of r set to 0. -/
def State.zeroed (s : State) (r : Reg) (k n : Nat) : State := forN n (fun i t => t.setRw r 0 k i) s

theorem zeroed_word_ne {o : Nat} (n : Nat) (h : ∀ i < n, o ≠ r.addr k i) : (s.zeroed r k n).word o = s.word o := by
  induction n with
  | zero => rfl
  | succ n ih => exact (word_setWord_ne _ _ (h n (by omega))).trans (ih fun i hi => h i (by omega))

theorem zeroed_rw {n i : Nat} (hs : 0 < r.spec.s2) (hi : i < n) : (s.zeroed r k n).rw r k i = 0 := by
  induction n with
  | zero => omega
  | succ n ih =>
    by_cases he : i = n
    · subst he; exact rw_setRw_same ..
    · refine (rw_setRw_ne _ _ ?_).trans (ih (by omega))
      have hne : i * r.spec.s2 ≠ n * r.spec.s2 := fun h => he (Nat.eq_of_mul_eq_mul_right hs h)
      unfold Reg.addr
      split <;> omega

theorem zeroed_only (n : Nat) : s.zeroed r k n = { s with regs := (s.zeroed r k n).regs } := by
  induction n with
  | zero => rfl
  | succ n ih =>
    change (s.zeroed r k n).setRw r 0 k n = { s with regs := ((s.zeroed r k n).setRw r 0 k n).regs }
    rw [State.setRw, State.setWord, ih]

end

section
variable (s : State) (k l : Nat)

/-- What RESET clears of the registers of core k. -/
theorem clearRegs_eq : s.clearRegs k = (((s.zeroed .CORE_GREG k 32).zeroed .CORE_STACK k 8).clr F.CORE_STATUS_SP k) := by rfl

theorem clearRegs_only : s.clearRegs k = { s with regs := (s.clearRegs k).regs } := by
  rw [clearRegs_eq, State.clr, State.setF, State.setRw, State.setWord, zeroed_only, zeroed_only]

theorem clearRegs_greg (r : Fin 32) : (s.clearRegs k).greg k r = 0 := by
  rw [clearRegs_eq, State.clr, greg_setF' _ _ _ _ _ (by decide) (by decide)]
  unfold State.greg
  split
  · rfl
  · refine (zeroed_word_ne _ .CORE_STACK _ 8 fun i (hi : i < Reg.CORE_STACK.spec.n2) =>
      addr_core_ne (by decide) (by decide) r.isLt hi (.inl (by decide))).trans ?_
    exact zeroed_rw s _ k (by decide) r.isLt

/-- Fields of a core's one-word registers apart from SP are left. -/
theorem clearRegs_f {x : Fld} (hx : F.CORE_STATUS_SP.coreApart x = true) (hg : x.reg ≠ .CORE_GREG) (hs : x.reg ≠ .CORE_STACK) :
    (s.clearRegs k).f x l = s.f x l := by
  have hm : x.reg ∈ coreRegs := (ofCore_iff.1 (by simp only [Fld.coreApart, Bool.and_eq_true] at hx; exact hx.1.2)).1
  have hn := (coreRegs_spec _ hm).2.2.2.1
  have hz : ∀ (t : State) (r : Reg), r ∈ coreRegs → x.reg ≠ r → (t.zeroed r k r.spec.n2).f x l = t.f x l := fun t r hr hne => by
    rw [State.f, State.rw, zeroed_word_ne _ _ _ _ fun i hi => addr_core_ne hm hr hn hi (.inl hne)]; rfl
  rw [clearRegs_eq, State.clr, f_setF_core_ne _ _ hx]
  exact (hz _ .CORE_STACK (by decide) hs).trans (hz _ .CORE_GREG (by decide) hg)

theorem clearRegs_sp : (s.clearRegs k).f F.CORE_STATUS_SP k = 0 := f_setF_core_fits _ _ (by decide) (by decide)

@[simp] theorem clearRegs_cores : (s.clearRegs k).cores = s.cores := by rw [clearRegs_only]
@[simp] theorem clearRegs_voices : (s.clearRegs k).voices = s.voices := by rw [clearRegs_only]
@[simp] theorem clearRegs_dmem : (s.clearRegs k).dmem = s.dmem := by rw [clearRegs_only]

end

section
variable {s : State} {k : Fin 64}

/-- The state in which RESET has cleared the registers of core k and dropped uncommitted descriptors. -/
def State.wiped (s : State) (k : Nat) : State :=
  (((s.clearRegs k).clr F.CORE_STATUS_ARM_ERR k).clr F.CORE_FAULT_CODE k).dropUncommitted k

/-- The same once what the core held is released, its event inputs opened and its voice's markers cleared. -/
def State.freedUp (s : State) (k : Nat) : State :=
  (((((s.wiped k).release k).modInput (2 * k) fun i => { i with window := none }).modInput (2 * k + 1) fun i => { i with window := none }).modVoice
    k fun x => x.clearMarks).raiseSince k

theorem coreReset_eq (h : s.st k ∈ [2, 9, 10]) : s.coreReset k =
    (((((s.freedUp k).modCore k fun _ => { pc := s.hdrEntry k % 8192 }).freeSlot k).trimSlots k).setSt k 2) := by
  simp only [List.mem_cons, List.not_mem_nil, or_false] at h
  exact if_pos h

theorem wiped_cored (s : State) (k : Nat) : (s.wiped k).cored = (((s.clearRegs k).clr F.CORE_STATUS_ARM_ERR k).clr F.CORE_FAULT_CODE k).cored :=
  cored_dropQueue ..

theorem freedUp_cored (s : State) (k : Nat) : (s.freedUp k).cored = ((s.wiped k).release k).cored := by
  rw [State.freedUp, cored_raiseSince, cored_modVoice, cored_modInput, cored_modInput]

theorem wiped_greg (s : State) (k : Fin 64) (r : Fin 32) : (s.wiped k).greg k r = 0 := by
  rw [cored_greg (wiped_cored s k), State.clr, State.clr, greg_setF' _ _ _ _ _ (by decide) (by decide),
    greg_setF' _ _ _ _ _ (by decide) (by decide), clearRegs_greg]

theorem wiped_fields (s : State) (k : Fin 64) : (s.wiped k).f F.CORE_STATUS_SP k = 0 ∧ (s.wiped k).f F.CORE_STATUS_ARM_ERR k = 0 ∧
    (s.wiped k).f F.CORE_FAULT_CODE k = 0 := by
  have hc := wiped_cored s k
  refine ⟨?_, ?_, ?_⟩
  · rw [cored_f hc _ _ _ (by decide), State.clr, State.clr, f_setF_core_ne _ _ (by decide), f_setF_core_ne _ _ (by decide), clearRegs_sp]
  · rw [cored_f hc _ _ _ (by decide), State.clr, State.clr, f_setF_core_ne _ _ (by decide), f_setF_core_fits _ _ (by decide) (by decide)]
  · rw [cored_f hc _ _ _ (by decide), State.clr, f_setF_core_fits _ _ (by decide) (by decide)]

theorem wiped_st (s : State) (k l : Nat) : (s.wiped k).st l = s.st l := by
  rw [cored_st (wiped_cored s k), State.clr, State.clr, State.st, f_setF_core_ne _ _ (by decide), f_setF_core_ne _ _ (by decide),
    clearRegs_f _ _ _ (by decide) (by decide) (by decide)]
  rfl

theorem wiped_pc (s : State) (k l : Nat) : (s.wiped k).pc l = s.pc l := by
  rw [cored_pc (wiped_cored s k), State.clr, State.clr, setF_pc, setF_pc, State.pc, State.core, clearRegs_cores]; rfl

theorem wiped_queue (s : State) (k : Nat) : ((s.wiped k).voice k).queue = (s.voice k).queue.filter (·.committed) := by
  rw [State.wiped, dropUncommitted_queue, State.clr, State.clr, setF_voice, setF_voice, State.voice, clearRegs_voices]; rfl

theorem wiped_dmem (s : State) (k : Nat) : (s.wiped k).dmem = s.dmem := by
  rw [cored_dmem (wiped_cored s k), State.clr, State.clr, setF_dmem, setF_dmem, clearRegs_dmem]

/-- What freeing up core k keeps of its voice, and what clearing markers leaves. -/
theorem freedUp_voice (s : State) (k : Nat) : ((s.freedUp k).voice k).queue = (s.voice k).queue.filter (·.committed) ∧
    ((s.freedUp k).voice k).level = 0 := by
  have hv : ∀ {α : Type} (p : VoiceSt → α), (∀ x t, p { x with since := t } = p x) → p ((s.freedUp k).voice k) =
      p (((s.wiped k).voice k).clearMarks) := fun p hp => by
    rw [State.freedUp, raiseSince_keeps _ _ _ p hp, voice_modVoice_same, State.voice, modInput_voices, modInput_voices, release_voices]; rfl
  exact ⟨(hv (·.queue) fun _ _ => rfl).trans (wiped_queue s k), (hv (·.level) fun _ _ => rfl).trans rfl⟩

/-- What RESET leaves of a core that takes it. -/
structure ResetLeaves (s t : State) (k : Fin 64) : Prop where
  st : t.st k = 2
  core : t.core k = { pc := s.hdrEntry k % 8192 }
  greg : ∀ r, t.greg k r = 0
  sp : t.f F.CORE_STATUS_SP k = 0
  err : t.f F.CORE_STATUS_ARM_ERR k = 0
  code : t.f F.CORE_FAULT_CODE k = 0
  admitted : t.f F.CORE_BUDGET_ADMIT k = 0
  queue : (t.voice k).queue = (s.voice k).queue.filter (·.committed)
  level : (t.voice k).level = 0
  dmem : t.dmem = s.dmem
  others : OthersStay s t k

theorem coreReset_leaves (h : s.st k ∈ [2, 9, 10]) : ResetLeaves s (s.coreReset k) k := by
  have hc := freedUp_cored s k
  obtain ⟨hsp, herr, hcode⟩ := wiped_fields s k
  obtain ⟨hq, hl⟩ := freedUp_voice s k
  have hk : ((((s.freedUp k).modCore k fun _ => { pc := s.hdrEntry k % 8192 }).freeSlot k).trimSlots k).cored =
      ((s.freedUp k).modCore k fun _ => { pc := s.hdrEntry k % 8192 }).cored := by
    rw [cored_trimSlots _ k.isLt, cored_freeSlot _ k.isLt]
  have hv : ∀ {α : Type} (p : VoiceSt → α), (∀ x t, p { x with slotGone := t } = p x) → (∀ x l, p { x with slots := l } = p x) →
      p ((s.coreReset k).voice k) = p ((s.freedUp k).voice k) := fun p h1 h2 => by
    rw [coreReset_eq h, State.voice, setSt_voices _ (.inr (by decide)), ← State.voice, trimSlots_keeps _ _ _ p h2, freeSlot_keeps _ _ _ p h1,
      modCore_voice]
  have hf : ∀ x : Fld, F.CORE_STATUS_STATE.coreApart x = true → (s.coreReset k).f x k = ((s.wiped k).release k).f x k := fun x hx => by
    have hm : x.reg ∈ coreRegs := (ofCore_iff.1 (by simp only [Fld.coreApart, Bool.and_eq_true] at hx; exact hx.1.2)).1
    rw [coreReset_eq h, f_setSt, f_setF_core_ne _ _ hx, cored_f hk _ _ _ hm, modCore_f, cored_f hc _ _ _ hm]
  refine ⟨?_, ?_, fun r => ?_, ?_, ?_, ?_, ?_, ?_, ?_, ?_, fun l hl => ⟨?_, ?_⟩⟩
  · rw [coreReset_eq h, st_setSt_same]
  · rw [coreReset_eq h, core_setSt, cored_core hk, core_modCore_same]
  · rw [coreReset_eq h, greg_setSt, cored_greg hk, greg_modCore, cored_greg hc, greg_release, wiped_greg]
  · rw [hf _ (by decide), f_release_ne _ _ _ (by decide), hsp]
  · rw [hf _ (by decide), f_release_ne _ _ _ (by decide), herr]
  · rw [hf _ (by decide), f_release_ne _ _ _ (by decide), hcode]
  · rw [hf _ (by decide), release_admit]
  · exact (hv (·.queue) (fun _ _ => rfl) fun _ _ => rfl).trans hq
  · exact (hv (·.level) (fun _ _ => rfl) fun _ _ => rfl).trans hl
  · rw [coreReset_eq h, setSt_dmem, cored_dmem hk, modCore_dmem, cored_dmem hc, release_dmem, wiped_dmem]
  · rw [coreReset_eq h, st_setSt_other _ _ (Fin.val_ne_of_ne hl), cored_st hk, st_modCore, cored_st hc, release_st, wiped_st]
  · rw [coreReset_eq h, pc_setSt, cored_pc hk, State.pc, core_modCore_ne _ _ (Fin.val_ne_of_ne hl), ← State.pc, cored_pc hc, release_pc, wiped_pc]

/-! ### STOP by the state of the core (R44, R46, R72) -/

theorem stop_armed (h : s.st k = 3) : s.stop k = (s.release k).halt k := by simp only [State.stop, h]

theorem stop_running (h : s.st k ∈ [4, 5, 6, 7, 8]) (hb : (s.core k).blocked = false) : s.stop k = (s.unadmit k).halt k := by
  unfold State.stop
  simp only [List.mem_cons, List.not_mem_nil, or_false] at h
  rcases h with h | h | h | h | h <;> simp [h, hb]

theorem stop_later (h : s.st k ∈ [5, 6, 7, 8]) (hb : (s.core k).blocked = true) :
    s.stop k = s.modCore k fun c => { c with stopLater := true } := by
  unfold State.stop
  simp only [List.mem_cons, List.not_mem_nil, or_false] at h
  rcases h with h | h | h | h <;> simp [h, hb]

theorem stop_ignored (h : s.st k ∉ [3, 4, 5, 6, 7, 8]) : s.stop k = s.ignoreCmd k := by
  unfold State.stop
  simp only [List.mem_cons, List.not_mem_nil, or_false, not_or] at h
  obtain ⟨h3, h4, h5, h6, h7, h8⟩ := h
  split
  · exact absurd ‹s.st k = 3› h3
  · exact absurd ‹s.st k = 4› h4
  · exact absurd ‹s.st k = 5› h5
  · exact absurd ‹s.st k = 6› h6
  · exact absurd ‹s.st k = 7› h7
  · exact absurd ‹s.st k = 8› h8
  · rfl

/-- What STOP leaves of a core that takes it. -/
structure StopLeaves (s t : State) (k : Fin 64) : Prop where
  halts : Halts s t k 2
  greg : ∀ r, t.greg k r = s.greg k r
  stalled : (t.core k).stalled = none
  blocked : (t.core k).blocked = false
  admitted : t.f F.CORE_BUDGET_ADMIT k = if s.st k ≠ 3 ∧ (s.core k).resv.isSome then 1 else 0
  queue : (t.voice k).queue = if s.on F.CORE_CTL_FLUSH k then (s.voice k).queue.filter (·.committed) else (s.voice k).queue

/-- A core whose admission or reservation ended, and that then halts. -/
theorem stopLeaves_of_halt {u : State} {n : Nat} (ho : OthersStay s u k) (hpc : u.pc k = s.pc k) (hg : ∀ r, u.greg k r = s.greg k r)
    (hv : u.voices = s.voices) (hf : u.f F.CORE_CTL_FLUSH k = s.f F.CORE_CTL_FLUSH k) (ha : u.f F.CORE_BUDGET_ADMIT k = n)
    (hn : n = if s.st k ≠ 3 ∧ (s.core k).resv.isSome then 1 else 0) : StopLeaves s (u.halt k) k := by
  obtain ⟨⟨h2, hpc', hh⟩, hg', hs, hb, hx, hq⟩ := halt_stops u k
  refine ⟨⟨h2, hpc'.trans hpc, ho.trans hh⟩, fun r => (hg' r).trans (hg r), hs, hb, ?_, ?_⟩
  · rw [hx _ (by decide), ha, hn]
  · rw [hq, State.on, hf, State.voice, hv]; rfl

theorem stop_leaves (h : s.st k ∈ [3, 4, 5, 6, 7, 8]) (hb : (s.core k).blocked = false) : StopLeaves s (s.stop k) k := by
  by_cases h3 : s.st k = 3
  · rw [stop_armed h3]
    refine stopLeaves_of_halt (fun l _ => ⟨release_st .., release_pc ..⟩) (release_pc ..) (greg_release s k k) (release_voices ..)
      (f_release_ne _ _ _ (by decide)) (release_admit ..) (if_neg fun hn => hn.1 h3).symm
  · rw [stop_running ((List.mem_cons.1 h).resolve_left h3) hb]
    refine stopLeaves_of_halt (unadmit_others s k) (congrArg CoreSt.pc (unadmit_core s k k)) (greg_unadmit s k k) (unadmit_voices ..)
      (f_unadmit_ne _ _ _ (by decide)) (unadmit_admit ..) ?_
    simp [h3]

/-! ### STEP (R44, R377) -/

theorem stepCore_performs {e ecc : Ecc} {o : CoreOp} (h2 : s.st k = 2) (hpc : s.pc k < s.textWords k) (he : e.bad = false)
    (hd : decodeCore (s.rw .CORE_IMEM k (s.pc k)).toNat = .op o) :
    s.stepCore k e ecc = ((s.fetched k e).perform k true o ecc).apply k := by
  rw [State.stepCore, if_pos h2, State.runOne, fetch_word hpc he, hd]
  exact if_pos (.inl rfl)

theorem stepCore_rr {e ecc : Ecc} {f : RR} {d a b : Fin 32} (h2 : s.st k = 2) (hpc : s.pc k < s.textWords k) (he : e.bad = false)
    (hd : decodeCore (s.rw .CORE_IMEM k (s.pc k)).toNat = .op (.rr f d a b)) :
    (s.stepCore k e ecc).st k = 2 ∧ (s.stepCore k e ecc).pc k = s.pc k + 1 ∧
      (s.stepCore k e ecc).greg k d = (if d = 0 then 0 else f.eval (s.greg k a) (s.greg k b)) ∧ OthersStay s (s.stepCore k e ecc) k := by
  have hp : s.stepCore k e ecc = ((s.fetched k e).setGreg k d (f.eval (s.greg k a) (s.greg k b))).setPc k (s.pc k + 1) := by
    rw [stepCore_performs h2 hpc he hd, State.perform, fetched_greg, fetched_greg, State.result, CoreRes.apply, fetched_pc]
  rw [hp]
  refine ⟨?_, pc_setPc_same .., ?_, ?_⟩
  · rw [setPc_st, st_setGreg, fetched_st, h2]
  · rw [setPc_greg, greg_setGreg_same]
  · exact (othersStay_fetched s k e).trans ((othersStay_setGreg _ k _ _).trans (othersStay_setPc _ k _))

/-- Under STEP, an emission that meets a full queue does nothing. -/
theorem stepCore_full {e ecc : Ecc} {a : Fin 32} (h2 : s.st k = 2) (hpc : s.pc k < s.textWords k) (he : e.bad = false) (hq : 32 ≤ s.qfill k)
    (hd : decodeCore (s.rw .CORE_IMEM k (s.pc k)).toNat = .op (.setf a)) : s.stepCore k e ecc = s.fetched k e := by
  have hq : ¬ (s.fetched k e).qfill k < 32 := by rw [State.qfill, fetched_voice]; exact Nat.not_lt.2 hq
  rw [stepCore_performs h2 hpc he hd, State.perform, State.emitIf, if_neg (by simp [Desc.inBody]), State.emit, if_neg hq, if_pos rfl, CoreRes.apply]

end

end Sys2Proof.Machine
end

section
/-! PROOFS. Commands to a core as writes of CORE_CTL (O16; R44 to R47, R377). -/

namespace Sys2Proof.Machine

/-! ### The word written (R45) -/

theorem toNat_force (w : Word) {hi lo v : Nat} (hh : hi < 64) (hl : lo ≤ hi + 1) : (force w hi lo v).toNat = setBits w.toNat hi lo v := by
  rw [force, BitVec.toNat_ofNat, Nat.mod_eq_of_lt (setBits_lt w.isLt hh hl)]

theorem bit_eq_bits (n b : Nat) : bit n b = (bits n b b == 1) := by
  simp [bit, bits]

/-- A command bit of a word that carries command b alone. -/
theorem bit_force {w : Word} (hw : bits w.toNat 6 1 = 0) (b : Nat) (hb : 1 ≤ b ∧ b ≤ 6) {i : Nat} (hi : 1 ≤ i ∧ i ≤ 6) :
    bit (force w b b 1).toNat i = (i == b) := by
  have h0 : bit w.toNat i = false := by
    obtain ⟨h1, h6⟩ := hi
    simp only [bits] at hw
    simp only [bit]
    interval_cases i <;> simp <;> omega
  rw [toNat_force w (by omega) (by omega), bit_eq_bits]
  rcases Nat.lt_trichotomy i b with h | h | h
  · rw [bits_setBits_below _ _ h, ← bit_eq_bits, h0, beq_false_of_ne (by omega)]
  · subst h; rw [bits_setBits_same]; simp
  · rw [bits_setBits_above _ _ h (by omega), ← bit_eq_bits, h0, beq_false_of_ne (by omega)]

/-- The bits of CORE_CTL that a write stores read as written, from FLUSH on (R9, R52). -/
theorem bits_storedCtl (old : Word) {w : Word} {b hi lo : Nat} (hb : b ≤ 6) (hlo : 7 ≤ lo) (hh : hi < 64) :
    bits (storedWord (Reg.CORE_CTL).spec old (force w b b 1)).toNat hi lo = bits w.toNat hi lo := by
  have hs : bits (force w b b 1).toNat hi lo = bits w.toNat hi lo := by
    rw [toNat_force w (by omega) (by omega), bits_setBits_above _ _ (by omega) (by omega)]
  rw [← hs]
  generalize force w b b 1 = x
  refine Nat.eq_of_testBit_eq fun i => ?_
  simp only [bits, Nat.testBit_mod_two_pow, Nat.testBit_div_two_pow]
  by_cases hi' : i < hi + 1 - lo
  · have h64 : i + lo < 64 := by omega
    have ht := bit_storedWord (Reg.CORE_CTL).spec old x ⟨i + lo, h64⟩
    have hm : ∀ n : Fin 64, 7 ≤ n.val → bit (Reg.CORE_CTL).spec.rwl n = true := by decide
    have hc : ∀ n : Fin 64, bit (Reg.CORE_CTL).spec.w1c n = false := by decide
    simp only [hm ⟨i + lo, h64⟩ (by simp; omega), hc ⟨i + lo, h64⟩, bit_eq_testBit] at ht
    simp only [hi', decide_true, Bool.true_and]
    simpa using ht
  · simp [hi']

/-! ### What a write of CORE_CTL does (R45) -/

/-- Command b of CORE_CTL on core k. -/
def State.command (s : State) (b k : Nat) (e ecc : Ecc) : State :=
  match b with
  | 1 => s.arm k
  | 2 => s.hostStart k
  | 3 => s.stop k
  | 4 => s.resume k
  | 5 => s.coreReset k
  | _ => s.stepCore k e ecc

theorem coreCtl_command (s : State) {w : Word} (hw : bits w.toNat 6 1 = 0) {b : Nat} (hb : 1 ≤ b ∧ b ≤ 6) (k : Nat) (e ecc : Ecc) :
    s.coreCtl k (force w b b 1).toNat e ecc = s.command b k e ecc := by
  have h := fun i hi => bit_force hw b hb (i := i) hi
  unfold State.coreCtl
  rw [h 5 (by decide), h 3 (by decide), h 1 (by decide), h 4 (by decide), h 6 (by decide), h 2 (by decide)]
  obtain ⟨h1, h6⟩ := hb
  interval_cases b <;> simp [State.command]

theorem ofOffset_coreCtl : ∀ k : Fin 64, Reg.ofOffset (Reg.CORE_CTL.addr k 0) = some (.CORE_CTL, k.val, 0) := by decide

/-- The machine in which a command finds core k: START_SRC and FLUSH are stored, and no half of an access of q is held. -/
def State.told (s : State) (q : Requester) (k : Nat) (w : Word) : State := (s.unshadowed q).wrote .CORE_CTL k 0 w

/-- A command that is admitted takes effect, and beside it only the records of reserved fields. -/
theorem command_noted {s : State} {q : Requester} {w : Word} {k : Fin 64} {b : Nat} (e ecc : Ecc) (hw : bits w.toNat 6 1 = 0) (hb : 1 ≤ b ∧ b ≤ 6)
    (ha : Admits s q .CORE_CTL k 0 (force w b b 1)) :
    Noted ((s.told q k (force w b b 1)).command b k e ecc) (s.put q (Reg.CORE_CTL.addr k 0) (force w b b 1) e ecc) := by
  obtain ⟨hbound, hact, hc, hcore, hstop, -, hlow⟩ := ha
  have hr : Reaches (s.unshadowed q) q (Reg.CORE_CTL.addr k 0) .CORE_CTL k 0 := ⟨hbound, hact, ofOffset_coreCtl k⟩
  have hn := busWrite_noted (v := force w b b 1) (c := none) e ecc hr (by rw [unshadowed_checkWrite, hc]) hcore hstop
  rw [State.put, nextAccess_of_no_low hlow, ← coreCtl_command _ hw hb]
  exact hn

/-! ### What a command finds -/

theorem reshadowed_rtFits (s : State) (a b : List (Nat × Option (Nat × Half))) (k : Nat) : (s.reshadowed a b).rtFits k = s.rtFits k := by
  unfold State.rtFits State.reserved State.resvOf State.phaseMax
  rfl

theorem reshadowed_armCode (s : State) (a b : List (Nat × Option (Nat × Half))) (k : Nat) : (s.reshadowed a b).armCode k = s.armCode k := by
  unfold State.armCode
  rw [reshadowed_rtFits]
  rfl

section
variable (s : State) (q : Requester) (k : Fin 64) (w : Word) (l : Nat)

theorem told_f (x : Fld) (hx : x.reg ∈ coreRegs) (hn : x.reg ≠ .CORE_CTL) : (s.told q k w).f x l = s.f x l :=
  f_setRw_ne (s.unshadowed q) _ (addr_core_ne hx (by decide) (coreRegs_spec _ hx).2.2.2.1 (by decide) (.inl hn))

/-- What a command finds differs from s in registers and shadows alone. -/
theorem told_only : s.told q k w = { s with regs := (s.told q k w).regs, bus := (s.told q k w).bus } := by
  rw [State.told, State.wrote]
  generalize storedWord Reg.CORE_CTL.spec ((s.unshadowed q).rw .CORE_CTL k 0) w = x
  rfl

@[simp] theorem told_cores : (s.told q k w).cores = s.cores := by rw [told_only]
@[simp] theorem told_voices : (s.told q k w).voices = s.voices := by rw [told_only]
@[simp] theorem told_dmem : (s.told q k w).dmem = s.dmem := by rw [told_only]
@[simp] theorem told_time : (s.told q k w).time = s.time := by rw [told_only]
@[simp] theorem told_core : (s.told q k w).core l = s.core l := by rw [State.core, told_cores]; rfl
@[simp] theorem told_pc : (s.told q k w).pc l = s.pc l := congrArg CoreSt.pc (told_core s q k w l)
@[simp] theorem told_voice : (s.told q k w).voice l = s.voice l := by rw [State.voice, told_voices]; rfl
@[simp] theorem told_now : (s.told q k w).now = s.now := by unfold State.now; rw [told_time]
@[simp] theorem told_st : (s.told q k w).st l = s.st l := told_f s q k w l _ (by decide) (by decide)

theorem told_greg (r : Fin 32) : (s.told q k w).greg l r = s.greg l r := by
  unfold State.greg
  split
  · rfl
  · exact rw_setRw_ne (s.unshadowed q) _ (addr_core_ne (by decide) (by decide) r.isLt (by decide) (.inl (by decide)))

theorem told_image : SameImage s (s.told q k w) k := by
  obtain ⟨h1, h2, h3⟩ := sameImage_setRw (s.unshadowed q) (r := .CORE_CTL) (by decide) (by decide)
    (storedWord Reg.CORE_CTL.spec ((s.unshadowed q).rw .CORE_CTL k) w) k
  exact ⟨h1, h2, h3⟩

theorem told_eq : s.told q k w = (s.wrote .CORE_CTL k 0 w).reshadowed (s.unshadowed q).bus.reads (s.unshadowed q).bus.writes := by
  rw [State.told, State.wrote, State.wrote, show (s.unshadowed q).rw .CORE_CTL k 0 = s.rw .CORE_CTL k 0 from rfl]
  generalize storedWord Reg.CORE_CTL.spec (s.rw .CORE_CTL k 0) w = x
  rfl

theorem told_armCode : (s.told q k w).armCode k = (s.wrote .CORE_CTL k 0 w).armCode k := by rw [told_eq, reshadowed_armCode]

theorem told_startTime : (s.told q k w).startTime k = s.startTime k := by
  unfold State.startTime State.at
  rw [told_f _ _ _ _ _ _ (by decide) (by decide), told_f _ _ _ _ _ _ (by decide) (by decide)]

theorem told_imem (i : Nat) : (s.told q k w).rw .CORE_IMEM k i = s.rw .CORE_IMEM k i := by
  refine rw_setRw_ne (s.unshadowed q) _ ?_
  rw [show Reg.CORE_IMEM.addr k i = 0x400000 + k * 0x10000 + i * 8 from rfl, show Reg.CORE_CTL.addr k 0 = 0x200000 + k * 0x8000 + 0 from rfl]
  omega

theorem told_ctl {b hi lo : Nat} (hb : b ≤ 6) (hlo : 7 ≤ lo) (hh : hi < 64) :
    (s.told q k (force w b b 1)).f ⟨.CORE_CTL, hi, lo⟩ k = bits w.toNat hi lo := by
  refine Eq.trans ?_ (bits_storedCtl ((s.unshadowed q).rw .CORE_CTL k) hb hlo hh)
  exact congrArg (fun x : Word => bits x.toNat hi lo) (rw_setRw_same ..)

theorem told_others : OthersStay s (s.told q k w) k := fun _ _ => ⟨told_st .., told_pc ..⟩

end

section
variable {s t u : State} {k : Fin 64}

/-- The records of reserved fields leave the cores. -/
theorem Noted.cored (h : Noted u t) : t.cored = u.cored := by
  have h1 : Reg.GLB_STATUS.addr 0 0 < 0x200000 := by decide
  have h2 : Reg.GLB_RSVD_LAST.addr 0 0 < 0x200000 := by decide
  exact cored_of_recorded u h.recorded fun o ho => h.word o (by omega) (by omega)

theorem Noted.voice (h : Noted u t) (v : Nat) : t.voice v = u.voice v := by rw [State.voice, h.recorded.voices]; rfl

theorem Noted.halts {n : Nat} (h : Noted u t) (hu : Halts s u k n) : Halts s t k n := by
  obtain ⟨hst, hpc, ho⟩ := hu
  exact ⟨(cored_st h.cored k).trans hst, (cored_pc h.cored k).trans hpc, ho.trans (othersStay_of_cored h.cored)⟩

end

/-! ### Each command (R44 to R47) -/

section
variable {s : State} {q : Requester} {w : Word} {k : Fin 64}

theorem told_f_wrote (w : Word) (x : Fld) (i j : Nat) : (s.told q k w).f x i j = (s.wrote .CORE_CTL k 0 w).f x i j := by rw [told_eq]; rfl

theorem told_startSrc {b : Nat} (hb : b ≤ 6) : (s.told q k (force w b b 1)).f F.CORE_CTL_START_SRC k = bits w.toNat 9 8 :=
  told_ctl s q k w hb (by decide) (by decide)

theorem told_flush {b : Nat} (hb : b ≤ 6) : (s.told q k (force w b b 1)).on F.CORE_CTL_FLUSH k = bit w.toNat 7 := by
  have hf : (s.told q k (force w b b 1)).f F.CORE_CTL_FLUSH k = bits w.toNat 7 7 := told_ctl s q k w hb (by decide) (by decide)
  have h2 : bits w.toNat 7 7 < 2 := bits_lt ..
  rw [State.on, hf, bit_eq_bits]
  interval_cases bits w.toNat 7 7 <;> rfl

theorem armCode_lt (s : State) (k : Nat) : s.armCode k < 16 := by
  have hi : ∀ {c : Prop} [Decidable c] {a b : Nat}, a < 16 → b < 16 → (if c then a else b) < 16 := fun ha hb => by split <;> assumption
  unfold State.armCode
  iterate 11 refine hi (by decide) ?_
  decide

/-- A command that core k ignores in its state, told by CMD_IGNORED. -/
theorem command_ignored {b : Nat} {t : State} {w' : Word} {e ecc : Ecc} (hn : Noted ((s.told q k w').command b k e ecc) t)
    (hi : (s.told q k w').command b k e ecc = (s.told q k w').ignoreCmd k) : t.st k = s.st k ∧ t.on F.CORE_STATUS_CMD_IGNORED k = true := by
  obtain ⟨h1, h2⟩ := ignoreCmd_leaves (s.told q k w') k
  rw [hi] at hn
  exact ⟨(cored_st hn.cored k).trans (h1.trans (told_st ..)), by rw [State.on, cored_f hn.cored _ k 0 (by decide)]; exact h2⟩

/-- What an ARM that passes leaves, in terms of the machine before the write. -/
theorem ArmLeaves.of_told {w' : Word} {t : State} (h : ArmLeaves (s.told q k w') t k) : ArmLeaves s t k := by
  have hi := told_image s q k w'
  have hc : (s.told q k w').hdrClass k = s.hdrClass k := hi.hdr ..
  have hm := hi.resvOf_mw
  obtain ⟨h1, h2, h3, h4, h5, h6, h7, h8⟩ := h
  refine ⟨h1, h2.trans (hi.hdr ..), h3, h4.trans hc, h5, fun h0 => ?_, fun h0 => ?_, (told_others s q k w').trans h8⟩
  · obtain ⟨ha, hr⟩ := h6 (hc.trans h0)
    exact ⟨ha, by rw [hr, ← hm]; rfl⟩
  · rw [h7 (hc ▸ h0), told_core]

theorem ArmLeaves.of_noted {u t : State} (hn : Noted u t) (h : ArmLeaves s u k) : ArmLeaves s t k := by
  have hc := hn.cored
  have hf := fun x (hx : x.reg ∈ coreRegs) => cored_f hc x k 0 hx
  obtain ⟨h1, h2, h3, h4, h5, h6, h7, h8⟩ := h
  refine ⟨(cored_st hc k).trans h1, (cored_pc hc k).trans h2, (hf _ (by decide)).trans h3, (hf _ (by decide)).trans h4, (hf _ (by decide)).trans h5,
    fun h0 => ?_, fun h0 => (hf _ (by decide)).trans (h7 h0), h8.trans (othersStay_of_cored hc)⟩
  rw [hf _ (by decide), hf _ (by decide)]
  exact h6 h0

section
variable (hw : bits w.toNat 6 1 = 0)
include hw

section
variable (ha : Admits s q .CORE_CTL k 0 (force w 1 1 1))
include ha

theorem arm_completes (h2 : s.st k = 2) (hc : (s.wrote .CORE_CTL k 0 (force w 1 1 1)).armCode k = 0)
    (hs : ¬ ((s.wrote .CORE_CTL k 0 (force w 1 1 1)).f F.CORE_CTL_START_SRC k = 2 ∧ s.startTime k < s.now)) :
    Gives (exec (.arm k q w) s) fun t => ArmLeaves s t k :=
  ⟨_, rfl, .of_noted (command_noted .clean .clean hw (by decide) ha)
    (.of_told (arm_arms ((told_st ..).trans h2) ((told_armCode ..).trans hc) (by rwa [told_f_wrote, told_startTime, told_now])))⟩

theorem arm_rejects (h2 : s.st k = 2) (hc : (s.wrote .CORE_CTL k 0 (force w 1 1 1)).armCode k ≠ 0) :
    Gives (exec (.arm k q w) s) fun t =>
      t.st k = 2 ∧ t.f F.CORE_STATUS_ARM_ERR k = (s.wrote .CORE_CTL k 0 (force w 1 1 1)).armCode k ∧ t.pc k = s.pc k := by
  have hn := command_noted .clean .clean hw (by decide) ha
  have h2' : (s.told q k (force w 1 1 1)).st k = 2 := (told_st ..).trans h2
  rw [State.command, arm_refuses h2' (by rwa [told_armCode]), told_armCode] at hn
  refine ⟨_, rfl, ?_, ?_, ?_⟩
  · rw [cored_st hn.cored, State.st, f_setF_core_ne _ _ (by decide)]; exact (told_st ..).trans h2
  · rw [cored_f hn.cored _ _ _ (by decide), f_setF_core_fits _ _ (by decide) (armCode_lt _ _)]
  · rw [cored_pc hn.cored, setF_pc, told_pc]

theorem arm_ignored (h2 : s.st k ≠ 2) :
    Gives (exec (.arm k q w) s) fun t => t.st k = s.st k ∧ t.on F.CORE_STATUS_CMD_IGNORED k = true :=
  ⟨_, rfl, command_ignored (command_noted .clean .clean hw (by decide) ha) (if_pos (by rwa [told_st]))⟩

end

section
variable (ha : Admits s q .CORE_CTL k 0 (force w 2 2 1))
include ha

theorem start_noted (h0 : bits w.toNat 9 8 = 0) : Noted ((s.told q k (force w 2 2 1)).startSource k)
    (s.put q (Reg.CORE_CTL.addr k 0) (force w 2 2 1) .clean .clean) := by
  have hn := command_noted .clean .clean hw (by decide) ha
  rwa [State.command, State.hostStart, if_pos ((told_startSrc (by decide)).trans h0)] at hn

theorem start_moves (h0 : bits w.toNat 9 8 = 0) (h3 : s.st k = 3) :
    Gives (exec (.start k q w) s) fun t => Halts s t k (if s.f F.CORE_BUDGET_CLASS k = 0 then 5 else 4) := by
  have hn := start_noted hw ha h0
  rw [State.startSource, if_pos ((told_st ..).trans h3)] at hn
  have hm := startCore_moves (s := s.told q k (force w 2 2 1)) (k := k)
  rw [told_f _ _ _ _ _ _ (by decide) (by decide)] at hm
  obtain ⟨hst, hpc, ho⟩ := hm
  exact ⟨_, rfl, hn.halts ⟨hst, hpc.trans (told_pc ..), (told_others s q k _).trans ho⟩⟩

theorem start_asks (h0 : bits w.toNat 9 8 = 0) (h3 : s.st k = 3) (hc : s.f F.CORE_BUDGET_CLASS k ≠ 0) :
    Gives (exec (.start k q w) s) fun t =>
      t.st k = 4 ∧ t.f F.CORE_BUDGET_ADMIT k = 3 ∧ (k.val ∈ t.power.gov.std ∨ BgTask.core k.val ∈ t.power.gov.bg) := by
  have hn := start_noted hw ha h0
  have hc' : (s.told q k (force w 2 2 1)).f F.CORE_BUDGET_CLASS k ≠ 0 := by rwa [told_f _ _ _ _ _ _ (by decide) (by decide)]
  rw [State.startSource, if_pos ((told_st ..).trans h3), startCore_waits hc'] at hn
  obtain ⟨⟨h4, -, -⟩, hadm, hq⟩ := ask_leaves (s := s.told q k (force w 2 2 1)) (k := k) true
  refine ⟨_, rfl, (cored_st hn.cored k).trans h4, (cored_f hn.cored _ k 0 (by decide)).trans hadm, ?_⟩
  rw [hn.recorded.power]
  exact hq

theorem start_missed (h0 : bits w.toNat 9 8 = 0) (h3 : s.st k ≠ 3) :
    Gives (exec (.start k q w) s) fun t => t.st k = s.st k ∧ t.on F.CORE_STATUS_START_MISS k = true := by
  have hn := start_noted hw ha h0
  rw [State.startSource, if_neg (by rwa [told_st])] at hn
  refine ⟨_, rfl, (cored_st hn.cored k).trans ((st_flag _ k k (by decide)).trans (told_st ..)), ?_⟩
  rw [State.on, cored_f hn.cored _ k 0 (by decide)]
  exact on_flag _ k (by decide)

theorem start_ignored (h0 : bits w.toNat 9 8 ≠ 0) :
    Gives (exec (.start k q w) s) fun t => t.st k = s.st k ∧ t.on F.CORE_STATUS_CMD_IGNORED k = true :=
  ⟨_, rfl, command_ignored (command_noted .clean .clean hw (by decide) ha) (if_neg (by rwa [told_startSrc (by decide)]))⟩

end

section
variable (ha : Admits s q .CORE_CTL k 0 (force w 3 3 1))
include ha

theorem stop_halts (h : s.st k ∈ [3, 4, 5, 6, 7, 8]) (hb : (s.core k).blocked = false) :
    Gives (exec (.stop k q w) s) fun t => Halts s t k 2 ∧ (∀ r, t.greg k r = s.greg k r) ∧ (t.core k).stalled = none ∧
      t.f F.CORE_BUDGET_ADMIT k = (if s.st k ≠ 3 ∧ (s.core k).resv.isSome then 1 else 0) ∧
      (t.voice k).queue = if bit w.toNat 7 then (s.voice k).queue.filter (·.committed) else (s.voice k).queue := by
  have hn := command_noted .clean .clean hw (by decide) ha
  obtain ⟨⟨hst, hpc, ho⟩, hg, hs, -, hadm, hq⟩ := stop_leaves (s := s.told q k (force w 3 3 1)) (k := k) (by rwa [told_st]) (by rwa [told_core])
  refine ⟨_, rfl, hn.halts ⟨hst, hpc.trans (told_pc ..), (told_others s q k _).trans ho⟩, fun r => ?_, ?_, ?_, ?_⟩
  · exact (cored_greg hn.cored k r).trans ((hg r).trans (told_greg ..))
  · exact (congrArg CoreSt.stalled (cored_core hn.cored k)).trans hs
  · rw [cored_f hn.cored _ k 0 (by decide)]
    exact hadm.trans (by rw [told_st, told_core])
  · rw [hn.voice]
    exact hq.trans (by rw [told_flush (by decide), told_voice])

theorem stop_waits (h : s.st k ∈ [5, 6, 7, 8]) (hb : (s.core k).blocked = true) :
    Gives (exec (.stop k q w) s) fun t => t.st k = s.st k ∧ (t.core k).stopLater = true := by
  have hn := command_noted .clean .clean hw (by decide) ha
  rw [State.command, stop_later (by rwa [told_st]) (by rwa [told_core])] at hn
  refine ⟨_, rfl, (cored_st hn.cored k).trans ((st_modCore ..).trans (told_st ..)), ?_⟩
  rw [cored_core hn.cored, core_modCore_same]

theorem stop_ignores (h : s.st k ∉ [3, 4, 5, 6, 7, 8]) :
    Gives (exec (.stop k q w) s) fun t => t.st k = s.st k ∧ t.on F.CORE_STATUS_CMD_IGNORED k = true :=
  ⟨_, rfl, command_ignored (command_noted .clean .clean hw (by decide) ha) (stop_ignored (by rwa [told_st]))⟩

end

section
variable (ha : Admits s q .CORE_CTL k 0 (force w 4 4 1))
include ha

theorem resume_completes (h2 : s.st k = 2) :
    Gives (exec (.resume k q w) s) fun t => Halts s t k (if s.f F.CORE_BUDGET_CLASS k = 0 then 5 else 4) := by
  have hn := command_noted .clean .clean hw (by decide) ha
  have hm := resume_moves (s := s.told q k (force w 4 4 1)) (k := k) ((told_st ..).trans h2)
  rw [told_f _ _ _ _ _ _ (by decide) (by decide)] at hm
  obtain ⟨hst, hpc, ho⟩ := hm
  exact ⟨_, rfl, hn.halts ⟨hst, hpc.trans (told_pc ..), (told_others s q k _).trans ho⟩⟩

theorem resume_asks (h2 : s.st k = 2) (hc : s.f F.CORE_BUDGET_CLASS k ≠ 0) :
    Gives (exec (.resume k q w) s) fun t => t.st k = 4 ∧ t.pc k = s.pc k ∧ t.f F.CORE_BUDGET_ADMIT k = 3 := by
  have hn := command_noted .clean .clean hw (by decide) ha
  have hc' : (s.told q k (force w 4 4 1)).f F.CORE_BUDGET_CLASS k ≠ 0 := by rwa [told_f _ _ _ _ _ _ (by decide) (by decide)]
  rw [State.command, resume_waits ((told_st ..).trans h2) hc'] at hn
  obtain ⟨⟨h4, hpc, -⟩, hadm, -⟩ := ask_leaves (s := s.told q k (force w 4 4 1)) (k := k) false
  exact ⟨_, rfl, (cored_st hn.cored k).trans h4, (cored_pc hn.cored k).trans (hpc.trans (told_pc ..)),
    (cored_f hn.cored _ k 0 (by decide)).trans hadm⟩

theorem resume_ignored (h2 : s.st k ≠ 2) :
    Gives (exec (.resume k q w) s) fun t => t.st k = s.st k ∧ t.on F.CORE_STATUS_CMD_IGNORED k = true :=
  ⟨_, rfl, command_ignored (command_noted .clean .clean hw (by decide) ha) (if_pos (by rwa [told_st]))⟩

end

section
variable (ha : Admits s q .CORE_CTL k 0 (force w 5 5 1))
include ha

theorem reset_completes (h : s.st k ∈ [2, 9, 10]) : Gives (exec (.reset k q w) s) fun t => ResetLeaves s t k := by
  have hn := command_noted .clean .clean hw (by decide) ha
  have hi : (s.told q k (force w 5 5 1)).hdrEntry k = s.hdrEntry k := (told_image s q k _).hdr ..
  obtain ⟨h1, h2, h3, h4, h5, h6, h7, h8, h9, h10, h11⟩ := coreReset_leaves (s := s.told q k (force w 5 5 1)) (k := k) (by rwa [told_st])
  have hf := fun x (hx : x.reg ∈ coreRegs) => cored_f hn.cored x k 0 hx
  refine ⟨_, rfl, (cored_st hn.cored k).trans h1, ?_, fun r => (cored_greg hn.cored k r).trans (h3 r), (hf _ (by decide)).trans h4,
    (hf _ (by decide)).trans h5, (hf _ (by decide)).trans h6, (hf _ (by decide)).trans h7, ?_, ?_, ?_, ?_⟩
  · exact (cored_core hn.cored k).trans (h2.trans (by rw [hi]))
  · rw [hn.voice]; exact h8.trans (by rw [told_voice])
  · rw [hn.voice]; exact h9
  · exact (cored_dmem hn.cored).trans (h10.trans (told_dmem ..))
  · exact (told_others s q k _).trans (h11.trans (othersStay_of_cored hn.cored))

theorem reset_ignored (h : s.st k ∉ [2, 9, 10]) :
    Gives (exec (.reset k q w) s) fun t => t.st k = s.st k ∧ t.on F.CORE_STATUS_CMD_IGNORED k = true :=
  ⟨_, rfl, command_ignored (command_noted .clean .clean hw (by decide) ha) (if_neg (by
    rw [told_st]
    simpa only [List.mem_cons, List.not_mem_nil, or_false] using h))⟩

end

section
variable {e ecc : Ecc} (ha : Admits s q .CORE_CTL k 0 (force w 6 6 1))
include ha

theorem step_rr {f : RR} {d a b : Fin 32} (h2 : s.st k = 2) (hpc : s.pc k < s.textWords k) (he : e.bad = false)
    (hd : decodeCore (s.rw .CORE_IMEM k (s.pc k)).toNat = .op (.rr f d a b)) :
    Gives (exec (.step k q w e ecc) s) fun t => t.st k = 2 ∧ t.pc k = s.pc k + 1 ∧
      t.greg k d = (if d = 0 then 0 else f.eval (s.greg k a) (s.greg k b)) ∧ OthersStay s t k := by
  have hn := command_noted e ecc hw (by decide) ha
  have ht : (s.told q k (force w 6 6 1)).textWords k = s.textWords k := congrArg (· / 8) ((told_image s q k _).hdr ..)
  obtain ⟨hst, hp, hg, ho⟩ := stepCore_rr (s := s.told q k (force w 6 6 1)) (k := k) (ecc := ecc) ((told_st ..).trans h2)
    (by rwa [told_pc, ht]) he (by rwa [told_pc, told_imem])
  rw [told_greg, told_greg] at hg
  exact ⟨_, rfl, (cored_st hn.cored k).trans hst, (cored_pc hn.cored k).trans (hp.trans (by rw [told_pc])), (cored_greg hn.cored k d).trans hg,
    (told_others s q k _).trans (ho.trans (othersStay_of_cored hn.cored))⟩

theorem step_full {a : Fin 32} (h2 : s.st k = 2) (hpc : s.pc k < s.textWords k) (he : e.bad = false) (hq : 32 ≤ s.qfill k)
    (hd : decodeCore (s.rw .CORE_IMEM k (s.pc k)).toNat = .op (.setf a)) :
    Gives (exec (.step k q w e ecc) s) fun t => t.st k = 2 ∧ t.pc k = s.pc k ∧ t.voices = s.voices := by
  have hn := command_noted e ecc hw (by decide) ha
  have ht : (s.told q k (force w 6 6 1)).textWords k = s.textWords k := congrArg (· / 8) ((told_image s q k _).hdr ..)
  rw [State.command, stepCore_full (ecc := ecc) ((told_st ..).trans h2) (by rwa [told_pc, ht]) he (by rwa [State.qfill, told_voice])
    (by rwa [told_pc, told_imem])] at hn
  · refine ⟨_, rfl, ?_, ?_, ?_⟩
    · rw [cored_st hn.cored, fetched_st, told_st, h2]
    · rw [cored_pc hn.cored, fetched_pc, told_pc]
    · rw [hn.recorded.voices, fetched_voices, told_voices]
  all_goals decide

theorem step_ignored (h2 : s.st k ≠ 2) :
    Gives (exec (.step k q w e ecc) s) fun t => t.st k = s.st k ∧ t.on F.CORE_STATUS_CMD_IGNORED k = true :=
  ⟨_, rfl, command_ignored (command_noted e ecc hw (by decide) ha) (if_neg (by rwa [told_st]))⟩

end

end

end

/-- Settles O16: a command that is admitted does what its own rule says, for each state of the core. -/
theorem coreControl : Obligations.CoreControl := by
  refine ⟨fun k q w s hw => ⟨fun ha => ⟨fun h2 hc hs => ?_, arm_rejects hw ha, arm_ignored hw ha⟩,
    fun ha h0 => ⟨fun h3 hc => ?_, start_asks hw ha h0, start_missed hw ha h0⟩, start_ignored hw⟩,
    fun k q w e ecc d a b s hw => ⟨fun ha => ⟨fun h hb => ?_, stop_waits hw ha, stop_ignores hw ha⟩,
      fun ha => ⟨fun h2 hc => ?_, resume_asks hw ha, resume_ignored hw ha⟩, fun ha => ⟨fun h => ?_, reset_ignored hw ha⟩,
      fun ha => ⟨fun h2 hpc he hd hdec => ?_, step_full hw ha, step_ignored hw ha⟩⟩⟩
  · obtain ⟨t, ht, hl⟩ := arm_completes hw ha h2 hc hs
    refine ⟨t, ht, hl.st, hl.pc, hl.err, hl.cls, hl.phase, hl.rt, fun h0 hr => ?_, fun r h0 hr => ?_⟩
    · rw [hl.other h0, hr]; rfl
    · rw [hl.other h0, hr]; rfl
  · obtain ⟨t, ht, hst, hpc, -⟩ := start_moves hw ha h0 h3
    exact ⟨t, ht, hst.trans (if_pos hc), hpc⟩
  · obtain ⟨t, ht, ⟨hst, hpc, -⟩, hg, hs, hadm, hq⟩ := stop_halts hw ha h hb
    refine ⟨t, ht, hst, hpc, hg, hs, fun hr => ?_, fun r h3 hr => ?_, hq⟩
    · rw [hadm, if_neg]
      rintro ⟨h3, hsome⟩
      rw [hr.resolve_left h3] at hsome
      cases hsome
    · rw [hadm, hr, if_pos ⟨h3, rfl⟩]
  · obtain ⟨t, ht, hst, hpc, -⟩ := resume_completes hw ha h2
    exact ⟨t, ht, hst.trans (if_pos hc), hpc⟩
  · obtain ⟨t, ht, hl⟩ := reset_completes hw ha h
    have hcore : ∀ {α : Type} (p : CoreSt → α), p (t.core k) = p { pc := s.hdrEntry k % 8192 } := fun p => congrArg p hl.core
    exact ⟨t, ht, hl.st, hcore (·.pc), hl.greg, hl.sp, hl.err, hl.code, hl.admitted, hcore (·.ei0.sel), hcore (·.ei1.sel), hcore (·.dtrd), hl.queue,
      hl.level, hl.dmem⟩
  · obtain ⟨t, ht, hst, hp, hg, -⟩ := step_rr hw ha h2 hpc he hdec
    exact ⟨t, ht, hst, hp, hg.trans (if_neg hd)⟩

end Sys2Proof.Machine
end

section
/-! PROOFS. The commands to a core and its blocking instructions complete, and no other core moves (O18). -/

namespace Sys2Proof.Machine

/-! ### What moves no core -/

/-- No core changes its state or its PC from s to t. -/
def CoresStay (s t : State) : Prop := ∀ l, t.st l = s.st l ∧ t.pc l = s.pc l

section
variable {s t u : State}

theorem CoresStay.trans (h : CoresStay s t) (h' : CoresStay t u) : CoresStay s u := fun l =>
  ⟨(h' l).1.trans (h l).1, (h' l).2.trans (h l).2⟩

theorem coresStay_of_cored (h : t.cored = s.cored) : CoresStay s t := fun l => ⟨cored_st h l, cored_pc h l⟩

theorem coresStay_of_same (hr : t.regs = s.regs) (hc : t.cores = s.cores) : CoresStay s t := fun l =>
  ⟨f_congr hr _ _ _, by rw [State.pc, State.core, hc]; rfl⟩

theorem coresStay_setDmem (s : State) (k i : Nat) (w : Word) : CoresStay s (s.setDmem k i w) := coresStay_of_same rfl rfl

theorem coresStay_writeWord (s : State) (d : Bool) (a : Nat) (w : Word) : CoresStay s (s.writeWord d a w) := by
  rw [writeWord_memoryOnly s d a w]
  exact coresStay_of_same rfl rfl

theorem coresStay_forN {f : Nat → State → State} (h : ∀ i t, CoresStay t (f i t)) (n : Nat) (s : State) : CoresStay s (forN n f s) :=
  forN_keeps (P := fun t => CoresStay s t) n (fun i t ht => ht.trans (h i t)) fun _ => ⟨rfl, rfl⟩

theorem coresStay_copyIn (s : State) (k : Nat) (d : Bool) (a dst : Nat) (e : Ecc) (n : Nat) : CoresStay s (s.copyIn k d a dst e n) :=
  coresStay_forN (fun _ t => (coresStay_of_cored (cored_eccEvent t ..)).trans (coresStay_setDmem _ _ _ _)) n s

theorem coresStay_copyOut (s : State) (k : Nat) (d : Bool) (a src n : Nat) : CoresStay s (s.copyOut k d a src n) :=
  coresStay_forN (fun _ t => coresStay_writeWord t _ _ _) n s

/-! ### Buffer instructions (R72, R73) -/

theorem coresStay_coreAlloc (s : State) (k region : Nat) (size : Word) : CoresStay s (s.coreAlloc k region size).2 := by
  unfold State.coreAlloc
  dsimp only
  split
  · exact coresStay_of_cored rfl
  split
  · exact coresStay_of_cored rfl
  split
  · next ha => exact coresStay_of_cored (cored_alloc ha)
  · exact coresStay_of_cored (by rw [cored_drawn, cored_drawn])

theorem coresStay_coreAttach (s : State) (k : Nat) (h : Word) : CoresStay s (s.coreAttach k h).2 := by
  unfold State.coreAttach
  split
  · exact coresStay_of_cored rfl
  split
  · exact coresStay_of_cored rfl
  · exact coresStay_of_cored (cored_holdBy ..)

theorem coresStay_bufGet (s : State) (k : Nat) (h off : Word) (daddr n : Nat) (e : Ecc) : CoresStay s (s.bufGet k h off daddr n e).2 := by
  unfold State.bufGet
  split
  · exact coresStay_copyIn _ _ _ _ _ _ _
  · exact coresStay_of_cored rfl

theorem coresStay_bufPut (s : State) (k : Nat) (h off : Word) (daddr n : Nat) : CoresStay s (s.bufPut k h off daddr n).2 := by
  unfold State.bufPut
  split
  · exact coresStay_copyOut _ _ _ _ _ _
  · exact coresStay_of_cored rfl

end

section
variable {s u : State} {k : Fin 64} {e ecc : Ecc} {o : CoreOp}

/-- Core k is blocked on its instruction, and no other core moved (R72). -/
def Blocks (s t : State) (k : Fin 64) : Prop := (t.core k).blocked = true ∧ t.pc k = s.pc k ∧ t.st k = 5 ∧ OthersStay s t k

/-- An instruction that only blocks its core, once it had an effect that moves no core. -/
theorem blocks_of_stay (h : Issues s k e o) (hp : (s.fetched k e).perform k false o ecc = u.blockOn k false) (hu : CoresStay (s.fetched k e) u) :
    Gives (s.issue k e o ecc) fun t => Blocks s t k := by
  refine issue_gives h ?_
  rw [hp, State.blockOn, if_neg (by decide), CoreRes.apply]
  refine ⟨by rw [core_modCore_same], ?_, ?_, fun l hl => ⟨?_, ?_⟩⟩
  · rw [pc_modCore, (hu k).2, fetched_pc]
    exact fun _ => rfl
  · rw [st_modCore, (hu k).1, fetched_running h]
  · rw [st_modCore, (hu l).1, fetched_st]
  · rw [pc_modCore, (hu l).2, fetched_pc]
    exact fun _ => rfl

theorem coresStay_setGreg (s : State) (k : Nat) (d : Fin 32) (w : Word) : CoresStay s (s.setGreg k d w) := fun _ => ⟨st_setGreg .., pc_setGreg ..⟩

theorem bufAlloc_blocks {d a : Fin 32} {region : Fin 3} (h : Issues s k e (.bufAlloc d a region)) :
    Gives (exec (.bufAlloc k e d a region) s) fun t => Blocks s t k :=
  blocks_of_stay h rfl ((coresStay_coreAlloc _ _ _ _).trans (coresStay_setGreg _ _ _ _))

theorem bufAttach_blocks {d a : Fin 32} (h : Issues s k e (.bufAttach d a)) : Gives (exec (.bufAttach k e d a) s) fun t => Blocks s t k :=
  blocks_of_stay h rfl ((coresStay_coreAttach _ _ _).trans (coresStay_setGreg _ _ _ _))

theorem fetched_holds (h : Nat) : (s.fetched k e).holds k h = s.holds k h := by
  unfold State.holds State.liveHandle State.buffer
  rw [(fetched_noted s k e).recorded.buffers]

theorem bufFence_blocks {a : Fin 32} (h : Issues s k e (.bufFence a)) (hh : s.holds k (s.greg k a).toNat = true) :
    Gives (exec (.bufFence k e a) s) fun t => Blocks s t k :=
  blocks_of_stay h (if_pos (by rwa [fetched_holds, fetched_greg])) fun _ => ⟨rfl, rfl⟩

theorem bufGet_blocks {d a b : Fin 32} {daddr : BitVec 12} {nw : BitVec 8} (h : Issues s k e (.bufGet d a b daddr nw))
    (hn : daddr.toNat + nw.toNat < 4096) : Gives (exec (.bufGet k e .clean d a b daddr nw) s) fun t => Blocks s t k :=
  blocks_of_stay h (if_neg (by omega)) ((coresStay_bufGet _ _ _ _ _ _ _).trans (coresStay_setGreg _ _ _ _))

theorem bufPut_blocks {d a b : Fin 32} {daddr : BitVec 12} {nw : BitVec 8} (h : Issues s k e (.bufPut d a b daddr nw))
    (hn : daddr.toNat + nw.toNat < 4096) : Gives (exec (.bufPut k e .clean d a b daddr nw) s) fun t => Blocks s t k := by
  refine blocks_of_stay h (u := ((s.fetched k e).bufPut k ((s.fetched k e).greg k a) ((s.fetched k e).greg k b) daddr.toNat (nw.toNat + 1)).2.setGreg k d
    ((s.fetched k e).bufPut k ((s.fetched k e).greg k a) ((s.fetched k e).greg k b) daddr.toNat (nw.toNat + 1)).1) ?_
    ((coresStay_bufPut _ _ _ _ _ _).trans (coresStay_setGreg _ _ _ _))
  rw [State.perform, if_neg (by omega), if_neg (by simp [Ecc.bad]), coreEcc_clean, ite_self]

/-- The emission of a BUF.FREE, which no loop body may hold (R66, R125). -/
theorem bufFree_emits {a : Fin 32} (h : Issues s k e (.bufFree a)) (hr : Room s k) (hh : s.holds k (s.greg k a).toNat = true) :
    Gives (exec (.bufFree k e a) s) fun t => Emitted s t k (.bufFree (s.greg k a).toNat) ∧ OthersStay s t k := by
  obtain ⟨hq, ho⟩ := hr
  have hst := fetched_running h
  have hdesc : ∀ q : QEntry, q.desc = .bufFree (s.greg k a).toNat → Emitted s (((s.fetched k e).emitNow k q).setPc k (s.pc k + 1)) k
      (.bufFree (s.greg k a).toNat) ∧ OthersStay s (((s.fetched k e).emitNow k q).setPc k (s.pc k + 1)) k := fun q hd => by
    obtain ⟨hqueue, hpc, hst', hg, hdm, hsr, hdr⟩ := emitNow_emitted (s.fetched k e) q (n := s.pc k + 1) k.isLt hst (by rw [fetched_pc])
    rw [fetched_voice, fetched_now, hd] at hqueue
    exact ⟨⟨hqueue, pc_setPc_same .., hst', fun r => (hg r).trans (fetched_greg k r), hdm.trans fetched_dmem, hsr.trans fetched_sram,
      hdr.trans fetched_dram⟩, (othersStay_fetched s k e).trans ((othersStay_of_cored (emitNow_cored _ q k.isLt)).trans (othersStay_setPc _ k _))⟩
  refine issue_gives h ?_
  rw [State.perform, if_neg (by rw [fetched_voice, ho]; decide), if_neg (by rw [fetched_holds, fetched_greg]; simpa using hh), State.emit,
    if_pos (by rwa [State.qfill, fetched_voice]), CoreRes.apply, fetched_pc]
  exact hdesc _ (by rw [fetched_greg])

/-! ### Waits and results (R36, R49, R60, R76) -/

theorem qstallResume_ends {q : QEntry} (hs : (s.core k).stalled = some q) (hst : s.st k = 7) (hq : s.qfill k < 32) :
    Gives (exec (.qstallResume k) s) fun t => t.st k = 5 ∧ t.pc k = s.pc k + 1 ∧ (t.core k).stalled = none ∧ OthersStay s t k := by
  have hc := emitNow_cored s { q with written := s.now } k.isLt
  refine ⟨_, qstallResume_performs hs hst hq, st_setSt_same .., ?_, ?_, ?_⟩
  · rw [pc_setSt, pc_setPc_same]
  · rw [core_setSt, core_setPc, core_modCore_same]
  · exact (othersStay_of_cored hc).trans ((othersStay_modCore _ k _).trans ((othersStay_setPc _ k _).trans (othersStay_setSt _ k 5)))

theorem evtWait_ends_or_waits {d : Fin 32} {a b : BitVec 8} {tmo : BitVec 24} (h : Issues s k e (.evtWait d a b tmo))
    (hd : s.deniedWait a b = false) : Gives (exec (.evtWait k e d a b tmo) s) fun t => Ended s t k ∨ Halts s t k 6 := by
  by_cases hl : (((s.fetched k e).selectInputs k a b).core k).latched = 0
  · obtain ⟨t, ht, hw, -⟩ := evtWait_waits h hd hl
    exact ⟨t, ht, .inr hw⟩
  · obtain ⟨t, ht, he, -⟩ := evtWait_takes h hd hl
    exact ⟨t, ht, .inl he⟩

theorem dtrdFrac_ends {d : Fin 32} (h : Issues s k e (.dtrdFrac d)) : Gives (exec (.dtrdFrac k e d) s) fun t => Ended s t k :=
  ⟨_, dtrdFrac_performs h, ended_of_setPc ((st_setGreg ..).trans (fetched_running h)) (othersStay_setGreg _ k _ _)⟩

end

/-- What a command leaves implies what is asked of it. -/
theorem Gives.imp {r : Res} {P Q : State → Prop} (h : Gives r P) (hpq : ∀ t, P t → Q t) : Gives r Q := by
  obtain ⟨t, ht, hp⟩ := h
  exact ⟨t, ht, hpq t hp⟩

/-- Settles O18: what each command leaves, with the other cores. -/
theorem coreCommandsComplete : Obligations.CoreCommandsComplete := by
  refine ⟨fun k q w e ecc f d a b x s hw => ⟨fun ha h2 hc h98 => ?_, fun ha h3 h0 => start_moves hw ha h0 h3, fun ha h hb => ?_,
      fun ha h2 => resume_completes hw ha h2, fun ha h => ?_, fun ha h2 hpc he hd => step_rr hw ha h2 hpc he hd, qstallResume_ends⟩,
    fun k e d a b region daddr nw s => ⟨bufAlloc_blocks, bufAttach_blocks, bufFree_emits, bufFence_blocks, bufGet_blocks, bufPut_blocks⟩,
    fun k e d ec eca ecb tmo cls p s => ⟨fun h hl => (evtFire_ends h hl).imp fun t ht => ht.1,
      fun h hn => (evtWaitArm_ends h hn).imp fun t ht => ht.1,
      evtWait_ends_or_waits, fun h hc h3 hp h0 => (budget_ends h hc h3 hp (.inl h0)).imp fun t ht => ⟨ht.1, ht.2.2⟩,
      fun h => (dtrdSec_ends h).imp fun t ht => ht.1, dtrdFrac_ends⟩⟩
  · have hs : (s.wrote .CORE_CTL k 0 (force w 1 1 1)).f F.CORE_CTL_START_SRC k = bits w.toNat 9 8 :=
      (told_f_wrote (q := q) _ _ _ _).symm.trans (told_startSrc (by decide))
    exact (arm_completes hw ha h2 hc fun hn => h98 (hs.symm.trans hn.1)).imp fun t ht => ⟨ht.st, ht.pc, ht.others⟩
  · exact (stop_halts hw ha h hb).imp fun t ht => ht.1
  · exact (reset_completes hw ha h).imp fun t ht => ⟨ht.st, congrArg CoreSt.pc ht.core, ht.greg, ht.others⟩

end Sys2Proof.Machine
end

section
/-! PROOFS. What ends the waits of a core, and its starts by time and by admission (O17; R35, R47 to R49, R72, R76). -/

namespace Sys2Proof.Machine

/-! ### DTIME through the operations of a core -/

section
variable (s : State) (k : Nat)

@[simp] theorem withdraw_time : (s.withdraw k).time = s.time := by rfl

theorem weighRequest_time : s.weighRequest.time = s.time := by
  unfold State.weighRequest
  split
  · have hl : ∀ t : State, t.levelH.time = t.time := fun t => by
      unfold State.levelH
      dsimp only
      exact (apply_ite State.time _ _ _).trans (ite_self _)
    rw [State.weigh, hl, setF_time, setF_time]
  · rfl

theorem enqueue_time : (s.enqueue k).time = s.time := by rw [State.enqueue, weighRequest_time]; rfl

theorem startCore_time : (s.startCore k).time = s.time := by
  unfold State.startCore
  split
  · rw [setSt_time]
  · rw [enqueue_time, modCore_time, setF_time, setSt_time]

/-- A result that ends the wait of core k: gd receives w, and the core goes on in RUN. -/
def State.resultIn (s : State) (k : Nat) (d : Fin 32) (w : Word) (pc : Nat) : State := (((s.setGreg k d w).setPc k pc).setSt k 5)

theorem resultIn_leaves {d : Fin 32} (w : Word) (pc : Nat) (hd : d ≠ 0) : (s.resultIn k d w pc).st k = 5 ∧ (s.resultIn k d w pc).pc k = pc ∧
    (s.resultIn k d w pc).greg k d = w ∧ (s.resultIn k d w pc).time = s.time ∧
    ∀ x : Fld, F.CORE_STATUS_STATE.coreApart x = true → x.reg ≠ .CORE_GREG → (s.resultIn k d w pc).f x k = s.f x k := by
  refine ⟨st_setSt_same .., ?_, ?_, ?_, fun x hx hg => ?_⟩
  · rw [State.resultIn, pc_setSt, pc_setPc_same]
  · rw [State.resultIn, greg_setSt, setPc_greg, greg_setGreg_same, if_neg hd]
  · rw [State.resultIn, setSt_time, setPc_time, setGreg_time]
  · have hm : x.reg ∈ coreRegs := (ofCore_iff.1 (by simp only [Fld.coreApart, Bool.and_eq_true] at hx; exact hx.1.2)).1
    rw [State.resultIn, f_setSt, f_setF_core_ne _ _ hx, setPc_f, f_setGreg _ _ _ _ _ _ hm hg]

end

/-! ### Grants (R48, R49) -/

section
variable {s : State} {k : Fin 64} {d : Fin 32}

theorem ofNat_gd (hg : (s.core k).gd = d) : Fin.ofNat 32 (s.core k).gd = d := by rw [hg]; exact Fin.ofNat_val_eq_self d

/-- The state of a grant once the request has left its queue and the admission is recorded. -/
def State.granted (s : State) (k : Nat) : State :=
  ((s.weighRequest.admitCost (s.taskCost (.core k))).withdraw k).setAdmit k 2 (s.taskCost (.core k))

theorem granted_cored (s : State) (k : Nat) : ((s.weighRequest.admitCost (s.taskCost (.core k))).withdraw k).cored = s.cored := by
  rw [cored_withdraw, cored_admitCost, cored_weighRequest]

theorem granted_pc (s : State) (k l : Nat) : (s.granted k).pc l = s.pc l := by
  rw [State.granted, State.pc, State.core, setAdmit_cores, ← State.core]; exact cored_pc (granted_cored s k) l

theorem granted_std (s : State) (k : Nat) : (s.granted k).power.gov.std = s.power.gov.std.erase k := by
  rw [State.granted, State.setAdmit, setF_power, setF_power]
  exact congrArg (List.erase · k) (weighRequest_queues s).1

theorem grant_phase (h8 : s.st k = 8) (hg : (s.core k).gd = d) :
    s.grant k = ((s.granted k).setF F.CORE_BUDGET_PHASE (s.core k).phase k).resultIn k d 0 (s.pc k + 1) := by
  rw [State.grant, if_pos h8, ofNat_gd hg]; rfl

theorem grant_start (h4 : s.st k = 4) : s.grant k = ((s.granted k).lateStart k).setSt k 5 := by
  rw [State.grant, if_neg (by omega)]; rfl

theorem budgetGrant_ends (hd : d ≠ 0) (hg : (s.core k).gd = d) (h8 : s.st k = 8) (ha : s.grantable k = true) :
    Gives (exec (.budgetGrant k) s) fun t => (t.st k = 5 ∧ t.pc k = s.pc k + 1) ∧ t.greg k d = 0 ∧ t.f F.CORE_BUDGET_ADMIT k = 2 ∧
      t.f F.CORE_BUDGET_PHASE k = (s.core k).phase % 16 := by
  obtain ⟨hst, hpc, hgr, -, hf⟩ := resultIn_leaves ((s.granted k).setF F.CORE_BUDGET_PHASE (s.core k).phase k) k 0 (s.pc k + 1) hd
  refine ⟨_, if_pos ⟨h8, ha⟩, ?_⟩
  rw [grant_phase h8 hg]
  refine ⟨⟨hst, hpc⟩, hgr, ?_, ?_⟩
  · rw [hf _ (by decide) (by decide), f_setF_core_ne _ _ (by decide), State.granted, setAdmit_admit _ _ _ (by decide)]
  · rw [hf _ (by decide) (by decide), f_setF_core_same _ _ (by decide)]; rfl

theorem lateStart_leaves (s : State) (k : Nat) : (s.lateStart k).pc k = s.pc k ∧ (s.lateStart k).power = s.power ∧
    ∀ x : Fld, F.CORE_STATUS_START_LATE.coreApart x = true → (s.lateStart k).f x k = s.f x k := by
  unfold State.lateStart
  split
  · exact ⟨flag_pc .., by rw [State.flag, setF_power], fun x hx => f_setF_core_ne _ _ hx⟩
  · exact ⟨rfl, rfl, fun _ _ => rfl⟩

theorem setSt_f_ne (s : State) (k n : Nat) {x : Fld} (hx : F.CORE_STATUS_STATE.coreApart x = true) : (s.setSt k n).f x k = s.f x k := by
  rw [f_setSt, f_setF_core_ne _ _ hx]

theorem admissionGrant_starts (h4 : s.st k = 4) (ha : s.grantable k = true) :
    Gives (exec (.admissionGrant k) s) fun t => t.st k = 5 ∧ t.pc k = s.pc k ∧ t.f F.CORE_BUDGET_ADMIT k = 2 ∧
      t.f F.CORE_BUDGET_RESV_MW k = s.taskCost (.core k) % 2 ^ 16 ∧ t.power.gov.std = s.power.gov.std.erase k := by
  obtain ⟨hpc, hp, hf⟩ := lateStart_leaves (s.granted k) k
  refine ⟨_, if_pos ⟨h4, ha⟩, ?_⟩
  rw [grant_start h4]
  refine ⟨st_setSt_same .., ?_, ?_, ?_, ?_⟩
  · rw [pc_setSt, hpc, granted_pc]
  · rw [setSt_f_ne _ _ _ (by decide), hf _ (by decide), State.granted, setAdmit_admit _ _ _ (by decide)]
  · rw [setSt_f_ne _ _ _ (by decide), hf _ (by decide), State.granted, setAdmit_resv]
  · rw [setSt_power, hp, granted_std]

theorem admissionGrant_waits (ha : s.grantable k = false) : exec (.admissionGrant k) s = .next s :=
  if_neg fun h => by rw [ha] at h; cases h.2

/-! ### Limits that pass (R48, R49, R76) -/

/-- A request that its limit ends: DTIME has reached the limit, and the request has left its queue with what ADMIT then reads. -/
def State.expired (s : State) (k how : Nat) : State := ((s.reach (s.admitLimit k)).withdraw k).setF F.CORE_BUDGET_ADMIT how k

theorem expired_time (s : State) (k how : Nat) : (s.expired k how).time = (s.reach (s.admitLimit k)).time := by
  rw [State.expired, setF_time, withdraw_time]

theorem budgetTimeout_ends (hd : d ≠ 0) (hg : (s.core k).gd = d) (h8 : s.st k = 8) (hm : s.mayTimeOut k = true) :
    Gives (exec (.budgetTimeout k) s) fun t => (t.st k = 5 ∧ t.pc k = s.pc k + 1) ∧ t.greg k d = 1 ∧ Reached s t (s.admitLimit k) ∧
      t.f F.CORE_BUDGET_ADMIT k = 2 ∧ t.f F.CORE_BUDGET_PHASE k = s.f F.CORE_BUDGET_PHASE k := by
  obtain ⟨hst, hpc, hgr, ht, hf⟩ := resultIn_leaves (s.expired k 2) k 1 (s.pc k + 1) hd
  have he : exec (.budgetTimeout k) s = .next ((s.expired k 2).resultIn k d 1 (s.pc k + 1)) := by
    rw [← ofNat_gd hg]; exact if_pos ⟨h8, hm⟩
  refine ⟨_, he, ⟨hst, hpc⟩, hgr, reached_of_time (ht.trans (expired_time ..)), ?_, ?_⟩
  · rw [hf _ (by decide) (by decide), State.expired, f_setF_core_fits _ _ (by decide) (by decide)]
  · rw [hf _ (by decide) (by decide), State.expired, f_setF_core_ne _ _ (by decide), withdraw_f, reach_f]

theorem admissionTimeout_ends (h4 : s.st k = 4) (hm : s.mayTimeOut k = true) :
    Gives (exec (.admissionTimeout k) s) fun t => Reached s t (s.admitLimit k) ∧ t.f F.CORE_BUDGET_ADMIT k = 4 ∧
      t.on F.CORE_STATUS_ADMIT_REFUSED k = true ∧ t.st k = (if (s.core k).fromStart then 3 else 2) := by
  have he : exec (.admissionTimeout k) s = .next (((s.expired k 4).flag F.CORE_STATUS_ADMIT_REFUSED k).setSt k
      (if (s.core k).fromStart then 3 else 2)) := if_pos ⟨h4, hm⟩
  refine ⟨_, he, reached_of_time ?_, ?_, ?_, ?_⟩
  · rw [setSt_time, flag_time, expired_time]
  · rw [setSt_f_ne _ _ _ (by decide), State.flag, f_setF_core_ne _ _ (by decide), State.expired, f_setF_core_fits _ _ (by decide) (by decide)]
  · rw [State.on, setSt_f_ne _ _ _ (by decide)]; exact on_flag _ k (by decide)
  · rw [st_setSt_same]
    split <;> rfl

theorem evtWaitTimeout_ends {x : Nat} (hd : d ≠ 0) (hg : (s.core k).gd = d) (h6 : s.st k = 6) (hx : (s.core k).deadline = some x)
    (hl : (s.core k).latched = 0) : Gives (exec (.evtWaitTimeout k) s) fun t =>
      (t.st k = 5 ∧ t.pc k = s.pc k + 1) ∧ t.greg k d = 0 ∧ Reached s t x ∧ (t.core k).deadline = none := by
  have he : exec (.evtWaitTimeout k) s = .next (((((s.reach x).setGreg k d 0).setPc k (s.pc k + 1)).modCore k fun c =>
      { c with deadline := none }).setSt k 5) := by
    rw [← ofNat_gd hg]
    show execEvtWaitTimeout k s = _
    unfold execEvtWaitTimeout
    rw [hx]
    exact (if_neg (not_not_intro h6)).trans (if_neg (not_not_intro hl))
  refine ⟨_, he, ⟨st_setSt_same .., ?_⟩, ?_, reached_of_time ?_, ?_⟩
  · rw [pc_setSt, pc_modCore, pc_setPc_same]
    exact fun _ => rfl
  · rw [greg_setSt, greg_modCore, setPc_greg, greg_setGreg_same, if_neg hd]
  · rw [setSt_time, modCore_time, setPc_time, setGreg_time]
  · rw [core_setSt, core_modCore_same]

theorem evtWaitTimeout_wakes {x : Nat} (hd : d ≠ 0) (hg : (s.core k).gd = d) (h6 : s.st k = 6) (hx : (s.core k).deadline = some x)
    (hl : (s.core k).latched ≠ 0) : Gives (exec (.evtWaitTimeout k) s) fun t =>
      (t.st k = 5 ∧ t.pc k = s.pc k + 1) ∧ t.greg k d = BitVec.ofNat 64 (s.core k).latched ∧ t.now = s.now := by
  obtain ⟨⟨hpc, hst, -⟩, hgr, ht⟩ := wakeEvt_ends h6 hg hl
  have he : exec (.evtWaitTimeout k) s = .next (s.wakeEvt k) := by
    show execEvtWaitTimeout k s = _
    unfold execEvtWaitTimeout
    rw [hx]
    exact (if_neg (not_not_intro h6)).trans (if_pos hl)
  exact ⟨_, he, ⟨hst, hpc⟩, hgr hd, by unfold State.now; rw [ht]⟩

/-! ### BUF_OP_COMPLETE (R72) -/

/-- The core moves past the buffer instruction that blocked it. -/
def State.unblocked (s : State) (k : Nat) : State :=
  (s.setPc k (s.pc k + 1)).modCore k fun c => { c with blocked := false, stopLater := false }

theorem unblocked_core (s : State) (k : Nat) : (s.unblocked k).core k = { s.core k with pc := s.pc k + 1, blocked := false, stopLater := false } := by
  rw [State.unblocked, core_modCore_same, core_setPc]

theorem bufOp_completes (hb : (s.core k).blocked = true) (hs : (s.core k).stopLater = false) :
    Gives (exec (.bufOpComplete k) s) fun t => t.st k = s.st k ∧ t.pc k = s.pc k + 1 ∧ (t.core k).blocked = false := by
  have he : exec (.bufOpComplete k) s = .next (s.unblocked k) := (if_pos hb).trans (by rw [hs]; rfl)
  refine ⟨_, he, ?_, ?_, ?_⟩
  · rw [State.unblocked, st_modCore, setPc_st]
  · rw [State.pc, unblocked_core]
  · rw [unblocked_core]

theorem bufOp_stops (hb : (s.core k).blocked = true) (hs : (s.core k).stopLater = true) (h5 : s.st k = 5) :
    Gives (exec (.bufOpComplete k) s) fun t => t.st k = 2 ∧ t.pc k = s.pc k + 1 ∧ (t.core k).blocked = false := by
  have he : exec (.bufOpComplete k) s = .next ((s.unblocked k).stop k) := (if_pos hb).trans (by rw [hs]; rfl)
  have hst : (s.unblocked k).st k = 5 := by rw [State.unblocked, st_modCore, setPc_st, h5]
  have hl := stop_leaves (s := s.unblocked k) (k := k) (by rw [hst]; decide) (by rw [unblocked_core])
  obtain ⟨h2, hpc, -⟩ := hl.halts
  exact ⟨_, he, h2, hpc.trans (by rw [State.pc, unblocked_core]), hl.blocked⟩

/-! ### Starts (R35, R47) -/

theorem timeStart_starts (hsrc : s.f F.CORE_CTL_START_SRC k = 2) (h3 : s.st k = 3) :
    Gives (exec (.timeStart k) s) fun t => Reached s t (s.startTime k) ∧ t.st k = (if s.f F.CORE_BUDGET_CLASS k = 0 then 5 else 4) := by
  have he : exec (.timeStart k) s = .next ((s.reach (s.startTime k)).startCore k) :=
    (if_pos hsrc).trans (by rw [State.startSource, if_pos (show (s.reach (s.startTime k)).st k = 3 by rw [State.st, reach_f]; exact h3)])
  obtain ⟨hst, -, -⟩ := startCore_moves (s := s.reach (s.startTime k)) (k := k)
  exact ⟨_, he, reached_of_time (startCore_time ..), hst.trans (by rw [reach_f])⟩

theorem timeStart_missed (hsrc : s.f F.CORE_CTL_START_SRC k = 2) (h3 : s.st k ≠ 3) :
    Gives (exec (.timeStart k) s) fun t => t.st k = s.st k ∧ t.on F.CORE_STATUS_START_MISS k = true := by
  have hst : (s.reach (s.startTime k)).st k = s.st k := reach_f ..
  have he : exec (.timeStart k) s = .next ((s.reach (s.startTime k)).flag F.CORE_STATUS_START_MISS k) :=
    (if_pos hsrc).trans (by rw [State.startSource, if_neg (by rwa [hst])])
  exact ⟨_, he, (st_flag _ k k (by decide)).trans hst, on_flag _ k (by decide)⟩

end

/-- Core k goes from INIT to HALT with PC at ENTRY (R35). -/
def State.filled (t : State) (k : Nat) : State :=
  if t.st k = 1 then ((t.setPc k (t.hdrEntry k % 8192)).setSt k 2).raiseSince k else t

theorem filled_entry (t : State) (k l : Nat) : (t.filled k).hdrEntry l = t.hdrEntry l := by
  unfold State.filled
  split
  · refine (cored_hdr (cored_raiseSince _ k) ..).trans ?_
    refine (congrArg (fun w : Word => bits w.toNat 63 32) (rw_congr (setSt_regs ..) _ _ _)).trans ?_
    exact congrArg (fun w : Word => bits w.toNat 63 32)
      (rw_setRw_ne _ _ (addr_core_ne (by decide) (by decide) (by decide) (by decide) (.inl (by decide))))
  · rfl

theorem filled_other (t : State) {k l : Nat} (h : l ≠ k) : (t.filled k).st l = t.st l ∧ (t.filled k).pc l = t.pc l := by
  unfold State.filled
  split
  · have hc := cored_raiseSince ((t.setPc k (t.hdrEntry k % 8192)).setSt k 2) k
    exact ⟨by rw [cored_st hc, st_setSt_other _ _ h, setPc_st], by rw [cored_pc hc, pc_setSt, pc_setPc_ne _ _ _ _ h]⟩
  · exact ⟨rfl, rfl⟩

theorem filled_own (t : State) {k : Nat} (h : t.st k = 1) : (t.filled k).st k = 2 ∧ (t.filled k).pc k = t.hdrEntry k % 8192 := by
  have hc := cored_raiseSince ((t.setPc k (t.hdrEntry k % 8192)).setSt k 2) k
  rw [State.filled, if_pos h]
  exact ⟨by rw [cored_st hc, st_setSt_same], by rw [cored_pc hc, pc_setSt, pc_setPc_same]⟩

/-- After the first n cores of a cluster: those before n are at HALT, and the others are as they were. -/
theorem filled_upTo (s : State) (c n : Nat) : (∀ l, (forN n (fun i t => t.filled (4 * c + i)) s).hdrEntry l = s.hdrEntry l) ∧
    (∀ i, n ≤ i → (forN n (fun i t => t.filled (4 * c + i)) s).st (4 * c + i) = s.st (4 * c + i)) ∧
    (∀ i < n, s.st (4 * c + i) = 1 → (forN n (fun i t => t.filled (4 * c + i)) s).st (4 * c + i) = 2 ∧
      (forN n (fun i t => t.filled (4 * c + i)) s).pc (4 * c + i) = s.hdrEntry (4 * c + i) % 8192) := by
  induction n with
  | zero => exact ⟨fun _ => rfl, fun _ _ => rfl, fun i hi => absurd hi (by omega)⟩
  | succ n ih =>
    obtain ⟨he, hrest, hdone⟩ := ih
    rw [forN]
    generalize forN n (fun i t => t.filled (4 * c + i)) s = u at he hrest hdone ⊢
    refine ⟨fun l => (filled_entry ..).trans (he l), fun i hi => ?_, fun i hi h1 => ?_⟩
    · rw [(filled_other u (by omega)).1, hrest i (by omega)]
    · by_cases hin : i = n
      · subst hin
        obtain ⟨h2, hpc⟩ := filled_own u ((hrest i le_rfl).trans h1)
        exact ⟨h2, by rw [hpc, he]⟩
      · obtain ⟨h3, h4⟩ := filled_other u (k := 4 * c + n) (l := 4 * c + i) (by omega)
        rw [h3, h4]
        exact hdone i (by omega) h1

theorem clusterFillDone_halts (c : Fin 16) (s : State) : Gives (exec (.clusterFillDone c) s) fun t => ∀ i : Fin 4,
    s.st (4 * c.val + i.val) = 1 → t.st (4 * c.val + i.val) = 2 ∧ t.pc (4 * c.val + i.val) = s.hdrEntry (4 * c.val + i.val) % 8192 := by
  obtain ⟨-, -, h⟩ := filled_upTo s c 4
  exact ⟨_, rfl, fun i => h i i.isLt⟩

/-- Settles O17: each event by its own rule. -/
theorem coreStartsAndWaits : Obligations.CoreStartsAndWaits :=
  ⟨fun _ _ _ _ hd hg => ⟨budgetGrant_ends hd hg, budgetTimeout_ends hd hg, evtWaitTimeout_ends hd hg, evtWaitTimeout_wakes hd hg,
      bufOp_completes, bufOp_stops⟩,
    fun _ c s => ⟨timeStart_starts, timeStart_missed, admissionGrant_starts, fun _ => admissionGrant_waits, admissionTimeout_ends,
      clusterFillDone_halts c s⟩⟩

end Sys2Proof.Machine
end

section
/-! PROOFS. Reads of registers, bad accesses, data memory and counter clears (O57; R53, R326, R328, R330, R343). -/

namespace Sys2Proof.Machine

/-! ### What a read touches (R328, R330) -/

theorem reshadowed_view (s : State) (a b : List (Nat × Option (Nat × Half))) (q : Requester) (r : Reg) (i j : Nat) :
    (s.reshadowed a b).view q r i j = s.view q r i j := by
  cases r <;> rfl

theorem unshadowed_view (s : State) (q : Requester) (r : Reg) (i j : Nat) : (s.unshadowed q).view q r i j = s.view q r i j := by
  obtain ⟨a, b, h⟩ := unshadowed_eq s q
  rw [h, reshadowed_view]

/-- The registers whose reading has an effect. -/
def stillReg (r : Reg) : Prop := r ≠ .TM_NOW_SEC ∧ r ≠ .PWR_RMEM_DATA ∧ r ≠ .CORE_DMEM_DATA ∧ r ≠ .CORE_IMEM

theorem readEffect_still (s : State) (q : Requester) {r : Reg} (h : stillReg r) (i j : Nat) (e : Ecc) : s.readEffect q r i j e = s := by
  obtain ⟨h1, h2, h3, h4⟩ := h
  unfold State.readEffect
  split
  · exact absurd rfl h1
  · exact absurd rfl h2
  · exact absurd rfl h3
  · exact absurd rfl h4
  · rfl

/-- Reading leaves the shadows of 32-bit accesses. -/
theorem readEffect_reads (s : State) (q : Requester) (r : Reg) (i j : Nat) (e : Ecc) : (s.readEffect q r i j e).bus.reads = s.bus.reads := by
  have hecc : ∀ a, (s.coreEcc e a).bus.reads = s.bus.reads := fun a => by rw [(coreEcc_noted s e a).recorded.bus]
  unfold State.readEffect
  split
  · rfl
  · unfold State.readRest State.nextRest State.tick
    dsimp only
    rw [setF_bus]
    split <;> exact hecc _
  · split
    · rfl
    · unfold State.nextDmem State.tick
      dsimp only
      rw [setF_bus]
      split
      · rw [State.flag, setF_bus, hecc]
      · exact hecc _
  · split
    · rfl
    · dsimp only
      split
      · rw [State.flag, setF_bus, hecc]
      · exact hecc _
  · rfl

section
variable {s : State} {q : Requester} {r : Reg} {i j off : Nat} {e : Ecc}

/-- An access with its shadows ended, and HALF_DROP set when a low word held is discarded (R329). -/
theorem nextAccess_eq (s : State) (q : Requester) (act : State → State) : s.nextAccess q act = act (s.unshadowed q) ∨
    s.nextAccess q act = (act (s.unshadowed q)).flag F.GLB_STATUS_HALF_DROP := by
  unfold State.nextAccess
  dsimp only
  split
  · exact .inr rfl
  · exact .inl rfl

/-- A read that the device answers and that no protection refuses (R326, R328). -/
theorem busRead_passes (hm : Reg.ofOffset off = some (r, i, j)) (ha : s.answers q off = true) (hacc : s.access (s.level q) (regionOf off) ≠ 0) :
    s.busRead q off e = (s.view q r i j, s.readEffect q r i j e) := by
  unfold State.busRead
  rw [if_neg (by simp [ha]), hm]
  exact if_neg hacc

theorem busRead_refused (hm : Reg.ofOffset off = some (r, i, j)) (ha : s.answers q off = true) (hacc : s.access (s.level q) (regionOf off) = 0) :
    s.busRead q off e = (0, s.refuseAccess q .region true 0 off) := by
  unfold State.busRead
  rw [if_neg (by simp [ha]), hm]
  exact if_pos hacc

/-- What the device keeps of the last read of q. -/
def State.gotBy (s : State) (q : Requester) : Word := sget (fun _ => 0) s.bus.got (reqCode q)

theorem unshadowed_busRead (hm : Reg.ofOffset off = some (r, i, j)) (ha : s.answers q off = true)
    (hacc : s.access (s.level q) (regionOf off) ≠ 0) :
    (s.unshadowed q).busRead q off e = (s.view q r i j, (s.unshadowed q).readEffect q r i j e) := by
  rw [← unshadowed_view]
  exact busRead_passes hm ha hacc

theorem unshadowed_readShadow (s : State) (q : Requester) : (s.unshadowed q).readShadow q = none := by
  simp [State.unshadowed, State.readShadow, State.setReadShadow, State.setWriteShadow]
theorem readShadow_give (s : State) (q : Requester) (v : Word) : (s.give q v).readShadow q = s.readShadow q := by rfl
theorem readShadow_setReadShadow (s : State) (q : Requester) (v : Option (Nat × Half)) : (s.setReadShadow q v).readShadow q = v :=
  sget_sput_same ..
theorem setReadShadow_got (s : State) (q : Requester) (v : Option (Nat × Half)) : (s.setReadShadow q v).gotBy q = s.gotBy q := by rfl

theorem sameWords_unshadowed (s : State) (q : Requester) : SameWords s (s.unshadowed q) := ⟨fun _ _ => rfl, rfl, rfl, rfl⟩
theorem SameWords.give {t : State} (h : SameWords s t) (v : Word) : SameWords s (t.give q v) := h
theorem SameWords.setReadShadow {t : State} (h : SameWords s t) (v : Option (Nat × Half)) : SameWords s (t.setReadShadow q v) := h

theorem give_got (s : State) (q : Requester) (v : Word) : (s.give q v).gotBy q = v := sget_sput_same ..

theorem readRegister (hm : Reg.ofOffset off = some (r, i, j)) (part : ReadPart) :
    exec (.registerReadLow q (BitVec.ofNat 24 off) part e) s = .next (s.get q off part e) := by
  obtain ⟨-, h8, hlt⟩ := ofOffset_some hm
  change Host.Outcome.next (s.get q ((BitVec.ofNat 24 off).toNat / 8 * 8) part e) = _
  rw [ofNat24_align h8 hlt]

section
variable (hm : Reg.ofOffset off = some (r, i, j)) (ha : s.answers q off = true) (hacc : s.access (s.level q) (regionOf off) ≠ 0)
  (hlow : s.writeShadow q = none)
include hm ha hacc hlow

theorem read_full : Gives (exec (.registerReadLow q (BitVec.ofNat 24 off) .full e) s) fun t =>
    t.gotBy q = s.view q r i j ∧ t.readShadow q = none ∧ (stillReg r → SameWords s t) := by
  have hb : (s.unshadowed q).busRead q off e = (s.view q r i j, (s.unshadowed q).readEffect q r i j e) := unshadowed_busRead hm ha hacc
  have hg : s.get q off .full e = ((s.unshadowed q).readEffect q r i j e).give q (s.view q r i j) := by
    unfold State.get
    dsimp only
    rw [nextAccess_of_no_low hlow, hb]
  refine ⟨_, (readRegister hm .full).trans (congrArg _ hg), give_got .., ?_, fun hs => ?_⟩
  · rw [readShadow_give, ← unshadowed_readShadow s q, State.readShadow, readEffect_reads]; rfl
  · rw [readEffect_still _ q hs]
    exact (sameWords_unshadowed s q).give _

theorem read_low : Gives (exec (.registerReadLow q (BitVec.ofNat 24 off) .low e) s) fun t =>
    t.gotBy q = s.view q r i j &&& 0xFFFFFFFF#64 ∧ t.readShadow q = some (off, (s.view q r i j).extractLsb' 32 32) ∧
      (stillReg r → SameWords s t) := by
  have hb : (s.unshadowed q).busRead q off e = (s.view q r i j, (s.unshadowed q).readEffect q r i j e) := unshadowed_busRead hm ha hacc
  have hg : s.get q off .low e = (((s.unshadowed q).readEffect q r i j e).give q (s.view q r i j &&& 0xFFFFFFFF#64)).setReadShadow q
      (some (off, (s.view q r i j).extractLsb' 32 32)) := by
    unfold State.get
    dsimp only
    rw [nextAccess_of_no_low hlow, hb]
  refine ⟨_, (readRegister hm .low).trans (congrArg _ hg), ?_, readShadow_setReadShadow .., fun hs => ?_⟩
  · rw [setReadShadow_got, give_got]
  · rw [readEffect_still _ q hs]
    exact ((sameWords_unshadowed s q).give _).setReadShadow _

omit ha hacc in
theorem read_high_held {h : Half} (hr : s.readShadow q = some (off, h)) :
    Gives (exec (.registerReadLow q (BitVec.ofNat 24 off) .high e) s) fun t =>
      t.gotBy q = h.setWidth 64 ∧ t.readShadow q = none ∧ SameWords s t := by
  have hg : s.get q off .high e = (s.unshadowed q).give q (h.setWidth 64) := by
    unfold State.get
    rw [hr]
    dsimp only
    rw [nextAccess_of_no_low hlow, if_pos rfl]
  refine ⟨_, (readRegister hm .high).trans (congrArg _ hg), give_got .., ?_, (sameWords_unshadowed s q).give _⟩
  rw [readShadow_give, unshadowed_readShadow]

theorem read_high (hr : s.readShadow q = none) :
    Gives (exec (.registerReadLow q (BitVec.ofNat 24 off) .high e) s) fun t => t.gotBy q = s.view q r i j >>> 32 := by
  have hb : (s.unshadowed q).busRead q off e = (s.view q r i j, (s.unshadowed q).readEffect q r i j e) := unshadowed_busRead hm ha hacc
  have hg : s.get q off .high e = ((s.unshadowed q).readEffect q r i j e).give q (s.view q r i j >>> 32) := by
    unfold State.get
    rw [hr]
    dsimp only
    rw [nextAccess_of_no_low hlow, hb]
  exact ⟨_, (readRegister hm .high).trans (congrArg _ hg), give_got ..⟩

end

/-! ### Reads that are refused, and bad accesses (R326, R341) -/

/-- A refused access, read or write, leaves the words of its count and of PROT_LAST. -/
theorem refuseAccess_regs_of (s : State) (q : Requester) (c : Cause) (read : Bool) (off : Nat) :
    (s.refuseAccess q c read 0 off).regs = (if s.keepsRefused q 0 off then s.trouble .protViolation
      else (s.trouble .protViolation).setRw .PROT_LAST (BitVec.ofNat 64 (s.refusedWord q c read 0 off))).regs := by
  unfold State.refuseAccess
  rw [← State.refusedWord]
  dsimp only
  generalize BitVec.ofNat 64 (s.refusedWord q c read 0 off) = w
  by_cases hk : s.keepsRefused q 0 off = true
  · rw [if_pos hk, if_pos hk, apply_ite State.regs, fireNow_regs, ite_self]
  · rw [if_neg hk, if_neg hk, apply_ite State.regs, fireNow_regs, ite_self]

/-- PROT_LAST is valid after a refused access of BAR0. -/
theorem refuseAccess_valid (s : State) (q : Requester) (c : Cause) (read : Bool) (off : Nat) :
    bit ((s.refuseAccess q c read 0 off).rw .PROT_LAST).toNat 63 = true := by
  have hword : bit (BitVec.ofNat 64 (s.refusedWord q c read 0 off)).toNat 63 = true := by
    have hq := reqCode_lt q
    have hl := level_lt s q
    have ha : off % 2 ^ 37 < 2 ^ 37 := Nat.mod_lt _ (by decide)
    have hc : c.code < 8 := by cases c <;> decide
    have hr : read.toNat < 2 := read.toNat_lt
    simp only [State.refusedWord, bit, BitVec.toNat_ofNat, beq_iff_eq]
    generalize off % 2 ^ 37 = a at ha ⊢
    omega
  rw [rw_congr (refuseAccess_regs_of s q c read off)]
  split
  · next hk =>
    rw [show (s.trouble .protViolation).rw .PROT_LAST = s.rw .PROT_LAST from word_setWord_ne s _ (by decide)]
    simp only [State.keepsRefused, Bool.and_eq_true] at hk
    exact hk.1.1.2
  · rw [rw_setRw_same, hword]

theorem read_refused (hm : Reg.ofOffset off = some (r, i, j)) (ha : s.answers q off = true) (hacc : s.access (s.level q) (regionOf off) = 0) :
    Gives (exec (.registerReadLow q (BitVec.ofNat 24 off) .full e) s) fun t =>
      t.gotBy q = 0 ∧ bit (t.rw .PROT_LAST).toNat 63 = true ∧ t.sram = s.sram ∧ t.dram = s.dram := by
  have hb : (s.unshadowed q).busRead q off e = (0, (s.unshadowed q).refuseAccess q .region true 0 off) := busRead_refused hm ha hacc
  have hrec := refuseAccess_recorded (s.unshadowed q) q .region true 0 off
  have hv := refuseAccess_valid (s.unshadowed q) q .region true off
  have hact : s.get q off .full e = s.nextAccess q fun t => (t.busRead q off e).2.give q (t.busRead q off e).1 := rfl
  refine ⟨_, readRegister hm .full, ?_⟩
  rw [hact]
  rcases nextAccess_eq s q fun t => (t.busRead q off e).2.give q (t.busRead q off e).1 with h | h
  · rw [h, hb]
    exact ⟨give_got .., hv, hrec.sram, hrec.dram⟩
  · rw [h, hb]
    refine ⟨?_, ?_, ?_, ?_⟩
    · rw [State.gotBy, State.flag, setF_bus]; exact give_got ..
    · rw [State.flag, show ∀ u : State, (u.setF F.GLB_STATUS_HALF_DROP 1).rw .PROT_LAST = u.rw .PROT_LAST from fun u =>
        word_setWord_ne u _ (by decide)]
      exact hv
    · rw [State.flag, setF_sram]; exact hrec.sram
    · rw [State.flag, setF_dram]; exact hrec.dram

/-- A word other than GLB_STATUS is left by a flag of GLB_STATUS. -/
theorem word_flag_status (u : State) {x : Fld} (hx : x.reg = .GLB_STATUS) {y : Nat} (hy : y ≠ Reg.GLB_STATUS.addr 0 0) :
    (u.flag x).word y = u.word y := word_setWord_ne u _ (by rwa [hx])

theorem on_flag_status (u : State) {x : Fld} (hx : x.ok) : (u.flag x).on x = true := by
  have h1 : 1 < 2 ^ (x.hi + 1 - x.lo) := Nat.one_lt_two_pow (by have := hx.2; omega)
  rw [State.on, State.flag, f_setF_same _ _ _ _ _ hx, Nat.mod_eq_of_lt h1]; rfl

/-- From s to t, a bad access was noted in GLB_STATUS, and no memory moved. -/
def BadNoted (s t : State) : Prop := t.on F.GLB_STATUS_SIZE_ERR = true ∧ (∀ y, y ≠ Reg.GLB_STATUS.addr 0 0 → t.word y = s.word y) ∧
  (t.sram = s.sram ∧ t.dram = s.dram) ∧ t.dmem = s.dmem

theorem badNoted_flag (s : State) (q : Requester) : BadNoted s ((s.unshadowed q).flag F.GLB_STATUS_SIZE_ERR) := by
  refine ⟨on_flag_status _ (by constructor <;> decide), fun y hy => (word_flag_status (s.unshadowed q) rfl hy).trans rfl, ⟨?_, ?_⟩, ?_⟩
  · rw [State.flag, setF_sram]; rfl
  · rw [State.flag, setF_dram]; rfl
  · rw [State.flag, setF_dmem]; rfl

theorem BadNoted.half {t : State} (h : BadNoted s t) : BadNoted s (t.flag F.GLB_STATUS_HALF_DROP) := by
  obtain ⟨h1, h2, ⟨h3, h4⟩, h5⟩ := h
  refine ⟨?_, fun y hy => (word_flag_status t rfl hy).trans (h2 y hy), ⟨?_, ?_⟩, ?_⟩
  · rw [State.on, State.flag, f_setF_apart (x := F.GLB_STATUS_HALF_DROP) (y := F.GLB_STATUS_SIZE_ERR) _ _ _ _ (by constructor <;> decide) rfl
      (by unfold Fld.apart; decide)]
    exact h1
  · rw [State.flag, setF_sram, h3]
  · rw [State.flag, setF_dram, h4]
  · rw [State.flag, setF_dmem, h5]

theorem BadNoted.give {t : State} (h : BadNoted s t) (v : Word) : BadNoted s (t.give q v) := h

theorem badAccess_noted {write : Bool} (hb : s.bound q = true) (hr : s.resting = false) :
    Gives (exec (.badAccess q write) s) fun t => BadNoted s t ∧ (write = false → t.gotBy q = 0) := by
  have he : exec (.badAccess q write) s = .next (s.nextAccess q fun t =>
      if write then t.flag F.GLB_STATUS_SIZE_ERR else (t.flag F.GLB_STATUS_SIZE_ERR).give q 0) := if_neg (by simp [hb, hr])
  refine ⟨_, he, ?_⟩
  have hn := badNoted_flag s q
  have hgot : ∀ t : State, ((t.give q 0).flag F.GLB_STATUS_HALF_DROP).gotBy q = 0 := fun t => by
    rw [State.gotBy, State.flag, setF_bus]; exact give_got ..
  rcases nextAccess_eq s q (fun t => if write then t.flag F.GLB_STATUS_SIZE_ERR else (t.flag F.GLB_STATUS_SIZE_ERR).give q 0) with h | h
  · rw [h]
    cases write
    · exact ⟨hn.give 0, fun _ => give_got ..⟩
    · exact ⟨hn, fun hw => by cases hw⟩
  · rw [h]
    cases write
    · exact ⟨(hn.give 0).half, fun _ => hgot _⟩
    · exact ⟨hn.half, fun hw => by cases hw⟩

/-! ### Data memory (R53) -/

section
variable {k : Fin 64} {w : Word}

theorem ofOffset_coreDmem : ∀ k : Fin 64, Reg.ofOffset (Reg.CORE_DMEM_DATA.addr k 0) = some (.CORE_DMEM_DATA, k.val, 0) := by decide

theorem nextDmem_word (u : State) (k : Nat) : (u.nextDmem k).f F.CORE_DMEM_ADDR_WORD k = (u.f F.CORE_DMEM_ADDR_WORD k + 1) % 2 ^ 12 :=
  f_setF_core_same _ _ (by decide)

theorem nextDmem_dmem (u : State) (k : Nat) : (u.nextDmem k).dmem = u.dmem := by rw [State.nextDmem, State.tick, setF_dmem]

theorem dmemWord_congr {s t : State} (h : t.dmem = s.dmem) (k i : Nat) : t.dmemWord k i = s.dmemWord k i := by
  rw [State.dmemWord, h]; rfl

theorem dmem_written (ha : Admits s q .CORE_DMEM_DATA k 0 w) (h2 : 2 ≤ s.st k) :
    Gives (exec (.coreDmemAccess k q true w .full e) s) fun t => t.dmemWord k (s.f F.CORE_DMEM_ADDR_WORD k) = w ∧
      t.f F.CORE_DMEM_ADDR_WORD k = (s.f F.CORE_DMEM_ADDR_WORD k + 1) % 2 ^ 12 ∧
      (∀ (x : Fin 64) (y : Fin 4096), (x ≠ k ∨ y.val ≠ s.f F.CORE_DMEM_ADDR_WORD k) → t.dmemWord x y = s.dmemWord x y) := by
  obtain ⟨hbound, hact, hc, hcore, hstop, -, hlow⟩ := ha
  have hr : Reaches (s.unshadowed q) q (Reg.CORE_DMEM_DATA.addr k 0) .CORE_DMEM_DATA k 0 := ⟨hbound, hact, ofOffset_coreDmem k⟩
  have hn := busWrite_noted (v := w) (c := none) .clean .clean hr (by rw [unshadowed_checkWrite, hc]) hcore hstop
  have hwr : ∀ stored, ((s.unshadowed q).judged q (Reg.CORE_DMEM_DATA.addr k 0) none).act .CORE_DMEM_DATA k 0 stored w .clean .clean =
      ((s.unshadowed q).setDmem k (s.f F.CORE_DMEM_ADDR_WORD k) w).nextDmem k := fun _ => if_neg (Nat.not_lt.2 h2)
  rw [hwr] at hn
  have hput : exec (.coreDmemAccess k q true w .full e) s =
      .next ((s.unshadowed q).busWrite q (Reg.CORE_DMEM_DATA.addr k 0) w .clean .clean).2 := by
    change Host.Outcome.next (s.put q (Reg.CORE_DMEM_DATA.addr k 0) w .clean .clean) = _
    rw [State.put, nextAccess_of_no_low hlow]
  have hd := hn.recorded.dmem.trans (nextDmem_dmem _ _)
  have hlt : s.f F.CORE_DMEM_ADDR_WORD k < 4096 := bits_lt ..
  refine ⟨_, hput, ?_, ?_, fun x y hxy => ?_⟩
  · rw [dmemWord_congr hd]; exact dmemWord_setDmem_same ..
  · exact (cored_f hn.cored _ k 0 (by decide)).trans (nextDmem_word ..)
  · rw [dmemWord_congr hd]
    exact dmemWord_setDmem_ne (s.unshadowed q) w (dmem_index_ne hlt y.isLt (hxy.imp Fin.val_ne_of_ne id))

/-- What reading a word of data memory leaves. -/
theorem readEffect_dmem (u : State) (q : Requester) (k j : Nat) (e : Ecc) (h2 : 2 ≤ u.st k) :
    (u.readEffect q .CORE_DMEM_DATA k j e).f F.CORE_DMEM_ADDR_WORD k = (u.f F.CORE_DMEM_ADDR_WORD k + 1) % 2 ^ 12 ∧
      (u.readEffect q .CORE_DMEM_DATA k j e).dmem = u.dmem := by
  have he : u.readEffect q .CORE_DMEM_DATA k j e =
      (if e.bad then (u.coreEcc e (8 * u.f F.CORE_DMEM_ADDR_WORD k)).flag F.CORE_STATUS_DMEM_UE k
        else u.coreEcc e (8 * u.f F.CORE_DMEM_ADDR_WORD k)).nextDmem k := if_neg (Nat.not_lt.2 h2)
  have hn := coreEcc_noted u e (8 * u.f F.CORE_DMEM_ADDR_WORD k)
  rw [he, nextDmem_word, nextDmem_dmem]
  split
  · rw [State.flag, f_setF_core_ne _ _ (by decide), hn.f_core _ _ (by decide), setF_dmem, hn.recorded.dmem]
    exact ⟨rfl, rfl⟩
  · rw [hn.f_core _ _ (by decide), hn.recorded.dmem]
    exact ⟨rfl, rfl⟩

theorem dmem_read (ha : s.answers q (Reg.CORE_DMEM_DATA.addr k 0) = true)
    (hacc : s.access (s.level q) (regionOf (Reg.CORE_DMEM_DATA.addr k 0)) ≠ 0) (h2 : 2 ≤ s.st k) :
    Gives (exec (.coreDmemAccess k q false w .full e) s) fun t => t.gotBy q = s.dmemWord k (s.f F.CORE_DMEM_ADDR_WORD k) ∧
      t.f F.CORE_DMEM_ADDR_WORD k = (s.f F.CORE_DMEM_ADDR_WORD k + 1) % 2 ^ 12 ∧ t.dmem = s.dmem := by
  have hb := unshadowed_busRead (e := e) (ofOffset_coreDmem k) ha hacc
  have hv : s.view q .CORE_DMEM_DATA k 0 = s.dmemWord k (s.f F.CORE_DMEM_ADDR_WORD k) := if_neg (Nat.not_lt.2 h2)
  obtain ⟨hf, hd⟩ := readEffect_dmem (s.unshadowed q) q k 0 e h2
  have hact : exec (.coreDmemAccess k q false w .full e) s = .next (s.nextAccess q fun t =>
      (t.busRead q (Reg.CORE_DMEM_DATA.addr k 0) e).2.give q (t.busRead q (Reg.CORE_DMEM_DATA.addr k 0) e).1) := rfl
  refine ⟨_, hact, ?_⟩
  rcases nextAccess_eq s q fun t =>
      (t.busRead q (Reg.CORE_DMEM_DATA.addr k 0) e).2.give q (t.busRead q (Reg.CORE_DMEM_DATA.addr k 0) e).1 with h | h
  · rw [h, hb, hv]
    exact ⟨give_got .., hf, hd⟩
  · rw [h, hb, hv]
    refine ⟨?_, ?_, ?_⟩
    · rw [State.gotBy, State.flag, setF_bus]; exact give_got ..
    · rw [State.flag, f_setF_ne _ _ (Nat.ne_of_gt (Nat.lt_of_lt_of_le (by decide) (addr_core_high (by decide))))]; exact hf
    · rw [State.flag, setF_dmem]; exact hd

end

/-! ### Counter clears (R343, R344) -/

theorem trouble_ok (c : Nat) : (troubleFld c).ok := by
  constructor
  · simp only [troubleFld]; omega
  · simp only [troubleFld]; omega

/-- Each of the global counters is a field of its own. -/
theorem trouble_apart (s : State) (v : Nat) {c d : Nat} (h : c ≠ d) :
    (s.setF (troubleFld c) v (c / 4)).f (troubleFld d) (d / 4) = s.f (troubleFld d) (d / 4) := by
  by_cases hr : c / 4 = d / 4
  · have ha : (troubleFld c).apart (troubleFld d) := by
      simp only [Fld.apart, troubleFld]
      omega
    rw [hr]
    exact f_setF_apart s v _ 0 (trouble_ok c) rfl ha
  · refine f_setF_ne s v ?_
    rw [show (troubleFld d).reg.addr (d / 4) 0 = 0x200 + d / 4 * 8 + 0 from rfl,
      show (troubleFld c).reg.addr (c / 4) 0 = 0x200 + c / 4 * 8 + 0 from rfl]
    omega

/-- The first m of the clears that a write of n to GLB_CNT_CLR makes. -/
def State.clearedTo (s : State) (n m : Nat) : State :=
  forN m (fun k u => if bit n 63 ∨ bit n k then u.clr (troubleFld k) (k / 4) else u) s

theorem clearedTo_f (s : State) (n c m : Nat) : (s.clearedTo n m).f (troubleFld c) (c / 4) =
    if c < m ∧ (bit n 63 = true ∨ bit n c = true) then 0 else s.f (troubleFld c) (c / 4) := by
  induction m with
  | zero => rw [if_neg (by omega)]; rfl
  | succ m ih =>
    have hs : s.clearedTo n (m + 1) = if bit n 63 ∨ bit n m then (s.clearedTo n m).clr (troubleFld m) (m / 4) else s.clearedTo n m := rfl
    rw [hs]
    generalize s.clearedTo n m = u at ih ⊢
    by_cases hc : c = m
    · subst hc
      split
      · next h =>
        rw [if_pos ⟨by omega, h⟩]
        exact (f_setF_same _ _ 0 _ _ (trouble_ok c)).trans (Nat.zero_mod _)
      · next h => rw [ih, if_neg (by omega), if_neg fun hn => h hn.2]
    · have hlt : c < m ↔ c < m + 1 := by omega
      rw [apply_ite (fun t : State => t.f (troubleFld c) (c / 4)), State.clr, trouble_apart u 0 (Ne.symm hc), ite_self, ih]
      exact if_congr (and_congr_left fun _ => hlt) rfl rfl

theorem clearedTo_memory (s : State) (n m : Nat) : (s.clearedTo n m).sram = s.sram ∧ (s.clearedTo n m).dram = s.dram :=
  forN_keeps (P := fun t : State => t.sram = s.sram ∧ t.dram = s.dram) m (fun k t ht => by
    split
    · exact ⟨(setF_sram ..).trans ht.1, (setF_dram ..).trans ht.2⟩
    · exact ht) ⟨rfl, rfl⟩

theorem clearGlobal_eq (s : State) (n : Nat) : s.clearGlobal n = if bit n 63 ∨ bit n 8 then
    forN 4 (fun q u => u.clr F.SP_STATUS_UNLK_CNT q) (s.clearedTo n 17) else s.clearedTo n 17 := by rfl

/-- The unlock counts of the spindles lie apart from the global counters. -/
theorem clearedSpindles_f (s : State) (m : Nat) (c : Fin 17) :
    (forN m (fun q u => u.clr F.SP_STATUS_UNLK_CNT q) s).f (troubleFld c) (c / 4 : Nat) = s.f (troubleFld c) (c / 4 : Nat) := by
  refine forN_keeps (P := fun t : State => t.f (troubleFld c) (c / 4 : Nat) = s.f (troubleFld c) (c / 4 : Nat)) m
    (fun q t ht => (f_setF_ne t 0 ?_).trans ht) rfl
  rw [show (troubleFld c).reg.addr (c / 4 : Nat) 0 = 0x200 + c / 4 * 8 + 0 from rfl,
    show F.SP_STATUS_UNLK_CNT.reg.addr q 0 = 0x21020 + q * 0x100 + 0 from rfl]
  omega

theorem clearedSpindles_memory (s : State) (m : Nat) : (forN m (fun q u => u.clr F.SP_STATUS_UNLK_CNT q) s).sram = s.sram ∧
    (forN m (fun q u => u.clr F.SP_STATUS_UNLK_CNT q) s).dram = s.dram :=
  forN_keeps (P := fun t : State => t.sram = s.sram ∧ t.dram = s.dram) m
    (fun _ _ ht => ⟨(setF_sram ..).trans ht.1, (setF_dram ..).trans ht.2⟩) ⟨rfl, rfl⟩

/-- What a clear leaves of the global counters and of memory. -/
theorem clearGlobal_leaves (s : State) (n : Nat) : (∀ c : Fin 17, (s.clearGlobal n).f (troubleFld c) (c / 4 : Nat) =
      if bit n 63 = true ∨ bit n c = true then 0 else s.f (troubleFld c) (c / 4 : Nat)) ∧
    (s.clearGlobal n).sram = s.sram ∧ (s.clearGlobal n).dram = s.dram := by
  have hf : ∀ c : Fin 17, (s.clearedTo n 17).f (troubleFld c) (c / 4 : Nat) =
      if bit n 63 = true ∨ bit n c = true then 0 else s.f (troubleFld c) (c / 4 : Nat) := fun c => by
    rw [clearedTo_f]
    exact if_congr (and_iff_right c.isLt) rfl rfl
  obtain ⟨hsr, hdr⟩ := clearedTo_memory s n 17
  rw [clearGlobal_eq]
  generalize s.clearedTo n 17 = u at hf hsr hdr ⊢
  split
  · obtain ⟨h1, h2⟩ := clearedSpindles_memory u 4
    exact ⟨fun c => (clearedSpindles_f u 4 c).trans (hf c), h1.trans hsr, h2.trans hdr⟩
  · exact ⟨hf, hsr, hdr⟩

theorem ofOffset_cntClr : Reg.ofOffset (Reg.GLB_CNT_CLR.addr 0 0) = some (.GLB_CNT_CLR, 0, 0) := by decide

theorem globalCounters_cleared {w : Word} (ha : Admits s q .GLB_CNT_CLR 0 0 w) (c : Fin 17) :
    Gives (exec (.glbCntClr q w) s) fun t => (t.sram = s.sram ∧ t.dram = s.dram) ∧
      ((bit w.toNat 63 = true ∨ bit w.toNat c = true) → t.f (troubleFld c) (c / 4 : Nat) = 0) ∧
      (bit w.toNat 63 = false → bit w.toNat c = false → t.f (troubleFld c) (c / 4 : Nat) = s.f (troubleFld c) (c / 4 : Nat)) := by
  obtain ⟨hbound, hact, hc, hcore, hstop, -, hlow⟩ := ha
  have hr : Reaches (s.unshadowed q) q (Reg.GLB_CNT_CLR.addr 0 0) .GLB_CNT_CLR 0 0 := ⟨hbound, hact, ofOffset_cntClr⟩
  have hn := busWrite_noted (v := w) (c := none) .clean .clean hr (by rw [unshadowed_checkWrite, hc]) hcore hstop
  have hput : exec (.glbCntClr q w) s = .next ((s.unshadowed q).busWrite q (Reg.GLB_CNT_CLR.addr 0 0) w .clean .clean).2 := by
    change Host.Outcome.next (s.put q (Reg.GLB_CNT_CLR.addr 0 0) w .clean .clean) = _
    rw [State.put, nextAccess_of_no_low hlow]
  obtain ⟨hf, hsr, hdr⟩ := clearGlobal_leaves (s.unshadowed q) w.toNat
  have hk : ∀ t : State, Noted ((s.unshadowed q).clearGlobal w.toNat) t → t.f (troubleFld c) (c / 4 : Nat) =
      if bit w.toNat 63 = true ∨ bit w.toNat c = true then 0 else s.f (troubleFld c) (c / 4 : Nat) := fun t ht => by
    have ha : (troubleFld c).reg.addr (c / 4 : Nat) 0 = 0x200 + c / 4 * 8 + 0 := rfl
    refine Eq.trans ?_ (hf c)
    rw [State.f, State.rw, ht.word]
    · rfl
    · rw [ha, show Reg.GLB_STATUS.addr 0 0 = 0x10 from rfl]; omega
    · rw [ha, show Reg.GLB_RSVD_LAST.addr 0 0 = 0x40 from rfl]; omega
  refine ⟨_, hput, ⟨hn.recorded.sram.trans hsr, hn.recorded.dram.trans hdr⟩, fun h => ?_, fun h1 h2 => ?_⟩
  · rw [hk _ hn, if_pos h]
  · rw [hk _ hn, if_neg (by simp [h1, h2])]

/-- The counts that a CNT_CLR bit clears are fields of its register that share no bit; the register has no second index. -/
theorem blockCounts_fields {r : Reg} {b : Nat} {l : List Fld} (h : blockCounts r = some (b, l)) :
    b < 64 ∧ r.spec.n2 = 1 ∧ r ≠ .GLB_STATUS ∧ r ≠ .GLB_RSVD_LAST ∧ (∀ x ∈ l, x.reg = r ∧ x.hi < 64 ∧ x.lo ≤ x.hi) ∧
      l.Pairwise fun x y => x.hi < y.lo ∨ y.hi < x.lo := by
  unfold blockCounts at h
  split at h <;> cases h <;> decide

/-- Clearing fields apart from y leaves y. -/
theorem clrAll_apart (l : List Fld) (s : State) (i : Nat) {y : Fld} (hl : ∀ x ∈ l, x.reg = y.reg ∧ x.ok ∧ x.apart y) :
    (s.clrAll l i).f y i = s.f y i := by
  induction l generalizing s with
  | nil => rfl
  | cons x l ih =>
    obtain ⟨hr, hok, ha⟩ := hl x List.mem_cons_self
    exact (ih (s.clr x i) fun z hz => hl z (List.mem_cons_of_mem _ hz)).trans (f_setF_apart s 0 i 0 hok hr.symm ha)

/-- Fields of one register that share no bit are all 0 once they are cleared. -/
theorem clrAll_clears (l : List Fld) (s : State) (i : Nat) {r : Reg} (hl : ∀ x ∈ l, x.reg = r ∧ x.ok) (hp : l.Pairwise Fld.apart) :
    ∀ x ∈ l, (s.clrAll l i).f x i = 0 := by
  induction l generalizing s with
  | nil => nofun
  | cons x l ih =>
    have hrest := fun z (hz : z ∈ l) => hl z (List.mem_cons_of_mem _ hz)
    obtain ⟨hx, hp⟩ := List.pairwise_cons.1 hp
    obtain ⟨hr, hok⟩ := hl x List.mem_cons_self
    intro y hy
    rcases List.mem_cons.1 hy with rfl | hy
    · have hkeep : ((s.clr y i).clrAll l i).f y i = (s.clr y i).f y i :=
        clrAll_apart l _ i fun z hz => ⟨(hrest z hz).1.trans hr.symm, (hrest z hz).2, (hx z hz).symm⟩
      exact hkeep.trans ((f_setF_same s y 0 i 0 hok).trans (Nat.zero_mod _))
    · exact ih _ hrest hp y hy

theorem clrAll_memory (l : List Fld) (s : State) (i : Nat) :
    (s.clrAll l i).sram = s.sram ∧ (s.clrAll l i).dram = s.dram ∧ (s.clrAll l i).dmem = s.dmem := by
  induction l generalizing s with
  | nil => exact ⟨rfl, rfl, rfl⟩
  | cons x l ih =>
    obtain ⟨hs, hd, hm⟩ := ih (s.clr x i)
    exact ⟨hs.trans (setF_sram ..), hd.trans (setF_dram ..), hm.trans (setF_dmem ..)⟩

/-- A write whose CNT_CLR bit is 1 clears the counts of its block. -/
theorem act_clears {s : State} {r : Reg} {b : Nat} {l : List Fld} (h : blockCounts r = some (b, l)) (hec : r ≠ .EC_CTL) (hev : r ≠ .EVF_CIN_CNT)
    {w : Word} (hw : bit w.toNat b = true) (i j : Nat) (stored : Word) (e ecc : Ecc) :
    ∃ x i' j', s.act r i j stored w e ecc = (s.setRw r x i' j').clrAll l i := by
  have hclear : ∀ t : State, t.clearBlock r i w.toNat = t.clrAll l i := fun t => by
    unfold State.clearBlock
    rw [h]
    simp only [hw, not_true_eq_false, if_false, hev]
  have hact : s.act r i j stored w e ecc = (s.setRw r stored i j).clearBlock r i w.toNat ∨
      (r = .CORE_QUEUE ∧ s.act r i j stored w e ecc = (s.writeCoreQueue i stored).clearBlock r i w.toNat) := by
    unfold blockCounts at h
    split at h <;> cases h
    case h_2 => exact absurd rfl hec
    case h_15 => exact .inr ⟨rfl, rfl⟩
    case h_16 => exact absurd rfl hev
    all_goals exact .inl rfl
  rcases hact with ha | ⟨rfl, ha⟩
  · exact ⟨_, _, _, by rw [ha, hclear]⟩
  · rw [ha, hclear]
    unfold State.writeCoreQueue
    split
    · exact ⟨_, _, _, rfl⟩
    · exact ⟨_, _, _, rfl⟩

/-- What a clear of a block's counts leaves. -/
theorem blockCounters_cleared {r : Reg} {i j b : Nat} {l : List Fld} (hm : Reg.ofOffset (r.addr i j) = some (r, i, j))
    (h : blockCounts r = some (b, l)) (hec : r ≠ .EC_CTL) (hev : r ≠ .EVF_CIN_CNT)
    (ha : Admits s q r i j (force (s.rw r i j &&& ~~~(BitVec.ofNat 64 r.spec.w1c)) b b 1)) :
    Gives (exec (.blockCntClr q (BitVec.ofNat 24 (r.addr i j))) s) fun t =>
      (∀ x ∈ l, t.f x i = 0) ∧ (t.sram = s.sram ∧ t.dram = s.dram) ∧ t.dmem = s.dmem := by
  obtain ⟨hb, hn2, hst, hrv, hl, hp⟩ := blockCounts_fields h
  have hw : bit (force (s.rw r i j &&& ~~~(BitVec.ofNat 64 r.spec.w1c)) b b 1).toNat b = true := by
    rw [bit_eq_bits, toNat_force _ hb (Nat.le_succ b), bits_setBits_same]
    simp
  generalize hv : force (s.rw r i j &&& ~~~(BitVec.ofNat 64 r.spec.w1c)) b b 1 = w at ha hw
  obtain ⟨hbound, hact, hc, hcore, hstop, -, hlow⟩ := ha
  obtain ⟨-, h8, hlt⟩ := ofOffset_some hm
  have hput : exec (.blockCntClr q (BitVec.ofNat 24 (r.addr i j))) s =
      .next ((s.unshadowed q).busWrite q (r.addr i j) w .clean .clean).2 := by
    change execBlockCntClr q _ s = _
    unfold execBlockCntClr
    rw [ofNat24_align h8 hlt, hm]
    dsimp only
    rw [h]
    dsimp only
    rw [hv]
    change Host.Outcome.next (s.put q (r.addr i j) w .clean .clean) = _
    rw [State.put, nextAccess_of_no_low hlow]
  have hr : Reaches (s.unshadowed q) q (r.addr i j) r i j := ⟨hbound, hact, hm⟩
  have hn := busWrite_noted (v := w) (c := none) .clean .clean hr (by rw [unshadowed_checkWrite, hc]) hcore hstop
  obtain ⟨x, i', j', hx⟩ := act_clears (s := s.unshadowed q) h hec hev hw i j
    (storedWord r.spec ((s.unshadowed q).rw r i j) w) .clean .clean
  have hj : j = 0 := by
    obtain ⟨-, hj, -⟩ := memberAt_some (findIn_some hm)
    omega
  subst hj
  rw [State.judged, hx] at hn
  obtain ⟨hsr, hdr, hdm⟩ := clrAll_memory l ((s.unshadowed q).setRw r x i' j') i
  refine ⟨_, hput, fun y hy => ?_, ⟨hn.recorded.sram.trans hsr, hn.recorded.dram.trans hdr⟩, hn.recorded.dmem.trans hdm⟩
  refine Eq.trans ?_ (clrAll_clears l ((s.unshadowed q).setRw r x i' j') i hl hp y hy)
  rw [State.f, State.rw, (hl y hy).1, hn.word _ (ne_of_member hm (by decide) hst) (ne_of_member hm (by decide) hrv), ← (hl y hy).1]
  rfl

end

/-- Settles O57: a read answers the register's view and leaves the words as they were, a bad access is recorded, data memory is reached at the
word that CORE_DMEM_ADDR names, and the counter clears set their fields to 0. -/
theorem readsAndCounters : Obligations.ReadsAndCounters := by
  unfold Obligations.ReadsAndCounters
  intro q r i j b l hi w e k c write s off at_ good still v reads got n memory clearing
  refine ⟨?_, ?_, ?_, ?_, ?_, ?_, ?_, ?_, ?_, ?_⟩
  · rintro ⟨hm, ha, hacc, hlow⟩
    exact read_full hm ha hacc hlow
  · rintro ⟨hm, ha, hacc, hlow⟩
    exact read_low hm ha hacc hlow
  · rintro ⟨hm, ha, hacc, hlow⟩ hh
    exact read_high_held hm hlow hh
  · rintro ⟨hm, ha, hacc, hlow⟩ hh
    exact read_high hm ha hacc hlow hh
  · exact read_refused
  · intro hb hr
    refine (badAccess_noted hb hr).imp ?_
    rintro t ⟨⟨herr, hword, hmem, hd⟩, hg⟩
    exact ⟨herr, hword, hmem, hd, hg⟩
  · exact dmem_written
  · exact dmem_read
  · exact fun ha => globalCounters_cleared ha c
  · exact blockCounters_cleared

end Sys2Proof.Machine
end

section
/-! PROOFS. What a voice's operations leave: device time, the voice's plan, and the fields that a kerf and a release write (for O19, O20). -/

namespace Sys2Proof.Machine

/-! ### The view -/

/-- What a voice plays now and next: its item, its next kerf, the items taken for it, and whether it starves. -/
def VoiceSt.plan (x : VoiceSt) : Option Item × Option Int × List Taken × Bool := (x.item, x.kerfAt, x.taken, x.starved)

/-- Fields of a voice that few of its operations write; the first counts the grains of the item in play. -/
def playFlds : List Fld :=
  [F.VOICE_POS_GRAIN, F.VOICE_KERF_SEC_SEC, F.VOICE_KERF_FRAC_FRAC, F.CORE_STATUS_STARVED, F.VOICE_STATUS_WAIT_LATE]

/-- Device time, the channels' grids, and those fields of voice v. -/
def State.reading (s : State) (v : Nat) : TimeSt × (Nat → Grid) × List Nat := (s.time, fun n => (s.chan n).grid, playFlds.map (s.f · v))

/-- Device time, the grids and those fields, and what voice v plays. -/
def State.playing (s : State) (v : Nat) : (TimeSt × (Nat → Grid) × List Nat) × (Option Item × Option Int × List Taken × Bool) :=
  (s.reading v, (s.voice v).plan)

/-! ### Fields -/

/-- Putting a value into a field leaves every field that shares no bit with it. -/
theorem f_setF_disjoint (s : State) {x y : Fld} (w : Nat) {i j i' j' : Nat} (hx : x.ok) (h : x.apart y) :
    (s.setF x w i j).f y i' j' = s.f y i' j' := by
  by_cases ha : y.reg.addr i' j' = x.reg.addr i j
  · have hs : (s.setF x w i j).rw y.reg i' j' = (s.setF x w i j).rw x.reg i j := by rw [State.rw, State.rw, ha]
    have h0 : s.rw y.reg i' j' = s.rw x.reg i j := by rw [State.rw, State.rw, ha]
    rw [State.f, State.f, hs, h0, setF_toNat s x w i j hx]
    rcases h with h | h
    · exact bits_setBits_above _ _ h (Nat.le_succ_of_le hx.2)
    · exact bits_setBits_below _ _ h
  · exact f_setF_ne s w ha

/-- A register below the windows of the channels. -/
def Reg.low (r : Reg) : Bool := !r.spec.voice && decide (r.spec.base + 63 * r.spec.s1 < 0x100000)

theorem addr_low {r : Reg} (h : r.low = true) {i : Nat} (hi : i < 64) : r.addr i 0 < 0x100000 := by
  simp only [Reg.low, Bool.and_eq_true, Bool.not_eq_true', decide_eq_true_eq] at h
  have := Nat.mul_le_mul_right r.spec.s1 (Nat.le_of_lt_succ hi)
  simp only [Reg.addr, h.1]
  simp only [Bool.false_eq_true, if_false, Nat.zero_mul]
  omega

theorem addr_playFlds (v : Nat) {y : Fld} (hy : y ∈ playFlds) :
    0x100000 ≤ y.reg.addr v 0 ∧ y.reg.addr v 0 % 0x1000 = y.reg.spec.base % 0x1000 ∧ (y.reg.addr v 0 % 0x10000 < 0x8000 → y = F.CORE_STATUS_STARVED) ∧
      (y = F.CORE_STATUS_STARVED → y.reg.addr v 0 % 0x8000 = 8) := by
  simp only [playFlds, List.mem_cons, List.not_mem_nil, or_false] at hy
  rcases hy with rfl | rfl | rfl | rfl | rfl
  · rw [show F.VOICE_POS_GRAIN.reg.addr v 0 = 0x108000 + v / 4 * 0x10000 + v % 4 * 0x1000 + 0x10 + 0 * 0 from rfl,
      show F.VOICE_POS_GRAIN.reg.spec.base = 0x10 from rfl]
    exact ⟨by omega, by omega, by omega, fun h => absurd h (by decide)⟩
  · rw [show F.VOICE_KERF_SEC_SEC.reg.addr v 0 = 0x108000 + v / 4 * 0x10000 + v % 4 * 0x1000 + 0x18 + 0 * 0 from rfl,
      show F.VOICE_KERF_SEC_SEC.reg.spec.base = 0x18 from rfl]
    exact ⟨by omega, by omega, by omega, fun h => absurd h (by decide)⟩
  · rw [show F.VOICE_KERF_FRAC_FRAC.reg.addr v 0 = 0x108000 + v / 4 * 0x10000 + v % 4 * 0x1000 + 0x20 + 0 * 0 from rfl,
      show F.VOICE_KERF_FRAC_FRAC.reg.spec.base = 0x20 from rfl]
    exact ⟨by omega, by omega, by omega, fun h => absurd h (by decide)⟩
  · rw [show F.CORE_STATUS_STARVED.reg.addr v 0 = 0x200008 + v * 0x8000 + 0 * 0 from rfl,
      show F.CORE_STATUS_STARVED.reg.spec.base = 0x200008 from rfl]
    exact ⟨by omega, by omega, fun _ => rfl, fun _ => by omega⟩
  · rw [show F.VOICE_STATUS_WAIT_LATE.reg.addr v 0 = 0x108000 + v / 4 * 0x10000 + v % 4 * 0x1000 + 0x8 + 0 * 0 from rfl,
      show F.VOICE_STATUS_WAIT_LATE.reg.spec.base = 0x8 from rfl]
    exact ⟨by omega, by omega, by omega, fun h => absurd h (by decide)⟩

/-- Field x, in a register of the voices, lies off field y: they share no bit, or their registers no offset. -/
def Fld.missesPlay (x y : Fld) : Bool :=
  decide (x.hi < 64 ∧ x.lo ≤ x.hi ∧ (x.hi < y.lo ∨ y.hi < x.lo)) ||
    (x.reg.spec.voice && decide (x.reg.spec.base < 0x1000 ∧ x.reg.spec.base ≠ y.reg.spec.base % 0x1000))

section
variable (s : State) (v : Nat)

theorem playing_ext {s t : State} {v : Nat} (ht : t.time = s.time) (hc : ∀ n, (t.chan n).grid = (s.chan n).grid)
    (hf : ∀ y ∈ playFlds, t.f y v = s.f y v) (hp : (t.voice v).plan = (s.voice v).plan) : t.playing v = s.playing v :=
  Prod.ext (Prod.ext ht (Prod.ext (funext hc) (List.map_congr_left hf))) hp

theorem playing_of_reads {s t : State} {v : Nat} (ht : t.time = s.time) (hc : t.chans = s.chans) (hv : t.voices = s.voices)
    (hf : ∀ y ∈ playFlds, t.f y v = s.f y v) : t.playing v = s.playing v := by
  refine playing_ext ht (fun n => ?_) hf ?_
  · rw [State.chan, hc]; rfl
  · rw [State.voice, hv]; rfl

theorem playing_setRw_low {r : Reg} (hr : r.low = true) (w : Word) {i : Nat} (hi : i < 64) : (s.setRw r w i).playing v = s.playing v :=
  playing_of_reads rfl rfl rfl fun _ hy =>
    f_setRw_ne s w (Nat.ne_of_gt (Nat.lt_of_lt_of_le (addr_low hr hi) (addr_playFlds v hy).1))

/-- A field below the windows of the channels is none of them. -/
theorem playing_setF_low {x : Fld} (h : x.reg.low = true) (w : Nat) {i : Nat} (hi : i < 64) : (s.setF x w i).playing v = s.playing v :=
  playing_setRw_low s v h _ hi

theorem addr_voice_ne {r : Reg} (hr : r.spec.voice = true) {y : Fld} (hy : y ∈ playFlds)
    (h : r.spec.base < 0x1000 ∧ r.spec.base ≠ y.reg.spec.base % 0x1000) (u : Nat) : y.reg.addr v 0 ≠ r.addr u 0 := fun he => by
  obtain ⟨-, hm, -⟩ := addr_playFlds v hy
  rw [he, Reg.addr, hr, if_pos rfl, voiceBase] at hm
  omega

/-- The other registers of the voices are none of theirs. -/
theorem playing_setRw_voice {r : Reg} (hr : r.spec.voice = true)
    (h : ∀ y ∈ playFlds, r.spec.base < 0x1000 ∧ r.spec.base ≠ y.reg.spec.base % 0x1000) (w : Word) (u : Nat) :
    (s.setRw r w u).playing v = s.playing v :=
  playing_of_reads rfl rfl rfl fun y hy => f_setRw_ne s w (addr_voice_ne v hr hy (h y hy) u)

/-- A field of a voice's other registers, or of other bits, is none of them, whichever voice u it belongs to. -/
theorem playing_setF_voice {x : Fld} (h : playFlds.all x.missesPlay = true) (w u : Nat) : (s.setF x w u).playing v = s.playing v := by
  refine playing_of_reads rfl rfl rfl fun y hy => ?_
  have hxy := List.all_eq_true.1 h y hy
  simp only [Fld.missesPlay, Bool.or_eq_true, Bool.and_eq_true, decide_eq_true_eq] at hxy
  rcases hxy with ⟨hh, hl, ha⟩ | ⟨hv, hb⟩
  · exact f_setF_disjoint s w ⟨hh, hl⟩ ha
  · exact f_setF_ne s w (addr_voice_ne v hv hy hb u)

/-- The lane status of a channel is none of them. -/
theorem playing_flag_overflow (n : Nat) : (s.flag F.MK_STATUS_ACT_OVF n).playing v = s.playing v := by
  refine playing_of_reads (flag_time ..) (flag_chans ..) (flag_voices ..) fun y hy => f_setF_ne s 1 fun he => ?_
  obtain ⟨-, -, h8, h0⟩ := addr_playFlds v hy
  rw [show F.MK_STATUS_ACT_OVF.reg.addr n 0 = 0x102020 + n * 0x10000 + 0 * 0 from rfl] at he
  have := h0 (h8 (by omega))
  omega

/-! ### Hidden state -/

theorem playing_modVoice {g : VoiceSt → VoiceSt} (h : ∀ x, (g x).plan = x.plan) (u : Nat) : (s.modVoice u g).playing v = s.playing v :=
  Prod.ext rfl (modVoice_keeps s VoiceSt.plan h u v)

theorem playing_modVoice_ne {g : VoiceSt → VoiceSt} {u : Nat} (h : v ≠ u) : (s.modVoice u g).playing v = s.playing v :=
  Prod.ext rfl (by rw [State.playing, voice_modVoice_ne s g h]; rfl)

@[simp] theorem playing_modInput (i : Nat) (g : InputSt → InputSt) : (s.modInput i g).playing v = s.playing v := rfl

theorem playing_modChan {g : ChanSt → ChanSt} (h : ∀ c, (g c).grid = c.grid) (n : Nat) : (s.modChan n g).playing v = s.playing v := by
  refine Prod.ext (Prod.ext rfl (Prod.ext (funext fun m => ?_) rfl)) rfl
  change ((s.modChan n g).chan m).grid = (s.chan m).grid
  by_cases hm : m = n
  · subst hm; rw [chan_modChan_same, h]
  · rw [chan_modChan_ne _ _ hm]

@[simp] theorem playing_drawn : s.drawn.playing v = s.playing v := rfl

@[simp] theorem playing_fire (src t : Nat) : (s.fire src t).playing v = s.playing v := by
  unfold State.fire
  split <;> rfl

@[simp] theorem playing_fireNow (src : Nat) : (s.fireNow src).playing v = s.playing v := playing_fire ..

@[simp] theorem playing_fireVtrb (u b t : Nat) : (s.fireVtrb u b t).playing v = s.playing v := by
  unfold State.fireVtrb
  split
  · exact playing_fire ..
  · rfl

@[simp] theorem playing_trouble (x : Trouble) : (s.trouble x).playing v = s.playing v :=
  playing_setF_low s v (by cases x <;> decide) _ (by cases x <;> decide)

@[simp] theorem playing_troubleBy (x : Trouble) (k : Nat) : (s.troubleBy x k).playing v = s.playing v :=
  playing_setF_low s v (by cases x <;> decide) _ (by cases x <;> decide)

/-- Folding what leaves a view leaves it. -/
theorem playing_foldl {α : Type} {f : State → α → State} (h : ∀ t x, (f t x).playing v = t.playing v) (l : List α) :
    (l.foldl f s).playing v = s.playing v := foldl_same (State.playing · v) h l s

end

end Sys2Proof.Machine
end

section
/-! PROOFS. The operations of a voice that leave what it plays: buffers, memory errors, refill, samples, streams, jumps and lanes (for O19, O20). -/

namespace Sys2Proof.Machine

section
variable (s : State) (v : Nat)

/-! ### Buffers and memory errors (R124, R125, R252) -/

@[simp] theorem playing_settle (i : Nat) (last : Option Nat) : (s.settle i last).playing v = s.playing v := by
  unfold State.settle
  split
  · split <;> rfl
  · rfl

@[simp] theorem playing_dropRef (u : Option Nat) (h : Nat) : (s.dropRef u h).playing v = s.playing v := playing_settle ..
@[simp] theorem playing_dropDesc (h : Nat) : (s.dropDesc h).playing v = s.playing v := playing_settle ..
@[simp] theorem playing_addRefs (hs : List Nat) : (s.addRefs hs).playing v = s.playing v := playing_foldl s v (by exact fun _ _ => rfl) hs
@[simp] theorem playing_dropRefs (u : Option Nat) (hs : List Nat) : (s.dropRefs u hs).playing v = s.playing v :=
  playing_foldl s v (fun t h => playing_dropRef t v u h) hs

@[simp] theorem playing_retireAt (u : Nat) : (s.retireAt u).playing v = s.playing v :=
  playing_foldl s v (fun t p => by split <;> rfl) s.buffers

theorem playing_logAt (a : Option Nat) : ({ s with mem := { s.mem with logAt := a } } : State).playing v = s.playing v := rfl

@[simp] theorem playing_logError (kind req addr : Nat) : (s.logError kind req addr).playing v = s.playing v := by
  have ht : ((s.trouble .eccUe).fireNow 624).playing v = s.playing v := (playing_fireNow ..).trans (playing_trouble ..)
  unfold State.logError
  generalize (s.trouble .eccUe).fireNow 624 = t at ht
  dsimp only
  split
  · rw [playing_logAt, State.flag, playing_setF_low _ v (by decide) _ (by decide), playing_setF_low _ v (by decide) _ (by decide),
      playing_setF_low _ v (by decide) _ (by decide), playing_setF_low _ v (by decide) _ (by decide), ht]
  · exact ht

@[simp] theorem playing_eccEvent (e : Ecc) (d marked : Bool) (req addr : Nat) : (s.eccEvent e d marked req addr).playing v = s.playing v := by
  unfold State.eccEvent
  split
  · rfl
  · exact (playing_setF_low _ v (by split <;> decide) _ (by decide)).trans (playing_trouble ..)
  · exact playing_logError ..
  · exact (playing_setF_low _ v (by decide) _ (by decide)).trans (playing_logError ..)

/-! ### Refill (R109, R113, R115) -/

/-- Refill appends requests, or grains skipped as covered, to the line buffer, and changes nothing else of the voices. -/
theorem request_slots (l : List Ahead) : ∃ more, ((State.request v l s).voice v) = { s.voice v with slots := (s.voice v).slots ++ more } ∧
    ∀ z ∈ more, z = .flying ∨ z = .covered := by
  induction l generalizing s with
  | nil => exact ⟨[], by simp [State.request], by simp⟩
  | cons a l ih =>
    have step : ∀ (t : State) (z : LineSlot), t.voice v = s.voice v → (z = .flying ∨ z = .covered) → ∃ more,
        (State.request v l (t.modVoice v fun x => { x with slots := x.slots ++ [z] })).voice v =
          { s.voice v with slots := (s.voice v).slots ++ more } ∧ ∀ z ∈ more, z = .flying ∨ z = .covered := fun t z ht hz => by
      obtain ⟨more, hm, hall⟩ := ih (t.modVoice v fun x => { x with slots := x.slots ++ [z] })
      refine ⟨z :: more, ?_, List.forall_mem_cons.2 ⟨hz, hall⟩⟩
      rw [hm, voice_modVoice_same, ht]
      simp
    rw [State.request]
    split_ifs
    · exact step (s.trouble .coverSkip) .covered (trouble_voice ..) (.inr rfl)
    · exact step s .flying rfl (.inl rfl)
    · exact ⟨[], by simp, by simp⟩

theorem refill_slots : ∃ more, (s.refill v).voice v = { s.voice v with slots := (s.voice v).slots ++ more } ∧
    ∀ z ∈ more, z = .flying ∨ z = .covered := by
  rw [State.refill, State.showRefill, setF_voice, setF_voice, setF_voice]
  exact request_slots ..

@[simp] theorem playing_request (l : List Ahead) : (State.request v l s).playing v = s.playing v := by
  induction l generalizing s with
  | nil => rfl
  | cons a l ih =>
    rw [State.request]
    split_ifs
    · exact (ih _).trans ((playing_modVoice _ v (by exact fun _ => rfl) v).trans (playing_trouble ..))
    · exact (ih _).trans (playing_modVoice s v (by exact fun _ => rfl) v)
    · rfl

variable {v} in
theorem playing_showRefill (hv : v < 64) : (s.showRefill v).playing v = s.playing v :=
  (playing_setF_low _ v (by decide) _ hv).trans ((playing_setF_low _ v (by decide) _ hv).trans (playing_setF_low _ v (by decide) _ hv))

variable {v} in
theorem playing_refill (hv : v < 64) : (s.refill v).playing v = s.playing v := (playing_showRefill _ hv).trans (playing_request ..)

variable {v} in
theorem playing_freeSlot (hv : v < 64) : (s.freeSlot v).playing v = s.playing v := by
  unfold State.freeSlot
  split
  · rw [playing_modVoice _ v (fun _ => by rfl), State.clr, playing_setF_low _ v (by decide) _ hv, playing_setF_low _ v (by decide) _ (by decide)]
  · rfl

/-! ### What is shown and sent (R108, R175) -/

@[simp] theorem playing_showVoice : (s.showVoice v).playing v = s.playing v := by
  unfold State.showVoice
  split
  · exact playing_setF_voice s v (by decide) _ v
  · extract_lets at_ t
    have ht : t.playing v = s.playing v := (playing_setF_voice _ v (by decide) _ v).trans (playing_setF_voice _ v (by decide) _ v)
    split
    · exact ((playing_setF_voice _ v (by decide) _ v).trans (playing_setF_voice _ v (by decide) _ v)).trans ht
    · exact (playing_setF_voice _ v (by decide) _ v).trans ht

@[simp] theorem playing_sendLanes (n : Nat) (p : Int) : (s.sendLanes n p).playing v = s.playing v := by
  have hchange : ∀ (t : State) (l : Nat) (x : Int × Int), (t.sendChange n l x).playing v = t.playing v := fun t l x => by
    have hif : ∀ (c : Prop) [Decidable c] (u : State), u.playing v = t.playing v → (if c then t else u).playing v = t.playing v :=
      fun c _ u hu => by split <;> simp [hu]
    exact hif _ _ (playing_modChan t v (by exact fun _ => rfl) n)
  exact forN_keeps (P := fun t : State => t.playing v = s.playing v) 4 (fun l t ht => (hchange ..).trans ht) rfl

/-! ### Samples and grains (R112, R115, R249) -/

@[simp] theorem playing_presentSamples (d : Int) : (s.presentSamples v d).playing v = s.playing v := by
  unfold State.presentSamples
  split
  · exact playing_modVoice s v (by exact fun _ => rfl) v
  · rfl

@[simp] theorem playing_presentAt (p : Int) : (s.presentAt v p).playing v = s.playing v := playing_presentSamples ..

@[simp] theorem playing_keepLine (j : Nat) (c : Copy) : (s.keepLine v j c).playing v = s.playing v := playing_modVoice s v (by exact fun _ => rfl) v

@[simp] theorem playing_settleLine (j : Nat) (spans : List Span) (first : Option Copy) : (s.settleLine v j spans first).playing v = s.playing v := by
  unfold State.settleLine
  dsimp only
  split
  · split
    · exact playing_keepLine ..
    · exact (playing_keepLine ..).trans (playing_drawn ..)
  · exact playing_keepLine ..

variable {v} in
theorem playing_missSamples (hv : v < 64) (p : Int) (n : Nat) : (s.missSamples v p n).playing v = s.playing v := by
  have hb : (s.bumpBy F.REFILL_STAT_MISS_BLK (n / 64) v).playing v = s.playing v := playing_setF_low s v (by decide) _ hv
  unfold State.missSamples
  extract_lets t d fresh
  change t.playing v = _ at hb
  have hf : (fresh t).playing v = s.playing v := by
    unfold fresh
    rw [playing_modVoice _ v (fun _ => by rfl), playing_fire, playing_trouble, State.bump, State.bumpBy, playing_setF_low _ v (by decide) _ hv, hb]
  split
  · exact hb
  · split
    · exact (playing_modVoice t v (by exact fun _ => rfl) v).trans hb
    · exact hf
  · exact hf

variable {v} in
theorem playing_missGrain (hv : v < 64) (j len : Nat) (p : Int) : (s.missGrain v j len p).playing v = s.playing v :=
  (playing_missSamples _ hv p len).trans (playing_modVoice s v (by exact fun _ => rfl) v)

@[simp] theorem playing_lateLines (late : List LateLine) : (s.lateLines v late).playing v = s.playing v := by
  unfold State.lateLines
  split
  · rfl
  · rw [playing_modVoice _ v (fun _ => by rfl), playing_setF_low _ v (by decide) _ (by decide), State.bumpBy,
      playing_setF_low _ v (by decide) _ (by decide)]

variable {v} in
theorem playing_dramGrain (hv : v < 64) (j len : Nat) (p : Int) (spans : List Span) : (s.dramGrain v j len p spans).playing v = s.playing v := by
  have hw : ∀ t : State, t.playing v = s.playing v → (t.bump F.REFILL_STAT_WITHDRAWN v).playing v = s.playing v := fun t ht =>
    (playing_setF_low t v (by decide) _ hv).trans ht
  unfold State.dramGrain
  extract_lets due drop
  have hd : (drop s).playing v = s.playing v := playing_modVoice s v (by exact fun _ => rfl) v
  split
  · exact (playing_refill _ hv).trans ((playing_modVoice _ v (by exact fun _ => rfl) v).trans hd)
  · split
    · rw [playing_refill _ hv, playing_presentAt, playing_keepLine, hd]
    · split
      · rw [playing_refill _ hv, playing_presentAt, playing_settleLine, hd]
      · rw [playing_refill _ hv, playing_missGrain _ hv, hw _ hd]
  · rw [playing_refill _ hv, playing_missGrain _ hv, hw _ hd]
  · rw [playing_refill _ hv, playing_missGrain _ hv]

/-! ### Streams (R119, R120) -/

@[simp] theorem playing_modStream (u : Nat) (g : StreamPlay → StreamPlay) : (s.modStream u g).playing v = s.playing v :=
  playing_modVoice s v (by exact fun _ => rfl) u

variable {v} in
theorem playing_placeByTime {b : Nat} (hb : b < 64) (u : Nat) (g : Grid) (it : Item) (pk : Packet) :
    (s.placeByTime u b g it pk).playing v = s.playing v := by
  have hs : ∀ k, (s.shave b k).playing v = s.playing v := fun k => by
    rw [State.shave, playing_troubleBy, State.bumpBy, playing_setF_low _ v (by decide) _ hb]
  have hslip : ∀ t : State, (if pk.start then t.modBinding b fun y => { y with slip := 0 } else t).playing v = t.playing v := fun t => by
    split <;> rfl
  unfold State.placeByTime
  dsimp only
  rw [playing_setF_low _ v (by decide) _ hb, playing_setF_low _ v (by decide) _ hb, playing_modStream, hslip, hs]

theorem binding_lt {it : Item} {b : Nat} (h : it.binding = some b) : b < 64 := by
  unfold Item.binding at h
  split at h
  · cases h
    exact Nat.mod_lt _ (by decide)
  · cases h

@[simp] theorem playing_openStream (u : Nat) (g : Grid) (it : Item) : (s.openStream u g it).playing v = s.playing v := by
  unfold State.openStream
  split
  · rfl
  · next b hb =>
    extract_lets t ps
    have ht : t.playing v = s.playing v := (playing_setF_low _ v (by decide) _ (binding_lt hb)).trans (playing_modStream ..)
    split
    · exact ht
    · exact (playing_foldl _ v (fun _ _ => playing_placeByTime _ (binding_lt hb) ..) _).trans
        ((playing_placeByTime _ (binding_lt hb) ..).trans ht)

@[simp] theorem playing_closeStream (u : Nat) : (s.closeStream u).playing v = s.playing v := by
  unfold State.closeStream
  split
  · split
    · next b hb =>
      split
      · rfl
      · exact playing_setF_low s v (by decide) _ (binding_lt hb)
    · rfl
  · rfl

/-! ### The start of a grain (R64, R93, R107) -/

@[simp] theorem playing_actAt (n : Nat) (p : Int) (d : Desc) : (s.actAt v n p d).playing v = s.playing v := by
  unfold State.actAt
  split
  · exact playing_modVoice s v (by exact fun _ => rfl) v
  · exact playing_modVoice s v (by exact fun _ => rfl) v
  · unfold State.trigoAt
    split <;> rfl
  · rfl

@[simp] theorem playing_rampAt (d : Desc) : (s.rampAt v d).playing v = s.playing v := by
  unfold State.rampAt
  split
  · exact playing_modVoice s v (by exact fun _ => rfl) v
  · rfl

@[simp] theorem playing_firstSample (n : Nat) (it : Item) : (s.firstSample v n it).playing v = s.playing v := by
  unfold State.firstSample
  dsimp only
  split
  · exact (playing_fire ..).trans (playing_fire ..)
  · rw [playing_modVoice _ v (fun _ => by rfl), playing_foldl _ v (fun t d => playing_rampAt t v d),
      playing_foldl _ v (fun t d => playing_actAt t v n _ d), playing_fire]

@[simp] theorem playing_gmatch (it : Item) (j t : Nat) : (s.gmatch v it j t).playing v = s.playing v := by
  unfold State.gmatch
  split
  · exact playing_fire ..
  · rfl

variable {v} in
theorem playing_grainData (hv : v < 64) (n j : Nat) (it : Item) (late : List LateLine) : (s.grainData v n j it late).playing v = s.playing v := by
  unfold State.grainData
  extract_lets ws p spans t t'
  have ht : t.playing v = s.playing v := by
    unfold t
    split
    · exact playing_openStream ..
    · rfl
  have ht' : t'.playing v = s.playing v := playing_presentAt ..
  split
  · split
    · exact (playing_refill _ hv).trans ((playing_modVoice _ v (by exact fun _ => rfl) v).trans ht)
    · split
      · exact ht
      · exact (playing_lateLines ..).trans ht
  · split
    · exact (playing_lateLines ..).trans (playing_dramGrain _ hv ..)
    · split
      · rfl
      · split
        · exact ht'
        · split
          · exact (playing_lateLines ..).trans ht'
          · exact (playing_lateLines ..).trans ((playing_settleLine ..).trans ht')

/-! ### Descriptors, the queue and jumps (R64, R67, R102, R176, R376) -/

@[simp] theorem playing_armJump (t m : Nat) (dis : Bool) (ec en : Nat) : (s.armJump v t m dis ec en).playing v = s.playing v := by
  have hv : ∀ (u : State) (x : Fld) (w : Nat), playFlds.all x.missesPlay = true → (u.setF x w v).playing v = u.playing v := fun u x w h =>
    playing_setF_voice u v h w v
  unfold State.armJump
  split
  · rw [State.clr, hv _ _ _ (by decide), playing_modInput, playing_modVoice _ v (fun _ => by rfl)]
  · dsimp only
    rw [hv _ _ _ (by decide), hv _ _ _ (by decide), hv _ _ _ (by decide), hv _ _ _ (by decide), State.flag, hv _ _ _ (by decide), playing_modInput,
      playing_modVoice _ v (fun _ => by rfl)]

@[simp] theorem playing_holdMark (n : Nat) {g : VoiceSt → VoiceSt} (hg : ∀ x, (g x).plan = x.plan) : (s.holdMark v n g).playing v = s.playing v := by
  unfold State.holdMark
  split
  · exact playing_flag_overflow ..
  · exact playing_modVoice s v hg v

@[simp] theorem playing_reachDesc (t : Nat) (d : Desc) : (s.reachDesc v t d).playing v = s.playing v := by
  unfold State.reachDesc
  split
  · exact playing_armJump ..
  · exact playing_dropDesc ..
  · split
    · exact playing_holdMark s v _ fun _ => rfl
    · exact playing_modVoice s v (by exact fun _ => rfl) v
  · exact playing_modVoice s v (by exact fun _ => rfl) v

@[simp] theorem playing_reachAll (t : Nat) (acts : List Desc) : (s.reachAll v t acts).playing v = s.playing v :=
  (playing_foldl _ v (fun u d => playing_reachDesc u v t d) _).trans (playing_modVoice s v (by exact fun _ => rfl) v)

@[simp] theorem playing_freeTaken (pass : Option Nat) : (s.freeTaken v pass).playing v = s.playing v := by
  have hq : ∀ (t : State) (n : Nat), (t.queueLow v n).playing v = t.playing v := fun t n => by
    unfold State.queueLow
    dsimp only
    split
    · exact playing_fireNow ..
    · rfl
  exact (hq ..).trans (playing_modVoice s v (by exact fun _ => rfl) v)

@[simp] theorem playing_scheduleMarks (n : Nat) (p : Int) : (s.scheduleMarks v n p).playing v = s.playing v :=
  (playing_foldl _ v (fun u d => by split <;> exact playing_modVoice u v (by exact fun _ => rfl) v) _).trans (playing_modVoice s v (by exact fun _ => rfl) v)

@[simp] theorem playing_followJump : (s.followJump v).playing v = s.playing v := by
  unfold State.followJump
  split
  · split
    · exact playing_modVoice s v (by exact fun _ => rfl) v
    · rfl
  · rfl

/-! ### Register commits (R95) -/

@[simp] theorem playing_commitRegs : (s.commitRegs v).playing v = s.playing v := playing_modVoice s v (by exact fun _ => rfl) v

@[simp] theorem playing_regsAt (p : Int) (w : Option Word) (r : Option Nat) : (s.regsAt v p w r).playing v = s.playing v := by
  unfold State.regsAt
  extract_lets t
  have ht : t.playing v = s.playing v := by
    unfold t
    split
    · exact playing_setRw_voice s v rfl (by decide) _ v
    · rfl
  split
  · split
    · exact ht
    · exact (playing_modChan t v (by exact fun _ => rfl) _).trans ht
  · exact ht

@[simp] theorem playing_applyRegs (p : Int) : (s.applyRegs v p).playing v = s.playing v :=
  (playing_regsAt ..).trans (playing_modVoice s v (by exact fun _ => rfl) v)

end

end Sys2Proof.Machine
end

section
/-! PROOFS. Kerfs and grains (O19; R38, R78, R93, R106, R109, R143). -/

namespace Sys2Proof.Machine

section
variable {s t : State} {v n : Nat}

/-! ### What stays while an item begins -/

/-- Device time, the grids, and the fields that the beginning of an item leaves. -/
def State.kept (s : State) (v : Nat) : TimeSt × (Nat → Grid) × List Nat := (s.time, fun n => (s.chan n).grid, playFlds.tail.map (s.f · v))

theorem kept_of_reading (h : t.reading v = s.reading v) : t.kept v = s.kept v :=
  congrArg (fun r : TimeSt × (Nat → Grid) × List Nat => (r.1, r.2.1, r.2.2.tail)) h

theorem kept_of_playing (h : t.playing v = s.playing v) : t.kept v = s.kept v := kept_of_reading (congrArg Prod.fst h)

theorem plan_of_playing (h : t.playing v = s.playing v) : (t.voice v).plan = (s.voice v).plan := congrArg Prod.snd h

theorem item_of_plan (h : (t.voice v).plan = (s.voice v).plan) : (t.voice v).item = (s.voice v).item := congrArg Prod.fst h
theorem kerfAt_of_plan (h : (t.voice v).plan = (s.voice v).plan) : (t.voice v).kerfAt = (s.voice v).kerfAt := congrArg (·.2.1) h
theorem taken_of_plan (h : (t.voice v).plan = (s.voice v).plan) : (t.voice v).taken = (s.voice v).taken := congrArg (·.2.2.1) h
theorem starved_of_plan (h : (t.voice v).plan = (s.voice v).plan) : (t.voice v).starved = (s.voice v).starved := congrArg (·.2.2.2) h

theorem plan_fields {x : VoiceSt} {a : Option Item} {b : Option Int} {c : List Taken} {d : Bool} (h : x.plan = (a, b, c, d)) :
    x.item = a ∧ x.kerfAt = b ∧ x.taken = c ∧ x.starved = d := by
  simpa only [VoiceSt.plan, Prod.mk.injEq] using h

theorem time_of_kept (h : t.kept v = s.kept v) : t.time = s.time := congrArg Prod.fst h
theorem grid_of_kept (h : t.kept v = s.kept v) (n : Nat) : (t.chan n).grid = (s.chan n).grid := congrFun (congrArg (·.2.1) h) n
theorem f_of_kept (h : t.kept v = s.kept v) {y : Fld} (hy : y ∈ playFlds.tail) : t.f y v = s.f y v :=
  (List.map_inj_left (f := fun y => t.f y v) (g := fun y => s.f y v)).1 (congrArg (·.2.2) h) y hy

theorem kept_modVoice (s : State) (v u : Nat) (g : VoiceSt → VoiceSt) : (s.modVoice u g).kept v = s.kept v := rfl

/-- Device time and the grids stay when only registers are written. -/
theorem kept_setF {x : Fld} (w u : Nat) (h : ∀ y ∈ playFlds.tail, (s.setF x w u).f y v = s.f y v) : (s.setF x w u).kept v = s.kept v :=
  Prod.ext rfl (Prod.ext rfl (List.map_congr_left h))

/-- The grain count is not one of the fields kept. -/
theorem kept_setGrain (s : State) (v j : Nat) : (s.setF F.VOICE_POS_GRAIN j v).kept v = s.kept v :=
  kept_setF j v fun y hy => f_setF_ne s j (addr_voice_ne v rfl (List.mem_of_mem_tail hy)
    ((by decide : ∀ y ∈ playFlds.tail, F.VOICE_POS_GRAIN.reg.spec.base < 0x1000 ∧ F.VOICE_POS_GRAIN.reg.spec.base ≠ y.reg.spec.base % 0x1000) y hy) v)

/-! ### Reaching an instant twice (R227) -/

theorem Reached.of_time {u : State} {x : Nat} (h : Reached s t x) (ht : u.time = t.time) : Reached s u x := by
  have hn : u.now = t.now := congrArg (fun y : TimeSt => y.dtime.toNat) ht
  intro hx hr
  rw [hn]
  exact h hx hr

/-- An instant reached is not reached again. -/
theorem Reached.again {u : State} {x : Nat} (h : Reached s u x) : Reached s (u.reach x) x := by
  intro hx hr
  obtain ⟨hle, hlt⟩ := h hx hr
  have hu : x ≤ u.now := by
    by_cases hs : x ≤ s.now
    · rw [hle hs]; exact hs
    · exact (hlt (by omega)).1
  rw [reach_passed u x hu]
  exact ⟨hle, hlt⟩

theorem reach_voice (s : State) (v x : Nat) : (s.reach x).voice v = s.voice v := by
  unfold State.reach
  split <;> rfl

theorem reach_chan (s : State) (n x : Nat) : (s.reach x).chan n = s.chan n := by
  unfold State.reach
  split <;> rfl

/-! ### A grain begins (R93) -/

/-- Voice v's item it with one more of its grains begun, at DTIME x. -/
def State.atGrain (s : State) (v : Nat) (it : Item) (x : Nat) : State :=
  ((s.reach x).modVoice v fun y => { y with item := some { it with next := it.next + 1 }, late := [] }).setF F.VOICE_POS_GRAIN it.next v

/-- The instant of the first sample of the grain of it that begins next, on grid g. -/
def Item.grainTime (it : Item) (g : Grid) : Nat := (g.placeAt (it.first + 512 * 1024 * it.next)).toNat

theorem playing_setF_of {s t : State} {v : Nat} (h : t.playing v = s.playing v) (j : Nat) :
    (t.setF F.VOICE_POS_GRAIN j v).playing v = (s.setF F.VOICE_POS_GRAIN j v).playing v := by
  have hg := fun u : State => f_setF_same u F.VOICE_POS_GRAIN j v 0 (by constructor <;> decide)
  have hk := kept_of_playing h
  refine playing_ext (by rw [setF_time, setF_time]; exact time_of_kept hk) (fun m => ?_) (fun y hy => ?_)
    (by rw [setF_voice, setF_voice]; exact plan_of_playing h)
  · rw [State.chan, State.chan, setF_chans, setF_chans]
    exact grid_of_kept hk m
  rcases List.mem_cons.1 hy with rfl | hy
  · rw [hg, hg]
  · rw [f_of_kept (kept_setGrain t v j) hy, f_of_kept (kept_setGrain s v j) hy, f_of_kept hk hy]

theorem beginGrain_playing (hv : v < 64) {it : Item} (hit : (s.voice v).item = some it) (hk : it.kind = .play ∨ it.kind = .target)
    (late : List LateLine) : (s.beginGrain v n late).playing v = (s.atGrain v it (it.grainTime (s.chan n).grid)).playing v := by
  have hkind : ¬(it.kind = .wait ∨ it.kind = .idle) := by rcases hk with h | h <;> simp [h]
  unfold State.beginGrain
  rw [hit]
  dsimp only
  rw [if_neg hkind, playing_grainData _ hv]
  refine playing_setF_of ?_ it.next
  rw [playing_gmatch]
  split
  · exact playing_firstSample ..
  · rfl

theorem atGrain_kept (s : State) (v : Nat) (it : Item) (x : Nat) : (s.atGrain v it x).kept v = (s.reach x).kept v :=
  (kept_setGrain ..).trans (kept_modVoice ..)

theorem atGrain_plan (s : State) (v : Nat) (it : Item) (x : Nat) : ((s.atGrain v it x).voice v).plan =
    (some { it with next := it.next + 1 }, (s.voice v).kerfAt, (s.voice v).taken, (s.voice v).starved) := by
  rw [State.atGrain, setF_voice, voice_modVoice_same, reach_voice]
  rfl

theorem atGrain_grain (s : State) (v : Nat) (it : Item) (x : Nat) : (s.atGrain v it x).f F.VOICE_POS_GRAIN v = it.next % 2 ^ 19 :=
  f_setF_same _ F.VOICE_POS_GRAIN _ v 0 (by constructor <;> decide)

theorem f_of_playing (h : t.playing v = s.playing v) {y : Fld} (hy : y ∈ playFlds) : t.f y v = s.f y v :=
  (List.map_inj_left (f := fun y => t.f y v) (g := fun y => s.f y v)).1 (congrArg (·.1.2.2) h) y hy

/-- No jump of voice v lands at position p or before (R106). -/
def State.landsAfter (s : State) (v : Nat) (p : Int) : Prop := ∀ j q, (s.voice v).pending = some j → j.land = some q → p < q

theorem landBy_none {p : Int} (h : s.landsAfter v p) : s.landBy v n p = (false, s) := by
  unfold State.landBy
  split
  · next j hj =>
    split
    · next q hq => rw [if_neg (by have := h j q hj hq; omega)]
    · rfl
  · rfl

theorem grain_starts {v : Fin 64} {it : Item} (hc : s.voiceChan v = some n) (hit : (s.voice v).item = some it) (hk :
    it.kind = .play ∨ it.kind = .target)
    (hmore : it.len = 0 ∨ it.next < grains it.len) (hland : s.landsAfter v (it.first + 512 * 1024 * it.next)) (late : List LateLine) :
    Gives (exec (.grainStart v late) s) fun t => (t.voice v).item = some { it with next := it.next + 1 } ∧
      t.f F.VOICE_POS_GRAIN v = it.next % 2 ^ 19 ∧ Reached s t (it.grainTime (s.chan n).grid) := by
  have he : exec (.grainStart v late) s = .next (s.beginGrain v n late) := by
    change execGrainStart v late s = _
    unfold execGrainStart
    rw [hc, hit]
    dsimp only
    rw [if_neg (by rcases hk with h | h <;> simp [h] <;> omega), landBy_none hland]
    rfl
  have hp := beginGrain_playing (n := n) v.isLt hit hk late
  refine ⟨_, he, ?_, ?_, reached_of_time ?_⟩
  · rw [item_of_plan (plan_of_playing hp)]
    exact congrArg Prod.fst (atGrain_plan ..)
  · rw [f_of_playing hp (by decide), atGrain_grain]
  · exact (time_of_kept (kept_of_playing hp)).trans (time_of_kept (atGrain_kept s v it _))

/-! ### An item ends and another begins (R78, R79) -/

theorem endItem_kept (s : State) (v : Nat) : (s.endItem v).kept v = s.kept v := by
  unfold State.endItem
  split
  · exact (kept_of_playing (playing_dropRefs ..)).trans ((kept_modVoice ..).trans (kept_of_playing (playing_closeStream ..)))
  · rfl

theorem endItem_taken (s : State) (v : Nat) : ((s.endItem v).voice v).taken = (s.voice v).taken ∧
    ((s.endItem v).voice v).starved = (s.voice v).starved := by
  unfold State.endItem
  split
  · next it hit =>
    have hc := plan_of_playing (playing_closeStream s v v)
    have hd := fun t : State => plan_of_playing (playing_dropRefs t v (some v) it.refs)
    rw [taken_of_plan (hd _), starved_of_plan (hd _), voice_modVoice_same]
    exact ⟨taken_of_plan hc, starved_of_plan hc⟩
  · exact ⟨rfl, rfl⟩

theorem beginItem_kept (s : State) (v : Nat) (it : Item) : (s.beginItem v it).kept v = s.kept v :=
  (kept_modVoice ..).trans ((kept_setGrain ..).trans (kept_of_playing (playing_setF_voice s v (by decide) 0 v)))

theorem beginItem_plan (s : State) (v : Nat) (it : Item) : ((s.beginItem v it).voice v).plan =
    (some it, it.stop, (s.voice v).taken, (s.voice v).starved) := by
  rw [State.beginItem, voice_modVoice_same, setF_voice, setF_voice]
  rfl

theorem reachTaken_kept (s : State) (v x : Nat) (k : Taken) (more : List Taken) : (s.reachTaken v x k more).kept v = s.kept v :=
  (kept_of_playing (playing_freeTaken ..)).trans ((kept_modVoice ..).trans (kept_of_playing (playing_reachAll ..)))

theorem reachTaken_taken (s : State) (v x : Nat) (k : Taken) (more : List Taken) : ((s.reachTaken v x k more).voice v).taken = more := by
  rw [State.reachTaken, taken_of_plan (plan_of_playing (playing_freeTaken ..)), voice_modVoice_same]

/-! ### A kerf (R78) -/

/-- Voice v at its kerf at position p, once the item in play has ended. -/
def State.atKerf (s : State) (v : Nat) (p : Int) : State :=
  (((((s.reach (s.posTime v p)).putTime F.VOICE_KERF_SEC_SEC F.VOICE_KERF_FRAC_FRAC (s.posTime v p) v).applyRegs v p).endItem v).presentAt v p).retireAt v

/-- The kerf goes on with what the voice shows once its next item has begun. -/
def State.pastKerf (s : State) (v n : Nat) (p : Int) (x : Nat) : State :=
  ((((s.followJump v).offerKerf v x).freeSlot v).refill v |>.showVoice v).sendLanes n p

theorem kerf_eq (s : State) (v n : Nat) (p : Int) (late : List LateLine) :
    s.kerf v n p late = ((s.atKerf v p).beginNext v n p late).pastKerf v n p (s.posTime v p) := by rfl

theorem putTime_at (s : State) {v x : Nat} (hx : x < 2 ^ 96) :
    (s.putTime F.VOICE_KERF_SEC_SEC F.VOICE_KERF_FRAC_FRAC x v).at F.VOICE_KERF_SEC_SEC F.VOICE_KERF_FRAC_FRAC v = x := by
  have hsec : (s.putTime F.VOICE_KERF_SEC_SEC F.VOICE_KERF_FRAC_FRAC x v).f F.VOICE_KERF_SEC_SEC v = x / second := by
    rw [State.putTime, f_setF_ne _ _ (by simp [Reg.addr, Reg.spec, F.VOICE_KERF_SEC_SEC, F.VOICE_KERF_FRAC_FRAC]),
      f_setF_same _ _ _ _ _ (by constructor <;> decide)]
    exact Nat.mod_eq_of_lt (Nat.div_lt_of_lt_mul (Nat.lt_of_lt_of_eq hx (Nat.pow_add 2 48 48)))
  have hfrac : (s.putTime F.VOICE_KERF_SEC_SEC F.VOICE_KERF_FRAC_FRAC x v).f F.VOICE_KERF_FRAC_FRAC v = x % second := by
    rw [State.putTime, f_setF_same _ _ _ _ _ (by constructor <;> decide)]
    exact Nat.mod_eq_of_lt (Nat.mod_lt _ (Nat.two_pow_pos 48))
  rw [State.at, hsec, hfrac]
  exact Nat.div_add_mod' x second

theorem atKerf_kept (s : State) (v : Nat) (p : Int) : (s.atKerf v p).kept v =
    ((s.reach (s.posTime v p)).putTime F.VOICE_KERF_SEC_SEC F.VOICE_KERF_FRAC_FRAC (s.posTime v p) v).kept v :=
  (kept_of_playing (playing_retireAt ..)).trans ((kept_of_playing (playing_presentAt ..)).trans
    ((endItem_kept ..).trans (kept_of_playing (playing_applyRegs ..))))

theorem atKerf_taken (s : State) (v : Nat) (p : Int) : ((s.atKerf v p).voice v).taken = (s.voice v).taken ∧
    ((s.atKerf v p).voice v).starved = (s.voice v).starved := by
  have hr := fun t : State => plan_of_playing ((playing_retireAt t v v).trans rfl)
  have hq := fun t : State => plan_of_playing (playing_presentAt t v p)
  have ha := fun t : State => plan_of_playing (playing_applyRegs t v p)
  rw [State.atKerf, taken_of_plan (hr _), taken_of_plan (hq _), starved_of_plan (hr _), starved_of_plan (hq _), (endItem_taken ..).1,
    (endItem_taken ..).2,
    taken_of_plan (ha _), starved_of_plan (ha _), State.putTime, setF_voice, setF_voice, reach_voice]
  exact ⟨rfl, rfl⟩

theorem atKerf_at {p : Int} (hx : s.posTime v p < 2 ^ 96) (h : t.kept v = (s.atKerf v p).kept v) :
    t.at F.VOICE_KERF_SEC_SEC F.VOICE_KERF_FRAC_FRAC v = s.posTime v p := by
  have hk := h.trans (atKerf_kept s v p)
  rw [State.at, f_of_kept hk (by decide), f_of_kept hk (by decide)]
  exact putTime_at _ hx

/-- A voice with an item that waits for no kerf takes none. -/
theorem offerKerf_playing (x : Nat) (h : ∀ it, (s.voice v).item = some it → it.kind ≠ .wait) : (s.offerKerf v x).playing v = s.playing v := by
  refine forN_keeps (P := fun t : State => t.playing v = s.playing v) 16 (fun i t ht => ?_) rfl
  dsimp only
  split
  · next it hit =>
    split
    · next hw =>
      have hne : v ≠ 16 * (v / 16) + i := by
        intro he
        rw [← he, item_of_plan (plan_of_playing ht)] at hit
        exact h it hit hw.1
      exact (playing_modVoice_ne t v hne).trans ht
    · exact ht
  · exact ht

theorem pastKerf_playing (hv : v < 64) (p : Int) (x : Nat) (h : ∀ it, (s.voice v).item = some it → it.kind ≠ .wait) :
    (s.pastKerf v n p x).playing v = s.playing v := by
  have hf := playing_followJump s v
  have ho := offerKerf_playing (s := s.followJump v) x fun it hit => h it (by rw [← hit, item_of_plan (plan_of_playing hf)])
  rw [State.pastKerf, playing_sendLanes, playing_showVoice, playing_refill _ hv, playing_freeSlot _ hv, ho, hf]

/-! ### The kerf of a PLAY -/

/-- The item that a PLAY taken as k begins, with h samples to its first, at position p. -/
def Taken.played (k : Taken) (h seg : Nat) (p : Int) : Item :=
  { kind := .play, seg := seg, words := k.words, kerf := h, start := p, first := p + h * 1024, len := segLen (wordOf k.words 0), refs := k.refs }

/-- What a kerf at position p leaves when it begins a PLAY: its time and its record, the items taken after it, and the PLAY in play. -/
structure Begun (s t : State) (v : Nat) (p : Int) (it : Item) (more : List Taken) : Prop where
  reached : Reached s t (s.posTime v p)
  flds : ∀ y ∈ playFlds.tail, t.f y v = (s.atKerf v p).f y v
  item : ∃ j, (t.voice v).item = some { it with next := j }
  kerfAt : (t.voice v).kerfAt = it.stop
  taken : (t.voice v).taken = more

theorem Begun.of_playing {u : State} {p : Int} {it : Item} {more : List Taken} (h : Begun s t v p it more) (hp : u.playing v = t.playing v) :
    Begun s u v p it more where
  reached := h.reached.of_time (time_of_kept (kept_of_playing hp))
  flds := fun y hy => (f_of_kept (kept_of_playing hp) hy).trans (h.flds y hy)
  item := by rw [item_of_plan (plan_of_playing hp)]; exact h.item
  kerfAt := (kerfAt_of_plan (plan_of_playing hp)).trans h.kerfAt
  taken := (taken_of_plan (plan_of_playing hp)).trans h.taken

theorem putTime_time (s : State) (x y : Fld) (t i : Nat) : (s.putTime x y t i).time = s.time := by
  rw [State.putTime, setF_time, setF_time]

theorem putTime_chan (s : State) (x y : Fld) (t i n : Nat) : (s.putTime x y t i).chan n = s.chan n := by
  rw [State.putTime, State.chan, setF_chans, setF_chans]; rfl

theorem atKerf_time (s : State) (v : Nat) (p : Int) : (s.atKerf v p).time = (s.reach (s.posTime v p)).time :=
  (time_of_kept (atKerf_kept s v p)).trans (putTime_time _ _ _ _ v)

theorem atKerf_grid (s : State) (v n : Nat) (p : Int) : ((s.atKerf v p).chan n).grid = (s.chan n).grid := by
  rw [grid_of_kept (atKerf_kept s v p) n, putTime_chan, reach_chan]

theorem atKerf_starved (s : State) (v : Nat) (p : Int) : (s.atKerf v p).on F.CORE_STATUS_STARVED v = s.on F.CORE_STATUS_STARVED v := by
  have hy : F.CORE_STATUS_STARVED ∈ playFlds := by decide
  rw [State.on, f_of_kept (atKerf_kept s v p) (by decide), State.putTime, f_setF_ne _ _ (addr_voice_ne v rfl hy (by decide) v),
    f_setF_ne _ _ (addr_voice_ne v rfl hy (by decide) v), reach_f]
  rfl

/-- The first grain of an item at its own start begins at the kerf. -/
theorem grainTime_played (hc : s.voiceChan v = some n) (k : Taken) (seg : Nat) (p : Int) :
    (k.played 0 seg p).grainTime (s.chan n).grid = s.posTime v p := by
  rw [State.posTime, State.voiceGrid, hc, Item.grainTime]
  simp [Taken.played]

theorem beginNext_begun (hv : v < 64) (hc : s.voiceChan v = some n) {p : Int} {k : Taken} {more : List Taken} {h seg : Nat}
    (ht : (s.voice v).taken = k :: more) (hk : k.item = .play h seg) (hf : k.failed = false) (late : List LateLine) :
    Begun s ((s.atKerf v p).beginNext v n p late) v p (k.played h seg p) more := by
  have hw : ((s.atKerf v p).voice v).taken = k :: more := (atKerf_taken ..).1.trans ht
  have htime := atKerf_time s v p
  have hgrid := atKerf_grid s v n p
  unfold State.beginNext
  rw [hw]
  dsimp only
  rw [hk]
  simp only [hf, Bool.false_eq_true, if_false]
  change Begun s (if h = 0 then
      State.beginGrain (((State.reachTaken _ v _ k more).beginItem v (k.played h seg p)).scheduleMarks v n (k.played h seg p).first) v n late
    else ((State.reachTaken _ v _ k more).beginItem v (k.played h seg p)).scheduleMarks v n (k.played h seg p).first) v p (k.played h seg p) more
  have hs := playing_scheduleMarks ((State.reachTaken (s.atKerf v p) v ((s.atKerf v p).posTime v p) k more).beginItem v (k.played h seg p)) v n
    (k.played h seg p).first
  have hkept : (State.beginItem (State.reachTaken (s.atKerf v p) v ((s.atKerf v p).posTime v p) k more) v (k.played h seg p)).kept v =
      (s.atKerf v p).kept v := (beginItem_kept ..).trans (reachTaken_kept ..)
  have hplan := beginItem_plan (State.reachTaken (s.atKerf v p) v ((s.atKerf v p).posTime v p) k more) v (k.played h seg p)
  rw [reachTaken_taken] at hplan
  replace hkept := (kept_of_playing hs).trans hkept
  replace hplan := (plan_of_playing hs).trans hplan
  generalize State.scheduleMarks _ v n _ = u at hkept hplan
  obtain ⟨hit, hkerf, htaken, -⟩ := plan_fields hplan
  have hu : Begun s u v p (k.played h seg p) more :=
    { reached := (reached_of_time htime).of_time (time_of_kept hkept)
      flds := fun y hy => f_of_kept hkept hy
      item := ⟨_, hit⟩
      kerfAt := hkerf
      taken := htaken }
  split
  · next h0 =>
    subst h0
    have hp := beginGrain_playing (n := n) hv hit (.inl rfl) late
    have hx : (k.played 0 seg p).grainTime (u.chan n).grid = s.posTime v p := by
      rw [grid_of_kept hkept, hgrid, grainTime_played hc]
    rw [hx] at hp
    obtain ⟨hit', hkerf', htaken', -⟩ := plan_fields (atGrain_plan u v (k.played 0 seg p) (s.posTime v p))
    have hk' := atGrain_kept u v (k.played 0 seg p) (s.posTime v p)
    exact Begun.of_playing
      { reached := hu.reached.again.of_time (time_of_kept hk')
        flds := fun y hy => (f_of_kept hk' hy).trans ((reach_f ..).trans (hu.flds y hy))
        item := ⟨_, hit'⟩
        kerfAt := hkerf'.trans hkerf
        taken := htaken'.trans htaken } hp
  · exact hu

/-- With every window before it closed, a kerf that no jump lands at goes on (R106). -/
theorem kerf_runs {v : Fin 64} {p : Int} (hc : s.voiceChan v = some n) (hk : (s.voice v).kerfAt = some p)
    (hcl : ∀ it, (s.voice v).item = some it → it.closed = true) (hland : s.landsAfter v p) (hearly : s.earlyClose v n = none)
    (late : List LateLine) : exec (.kerf ⟨v, late⟩) s = .next (s.kerf v n p late) := by
  have hclose : s.closeLate v n = s := by
    unfold State.closeLate
    extract_lets t
    have ht : t = s := by
      unfold t
      split
      · next it hit => rw [if_pos (hcl it hit)]
      · rfl
    rw [ht, hk, hearly]
  change execKerf ⟨v, late⟩ s = _
  unfold execKerf
  dsimp only
  rw [hc]
  dsimp only
  rw [hk]
  dsimp only
  rw [hclose, hk]
  dsimp only
  rw [landBy_none hland]
  dsimp only
  rw [if_neg Bool.false_ne_true]

theorem kerf_plays {v : Fin 64} {p : Int} (hc : s.voiceChan v = some n) (hk : (s.voice v).kerfAt = some p)
    (hcl : ∀ it, (s.voice v).item = some it → it.closed = true) (hland : s.landsAfter v p) (hx : s.posTime v p < 2 ^ 96)
    {tk : Taken} {more : List Taken} {h seg : Nat} (ht : (s.voice v).taken = tk :: more) (hi : tk.item = .play h seg) (hf : tk.failed = false)
    (hearly : s.earlyClose v n = none) (late : List LateLine) :
    Gives (exec (.kerf ⟨v, late⟩) s) fun t => Reached s t (s.posTime v p) ∧
      t.at F.VOICE_KERF_SEC_SEC F.VOICE_KERF_FRAC_FRAC v = s.posTime v p ∧ (t.voice v).taken = more ∧
      ∃ it, (t.voice v).item = some it ∧ it.kind = .play ∧ it.seg = seg ∧ it.words = tk.words ∧ it.start = p ∧
        it.first = p + h * 1024 ∧ it.len = segLen (wordOf tk.words 0) ∧ (t.voice v).kerfAt = it.stop := by
  have hb := beginNext_begun v.isLt hc (p := p) ht hi hf late
  rw [kerf_runs hc hk hcl hland hearly, kerf_eq]
  generalize (s.atKerf v p).beginNext v n p late = u at hb
  obtain ⟨j, hj⟩ := hb.item
  have hp := pastKerf_playing (n := n) v.isLt p (s.posTime v p) (s := u) fun it hit => by rw [hj] at hit; cases hit; simp [Taken.played]
  obtain ⟨hreach, hflds, ⟨j, hitem⟩, hkerf, htaken⟩ := hb.of_playing hp
  refine ⟨_, rfl, hreach, ?_, htaken, _, hitem, rfl, rfl, rfl, rfl, rfl, rfl, hkerf⟩
  rw [State.at, hflds _ (by decide), hflds _ (by decide)]
  exact atKerf_at hx rfl

/-! ### The kerf of a voice that has nothing taken (R38) -/

theorem kept_setStarve (s : State) (v w : Nat) : (s.setF F.CORE_QUEUE_STARVE_CNT w v).kept v = s.kept v := by
  refine kept_setF w v fun y hy => f_setF_ne s w fun he => ?_
  obtain ⟨-, hm, -⟩ := addr_playFlds v (List.mem_of_mem_tail hy)
  have hne : ∀ y ∈ playFlds.tail, y.reg.spec.base % 0x1000 ≠ 0x40 := by decide
  rw [he, show F.CORE_QUEUE_STARVE_CNT.reg.addr v 0 = 0x200040 + v * 0x8000 + 0 * 0 from rfl] at hm
  exact hne y hy (by omega)

/-- What a voice that begins to starve shows and fires (R38). -/
def State.starve (s : State) (v x : Nat) : State :=
  if (s.voice v).starved then s else ((s.flag F.CORE_STATUS_STARVED v).bump F.CORE_QUEUE_STARVE_CNT v).fire (9 * v + 4) x

theorem starve_shows (s : State) (v x : Nat) : (s.starve v x).on F.CORE_STATUS_STARVED v =
    (s.on F.CORE_STATUS_STARVED v || !(s.voice v).starved) := by
  unfold State.starve
  split
  · next h => simp [h]
  · next h =>
    have hk : (((s.flag F.CORE_STATUS_STARVED v).bump F.CORE_QUEUE_STARVE_CNT v).fire (9 * v + 4) x).kept v =
        (s.flag F.CORE_STATUS_STARVED v).kept v := (kept_of_playing (playing_fire ..)).trans (kept_setStarve ..)
    have hf : (s.flag F.CORE_STATUS_STARVED v).f F.CORE_STATUS_STARVED v = 1 := f_setF_same s F.CORE_STATUS_STARVED 1 v 0 (by constructor <;> decide)
    rw [State.on, f_of_kept hk (by decide), hf]
    simp [h]

theorem beginNext_starves {p : Int} (ht : (s.voice v).taken = []) (late : List LateLine) : ∃ b,
    s.beginNext v n p late = (((((s.starve v (s.posTime v p)).reachAll v (s.posTime v p) []).freeTaken v none).modVoice v
      fun x => { x with starved := true }).beginItem v (idleAt p b)) := by
  unfold State.beginNext
  rw [ht]
  exact ⟨_, rfl⟩

theorem idleAt_stop (p : Int) (b : Bool) : (idleAt p b).stop = some (p + 512 * 1024) := by
  have h : ¬((idleAt p b).kind = .wait ∨ (idleAt p b).len = 0) := by simp [idleAt]
  rw [Item.stop, if_neg h]
  change some (p + ((512 : Nat) : Int) * 1024) = _
  rw [Nat.cast_ofNat]

theorem kerf_starves {v : Fin 64} {p : Int} (hc : s.voiceChan v = some n) (hk : (s.voice v).kerfAt = some p)
    (hcl : ∀ it, (s.voice v).item = some it → it.closed = true) (hland : s.landsAfter v p) (ht : (s.voice v).taken = []) (late : List LateLine) :
    Gives (exec (.kerf ⟨v, late⟩) s) fun t =>
      t.on F.CORE_STATUS_STARVED v = (s.on F.CORE_STATUS_STARVED v || !(s.voice v).starved) ∧ (t.voice v).starved = true ∧
        (t.voice v).kerfAt = some (p + 512 * 1024) ∧ ∃ it, (t.voice v).item = some it ∧ it.kind = .idle ∧ it.start = p := by
  have hearly : s.earlyClose v n = none := by
    unfold State.earlyClose
    rw [ht]
    rfl
  obtain ⟨htaken, hstarved⟩ := atKerf_taken s v p
  obtain ⟨b, hb⟩ := beginNext_starves (n := n) (p := p) (htaken.trans ht) late
  have hshow := starve_shows (s.atKerf v p) v ((s.atKerf v p).posTime v p)
  rw [kerf_runs hc hk hcl hland hearly, kerf_eq, hb]
  generalize State.starve _ _ _ = w at hshow
  generalize hu : State.beginItem _ _ _ = u
  have hplan : (u.voice v).plan = (some (idleAt p b), (idleAt p b).stop,
    ((w.reachAll v ((s.atKerf v p).posTime v p) []).freeTaken v none).voice v |>.taken, true) := by
    rw [← hu, beginItem_plan, voice_modVoice_same]
  have hkept : u.kept v = w.kept v := by
    rw [← hu, beginItem_kept, kept_modVoice]
    exact kept_of_playing ((playing_freeTaken ..).trans (playing_reachAll ..))
  have hp := pastKerf_playing (n := n) v.isLt p (s.posTime v p) (s := u) fun it hit => by
    rw [show (u.voice v).item = _ from congrArg Prod.fst hplan] at hit
    cases hit
    simp [idleAt]
  obtain ⟨hitem, hkerf, -, hst⟩ := plan_fields ((plan_of_playing hp).trans hplan)
  refine ⟨_, rfl, ?_, hst, hkerf.trans (idleAt_stop p b), _, hitem, rfl, rfl⟩
  rw [State.on, f_of_kept ((kept_of_playing hp).trans hkept) (by decide)]
  exact hshow.trans (by rw [atKerf_starved, hstarved])

end

end Sys2Proof.Machine
end

section
/-! PROOFS. Fetches of grains (R109, R143), and kerfs and grains together (O19). -/

namespace Sys2Proof.Machine

section
variable {s : State} {v n : Nat}

/-! ### Fetches (R143) -/

theorem fetchSpans_clean (spans : List Span) {d : Bool} {a : Nat} (h : s.poisoned d a = false) :
    s.fetchSpans spans .clean d a = (s.copyOf spans, s) := by
  have hf : foundEcc d false .clean = .clean := rfl
  simp only [State.fetchSpans, h, hf, Ecc.bad, State.eccEvent, Bool.false_eq_true, if_false]

theorem fetchSpans_voice (spans : List Span) (e : Ecc) (d : Bool) (a : Nat) : (s.fetchSpans spans e d a).2.voice v = s.voice v := by
  rw [State.fetchSpans, State.voice, (eccEvent_recorded ..).voices]
  rfl

/-- Voice v with the grain j of its item read, where its spans are not empty. -/
def State.readGrain (s : State) (v j : Nat) (spans : List Span) (e : Ecc) (a : Nat) : State :=
  if spans.isEmpty || false then s
  else (s.fetchSpans spans e false a).2.modVoice v fun x => { x with lines := (0, j, (s.fetchSpans spans e false a).1) :: x.lines }

theorem readGrain_voice (j : Nat) (spans : List Span) (e : Ecc) (a : Nat) : ∃ ls,
    (s.readGrain v j spans e a).voice v = { s.voice v with lines := ls } := by
  unfold State.readGrain
  split
  · exact ⟨_, rfl⟩
  · rw [voice_modVoice_same, fetchSpans_voice]
    exact ⟨_, rfl⟩

theorem readGrain_reads (j : Nat) {spans : List Span} {a : Nat} (h : spans ≠ []) (hp : s.poisoned false a = false) :
    (0, j, s.copyOf spans) ∈ ((s.readGrain v j spans .clean a).voice v).lines := by
  unfold State.readGrain
  rw [if_neg (by simp [h]), voice_modVoice_same, fetchSpans_clean spans hp]
  exact List.mem_cons_self

section
variable (ws : List Word) (first : Int) (len j : Nat) (e : Ecc) (a : Nat)

/-- What lies in DRAM comes through refill. -/
theorem issueGrain_dram (h : s.entryInDram ws = true) : s.issueGrain v n ws first len j 0 e a false = s := if_pos h

/-- A grain that is not covered is read. -/
theorem issueGrain_read (h : s.entryInDram ws = false)
    (hc : s.coveredRun v n (first / 1024 + 512 * (j : Int)) (first / 1024 + 512 * (j : Int) + grainLen len j) = false) :
    s.issueGrain v n ws first len j 0 e a false = s.readGrain v j (s.grainSpans ws len j) e a := by
  unfold State.issueGrain
  dsimp only
  rw [h, hc]
  rfl

/-- A covered grain is skipped, and kept as covered. -/
theorem issueGrain_covered (h : s.entryInDram ws = false)
    (hc : s.coveredRun v n (first / 1024 + 512 * (j : Int)) (first / 1024 + 512 * (j : Int) + grainLen len j) = true) :
    ((s.issueGrain v n ws first len j 0 e a false).voice v).covered = j :: (s.voice v).covered := by
  have ht : (((s.trouble .coverSkip).modVoice v fun x => { x with covered := j :: x.covered }).voice v).covered = j :: (s.voice v).covered := by
    rw [voice_modVoice_same, trouble_voice]
  have hr := readGrain_voice (s := (s.trouble .coverSkip).modVoice v fun x => { x with covered := j :: x.covered }) (v := v) j
    (s.grainSpans ws len j) e a
  obtain ⟨ls, hls⟩ := hr
  unfold State.issueGrain
  dsimp only
  rw [h, hc, if_neg Bool.false_ne_true, if_pos rfl]
  simp only [if_true]
  split
  · exact (congrArg VoiceSt.covered hls).trans ht
  · exact ht

end

/-- The fetch of the next grain of the item in play is issued (R143). -/
def State.issueNext (s : State) (v n : Nat) (it : Item) (e : Ecc) (a : Nat) : State :=
  s.issueGrain v n it.words it.first it.len (s.voice v).fetched 0 e a false

theorem grain_fetched {v : Fin 64} {it : Item} (hc : s.voiceChan v = some n) (hit : (s.voice v).item = some it)
    (hk : it.kind = .play ∨ it.kind = .target) (hmore : it.len = 0 ∨ (s.voice v).fetched < grains it.len) (hnext : (s.voice v).fetched ≤ it.next)
    (e : Ecc) (addr : BitVec 37) : exec (.grainFetchIssue v e addr) s =
      .next ((s.issueNext v n it e addr.toNat).modVoice v fun y => { y with fetched := (s.voice v).fetched + 1 }) := by
  change execGrainFetchIssue v e addr s = _
  unfold execGrainFetchIssue
  dsimp only
  rw [hc, hit]
  exact if_pos ⟨hk, hmore, hnext⟩

/-- What the issue of a fetch leaves of the grains covered and read. -/
theorem issueNext_leaves {it : Item} (e : Ecc) (a : Nat) :
    let j := (s.voice v).fetched
    let covered := s.coveredRun v n (it.first / 1024 + 512 * (j : Int)) (it.first / 1024 + 512 * (j : Int) + grainLen it.len j)
    let spans := s.grainSpans it.words it.len j
    let t := s.issueNext v n it e a
    (s.entryInDram it.words = false → covered = true → j ∈ (t.voice v).covered) ∧
    (s.entryInDram it.words = true ∨ covered = false → (t.voice v).covered = (s.voice v).covered) ∧
    (s.entryInDram it.words = false → covered = false → spans ≠ [] → e = .clean → s.poisoned false a = false →
      (0, j, s.copyOf spans) ∈ (t.voice v).lines) := by
  intro j covered spans t
  refine ⟨fun hd hcov => ?_, fun h => ?_, fun hd hcov hne he hp => ?_⟩
  · exact (issueGrain_covered it.words it.first it.len j e a hd hcov) ▸ List.mem_cons_self
  · cases hd : s.entryInDram it.words with
    | true => exact congrArg (fun u : State => (u.voice v).covered) (issueGrain_dram it.words it.first it.len j e a hd)
    | false =>
      have hcov : covered = false := h.resolve_left (by simp [hd])
      obtain ⟨ls, hls⟩ := readGrain_voice (s := s) (v := v) j spans e a
      have ht : t = s.readGrain v j spans e a := issueGrain_read it.words it.first it.len j e a hd hcov
      rw [ht, hls]
  · have ht : t = s.readGrain v j spans e a := issueGrain_read it.words it.first it.len j e a hd hcov
    subst he
    rw [ht]
    exact readGrain_reads j hne hp

/-! ### A grain arrives (R109) -/

/-- The grain in slot i of voice v is there. -/
def State.fillSlot (s : State) (v i : Nat) (z : LineSlot) : State := s.modVoice v fun x => { x with slots := x.slots.set i z }

theorem grain_arrives {v : Fin 64} {y : Ahead} (hfly : .flying ∈ (s.voice v).slots)
    (hy : (s.dramAhead v)[(s.voice v).slots.findIdx (· == .flying)]? = some y) (hl : s.mem.pllLost = none) {addr : BitVec 37}
    (hp : s.poisoned true addr.toNat = false) :
    Gives (exec (.refillGrainArrive v .clean addr) s) fun t => ∃ more, (t.voice v).slots = (s.voice v).slots.set
      ((s.voice v).slots.findIdx (· == .flying)) (.here s.now (s.copyOf (s.grainSpans y.words (segLen (wordOf y.words 0)) y.grain))) ++ more ∧
        ∀ z ∈ more, z = .flying ∨ z = .covered := by
  have hi : (s.voice v).slots.findIdx (· == .flying) < (s.voice v).slots.length := List.findIdx_lt_length_of_exists ⟨_, hfly, by simp⟩
  have he : exec (.refillGrainArrive v .clean addr) s = .next ((s.fillSlot v ((s.voice v).slots.findIdx (· == .flying))
      (.here s.now (s.copyOf (s.grainSpans y.words (segLen (wordOf y.words 0)) y.grain)))).refill v) := by
    change execRefillGrainArrive v .clean addr s = _
    unfold execRefillGrainArrive
    dsimp only
    rw [hl, if_neg (by simp), List.getElem?_eq_getElem hi, hy]
    dsimp only
    rw [fetchSpans_clean _ hp]
    rfl
  obtain ⟨more, hm, hall⟩ := refill_slots (s.fillSlot v ((s.voice v).slots.findIdx (· == .flying))
    (.here s.now (s.copyOf (s.grainSpans y.words (segLen (wordOf y.words 0)) y.grain)))) v
  refine ⟨_, he, more, ?_, hall⟩
  rw [hm, State.fillSlot, voice_modVoice_same]

end

/-- Settles O19: the item taken begins at its kerf or the voice starves, grains begin in turn, and a fetch is issued, skipped or arrives. -/
theorem kerfsAndGrains : Obligations.KerfsAndGrains := by
  unfold Obligations.KerfsAndGrains
  refine ⟨fun v late n p s hc hk hcl hland hx => ⟨?_, ?_⟩, ?_⟩
  · intro tk more h seg ht hi hf hearly
    exact kerf_plays hc hk hcl hland hx ht hi hf hearly late
  · intro ht
    exact kerf_starves hc hk hcl hland ht late
  · intro v n late e addr it s hc hit hk x a at_ dram covered spans i
    refine ⟨?_, ?_, ?_⟩
    · intro hmore hland
      exact grain_starts hc hit hk hmore hland late
    · intro hmore hnext
      obtain ⟨hcov, hsame, hread⟩ := issueNext_leaves (s := s) (v := v) (n := n) (it := it) e addr.toNat
      refine ⟨_, grain_fetched hc hit hk hmore hnext e addr, ?_⟩
      beta_reduce
      rw [voice_modVoice_same]
      exact ⟨rfl, hcov, hsame, hread⟩
    · intro y hfly hy hl he hp
      subst he
      exact grain_arrives hfly hy hl hp

end Sys2Proof.Machine
end

section
/-! PROOFS. Windows and waits (O20; R43, R81, R94 to R96, R99, R100). -/

namespace Sys2Proof.Machine

section
variable {s t : State} {v n : Nat}

/-! ### What a snapshot reads (R85) -/

/-- From s to t, what the snapshot of an entry reads stays: all but device time, voices, events, and the count of late lines. -/
structure SameData (s t : State) : Prop where
  sram : t.sram = s.sram
  dram : t.dram = s.dram
  mem : t.mem = s.mem
  poison : t.poison = s.poison
  buffers : t.buffers = s.buffers
  chans : t.chans = s.chans
  word : ∀ o, o ≠ Reg.MEM_SRAM_STAT.addr 0 0 → t.word o = s.word o

theorem SameData.f (h : SameData s t) (y : Fld) (i : Nat) (hy : y.reg.addr i 0 ≠ Reg.MEM_SRAM_STAT.addr 0 0) : t.f y i = s.f y i := by
  rw [State.f, State.f, State.rw, State.rw, h.word _ hy]

theorem SameData.trans {u : State} (h : SameData s t) (k : SameData t u) : SameData s u :=
  ⟨k.sram.trans h.sram, k.dram.trans h.dram, k.mem.trans h.mem, k.poison.trans h.poison, k.buffers.trans h.buffers, k.chans.trans h.chans,
    fun o ho => (k.word o ho).trans (h.word o ho)⟩

theorem SameData.byte (h : SameData s t) (d : Bool) (a : Nat) : t.byte d a = s.byte d a := by
  simp only [State.byte, State.sramByte, State.dramByte, h.sram, h.dram, h.mem]

theorem SameData.readLE (h : SameData s t) (d : Bool) (a k : Nat) : t.readLE d a k = s.readLE d a k := readLE_congr fun _ _ => h.byte ..

theorem SameData.buffer (h : SameData s t) (i : Nat) : t.buffer i = s.buffer i := by rw [State.buffer, h.buffers]; rfl

theorem addr_segtab (v : Nat) : Reg.VOICE_SEGTAB_ACT.addr v 0 ≠ Reg.MEM_SRAM_STAT.addr 0 0 := by
  rw [show Reg.VOICE_SEGTAB_ACT.addr v 0 = 0x108000 + v / 4 * 0x10000 + v % 4 * 0x1000 + 0x30 + 0 * 0 from rfl,
    show Reg.MEM_SRAM_STAT.addr 0 0 = 0x60058 from rfl]
  omega

theorem addr_ring (b : Nat) : Reg.STM_RING.addr b 0 ≠ Reg.MEM_SRAM_STAT.addr 0 0 := by
  rw [show Reg.STM_RING.addr b 0 = 0x68008 + b * 0x40 + 0 * 0 from rfl, show Reg.MEM_SRAM_STAT.addr 0 0 = 0x60058 from rfl]
  omega

theorem SameData.entryAddr (h : SameData s t) (v seg : Nat) : t.entryAddr v seg = s.entryAddr v seg := by
  rw [State.entryAddr, State.entryAddr, h.f F.VOICE_SEGTAB_ACT_BASE v (addr_segtab v)]

theorem SameData.readEntry (h : SameData s t) (v seg : Nat) : t.readEntry v seg = s.readEntry v seg := by
  simp only [State.readEntry, State.readWord, h.entryAddr, h.readLE]

theorem SameData.entryPoisoned (h : SameData s t) (v seg : Nat) : t.entryPoisoned v seg = s.entryPoisoned v seg := by
  simp only [State.entryPoisoned, State.poisoned, h.entryAddr, h.poison]

theorem SameData.entryInDram (h : SameData s t) (ws : List Word) : t.entryInDram ws = s.entryInDram ws := by
  simp only [State.entryInDram, h.f F.STM_RING_HANDLE _ (addr_ring _)]

theorem SameData.edgesRise (h : SameData s t) (a k : Nat) : t.edgesRise a k = s.edgesRise a k := by
  induction k using State.edgesRise.induct with
  | case1 => rfl
  | case2 => rfl
  | case3 k ih =>
    have ht : ∀ i, t.edgeTime a i = s.edgeTime a i := fun i => h.readLE ..
    rw [State.edgesRise, State.edgesRise, ih, ht, ht]

theorem SameData.handleOk (h : SameData s t) (w : Nat) : t.handleOk w = s.handleOk w := by
  rw [State.handleOk, State.handleOk, State.liveHandle, State.liveHandle, h.buffer]

theorem SameData.spanOk (h : SameData s t) (w0 w k : Nat) : t.spanOk w0 w k = s.spanOk w0 w k := by
  rw [State.spanOk, State.spanOk, State.dramBytes, State.dramBytes, State.bufferSize, State.bufferSize, h.buffer, h.f F.MEM_CFG_POP 0 (by decide)]

theorem SameData.wordAddr (h : SameData s t) (w : Nat) : t.wordAddr w = s.wordAddr w := by
  rw [State.wordAddr, State.wordAddr, State.bufferBase, State.bufferBase, h.buffer]

theorem SameData.modeChecks (h : SameData s t) (g : Grid) (ws : List Word) : t.modeChecks g ws = s.modeChecks g ws := by
  simp only [State.modeChecks, h.handleOk, h.spanOk, h.wordAddr, h.edgesRise]

theorem SameData.snapshotOk (h : SameData s t) (v n seg : Nat) (ws : List Word) (e : Ecc) :
    t.snapshotOk v n seg ws e = s.snapshotOk v n seg ws e := by
  have hc : t.chan n = s.chan n := by rw [State.chan, h.chans]; rfl
  simp only [State.snapshotOk, State.entryCount, State.hasSlot, h.entryPoisoned, h.f F.VOICE_SEGTAB_ACT_COUNT_M1 v (addr_segtab v), h.modeChecks, hc,
    h.entryInDram, h.f F.DRAM_BACKED_VOICES 0 (by decide)]

theorem sameData_reach (s : State) (x : Nat) : SameData s (s.reach x) := by
  unfold State.reach
  split
  · exact ⟨rfl, rfl, rfl, rfl, rfl, rfl, fun _ _ => rfl⟩
  · exact ⟨rfl, rfl, rfl, rfl, rfl, rfl, fun _ _ => rfl⟩

theorem sameData_modVoice (s : State) (v : Nat) (g : VoiceSt → VoiceSt) : SameData s (s.modVoice v g) :=
  ⟨rfl, rfl, rfl, rfl, rfl, rfl, fun _ _ => rfl⟩

theorem sameData_setF (s : State) {x : Fld} (hx : x.reg = .MEM_SRAM_STAT) (w : Nat) : SameData s (s.setF x w) :=
  ⟨rfl, rfl, rfl, rfl, rfl, rfl, fun _ ho => word_setWord_ne s _ (by rwa [hx])⟩

/-- A late line of an entry is counted (R249). -/
def State.lateEntry (s : State) (v : Nat) (late : Bool) : State :=
  if late then (s.bump F.MEM_SRAM_STAT_LATE_LINE).setF F.MEM_SRAM_STAT_LAST_V v else s

theorem sameData_lateEntry (s : State) (v : Nat) (late : Bool) : SameData s (s.lateEntry v late) := by
  unfold State.lateEntry
  split
  · exact (sameData_setF s (x := F.MEM_SRAM_STAT_LATE_LINE) rfl _).trans (sameData_setF _ (x := F.MEM_SRAM_STAT_LAST_V) rfl v)
  · exact ⟨rfl, rfl, rfl, rfl, rfl, rfl, fun _ _ => rfl⟩

/-! ### Taking (R94, R98) -/

/-- Taking from the queue leaves what the voice plays. -/
theorem takeFrom_plan (w fuel : Nat) (ok : QEntry → Bool) (x : VoiceSt) (acts : List Desc) (back : VoiceSt) (h : back.plan = x.plan) :
    (takeFrom w fuel ok x acts back).voice.plan = x.plan := by
  induction fuel generalizing x acts back with
  | zero => exact h
  | succ fuel ih =>
    have hback : ∀ (a : List Desc) (d : Option Desc) (q : List Word) (p : Option Nat), (Take.mk a d back q p).voice.plan = x.plan :=
      fun _ _ _ _ => h
    have hstep : ∀ (y : VoiceSt) (a : List Desc), y.plan = x.plan → (takeFrom w fuel ok y a back).voice.plan = x.plan := fun y a hy =>
      (ih y a back (h.trans hy.symm)).trans hy
    rw [takeFrom]
    split
    · next l hl =>
      split
      · split
        · next q hq =>
          split
          · dsimp only
            split
            · rfl
            · exact hstep _ _ rfl
          · exact h
        · exact h
      · split
        · exact hstep _ _ rfl
        · dsimp only
          refine (ih _ _ _ ?_).trans rfl
          split
          · rfl
          · exact h
    · split
      · next q hq =>
        split
        · split
          · exact hstep _ _ rfl
          · dsimp only
            split
            · rfl
            · exact hstep _ _ rfl
        · exact h
      · exact h

/-- The voice with what it took, in place of the voice. -/
theorem playing_take (s : State) (v w : Nat) (ok : QEntry → Bool) :
    (s.modVoice v fun _ => ((s.voice v).take w ok).voice).playing v = s.playing v := by
  refine Prod.ext rfl ?_
  change ((s.modVoice v fun _ => ((s.voice v).take w ok).voice).voice v).plan = _
  rw [voice_modVoice_same]
  exact takeFrom_plan w _ ok _ [] _ rfl

/-! ### The snapshot of what is taken (R85, R95, R147) -/

theorem playing_lateEntry (s : State) (v : Nat) (late : Bool) : (s.lateEntry v late).playing v = s.playing v := by
  unfold State.lateEntry
  split
  · rw [playing_setF_low _ v (by decide) _ (by decide), State.bump, State.bumpBy, playing_setF_low _ v (by decide) _ (by decide)]
  · rfl

theorem playing_failClashes (s : State) (v n m at_ : Nat) (first : Int) (len : Nat) :
    (s.failClashes n v m at_ first len).playing v = s.playing v := by
  refine playing_foldl s v (fun t u => ?_) _
  split
  · next h =>
    rw [State.bump, State.bumpBy, playing_setF_voice _ v (by decide) _ u, State.flag, playing_setF_voice _ v (by decide) _ u, playing_dropRefs,
      playing_modVoice_ne _ v (Ne.symm h.1)]
  · rfl

theorem playing_snapshot (s : State) (v n : Nat) (k : Take) (d : Desc) (kerf : Option Int) (p : Int) (e : Ecc) (late : Bool) :
    (s.snapshot v n k d kerf p e late).2.playing v = s.playing v := by
  unfold State.snapshot
  split
  · next h seg =>
    dsimp only
    have hl : ((s.eccEvent e false (s.entryPoisoned v seg) 0 (s.entryAddr v seg)).lateEntry v late).playing v = s.playing v :=
      (playing_lateEntry ..).trans (playing_eccEvent ..)
    rw [State.lateEntry] at hl
    generalize ite (late = true) _ _ = u at hl ⊢
    generalize ite (segMode (wordOf (s.readEntry v seg) 0) = 5) _ _ = m
    split
    · rw [playing_addRefs]
      split
      · split
        · exact hl
        · exact (playing_failClashes ..).trans hl
      · exact hl
    · rw [State.bump, State.bumpBy, playing_setF_voice _ v (by decide) _ v, State.flag, playing_setF_voice _ v (by decide) _ v, hl]
  · rfl

theorem playing_snapshotTaken (s : State) (v n : Nat) (k : Take) (d : Desc) (kerf : Option Int) (p : Int) (e : Ecc) (late : Bool) :
    (s.snapshotTaken v n k d kerf p e late).2.playing v = s.playing v := by
  have h := playing_snapshot s v n k d kerf p e late
  unfold State.snapshotTaken
  generalize s.snapshot v n k d kerf p e late = r at h ⊢
  obtain ⟨k', u⟩ := r
  dsimp only at h ⊢
  split
  · dsimp only
    split
    · exact (playing_modVoice _ v (by exact fun _ => rfl) v).trans h
    · exact h
  · exact h

/-! ### Items taken for a kerf (R94 to R96) -/

/-- From s to t, voice v took items behind those it had, and kept its item and its kerf. -/
structure Took (v : Nat) (s t : State) : Prop where
  kept : t.kept v = s.kept v
  item : (t.voice v).item = (s.voice v).item
  kerfAt : (t.voice v).kerfAt = (s.voice v).kerfAt
  taken : ∃ more, (t.voice v).taken = (s.voice v).taken ++ more

theorem took_of_playing (h : t.playing v = s.playing v) : Took v s t :=
  ⟨kept_of_playing h, item_of_plan (plan_of_playing h), kerfAt_of_plan (plan_of_playing h),
    [], by rw [taken_of_plan (plan_of_playing h), List.append_nil]⟩

theorem Took.trans {u : State} (h : Took v s t) (k : Took v t u) : Took v s u := by
  obtain ⟨a, ha⟩ := h.taken
  obtain ⟨b, hb⟩ := k.taken
  exact ⟨k.kept.trans h.kept, k.item.trans h.item, k.kerfAt.trans h.kerfAt, a ++ b, by rw [hb, ha, List.append_assoc]⟩

theorem took_append (s : State) (v : Nat) (l : List Taken) : Took v s (s.modVoice v fun x => { x with taken := x.taken ++ l }) := by
  refine ⟨rfl, ?_, ?_, l, ?_⟩
  · rw [voice_modVoice_same]
  · rw [voice_modVoice_same]
  · rw [voice_modVoice_same]

theorem takeItems_took (v n : Nat) (p : Int) (e : Ecc) (late : Bool) (fuel w : Nat) (idle kerf : Option Int) (s : State) :
    Took v s (State.takeItems v n p e late fuel w idle kerf s) := by
  induction fuel generalizing w idle kerf s with
  | zero => exact took_of_playing rfl
  | succ fuel ih =>
    have hk := took_of_playing (playing_take s v w (s.takes v n p))
    rw [State.takeItems]
    dsimp only
    generalize (s.voice v).take w (s.takes v n p) = k at hk ⊢
    split
    · exact hk
    · next d hd =>
      generalize hr : State.snapshotTaken (s.modVoice v fun _ => k.voice) v n k d _ p e late = r
      have hs : Took v s r.2 := hr ▸ hk.trans (took_of_playing (playing_snapshotTaken ..))
      obtain ⟨k', u⟩ := r
      dsimp only at hs ⊢
      split
      · split
        · exact (hs.trans (took_append u v _)).trans (ih ..)
        · exact hs.trans (took_append u v _)
      · exact hs.trans (took_append u v _)

theorem takeAt_took (s : State) (v n : Nat) (p : Int) (idle kerf : Option Int) (e : Ecc) (late : Bool) :
    Took v s (s.takeAt v n p idle kerf e late) := takeItems_took ..

end

end Sys2Proof.Machine
end

section
/-! PROOFS. Closing of windows and releases of WAIT items (O20; R43, R81, R94 to R96, R99, R100). -/

namespace Sys2Proof.Machine

section
variable {s t : State} {v n : Nat} {it : Item}

/-! ### The window of the item in play (R94, R95) -/

/-- The window of item it of voice v is closed. -/
def State.closed (s : State) (v : Nat) (it : Item) : State := s.modVoice v fun x => { x with item := some { it with closed := true } }

/-- A window that closes takes for its kerf, unless something was taken before. -/
def State.takeFirst (s : State) (v n : Nat) (p : Int) (idle kerf : Option Int) (e : Ecc) (late : Bool) : State :=
  if (s.voice v).taken.isEmpty then s.takeAt v n p idle kerf e late else s

theorem takeFirst_took (s : State) (v n : Nat) (p : Int) (idle kerf : Option Int) (e : Ecc) (late : Bool) :
    Took v s (s.takeFirst v n p idle kerf e late) := by
  unfold State.takeFirst
  split
  · exact takeAt_took ..
  · exact took_of_playing rfl

theorem closeItem_eq (ha : it.again = false) (p : Int) (e : Ecc) (late : Bool) : ∃ kerf, s.closeItem v n it p e late =
    ((((s.closed v it).takeFirst v n p none kerf e late).commitRegs v).refill v) := by
  unfold State.closeItem
  extract_lets kerf s1 s2 s3
  refine ⟨kerf, ?_⟩
  have h3 : s3 = ((((s.closed v it).takeFirst v n p none kerf e late).commitRegs v).refill v) := by
    unfold s3 s2 s1
    rw [ha, if_neg Bool.false_ne_true, ← ha, State.takeFirst, State.closed]
  rw [← h3]
  split
  · next h _ => exact absurd (ha.symm.trans h) (by decide)
  · rfl

theorem closeItem_took (hv : v < 64) (ha : it.again = false) (p : Int) (e : Ecc) (late : Bool) :
    Took v (s.closed v it) (s.closeItem v n it p e late) := by
  obtain ⟨kerf, h⟩ := closeItem_eq (s := s) (v := v) (n := n) ha p e late
  rw [h]
  exact (takeFirst_took ..).trans (took_of_playing ((playing_refill _ hv).trans (playing_commitRegs ..)))

theorem closed_item (s : State) (v : Nat) (it : Item) : ((s.closed v it).voice v).item = some { it with closed := true } := by
  rw [State.closed, voice_modVoice_same]

theorem closed_kerfAt (s : State) (v : Nat) (it : Item) : ((s.closed v it).voice v).kerfAt = (s.voice v).kerfAt := by
  rw [State.closed, voice_modVoice_same]

/-- The window of the item in play closes at position p. -/
theorem window_closes {v : Fin 64} (hc : s.voiceChan v = some n) (hrun : s.on F.CH_STATUS_RUN n = true) (hit : (s.voice v).item = some it)
    (hopen : it.closed = false) {p : Int} (hp : it.closes (s.chan n).grid = some p) (e : Ecc) (late : Bool) :
    exec (.windowClose v ⟨e, late⟩) s = .next (((s.reach (s.posTime v p)).closeItem v n it p e late).showVoice v) := by
  change execWindowClose v ⟨e, late⟩ s = _
  unfold execWindowClose
  rw [hc]
  dsimp only
  rw [if_neg (by simp [hrun]), hit]
  dsimp only
  rw [if_neg (by simp [hopen]), hp]

theorem window_closed {v : Fin 64} (hc : s.voiceChan v = some n) (hrun : s.on F.CH_STATUS_RUN n = true) (hit : (s.voice v).item = some it)
    (hopen : it.closed = false) (ha : it.again = false) {p : Int} (hp : it.closes (s.chan n).grid = some p) (e : Ecc) (late : Bool) :
    Gives (exec (.windowClose v ⟨e, late⟩) s) fun t => Reached s t (s.posTime v p) ∧
      ∃ it', (t.voice v).item = some it' ∧ it'.closed = true ∧ it'.kind = it.kind ∧ it'.first = it.first ∧ it'.len = it.len := by
  have ht := (closeItem_took (s := s.reach (s.posTime v p)) (n := n) v.isLt ha p e late).trans (took_of_playing (playing_showVoice ..))
  refine ⟨_, window_closes hc hrun hit hopen hp e late, reached_of_time (time_of_kept ht.kept), ?_⟩
  exact ⟨_, ht.item.trans (closed_item ..), rfl, rfl, rfl, rfl⟩

/-! ### Releases (R99, R100) -/

theorem setKerf_kerfAt (s : State) (v : Nat) (p : Int) : ((s.setKerf v p).voice v).kerfAt = some p := by
  rw [State.setKerf, voice_modVoice_same]

theorem releaseWait_places (hv : v < 64) (ha : it.again = false) (rel : Nat) (p : Int) (e : SnapshotRead) :
    (s.releaseWait v n it rel p e).kept v = (s.reach rel).kept v ∧ ((s.releaseWait v n it rel p e).voice v).kerfAt = some p := by
  unfold State.releaseWait
  extract_lets g u w c
  have hk : w.kept v = u.kept v := rfl
  have hc : c.kept v = w.kept v ∧ (c.voice v).kerfAt = (w.voice v).kerfAt := by
    unfold c
    split
    · exact ⟨rfl, rfl⟩
    · have ht := fun q => closeItem_took (s := w) (n := n) hv ha q e.ecc e.late
      exact ⟨(ht _).kept.trans rfl, (ht _).kerfAt.trans (closed_kerfAt ..)⟩
  have hp : ∀ x : State, x.playing v = c.playing v → x.kept v = u.kept v ∧ (x.voice v).kerfAt = some p := fun x hx =>
    ⟨(kept_of_playing hx).trans (hc.1.trans hk), (kerfAt_of_plan (plan_of_playing hx)).trans (hc.2.trans (setKerf_kerfAt ..))⟩
  apply hp
  split
  · split
    · exact playing_modVoice c v (by exact fun _ => rfl) v
    · rfl
  · rfl

/-- The release of the WAIT hold it of voice v on channel n, by its condition and the reference time seen (R99, R100). -/
def State.releasedBy (s : State) (v n : Nat) (it : Item) (e : SnapshotRead) : Res :=
  match it.cond, it.seen with
  | some (.waitTime t), _ =>
    if (s.chan n).grid.before t it.start then .next ((((s.flag F.VOICE_STATUS_WAIT_LATE v).fireVtrb v 3 (s.posTime v it.start)).releaseWait v n it
      (s.posTime v it.start) it.start e).showVoice v)
    else .next ((s.releaseWait v n it t ((s.chan n).grid.place t) e).showVoice v)
  | some (.waitKerf _), some t => .next ((s.releaseWait v n it t ((s.chan n).grid.place t) e).showVoice v)
  | some _, some r => .next ((s.releaseWait v n it (r + (13 * second) / 2000000000) ((s.chan n).grid.placeRef r 90) e).showVoice v)
  | _, _ => .next s

/-- A release at DTIME x places the kerf and reaches x. -/
theorem release_at (s : State) {v : Fin 64} {n : Nat} (ha : it.again = false) {e : SnapshotRead} {x : Nat} {p : Int} {o : Res}
    (he : o = .next ((s.releaseWait v n it x p e).showVoice v)) : Gives o fun t => (t.voice v).kerfAt = some p ∧ Reached s t x := by
  obtain ⟨hkept, hkerf⟩ := releaseWait_places (s := s) (n := n) v.isLt ha x p e
  have hs := playing_showVoice (s.releaseWait v n it x p e) v
  exact ⟨_, he, (kerfAt_of_plan (plan_of_playing hs)).trans hkerf, reached_of_time (time_of_kept ((kept_of_playing hs).trans hkept))⟩

section
variable {v : Fin 64} (hc : s.voiceChan v = some n) (hit : (s.voice v).item = some it) (hw : it.kind = .wait) (ha : it.again = false)
  (hk : (s.voice v).kerfAt = none) (e : SnapshotRead)
include hc hit hw ha hk

omit ha in
theorem release_runs : exec (.waitRelease v e) s = s.releasedBy v n it e := by
  change execWaitRelease v e s = _
  unfold execWaitRelease
  rw [hc, hit]
  dsimp only
  rw [if_neg (by simp [hw, hk])]
  rfl

theorem release_time {x : Nat} (hcond : it.cond = some (.waitTime x)) (hb : (s.chan n).grid.before x it.start = false) :
    Gives (exec (.waitRelease v e) s) fun t => (t.voice v).kerfAt = some ((s.chan n).grid.place x) ∧ Reached s t x := by
  refine release_at s (n := n) ha (e := e) ?_
  rw [release_runs hc hit hw hk, State.releasedBy, hcond]
  exact if_neg (by simp [hb])

theorem release_late {x : Nat} (hcond : it.cond = some (.waitTime x)) (hb : (s.chan n).grid.before x it.start = true) :
    Gives (exec (.waitRelease v e) s) fun t => (t.voice v).kerfAt = some it.start ∧ t.on F.VOICE_STATUS_WAIT_LATE v = true := by
  have he : exec (.waitRelease v e) s = .next ((((s.flag F.VOICE_STATUS_WAIT_LATE v).fireVtrb v 3 (s.posTime v it.start)).releaseWait v n it
      (s.posTime v it.start) it.start e).showVoice v) := by
    rw [release_runs hc hit hw hk, State.releasedBy, hcond]
    exact if_pos hb
  have hf : (s.flag F.VOICE_STATUS_WAIT_LATE v).f F.VOICE_STATUS_WAIT_LATE v = 1 :=
    f_setF_same s F.VOICE_STATUS_WAIT_LATE 1 v 0 (by constructor <;> decide)
  have hfire := kept_of_playing (playing_fireVtrb (s.flag F.VOICE_STATUS_WAIT_LATE v) v v 3 (s.posTime v it.start))
  generalize (s.flag F.VOICE_STATUS_WAIT_LATE v).fireVtrb v 3 (s.posTime v it.start) = u at he hfire
  obtain ⟨hkept, hkerf⟩ := releaseWait_places (s := u) (n := n) v.isLt ha (s.posTime v it.start) it.start e
  have hs := playing_showVoice (u.releaseWait v n it (s.posTime v it.start) it.start e) v
  refine ⟨_, he, (kerfAt_of_plan (plan_of_playing hs)).trans hkerf, ?_⟩
  rw [State.on, f_of_kept ((kept_of_playing hs).trans hkept) (by decide), reach_f, f_of_kept hfire (by decide), hf]
  rfl

theorem release_event {l r : Nat} (hcond : it.cond = some (.waitTrig l) ∨ it.cond = some (.waitEvent l)) (hseen : it.seen = some r) :
    Gives (exec (.waitRelease v e) s) fun t => (t.voice v).kerfAt = some ((s.chan n).grid.placeRef r 90) := by
  refine (release_at s (n := n) ha (e := e) (x := r + (13 * second) / 2000000000) (p := (s.chan n).grid.placeRef r 90) ?_).imp fun t ht => ht.1
  rw [release_runs hc hit hw hk, State.releasedBy, hseen]
  rcases hcond with h | h
  · rw [h]
  · rw [h]

theorem release_kerf {l r : Nat} (hcond : it.cond = some (.waitKerf l)) (hseen : it.seen = some r) :
    Gives (exec (.waitRelease v e) s) fun t => (t.voice v).kerfAt = some ((s.chan n).grid.place r) := by
  refine (release_at s (n := n) ha (e := e) (x := r) (p := (s.chan n).grid.place r) ?_).imp fun t ht => ht.1
  rw [release_runs hc hit hw hk, State.releasedBy, hseen, hcond]

omit ha in
theorem release_unseen {l : Nat} (hcond : it.cond = some (.waitTrig l)) (hseen : it.seen = none) : exec (.waitRelease v e) s = .next s := by
  rw [release_runs hc hit hw hk, State.releasedBy, hseen, hcond]

end

/-! ### The window of a WAIT TIME taken ahead, and the first kerf (R81, R96) -/

/-- The item last taken has its window closed, with the register commits w and r. -/
def State.closeLast (s : State) (v : Nat) (w : Option Word) (r : Option Nat) : State :=
  s.modVoice v fun y =>
    { y with taken := y.taken.dropLast ++ y.taken.getLast?.toList.map fun k => { k with closed := true, segtab := w, range := r }, segNew := none }

theorem closeEarly_took (hv : v < 64) (p q : Int) (e : Ecc) (late : Bool) : ∃ w r,
    Took v (s.closeLast v w r) (s.closeEarly v n p q e late) :=
  ⟨_, _, (takeItems_took ..).trans (took_of_playing (playing_refill _ hv))⟩

theorem closeLast_taken {k : Taken} (hk : (s.voice v).taken.getLast? = some k) (w : Option Word) (r : Option Nat) (more : List Taken) :
    (((s.closeLast v w r).voice v).taken ++ more)[(s.voice v).taken.length - 1]? = some { k with closed := true, segtab := w, range := r } := by
  rw [State.closeLast, voice_modVoice_same, hk]
  simp

theorem early_closed {v : Fin 64} (hc : s.voiceChan v = some n) (hrun : s.on F.CH_STATUS_RUN n = true) (hit : (s.voice v).item = some it)
    (hcl : it.closed = true) {p q : Int} (hq : s.earlyClose v n = some (p, q)) {k : Taken} (hk : (s.voice v).taken.getLast? = some k)
    (e : Ecc) (late : Bool) : Gives (exec (.windowClose v ⟨e, late⟩) s) fun t => Reached s t (s.posTime v p) ∧
      ∃ k', (t.voice v).taken[(s.voice v).taken.length - 1]? = some k' ∧ k'.closed = true ∧ k'.item = k.item := by
  have he : exec (.windowClose v ⟨e, late⟩) s = .next (((s.reach (s.posTime v p)).closeEarly v n p q e late).showVoice v) := by
    change execWindowClose v ⟨e, late⟩ s = _
    unfold execWindowClose
    rw [hc]
    dsimp only
    rw [if_neg (by simp [hrun]), hit]
    dsimp only
    rw [if_pos hcl, hq]
  obtain ⟨w, r, ht⟩ := closeEarly_took (s := s.reach (s.posTime v p)) (n := n) v.isLt p q e late
  replace ht := ht.trans (took_of_playing (playing_showVoice ..))
  refine ⟨_, he, reached_of_time (time_of_kept ht.kept), ?_⟩
  obtain ⟨more, hm⟩ := ht.taken
  have hl := closeLast_taken (s := s.reach (s.posTime v p)) (v := v) (k := k) (by rw [reach_voice]; exact hk) w r more
  rw [reach_voice] at hl
  refine ⟨{ k with closed := true, segtab := w, range := r }, ?_, rfl, rfl⟩
  rw [hm]
  exact hl

theorem first_kerf {v : Fin 64} (hc : s.voiceChan v = some n) (hrun : s.on F.CH_STATUS_RUN n = true) {p0 b : Int} (hit : (s.voice v).item = none)
    (hs : (s.voice v).since = some p0) (hk : (s.voice v).kerfAt = none) (ht : (s.voice v).taken = []) (hb : s.firstKerf v n p0 = some b)
    (e : Ecc) (late : Bool) : Gives (exec (.windowClose v ⟨e, late⟩) s) fun t =>
      (t.voice v).kerfAt = some b ∧ Reached s t (s.posTime v (b - 512 * 1024)) := by
  have he : exec (.windowClose v ⟨e, late⟩) s = .next ((((((s.reach (s.posTime v (b - 512 * 1024))).setKerf v b).takeAt v n (b - 512 * 1024) none (some b)
      e late).commitRegs v).refill v).showVoice v) := by
    change execWindowClose v ⟨e, late⟩ s = _
    unfold execWindowClose
    rw [hc]
    dsimp only
    rw [if_neg (by simp [hrun]), hit, hs]
    dsimp only
    rw [if_neg (by simp [hk]), if_neg (by simp [ht]), hb]
  have hp := fun u : State => (playing_showVoice ((u.commitRegs v).refill v) v).trans ((playing_refill _ v.isLt).trans (playing_commitRegs u v))
  have hw := (takeAt_took ((s.reach (s.posTime v (b - 512 * 1024))).setKerf v b) v n (b - 512 * 1024) none (some b) e late).trans
    (took_of_playing (hp _))
  exact ⟨_, he, hw.kerfAt.trans (setKerf_kerfAt ..), reached_of_time (time_of_kept hw.kept)⟩

end

end Sys2Proof.Machine
end

section
/-! PROOFS. The PLAY that a window takes, and windows and waits together (O20; R43, R94, R95). -/

namespace Sys2Proof.Machine

section
variable {s : State} {v n : Nat}

/-! ### Taking a PLAY (R43, R94) -/

/-- The voice with the entry at its cursor taken and committed, for the kerf with w others before it. -/
def VoiceSt.takePlay (x : VoiceSt) (w : Nat) : VoiceSt :=
  { x with cur := x.cur + 1, queue := mapRange x.queue x.cur 1 fun q => { q with committed := true, wave := w } }

theorem take_play {x : VoiceSt} {ok : QEntry → Bool} {i : QEntry} {h seg : Nat} (hl : x.loop = none) (hq : x.queue[x.cur]? = some i)
    (hd : i.desc = .play h seg) (hok : ok i = true) (w : Nat) : x.take w ok = ⟨[], some (.play h seg), x.takePlay w, i.words, none⟩ := by
  rw [VoiceSt.take, VoiceSt.takeFuel, takeFrom, hl]
  dsimp only
  rw [hq]
  dsimp only
  rw [if_pos hok, hd]
  simp only [Desc.isItem, if_true]
  rw [VoiceSt.takePlay, hl]

/-- What a good snapshot of a PLAY leaves of it. -/
def Take.snapped (k : Take) (s : State) (v h seg : Nat) (kerf : Option Int) (p : Int) (late : Bool) : Taken :=
  { acts := k.acts, item := .play h seg, pass := k.pass, kerf := kerf, at_ := s.posTime v p, late := late
    words := s.readEntry v seg, refs := entryRefs (s.readEntry v seg) }

theorem snapshot_good (k : Take) (h seg : Nat) (kerf : Option Int) (p : Int) (late : Bool)
    (hm : segMode (wordOf (s.readEntry v seg) 0) ≠ 5) (hok : s.snapshotOk v n seg (s.readEntry v seg) .clean = true) :
    s.snapshot v n k (.play h seg) kerf p .clean late =
      (k.snapped s v h seg kerf p late, (s.lateEntry v late).addRefs (entryRefs (s.readEntry v seg))) := by
  have hp : s.entryPoisoned v seg = false := by
    simp only [State.snapshotOk, Bool.and_eq_true, Bool.not_eq_true'] at hok
    obtain ⟨⟨⟨⟨⟨-, hp⟩, -⟩, -⟩, -⟩, -⟩ := hok
    exact hp
  have he : s.eccEvent .clean false (s.entryPoisoned v seg) 0 (s.entryAddr v seg) = s := by rw [hp]; rfl
  have hl : (s.lateEntry v late).snapshotOk v n seg (s.readEntry v seg) .clean = true := by
    rw [(sameData_lateEntry s v late).snapshotOk, hok]
  unfold State.snapshot
  dsimp only
  rw [he]
  change (if (s.lateEntry v late).snapshotOk v n seg (s.readEntry v seg) .clean && _ then _ else _) = _
  rw [hl, if_neg hm]
  simp only [Bool.true_and, bne_self_eq_false, Bool.false_and, Bool.not_false, if_true]
  cases kerf <;> rfl

theorem voice_addRefs (s : State) (hs : List Nat) (v : Nat) : (s.addRefs hs).voice v = s.voice v :=
  foldl_same (fun t : State => t.voice v) (by exact fun _ _ => rfl) hs s

theorem voice_lateEntry (s : State) (v u : Nat) (late : Bool) : (s.lateEntry v late).voice u = s.voice u := by
  unfold State.lateEntry
  split
  · rw [setF_voice, State.bump, State.bumpBy, setF_voice]
  · rfl

/-- The items taken and the cursor of a voice. -/
def VoiceSt.ahead (x : VoiceSt) : List Taken × Nat := (x.taken, x.cur)

theorem refetch_ahead (s : State) (v : Nat) : ((s.refetch v).voice v).ahead = (s.voice v).ahead :=
  modVoice_keeps s VoiceSt.ahead (g := fun x => { x with slots := x.slots.take (s.dramNow v).length }) (fun _ => rfl) v v

theorem snapshotTaken_good (k : Take) (h seg : Nat) (kerf : Option Int) (p : Int) (late : Bool)
    (hm : segMode (wordOf (s.readEntry v seg) 0) ≠ 5) (hok : s.snapshotOk v n seg (s.readEntry v seg) .clean = true) :
    ∃ tk t, s.snapshotTaken v n k (.play h seg) kerf p .clean late = (tk, t) ∧ (t.voice v).ahead = (s.voice v).ahead ∧
      tk.acts = k.acts ∧ tk.item = .play h seg ∧ tk.failed = false ∧ tk.words = s.readEntry v seg := by
  unfold State.snapshotTaken
  rw [snapshot_good k h seg kerf p late hm hok]
  dsimp only
  have hv : ((s.lateEntry v late).addRefs (entryRefs (s.readEntry v seg))).voice v = s.voice v := by rw [voice_addRefs, voice_lateEntry]
  generalize (s.lateEntry v late).addRefs (entryRefs (s.readEntry v seg)) = u at hv
  refine ⟨_, _, rfl, ?_, rfl, rfl, rfl, rfl⟩
  rw [← hv]
  split
  · exact refetch_ahead u v
  · rfl

theorem takeItems_play {i : QEntry} {h seg : Nat} {p : Int} (hl : (s.voice v).loop = none) (hq : (s.voice v).queue[(s.voice v).cur]? = some i)
    (hd : i.desc = .play h seg) (hok : s.takes v n p i = true) (hm : segMode (wordOf (s.readEntry v seg) 0) ≠ 5)
    (hsnap : s.snapshotOk v n seg (s.readEntry v seg) .clean = true) (late : Bool) (fuel : Nat) (idle kerf : Option Int) :
    ∃ tk, ((State.takeItems v n p .clean late (fuel + 1) 0 idle kerf s).voice v).ahead = ((s.voice v).taken ++ [tk], (s.voice v).cur + 1) ∧
      tk.acts = [] ∧ tk.item = .play h seg ∧ tk.failed = false ∧ tk.words = s.readEntry v seg := by
  have hdata := sameData_modVoice s v fun _ => (s.voice v).takePlay 0
  have hvoice := voice_modVoice_same s v fun _ => (s.voice v).takePlay 0
  rw [State.takeItems]
  dsimp only
  rw [take_play hl hq hd hok]
  dsimp only
  generalize s.modVoice v _ = u at hdata hvoice ⊢
  rw [← hdata.readEntry] at hm ⊢
  rw [← hdata.snapshotOk, ← hdata.readEntry] at hsnap
  generalize hr : State.snapshotTaken u v n _ _ _ p .clean late = r
  obtain ⟨tk, t, ht, hahead, hacts, hitem, hfail, hwords⟩ := snapshotTaken_good _ h seg _ p late hm hsnap
  rw [hr] at ht
  subst ht
  dsimp only
  refine ⟨tk, ?_, hacts, hitem, hfail, hwords⟩
  rw [voice_modVoice_same]
  have hta : (t.voice v).taken = (s.voice v).taken ∧ (t.voice v).cur = (s.voice v).cur + 1 := by
    rw [hvoice] at hahead
    simpa [VoiceSt.ahead, VoiceSt.takePlay] using hahead
  rw [VoiceSt.ahead, hta.1, hta.2]

theorem showVoice_voice (s : State) (u v : Nat) : (s.showVoice u).voice v = s.voice v := by
  unfold State.showVoice
  split
  · rw [setF_voice]
  · dsimp only
    split
    · simp only [setF_voice]
    · simp only [setF_voice]

theorem refill_ahead (s : State) (v : Nat) : ((s.refill v).voice v).ahead = (s.voice v).ahead := by
  obtain ⟨more, hm, -⟩ := refill_slots s v
  rw [hm]
  rfl

theorem commitRegs_ahead (s : State) (v : Nat) : ((s.commitRegs v).voice v).ahead = (s.voice v).ahead := by
  rw [State.commitRegs, voice_modVoice_same]
  rfl

/-- An entry that the window that closes at position p takes: it was written before, and it is committed or the voice plays its queue (R43, R94). -/
theorem takes_of {p : Int} {i : QEntry} (hw : (s.chan n).grid.before i.written p = true)
    (hp : i.committed = true ∨ s.playsQueue v = true ∧ (s.chan n).grid.before (s.voice v).takesFrom p = true) : s.takes v n p i = true := by
  rw [State.takes, hw, Bool.true_and, Bool.or_eq_true, Bool.and_eq_true]
  exact hp

theorem takeFirst_play {i : QEntry} {h seg : Nat} {p : Int} (ht : (s.voice v).taken = []) (hl : (s.voice v).loop = none)
    (hq : (s.voice v).queue[(s.voice v).cur]? = some i) (hd : i.desc = .play h seg) (hok : s.takes v n p i = true)
    (hm : segMode (wordOf (s.readEntry v seg) 0) ≠ 5) (hsnap : s.snapshotOk v n seg (s.readEntry v seg) .clean = true) (idle kerf : Option Int)
    (late : Bool) : ∃ tk, ((s.takeFirst v n p idle kerf .clean late).voice v).ahead = ([tk], (s.voice v).cur + 1) ∧
      tk.acts = [] ∧ tk.item = .play h seg ∧ tk.failed = false ∧ tk.words = s.readEntry v seg := by
  obtain ⟨fuel, hf⟩ : ∃ fuel, (s.voice v).takeFuel = fuel + 1 := ⟨_, rfl⟩
  have hi := takeItems_play hl hq hd hok hm hsnap late fuel idle kerf
  simp only [ht, List.nil_append] at hi
  rw [State.takeFirst, ht, if_pos List.isEmpty_nil, State.takeAt, hf]
  exact hi

theorem window_takes {v : Fin 64} {it : Item} (hc : s.voiceChan v = some n) (hrun : s.on F.CH_STATUS_RUN n = true)
    (hit : (s.voice v).item = some it) (hopen : it.closed = false) (ha : it.again = false) {p : Int} (hp : it.closes (s.chan n).grid = some p)
    {i : QEntry} {h seg : Nat} (ht : (s.voice v).taken = []) (hl : (s.voice v).loop = none) (hq : (s.voice v).queue[(s.voice v).cur]? = some i)
    (hd : i.desc = .play h seg) (hw : (s.chan n).grid.before i.written p = true)
    (hplay : i.committed = true ∨ s.playsQueue v = true ∧ (s.chan n).grid.before (s.voice v).takesFrom p = true)
    (hm : segMode (wordOf (s.readEntry v seg) 0) ≠ 5) (hsnap : s.snapshotOk v n seg (s.readEntry v seg) .clean = true) (late : Bool) :
    Gives (exec (.windowClose v ⟨.clean, late⟩) s) fun t => ∃ tk, (t.voice v).taken = [tk] ∧ tk.acts = [] ∧ tk.item = .play h seg ∧
      tk.failed = false ∧ tk.words = s.readEntry v seg ∧ (t.voice v).cur = (s.voice v).cur + 1 := by
  refine ⟨_, window_closes hc hrun hit hopen hp .clean late, ?_⟩
  obtain ⟨kerf, hclose⟩ := closeItem_eq (s := s.reach (s.posTime v p)) (v := v) (n := n) ha p .clean late
  have hdata : SameData s ((s.reach (s.posTime v p)).closed v it) := (sameData_reach ..).trans (sameData_modVoice ..)
  have hvoice : ((s.reach (s.posTime v p)).closed v it).voice v = { s.voice v with item := some { it with closed := true } } := by
    rw [State.closed, voice_modVoice_same, reach_voice]
  have htakes : ((s.reach (s.posTime v p)).closed v it).takes v n p i = true := by
    have hg : (((s.reach (s.posTime v p)).closed v it).chan n) = s.chan n := reach_chan ..
    have hst : ((s.reach (s.posTime v p)).closed v it).playsQueue v = s.playsQueue v :=
      congrArg (fun k => decide (3 < k)) (reach_f s (s.posTime v p) F.CORE_STATUS_STATE v 0)
    refine takes_of (by rw [hg]; exact hw) ?_
    rw [hg, hst, hvoice]
    exact hplay
  rw [hclose, showVoice_voice]
  generalize State.closed _ v it = u at hdata hvoice htakes ⊢
  rw [← hdata.readEntry] at hm ⊢
  rw [← hdata.snapshotOk, ← hdata.readEntry] at hsnap
  obtain ⟨tk, hahead, hacts, hitem, hfail, hwords⟩ := takeFirst_play (s := u) (by rw [hvoice]; exact ht) (by rw [hvoice]; exact hl)
    (by rw [hvoice]; exact hq) hd htakes hm hsnap none kerf late
  rw [← commitRegs_ahead, ← refill_ahead, hvoice] at hahead
  obtain ⟨htaken, hcur⟩ := Prod.mk.inj hahead
  exact ⟨tk, htaken, hacts, hitem, hfail, hwords, hcur⟩

end

/-- Settles O20: a WAIT places its kerf at its release, and a window closes at its instant and takes the PLAY written before it. -/
theorem windowsAndWaits : Obligations.WindowsAndWaits := by
  unfold Obligations.WindowsAndWaits
  refine ⟨?_, ?_⟩
  · intro v e n it s hc hit hw ha hk g
    refine ⟨?_, ?_, ?_, ?_, ?_⟩
    · intro t0 hcond hb
      exact release_time hc hit hw ha hk e hcond hb
    · intro t0 hcond hb
      exact release_late hc hit hw ha hk e hcond hb
    · intro l r hcond hseen
      exact release_event hc hit hw ha hk e hcond hseen
    · intro l r hcond hseen
      exact release_kerf hc hit hw ha hk e hcond hseen
    · intro l hcond hseen
      exact release_unseen hc hit hw hk e hcond hseen
  · intro v e late n s hc hrun x g
    refine ⟨?_, ?_, ?_, ?_⟩
    · intro it p hit hopen hp ha
      exact window_closed hc hrun hit hopen ha hp e late
    · intro it p i h seg hit hopen hp ha ht hl hq hd hw hplay hm hsnap
      exact window_takes hc hrun hit hopen ha hp ht hl hq hd hw hplay hm hsnap late
    · intro it p q k hit hcl hq hk
      exact early_closed hc hrun hit hcl hq hk e late
    · intro p0 b hit hs hk ht hb
      exact first_kerf hc hrun hit hs hk ht hb e late

end Sys2Proof.Machine
end

section
/-! PROOFS. The decoder undoes the encoder (O5; R54 to R77): the fields of a word that is written from its operands, and each instruction. -/

namespace Sys2Proof.Machine

/-! ### What a field of a word has to hold (R54, R55, R58) -/

/-- A word decodes to o when its reserved fields are clear and the operands are those of o (R54). -/
@[simp] theorem whenClear_eq_op {w : Nat} {l : List (Nat × Nat)} {o o' : CoreOp} :
    whenClear w l o' = .op o ↔ (∀ p ∈ l, bits w p.1 p.2 = 0) ∧ o' = o := by
  unfold whenClear
  split
  · next h => simp_all
  · next h => simpa using fun h' => absurd (by simpa using h') h

section
variable {w hi lo n : Nat}

@[simp] theorem slice_eq_iff {x : BitVec n} : slice n w hi lo = x ↔ bits w hi lo % 2 ^ n = x.toNat := by
  rw [slice, ← BitVec.toNat_inj, BitVec.toNat_ofNat]

@[simp] theorem regD_eq_iff {d : Fin 32} : regD w = d ↔ bits w 55 51 % 32 = d := Fin.ext_iff
@[simp] theorem regA_eq_iff {a : Fin 32} : regA w = a ↔ bits w 50 46 % 32 = a := Fin.ext_iff
@[simp] theorem regB_eq_iff {b : Fin 32} : regB w = b ↔ bits w 45 41 % 32 = b := Fin.ext_iff
@[simp] theorem tgtOf_eq_iff {t : Fin 8192} : tgtOf w = t ↔ w % 8192 = t := Fin.ext_iff

theorem ofNat_eq_iff [NeZero n] {x : Fin n} : Fin.ofNat n w = x ↔ w % n = x := Fin.ext_iff

theorem bit_eq_iff {x : Bool} : bit w n = x ↔ w / 2 ^ n % 2 = x.toNat := by
  have := Nat.mod_two_eq_zero_or_one (w / 2 ^ n)
  unfold bit
  cases x
  · simp
  · simp

end

section
variable {op d a b rest : Nat}

theorem opcode_encoded (ho : op < 256) (hd : d < 32) (hl : a * 2 ^ 46 + b * 2 ^ 41 + rest < 2 ^ 51) :
    bits (encoded op d a b rest) 63 56 = op := by
  unfold bits encoded; omega

/-- The bits of field D, which carries the modes of many instructions. -/
theorem bits_encoded_d (i j : Nat) (hi : i ≤ j) (hj : j < 5) (hl : a * 2 ^ 46 + b * 2 ^ 41 + rest < 2 ^ 51) :
    bits (encoded op d a b rest) (51 + j) (51 + i) = bits d j i := by
  unfold bits encoded
  interval_cases j <;> interval_cases i <;> omega

/-- One bit of field D. -/
theorem bit_encoded_d (i : Nat) (hi : i < 5) (hl : a * 2 ^ 46 + b * 2 ^ 41 + rest < 2 ^ 51) :
    bit (encoded op d a b rest) (51 + i) = bit d i := by
  have h := bits_encoded_d (op := op) (d := d) i i (Nat.le_refl i) hi hl
  simp only [bits, Nat.add_sub_cancel_left, Nat.pow_one] at h
  rw [bit, h, bit]

end

theorem RR.code_bounds (o : RR) : 0x08 ≤ o.code ∧ o.code ≤ 0x10 := by cases o <;> decide
theorem RI.code_bounds (o : RI) : 0x11 ≤ o.code ∧ o.code ≤ 0x17 := by cases o <;> decide
theorem Cond.code_lt (c : Cond) : c.code < 8 := by cases c <;> decide
theorem rrOf_code (o : RR) : rrOf o.code = o := by cases o <;> rfl
theorem riOf_code (o : RI) : riOf o.code = o := by cases o <;> rfl
theorem condOf_code (c : Cond) : condOf c.code = c := by cases c <;> rfl

/-! ### Integer and memory instructions (R59, R60) -/

theorem decode_rr (o : RR) (d a b : Fin 32) : decodeCore (encodeCore (.rr o d a b)) = .op (.rr o d a b) := by
  obtain ⟨hlo, hhi⟩ := o.code_bounds
  have h : bits (encodeCore (.rr o d a b)) 63 56 = o.code := opcode_encoded (by omega) (by omega) (by omega)
  simp only [decodeCore, h]
  rw [if_neg (by omega), if_pos ⟨hlo, hhi⟩, rrOf_code]
  simp
  simp only [bits, encodeCore, encoded]; omega

/-- The field of a shift count is clear from bit 6 on. -/
theorem RI.shift_lt {o : RI} {d a : Fin 32} {imm : BitVec 32} (hok : (CoreOp.ri o d a imm).ok = true) (ho : 0x15 ≤ o.code) : imm.toNat < 64 := by
  cases o
  case shli | shri | srai => exact of_decide_eq_true hok
  all_goals exact absurd ho (by decide)

theorem decode_ri (o : RI) (d a : Fin 32) (imm : BitVec 32) (hok : (CoreOp.ri o d a imm).ok = true) :
    decodeCore (encodeCore (.ri o d a imm)) = .op (.ri o d a imm) := by
  obtain ⟨hlo, hhi⟩ := o.code_bounds
  have h : bits (encodeCore (.ri o d a imm)) 63 56 = o.code := opcode_encoded (by omega) (by omega) (by omega)
  have hs := RI.shift_lt hok
  simp only [decodeCore, h]
  rw [if_neg (by omega), if_neg (by omega), if_pos ⟨hlo, hhi⟩, riOf_code]
  split
  · have hs := hs ‹_›
    simp
    simp only [bits, encodeCore, encoded]; omega
  · simp
    simp only [bits, encodeCore, encoded]; omega

theorem decode_ldi (d : Fin 32) (imm : BitVec 48) : decodeCore (encodeCore (.ldi d imm)) = .op (.ldi d imm) := by
  have h : bits (encodeCore (.ldi d imm)) 63 56 = 0x18 := opcode_encoded (by decide) (by omega) (by omega)
  simp [decodeCore, h]
  simp only [bits, encodeCore, encoded]; omega

theorem decode_ldih (d : Fin 32) (imm : BitVec 16) : decodeCore (encodeCore (.ldih d imm)) = .op (.ldih d imm) := by
  have h : bits (encodeCore (.ldih d imm)) 63 56 = 0x19 := opcode_encoded (by decide) (by omega) (by omega)
  simp [decodeCore, h]
  simp only [bits, encodeCore, encoded]; omega

theorem decode_ld (d a : Fin 32) (off : BitVec 16) : decodeCore (encodeCore (.ld d a off)) = .op (.ld d a off) := by
  have h : bits (encodeCore (.ld d a off)) 63 56 = 0x1A := opcode_encoded (by decide) (by omega) (by omega)
  simp [decodeCore, h]
  simp only [bits, encodeCore, encoded]; omega

theorem decode_st (a b : Fin 32) (off : BitVec 16) : decodeCore (encodeCore (.st a b off)) = .op (.st a b off) := by
  have h : bits (encodeCore (.st a b off)) 63 56 = 0x1B := opcode_encoded (by decide) (by omega) (by omega)
  simp [decodeCore, h]
  simp only [bits, encodeCore, encoded]; omega

theorem decode_dtrdSec (d : Fin 32) : decodeCore (encodeCore (.dtrdSec d)) = .op (.dtrdSec d) := by
  have h : bits (encodeCore (.dtrdSec d)) 63 56 = 0x1C := opcode_encoded (by decide) (by omega) (by omega)
  have h0 : bit (encodeCore (.dtrdSec d)) 0 = false := bit_eq_iff.2 (by simp only [encodeCore, encoded, Bool.toNat_false]; omega)
  simp [decodeCore, h, h0]
  simp only [bits, encodeCore, encoded]; omega

theorem decode_dtrdFrac (d : Fin 32) : decodeCore (encodeCore (.dtrdFrac d)) = .op (.dtrdFrac d) := by
  have h : bits (encodeCore (.dtrdFrac d)) 63 56 = 0x1C := opcode_encoded (by decide) (by omega) (by omega)
  have h0 : bit (encodeCore (.dtrdFrac d)) 0 = true := bit_eq_iff.2 (by simp only [encodeCore, encoded, Bool.toNat_true]; omega)
  simp [decodeCore, h, h0]
  simp only [bits, encodeCore, encoded]; omega

/-! ### Branches and control flow (R61, R62) -/

theorem decode_br (c : Cond) (a b : Fin 32) (tgt : Fin 8192) : decodeCore (encodeCore (.br c a b tgt)) = .op (.br c a b tgt) := by
  have hlt := c.code_lt
  have h : bits (encodeCore (.br c a b tgt)) 63 56 = 0x20 := opcode_encoded (by decide) (by omega) (by omega)
  have hc : bits (encodeCore (.br c a b tgt)) 55 53 = c.code := (bits_encoded_d 2 4 (by decide) (by decide) (by omega)).trans (by unfold bits; omega)
  simp [decodeCore, h, hc, condOf_code]
  simp only [bits, encodeCore, encoded]; omega

/-- The field of a bit number is clear from bit 6 on. -/
theorem Cond.bitNumber_lt {c : Cond} {a : Fin 32} {imm : BitVec 30} {tgt : Fin 8192} (hok : (CoreOp.bi c a imm tgt).ok = true)
    (hc : 6 ≤ c.code) : imm.toNat < 64 := by
  cases c
  case bs | bc => exact of_decide_eq_true hok
  all_goals exact absurd hc (by decide)

theorem decode_bi (c : Cond) (a : Fin 32) (imm : BitVec 30) (tgt : Fin 8192) (hok : (CoreOp.bi c a imm tgt).ok = true) :
    decodeCore (encodeCore (.bi c a imm tgt)) = .op (.bi c a imm tgt) := by
  have hlt := c.code_lt
  have h : bits (encodeCore (.bi c a imm tgt)) 63 56 = 0x21 := opcode_encoded (by decide) (by omega) (by omega)
  have hc : bits (encodeCore (.bi c a imm tgt)) 55 53 = c.code :=
    (bits_encoded_d 2 4 (by decide) (by decide) (by omega)).trans (by unfold bits; omega)
  have hs := Cond.bitNumber_lt hok
  simp [decodeCore, h, hc, condOf_code]
  simp only [bits, encodeCore, encoded]; omega

theorem decode_goto (tgt : Fin 8192) : decodeCore (encodeCore (.goto_ tgt)) = .op (.goto_ tgt) := by
  have h : bits (encodeCore (.goto_ tgt)) 63 56 = 0x22 := opcode_encoded (by decide) (by omega) (by omega)
  simp [decodeCore, h]
  simp only [bits, encodeCore, encoded]; omega

theorem decode_call (tgt : Fin 8192) : decodeCore (encodeCore (.call tgt)) = .op (.call tgt) := by
  have h : bits (encodeCore (.call tgt)) 63 56 = 0x23 := opcode_encoded (by decide) (by omega) (by omega)
  simp [decodeCore, h]
  simp only [bits, encodeCore, encoded]; omega

/-! ### Descriptors (R65 to R71) -/

theorem decode_play_imm_imm (k : BitVec 16) (g : BitVec 16) : decodeCore (encodeCore (.play (.imm k) (.imm g))) = .op (.play (.imm k) (.imm g)) := by
  have h : bits (encodeCore (.play (.imm k) (.imm g))) 63 56 = 0x40 := opcode_encoded (by decide) (by omega) (by omega)
  have hs : bit (encodeCore (.play (.imm k) (.imm g))) 55 = false := (bit_encoded_d 4 (by decide) (by omega)).trans (by decide)
  have hk : bit (encodeCore (.play (.imm k) (.imm g))) 54 = false := (bit_encoded_d 3 (by decide) (by omega)).trans (by decide)
  simp [decodeCore, decodeOwn, h, hs, hk]
  simp only [bits, encodeCore, encoded]; omega

theorem decode_play_imm_reg (k : BitVec 16) (g : Fin 32) : decodeCore (encodeCore (.play (.imm k) (.reg g))) = .op (.play (.imm k) (.reg g)) := by
  have h : bits (encodeCore (.play (.imm k) (.reg g))) 63 56 = 0x40 := opcode_encoded (by decide) (by omega) (by omega)
  have hs : bit (encodeCore (.play (.imm k) (.reg g))) 55 = true := (bit_encoded_d 4 (by decide) (by omega)).trans (by decide)
  have hk : bit (encodeCore (.play (.imm k) (.reg g))) 54 = false := (bit_encoded_d 3 (by decide) (by omega)).trans (by decide)
  simp [decodeCore, decodeOwn, h, hs, hk]
  simp only [bits, encodeCore, encoded]; omega

theorem decode_play_reg_imm (k : Fin 32) (g : BitVec 16) : decodeCore (encodeCore (.play (.reg k) (.imm g))) = .op (.play (.reg k) (.imm g)) := by
  have h : bits (encodeCore (.play (.reg k) (.imm g))) 63 56 = 0x40 := opcode_encoded (by decide) (by omega) (by omega)
  have hs : bit (encodeCore (.play (.reg k) (.imm g))) 55 = false := (bit_encoded_d 4 (by decide) (by omega)).trans (by decide)
  have hk : bit (encodeCore (.play (.reg k) (.imm g))) 54 = true := (bit_encoded_d 3 (by decide) (by omega)).trans (by decide)
  simp [decodeCore, decodeOwn, h, hs, hk]
  simp only [bits, encodeCore, encoded]; omega

theorem decode_play_reg_reg (k : Fin 32) (g : Fin 32) : decodeCore (encodeCore (.play (.reg k) (.reg g))) = .op (.play (.reg k) (.reg g)) := by
  have h : bits (encodeCore (.play (.reg k) (.reg g))) 63 56 = 0x40 := opcode_encoded (by decide) (by omega) (by omega)
  have hs : bit (encodeCore (.play (.reg k) (.reg g))) 55 = true := (bit_encoded_d 4 (by decide) (by omega)).trans (by decide)
  have hk : bit (encodeCore (.play (.reg k) (.reg g))) 54 = true := (bit_encoded_d 3 (by decide) (by omega)).trans (by decide)
  simp [decodeCore, decodeOwn, h, hs, hk]
  simp only [bits, encodeCore, encoded]; omega

theorem decode_loop_imm (n : BitVec 24) (len : BitVec 5) : decodeCore (encodeCore (.loop (.imm n) len)) = .op (.loop (.imm n) len) := by
  have h : bits (encodeCore (.loop (.imm n) len)) 63 56 = 0x41 := opcode_encoded (by decide) (by omega) (by omega)
  have hn : bit (encodeCore (.loop (.imm n) len)) 55 = false := (bit_encoded_d 4 (by decide) (by omega)).trans (by decide)
  simp [decodeCore, decodeOwn, h, hn]
  simp only [bits, encodeCore, encoded]; omega

theorem decode_loop_reg (n : Fin 32) (len : BitVec 5) : decodeCore (encodeCore (.loop (.reg n) len)) = .op (.loop (.reg n) len) := by
  have h : bits (encodeCore (.loop (.reg n) len)) 63 56 = 0x41 := opcode_encoded (by decide) (by omega) (by omega)
  have hn : bit (encodeCore (.loop (.reg n) len)) 55 = true := (bit_encoded_d 4 (by decide) (by omega)).trans (by decide)
  simp [decodeCore, decodeOwn, h, hn]
  simp only [bits, encodeCore, encoded]; omega

theorem decode_jump (mode : Fin 3) (discard : Bool) (ec : BitVec 8) (entry : Fin 16) : decodeCore (encodeCore (.jump mode discard ec entry)) = .op (.jump mode discard ec entry) := by
  have hx := discard.toNat_le
  have h : bits (encodeCore (.jump mode discard ec entry)) 63 56 = 0x42 := opcode_encoded (by decide) (by omega) (by omega)
  have hm : bits (encodeCore (.jump mode discard ec entry)) 55 54 = mode := (bits_encoded_d 3 4 (by decide) (by decide) (by omega)).trans (by unfold bits; omega)
  have hd : bit (encodeCore (.jump mode discard ec entry)) 53 = discard := bit_eq_iff.2 (by simp only [encodeCore, encoded]; omega)
  simp [decodeCore, decodeOwn, h, hm, hd, Nat.ne_of_lt mode.isLt, ofNat_eq_iff, -Fin.ofNat_eq_cast]
  simp only [bits, encodeCore, encoded]; omega

theorem decode_jumpDisarm (x : Bool) : decodeCore (encodeCore (.jumpDisarm x)) = .op (.jumpDisarm x) := by
  have hx := x.toNat_le
  have h : bits (encodeCore (.jumpDisarm x)) 63 56 = 0x42 := opcode_encoded (by decide) (by omega) (by omega)
  have hm : bits (encodeCore (.jumpDisarm x)) 55 54 = 3 := (bits_encoded_d 3 4 (by decide) (by decide) (by omega)).trans (by decide)
  have hn : bit (encodeCore (.jumpDisarm x)) 15 = x := bit_eq_iff.2 (by simp only [encodeCore, encoded]; omega)
  simp [decodeCore, decodeOwn, h, hm, hn]
  simp only [bits, encodeCore, encoded]; omega

theorem decode_waitTrig (arg : BitVec 16) : decodeCore (encodeCore (.waitTrig arg)) = .op (.waitTrig arg) := by
  have h : bits (encodeCore (.waitTrig arg)) 63 56 = 0x43 := opcode_encoded (by decide) (by omega) (by omega)
  have hk : bits (encodeCore (.waitTrig arg)) 55 53 = 0 := (bits_encoded_d 2 4 (by decide) (by decide) (by omega)).trans (by decide)
  simp [decodeCore, decodeOwn, h, hk, decodeWait]
  simp only [bits, encodeCore, encoded]; omega

theorem decode_waitEvent (arg : BitVec 16) : decodeCore (encodeCore (.waitEvent arg)) = .op (.waitEvent arg) := by
  have h : bits (encodeCore (.waitEvent arg)) 63 56 = 0x43 := opcode_encoded (by decide) (by omega) (by omega)
  have hk : bits (encodeCore (.waitEvent arg)) 55 53 = 1 := (bits_encoded_d 2 4 (by decide) (by decide) (by omega)).trans (by decide)
  simp [decodeCore, decodeOwn, h, hk, decodeWait]
  simp only [bits, encodeCore, encoded]; omega

theorem decode_waitKerf (arg : BitVec 16) : decodeCore (encodeCore (.waitKerf arg)) = .op (.waitKerf arg) := by
  have h : bits (encodeCore (.waitKerf arg)) 63 56 = 0x43 := opcode_encoded (by decide) (by omega) (by omega)
  have hk : bits (encodeCore (.waitKerf arg)) 55 53 = 3 := (bits_encoded_d 2 4 (by decide) (by decide) (by omega)).trans (by decide)
  simp [decodeCore, decodeOwn, h, hk, decodeWait]
  simp only [bits, encodeCore, encoded]; omega

theorem decode_waitTime (a b : Fin 32) : decodeCore (encodeCore (.waitTime a b)) = .op (.waitTime a b) := by
  have h : bits (encodeCore (.waitTime a b)) 63 56 = 0x43 := opcode_encoded (by decide) (by omega) (by omega)
  have hk : bits (encodeCore (.waitTime a b)) 55 53 = 2 := (bits_encoded_d 2 4 (by decide) (by decide) (by omega)).trans (by decide)
  simp [decodeCore, decodeOwn, h, hk, decodeWait]
  simp only [bits, encodeCore, encoded]; omega

theorem decode_setf (a : Fin 32) : decodeCore (encodeCore (.setf a)) = .op (.setf a) := by
  have h : bits (encodeCore (.setf a)) 63 56 = 0x48 := opcode_encoded (by decide) (by omega) (by omega)
  simp [decodeCore, decodeOwn, h]
  simp only [bits, encodeCore, encoded]; omega

theorem decode_setp_imm (add : Bool) (p : BitVec 32) : decodeCore (encodeCore (.setp add (.imm p))) = .op (.setp add (.imm p)) := by
  have hx := add.toNat_le
  have h : bits (encodeCore (.setp add (.imm p))) 63 56 = 0x49 := opcode_encoded (by decide) (by omega) (by omega)
  have ha : bit (encodeCore (.setp add (.imm p))) 55 = add := bit_eq_iff.2 (by simp only [encodeCore, encoded]; omega)
  have hp : bit (encodeCore (.setp add (.imm p))) 54 = false := bit_eq_iff.2 (by simp only [encodeCore, encoded, Bool.toNat_false]; omega)
  simp [decodeCore, decodeOwn, h, ha, hp]
  simp only [bits, encodeCore, encoded]; omega

theorem decode_setp_reg (add : Bool) (p : Fin 32) : decodeCore (encodeCore (.setp add (.reg p))) = .op (.setp add (.reg p)) := by
  have hx := add.toNat_le
  have h : bits (encodeCore (.setp add (.reg p))) 63 56 = 0x49 := opcode_encoded (by decide) (by omega) (by omega)
  have ha : bit (encodeCore (.setp add (.reg p))) 55 = add := bit_eq_iff.2 (by simp only [encodeCore, encoded]; omega)
  have hp : bit (encodeCore (.setp add (.reg p))) 54 = true := bit_eq_iff.2 (by simp only [encodeCore, encoded, Bool.toNat_true]; omega)
  simp [decodeCore, decodeOwn, h, ha, hp]
  simp only [bits, encodeCore, encoded]; omega

theorem decode_rampf (a b : Fin 32) : decodeCore (encodeCore (.rampf a b)) = .op (.rampf a b) := by
  have h : bits (encodeCore (.rampf a b)) 63 56 = 0x4A := opcode_encoded (by decide) (by omega) (by omega)
  simp [decodeCore, decodeOwn, h]
  simp only [bits, encodeCore, encoded]; omega

theorem decode_mark (lane mode : Fin 4) (offset : BitVec 28) (width : BitVec 16) (hok : (CoreOp.mark lane mode offset width).ok = true) :
    decodeCore (encodeCore (.mark lane mode offset width)) = .op (.mark lane mode offset width) := by
  have hw : mode.val = 2 ∨ width.toNat = 0 :=
    (Bool.or_eq_true_iff.1 hok).imp (fun h => congrArg Fin.val (eq_of_beq h)) fun h => congrArg BitVec.toNat (eq_of_beq h)
  have h : bits (encodeCore (.mark lane mode offset width)) 63 56 = 0x50 := opcode_encoded (by decide) (by omega) (by omega)
  have hl : bits (encodeCore (.mark lane mode offset width)) 55 54 = lane :=
    (bits_encoded_d 3 4 (by decide) (by decide) (by omega)).trans (by unfold bits; omega)
  have hm : bits (encodeCore (.mark lane mode offset width)) 53 52 = mode :=
    (bits_encoded_d 1 2 (by decide) (by decide) (by omega)).trans (by unfold bits; omega)
  simp [decodeCore, decodeOwn, h, hl, hm]
  simp only [bits, encodeCore, encoded]; omega

theorem decode_trigo (line : Fin 16) : decodeCore (encodeCore (.trigo line)) = .op (.trigo line) := by
  have h : bits (encodeCore (.trigo line)) 63 56 = 0x51 := opcode_encoded (by decide) (by omega) (by omega)
  have hl : bits (encodeCore (.trigo line)) 55 52 = line := (bits_encoded_d 1 4 (by decide) (by decide) (by omega)).trans (by unfold bits; omega)
  simp [decodeCore, decodeOwn, h, hl]
  simp only [bits, encodeCore, encoded]; omega

/-! ### Buffers, events and budget (R72 to R77) -/

theorem decode_bufAlloc (d a : Fin 32) (region : Fin 3) : decodeCore (encodeCore (.bufAlloc d a region)) = .op (.bufAlloc d a region) := by
  have h : bits (encodeCore (.bufAlloc d a region)) 63 56 = 0x58 := opcode_encoded (by decide) (by omega) (by omega)
  have hr : bits (encodeCore (.bufAlloc d a region)) 1 0 = region := by simp only [bits, encodeCore, encoded]; omega
  simp [decodeCore, decodeOwn, h, hr, Nat.ne_of_lt region.isLt]
  simp only [bits, encodeCore, encoded]; omega

theorem decode_bufAttach (d a : Fin 32) : decodeCore (encodeCore (.bufAttach d a)) = .op (.bufAttach d a) := by
  have h : bits (encodeCore (.bufAttach d a)) 63 56 = 0x58 := opcode_encoded (by decide) (by omega) (by omega)
  have hr : bits (encodeCore (.bufAttach d a)) 1 0 = 3 := by simp only [bits, encodeCore, encoded]; omega
  simp [decodeCore, decodeOwn, h, hr]
  simp only [bits, encodeCore, encoded]; omega

theorem decode_bufFree (a : Fin 32) : decodeCore (encodeCore (.bufFree a)) = .op (.bufFree a) := by
  have h : bits (encodeCore (.bufFree a)) 63 56 = 0x59 := opcode_encoded (by decide) (by omega) (by omega)
  simp [decodeCore, decodeOwn, h]
  simp only [bits, encodeCore, encoded]; omega

theorem decode_bufFence (a : Fin 32) : decodeCore (encodeCore (.bufFence a)) = .op (.bufFence a) := by
  have h : bits (encodeCore (.bufFence a)) 63 56 = 0x5A := opcode_encoded (by decide) (by omega) (by omega)
  simp [decodeCore, decodeOwn, h]
  simp only [bits, encodeCore, encoded]; omega

theorem decode_bufGet (d a b : Fin 32) (daddr : BitVec 12) (nw : BitVec 8) : decodeCore (encodeCore (.bufGet d a b daddr nw)) = .op (.bufGet d a b daddr nw) := by
  have h : bits (encodeCore (.bufGet d a b daddr nw)) 63 56 = 0x5B := opcode_encoded (by decide) (by omega) (by omega)
  simp [decodeCore, decodeOwn, h]
  simp only [bits, encodeCore, encoded]; omega

theorem decode_bufPut (d a b : Fin 32) (daddr : BitVec 12) (nw : BitVec 8) : decodeCore (encodeCore (.bufPut d a b daddr nw)) = .op (.bufPut d a b daddr nw) := by
  have h : bits (encodeCore (.bufPut d a b daddr nw)) 63 56 = 0x5C := opcode_encoded (by decide) (by omega) (by omega)
  simp [decodeCore, decodeOwn, h]
  simp only [bits, encodeCore, encoded]; omega

theorem decode_evtFire_imm (c : BitVec 7) : decodeCore (encodeCore (.evtFire (.imm c))) = .op (.evtFire (.imm c)) := by
  have h : bits (encodeCore (.evtFire (.imm c))) 63 56 = 0x60 := opcode_encoded (by decide) (by omega) (by omega)
  have hr : bit (encodeCore (.evtFire (.imm c))) 55 = false := (bit_encoded_d 4 (by decide) (by omega)).trans (by decide)
  simp [decodeCore, decodeOwn, h, hr]
  simp only [bits, encodeCore, encoded]; omega

theorem decode_evtFire_reg (r : Fin 32) : decodeCore (encodeCore (.evtFire (.reg r))) = .op (.evtFire (.reg r)) := by
  have h : bits (encodeCore (.evtFire (.reg r))) 63 56 = 0x60 := opcode_encoded (by decide) (by omega) (by omega)
  have hr : bit (encodeCore (.evtFire (.reg r))) 55 = true := (bit_encoded_d 4 (by decide) (by omega)).trans (by decide)
  simp [decodeCore, decodeOwn, h, hr]
  simp only [bits, encodeCore, encoded]; omega

theorem decode_evtWaitArm (d : Fin 32) (eca ecb : BitVec 8) : decodeCore (encodeCore (.evtWaitArm d eca ecb)) = .op (.evtWaitArm d eca ecb) := by
  have h : bits (encodeCore (.evtWaitArm d eca ecb)) 63 56 = 0x61 := opcode_encoded (by decide) (by omega) (by omega)
  have ha : bit (encodeCore (.evtWaitArm d eca ecb)) 50 = true := bit_eq_iff.2 (by simp only [encodeCore, encoded, Bool.toNat_true]; omega)
  simp [decodeCore, decodeOwn, h, ha]
  simp only [bits, encodeCore, encoded]; omega

theorem decode_evtWait (d : Fin 32) (eca ecb : BitVec 8) (tmo : BitVec 24) : decodeCore (encodeCore (.evtWait d eca ecb tmo)) = .op (.evtWait d eca ecb tmo) := by
  have h : bits (encodeCore (.evtWait d eca ecb tmo)) 63 56 = 0x61 := opcode_encoded (by decide) (by omega) (by omega)
  have ha : bit (encodeCore (.evtWait d eca ecb tmo)) 50 = false := bit_eq_iff.2 (by simp only [encodeCore, encoded, Bool.toNat_false]; omega)
  simp [decodeCore, decodeOwn, h, ha]
  simp only [bits, encodeCore, encoded]; omega

theorem decode_budget (d : Fin 32) (cls : Fin 4) (phase : Fin 16) : decodeCore (encodeCore (.budget d cls phase)) = .op (.budget d cls phase) := by
  have h : bits (encodeCore (.budget d cls phase)) 63 56 = 0x68 := opcode_encoded (by decide) (by omega) (by omega)
  simp [decodeCore, decodeOwn, h, ofNat_eq_iff, -Fin.ofNat_eq_cast]
  simp only [bits, encodeCore, encoded]; omega

/-- Settles O5: the word of each instruction has clear reserved fields and its operands in their places. -/
theorem decodeOfEncode : Obligations.DecodeOfEncode := by
  intro o hok
  cases o with
  | nop => decide
  | rr o d a b => exact decode_rr o d a b
  | ri o d a imm => exact decode_ri o d a imm hok
  | ldi d imm => exact decode_ldi d imm
  | ldih d imm => exact decode_ldih d imm
  | ld d a off => exact decode_ld d a off
  | st a b off => exact decode_st a b off
  | dtrdSec d => exact decode_dtrdSec d
  | dtrdFrac d => exact decode_dtrdFrac d
  | br c a b tgt => exact decode_br c a b tgt
  | bi c a imm tgt => exact decode_bi c a imm tgt hok
  | goto_ tgt => exact decode_goto tgt
  | call tgt => exact decode_call tgt
  | ret => decide
  | end_ => decide
  | play kerf seg =>
    cases kerf with
    | imm k =>
      cases seg with
      | imm g => exact decode_play_imm_imm k g
      | reg g => exact decode_play_imm_reg k g
    | reg k =>
      cases seg with
      | imm g => exact decode_play_reg_imm k g
      | reg g => exact decode_play_reg_reg k g
  | loop count len =>
    cases count with
    | imm n => exact decode_loop_imm n len
    | reg n => exact decode_loop_reg n len
  | jump mode discard ec entry => exact decode_jump mode discard ec entry
  | jumpDisarm x => exact decode_jumpDisarm x
  | waitTrig arg => exact decode_waitTrig arg
  | waitEvent arg => exact decode_waitEvent arg
  | waitTime a b => exact decode_waitTime a b
  | waitKerf arg => exact decode_waitKerf arg
  | waitOther => exact absurd hok (by decide)
  | setf a => exact decode_setf a
  | setp add phase =>
    cases phase with
    | imm p => exact decode_setp_imm add p
    | reg p => exact decode_setp_reg add p
  | rampf a b => exact decode_rampf a b
  | mark lane mode offset width => exact decode_mark lane mode offset width hok
  | trigo line => exact decode_trigo line
  | bufAlloc d a region => exact decode_bufAlloc d a region
  | bufAttach d a => exact decode_bufAttach d a
  | bufFree a => exact decode_bufFree a
  | bufFence a => exact decode_bufFence a
  | bufGet d a b daddr nw => exact decode_bufGet d a b daddr nw
  | bufPut d a b daddr nw => exact decode_bufPut d a b daddr nw
  | evtFire ec =>
    cases ec with
    | imm c => exact decode_evtFire_imm c
    | reg r => exact decode_evtFire_reg r
  | evtWaitArm d eca ecb => exact decode_evtWaitArm d eca ecb
  | evtWait d eca ecb tmo => exact decode_evtWait d eca ecb tmo
  | budget d cls phase => exact decode_budget d cls phase

end Sys2Proof.Machine
end

section
/-! PROOFS. The integer instructions (O6), what the register instructions leave (O7), branch conditions (O9) and targets (O10). -/

namespace Sys2Proof.Machine

/-! ### Integer instructions (R55, R59) -/

section
variable {s : State} {k : Fin 64} {e : Ecc} {d a b : Fin 32} {o : CoreOp} {w : Word}

/-- An instruction whose result is w writes it to gd and goes on. -/
theorem result_completes (h : Issues s k e o) (hp : (s.fetched k e).perform k false o .clean = (s.fetched k e).result k d w) :
    s.issue k e o .clean = .next (((s.fetched k e).setGreg k d w).setPc k (s.pc k + 1)) := by
  rw [issue_performs h, hp, State.result, CoreRes.apply, fetched_pc]

theorem rr_completes {o : RR} (h : Issues s k e (.rr o d a b)) : s.issue k e (.rr o d a b) .clean =
    .next (((s.fetched k e).setGreg k d (o.eval (s.greg k a) (s.greg k b))).setPc k (s.pc k + 1)) :=
  result_completes h (by rw [State.perform, fetched_greg, fetched_greg])

theorem ri_completes {o : RI} {imm : BitVec 32} (h : Issues s k e (.ri o d a imm)) : s.issue k e (.ri o d a imm) .clean =
    .next (((s.fetched k e).setGreg k d (o.eval (s.greg k a) imm)).setPc k (s.pc k + 1)) :=
  result_completes h (by rw [State.perform, fetched_greg])

theorem ldi_completes {imm : BitVec 48} (h : Issues s k e (.ldi d imm)) :
    exec (.ldi k e d imm) s = .next (((s.fetched k e).setGreg k d (imm.signExtend 64)).setPc k (s.pc k + 1)) :=
  result_completes h (by rw [State.perform])

/-- LDIH replaces the top 16 bits of a word. -/
theorem setBits_top (x : Word) (h : BitVec 16) : BitVec.ofNat 64 (setBits x.toNat 63 48 h.toNat) = h ++ x.extractLsb' 0 48 := by
  apply BitVec.eq_of_toNat_eq
  rw [setBits_eq, BitVec.toNat_ofNat, BitVec.toNat_append, BitVec.extractLsb'_toNat, Nat.shiftRight_zero,
    ← Nat.shiftLeft_add_eq_or_of_lt (Nat.mod_lt _ (by decide)), Nat.shiftLeft_eq]
  omega

theorem ldih_completes {imm : BitVec 16} (h : Issues s k e (.ldih d imm)) : exec (.ldih k e d imm) s =
    .next (((s.fetched k e).setGreg k d (imm ++ (s.greg k d).extractLsb' 0 48)).setPc k (s.pc k + 1)) :=
  result_completes h (by rw [State.perform, fetched_greg, setBits_top])

end

theorem greg_zero (s : State) (k : Nat) : s.greg k 0 = 0 := if_pos rfl

theorem setGreg_zero (s : State) (k : Nat) (w : Word) : s.setGreg k 0 w = s := if_pos rfl

/-- A write of a register leaves the registers of other cores. -/
theorem greg_setGreg_other (s : State) {k l : Nat} (r r' : Fin 32) (w : Word) (h : l ≠ k) : (s.setGreg k r w).greg l r' = s.greg l r' := by
  unfold State.setGreg
  split
  · rfl
  unfold State.greg
  split
  · rfl
  · exact rw_setRw_ne s w (addr_core_ne (by decide) (by decide) r'.isLt r.isLt (.inr h))

/-- Settles O6: an integer instruction writes what its operation gives of the registers read, and a register reads what was written to it alone. -/
theorem arithmeticInstructions : Obligations.ArithmeticInstructions := by
  refine ⟨fun k e d a b s => ?_, fun k e d a imm l h s => ?_, fun s k r r' w => ?_⟩
  · exact ⟨rr_completes, rr_completes, rr_completes, rr_completes, rr_completes, rr_completes, rr_completes, rr_completes, rr_completes⟩
  · exact ⟨ri_completes, ri_completes, ri_completes, ri_completes, ri_completes, ri_completes, ri_completes, ldi_completes, ldih_completes⟩
  · refine ⟨greg_zero s k, setGreg_zero s k w, fun hr => ?_, fun hr => greg_setGreg_ne s k k w hr, fun k' hk => ?_⟩
    · exact (greg_setGreg_same s k r w).trans (if_neg hr)
    · exact greg_setGreg_other s r r' w (Fin.val_ne_of_ne hk)

/-! ### Frame of the register instructions (R55, R59, R62) -/

/-- The instructions that at most write gd and move PC. -/
def CoreOp.writesOnly (d : Fin 32) : CoreOp → Bool
  | .rr _ d' _ _ | .ri _ d' _ _ | .ldi d' _ | .ldih d' _ => d' == d
  | .br .. | .bi .. | .goto_ _ | .nop => true
  | _ => false

/-- From s to t, only PC of core k and its register gd may have changed. -/
def OnlyGreg (s t : State) (k : Nat) (d : Fin 32) : Prop := ∃ p, t = s.setPc k p ∨ ∃ w, t = (s.setGreg k d w).setPc k p

section
variable {s t : State} {k : Fin 64} {d : Fin 32} {o : CoreOp}

theorem goTo_cases (s : State) (k tgt : Nat) : s.goTo k tgt = .fault 2 s ∨ s.goTo k tgt = .next tgt s := by
  unfold State.goTo; split
  · exact .inl rfl
  · exact .inr rfl

theorem branch_cases (s : State) (k : Nat) (c : Cond) (x y : Word) (tgt : Fin 8192) :
    s.branch k c x y tgt = .fault 2 s ∨ ∃ p, s.branch k c x y tgt = .next p s := by
  unfold State.branch; split
  · exact (goTo_cases s k tgt).imp_right fun h => ⟨_, h⟩
  · exact .inr ⟨_, rfl⟩

/-- Such an instruction faults, or leaves all but gd and PC. -/
theorem perform_writesOnly (ho : o.writesOnly d = true) (ecc : Ecc) :
    (∃ c, s.perform k false o ecc = .fault c s) ∨ OnlyGreg s ((s.perform k false o ecc).apply k) k d := by
  have hw : ∀ {d' w}, (d' == d) = true → OnlyGreg s ((s.result k d' w).apply k) k d := fun hd => by
    rw [eq_of_beq hd]; exact ⟨_, .inr ⟨_, rfl⟩⟩
  have hb : ∀ r : CoreRes, (r = .fault 2 s ∨ ∃ p, r = .next p s) → (∃ c, r = .fault c s) ∨ OnlyGreg s (r.apply k) k d := by
    rintro r (rfl | ⟨p, rfl⟩)
    · exact .inl ⟨2, rfl⟩
    · exact .inr ⟨p, .inl rfl⟩
  cases o
  case rr | ri | ldi | ldih => exact .inr (hw ho)
  case nop => exact .inr ⟨_, .inl rfl⟩
  case br c a b tgt => exact hb _ (branch_cases ..)
  case bi c a imm tgt => exact hb _ (branch_cases ..)
  case goto_ tgt => exact hb _ ((goTo_cases s k tgt).imp_right fun h => ⟨_, h⟩)
  all_goals cases ho

/-- What a core in RUN that is to issue o comes to (R32 to R34, R54): nothing where the core is blocked or its word is another instruction, a
fault, or the instruction. -/
theorem issue_cases {e ecc : Ecc} (hst : s.st k = 5) (h : s.issue k e o ecc = .next t) :
    t = s ∨ t.st k = 10 ∨ Issues s k e o ∧ t = ((s.fetched k e).perform k false o ecc).apply k := by
  by_cases hb : (s.core k).blocked = true
  · rw [State.issue, wakeEvt_of_ne (by rw [hst]; decide), if_neg (by simp [hb])] at h
    cases h
    exact .inl rfl
  rw [Bool.not_eq_true] at hb
  by_cases hpc : s.pc k < s.textWords k
  case neg =>
    obtain ⟨_, h', hf, -⟩ := fetch_beyond (o := o) (e := e) (ecc := ecc) hst hb (Nat.not_lt.1 hpc)
    cases h'.symm.trans h
    exact .inr (.inl hf)
  by_cases he : e.bad = true
  · obtain ⟨_, h', hf, -⟩ := fetch_uncorrected (o := o) (ecc := ecc) hst hb hpc he
    cases h'.symm.trans h
    exact .inr (.inl hf)
  rw [Bool.not_eq_true] at he
  cases hd : decodeCore (s.rw .CORE_IMEM k (s.pc k)).toNat with
  | fault code =>
    obtain ⟨-, _, h', hf, -⟩ := fetch_no_instruction (o := o) (ecc := ecc) hst hb hpc he hd
    cases h'.symm.trans h
    exact .inr (.inl hf)
  | op o' =>
    by_cases ho : o' = o
    · have hi : Issues s k e o := ⟨hst, hb, hpc, he, ho ▸ hd⟩
      cases (issue_performs hi).symm.trans h
      exact .inr (.inr ⟨hi, rfl⟩)
    by_cases hw : o' = .waitOther
    · obtain ⟨_, h', hf, -⟩ := fetch_waitOther (o := o) (ecc := ecc) hst hb hpc he (hw ▸ hd)
      cases h'.symm.trans h
      exact .inr (.inl hf)
    · rw [issue_running hst hb, State.runOne, fetch_word hpc he, hd] at h
      dsimp only at h
      rw [if_neg (by simp [hw, Ne.symm ho])] at h
      cases h
      exact .inl rfl

/-- From s to t, all but gd and PC of core k and the count of corrected errors is as it was. -/
def GregFrame (s t : State) (k : Fin 64) (d : Fin 32) : Prop :=
  (∀ off, off ≠ Reg.CORE_GREG.addr k d → off ≠ Reg.GLB_TRB.addr 1 0 → t.word off = s.word off) ∧ t.dmem = s.dmem ∧
    t.sram = s.sram ∧ t.dram = s.dram ∧ t.voices = s.voices ∧ t.fabric = s.fabric ∧ t.buffers = s.buffers ∧
    ∀ k' : Nat, k' ≠ k → t.core k' = s.core k'

theorem gregFrame_refl (s : State) (k : Fin 64) (d : Fin 32) : GregFrame s s k d :=
  ⟨fun _ _ _ => rfl, rfl, rfl, rfl, rfl, rfl, rfl, fun _ _ => rfl⟩

theorem gregFrame_trans {u : State} (h : GregFrame s t k d) (h' : GregFrame t u k d) : GregFrame s u k d := by
  obtain ⟨h1, h2, h3, h4, h5, h6, h7, h8⟩ := h
  obtain ⟨g1, g2, g3, g4, g5, g6, g7, g8⟩ := h'
  exact ⟨fun o ho ho' => (g1 o ho ho').trans (h1 o ho ho'), g2.trans h2, g3.trans h3, g4.trans h4, g5.trans h5, g6.trans h6, g7.trans h7,
    fun l hl => (g8 l hl).trans (h8 l hl)⟩

theorem gregFrame_fetched {e : Ecc} (he : e.bad = false) : GregFrame s (s.fetched k e) k d :=
  ⟨fun _ _ ho => fetched_word he ho, fetched_dmem, fetched_sram, fetched_dram, fetched_voices, fetched_fabric he,
    (fetched_noted s k e).recorded.buffers, fun l _ => fetched_core l⟩

theorem gregFrame_setGreg (w : Word) : GregFrame s (s.setGreg k d w) k d := by
  refine ⟨fun o ho _ => ?_, ?_⟩
  · unfold State.setGreg
    split
    · rfl
    · exact word_setWord_ne s w ho
  · rw [setGreg_only]
    exact ⟨rfl, rfl, rfl, rfl, rfl, rfl, fun _ _ => rfl⟩

theorem gregFrame_setPc (p : Nat) : GregFrame s (s.setPc k p) k d :=
  ⟨fun _ _ _ => rfl, rfl, rfl, rfl, rfl, rfl, rfl, fun _ hl => core_modCore_ne s _ hl⟩

theorem gregFrame_of_onlyGreg (h : OnlyGreg s t k d) : GregFrame s t k d := by
  rcases h with ⟨p, rfl | ⟨w, rfl⟩⟩
  · exact gregFrame_setPc p
  · exact gregFrame_trans (gregFrame_setGreg w) (gregFrame_setPc p)

/-- A register instruction that leaves its core in RUN leaves all but gd. -/
theorem issue_gregFrame {e ecc : Ecc} (ho : o.writesOnly d = true) (hst : s.st k = 5) (h : s.issue k e o ecc = .next t) (ht : t.st k = 5) :
    GregFrame s t k d := by
  have hne : t.st k ≠ 10 := by rw [ht]; decide
  rcases issue_cases hst h with rfl | hf | ⟨hi, rfl⟩
  · exact gregFrame_refl ..
  · exact absurd hf hne
  · rcases perform_writesOnly (s := s.fetched k e) (k := k) ho ecc with ⟨c, hp⟩ | hp
    · rw [hp] at hne
      exact absurd (coreFault_st ..) hne
    · exact gregFrame_trans (gregFrame_fetched (issues_ecc hi)) (gregFrame_of_onlyGreg hp)

end

/-- Settles O7: each of the instructions is issued as one that writes no more than gd. -/
theorem registerInstructionFrame : Obligations.RegisterInstructionFrame := by
  intro k e d a b imm u l h tgt i s t hi hst hrun ht
  obtain ⟨o, hx, ho⟩ : ∃ o : CoreOp, exec i s = s.issue k e o .clean ∧ o.writesOnly d = true := by
    simp only [List.mem_cons, List.not_mem_nil, or_false] at hi
    casesm* _ ∨ _
    iterate 18 (subst i; exact ⟨_, rfl, beq_self_eq_true d⟩)
    all_goals subst i; exact ⟨_, rfl, rfl⟩
  exact issue_gregFrame ho hst (hx.symm.trans hrun) ht

end Sys2Proof.Machine
end

section
/-! PROOFS. Branch conditions (O9; R61) and targets (O10; R56). -/

namespace Sys2Proof.Machine

section
variable {s : State} {k : Fin 64} {e : Ecc} {a b : Fin 32} {c : Cond} {imm : BitVec 30} {tgt : Fin 8192} {P : Prop}

/-! ### Taken and not taken (R56) -/

/-- An instruction that goes to tgt where t holds, and on where it does not. -/
theorem branches_of_perform {o : CoreOp} {t : Bool} (h : Issues s k e o) (hP : t = true ↔ P)
    (hp : (s.fetched k e).perform k false o .clean = if t then (s.fetched k e).goTo k tgt else .next ((s.fetched k e).pc k + 1) (s.fetched k e)) :
    Branches s k tgt e P (s.issue k e o .clean) := by
  refine ⟨fun hc ht => ?_, fun hc ht => issue_faults_at_once h ?_ (by decide), fun hc => ?_⟩
  · rw [issue_performs h, hp, if_pos (hP.2 hc), State.goTo, fetched_textWords, if_neg (Nat.not_le.2 ht), CoreRes.apply]
  · rw [hp, if_pos (hP.2 hc), State.goTo, fetched_textWords, if_pos ht]
  · rw [issue_performs h, hp, if_neg (mt hP.1 hc), fetched_pc, CoreRes.apply]

theorem br_branches (hP : c.holds (s.greg k a) (s.greg k b) = true ↔ P) (h : Issues s k e (.br c a b tgt)) :
    Branches s k tgt e P (s.issue k e (.br c a b tgt) .clean) :=
  branches_of_perform h hP (by rw [State.perform, fetched_greg, fetched_greg, State.branch])

theorem bi_branches (hP : c.holds (s.greg k a) (imm.signExtend 64) = true ↔ P) (h : Issues s k e (.bi c a imm tgt)) :
    Branches s k tgt e P (s.issue k e (.bi c a imm tgt) .clean) :=
  branches_of_perform h hP (by rw [State.perform, fetched_greg, State.branch])

theorem goto_branches (h : Issues s k e (.goto_ tgt)) : Branches s k tgt e True (s.issue k e (.goto_ tgt) .clean) :=
  branches_of_perform h (iff_of_true rfl trivial) rfl

end

/-! ### The comparisons (R61) -/

section
variable {x y : Word}

theorem holds_eq : Cond.eq.holds x y = true ↔ x = y := beq_iff_eq
theorem holds_ne : Cond.ne.holds x y = true ↔ x ≠ y := bne_iff_ne
theorem holds_lt : Cond.lt.holds x y = true ↔ x.toInt < y.toInt := BitVec.slt_iff_toInt_lt
theorem holds_ge : Cond.ge.holds x y = true ↔ y.toInt ≤ x.toInt := by
  rw [← Int.not_lt, ← BitVec.slt_iff_toInt_lt, Cond.holds, Bool.not_eq_true', Bool.not_eq_true]
theorem holds_ltu : Cond.ltu.holds x y = true ↔ x.toNat < y.toNat := BitVec.ult_iff_lt
theorem holds_geu : Cond.geu.holds x y = true ↔ y.toNat ≤ x.toNat := by
  rw [← Nat.not_lt, ← BitVec.lt_def, ← BitVec.ult_iff_lt, Cond.holds, Bool.not_eq_true', Bool.not_eq_true]
theorem holds_bs : Cond.bs.holds x y = true ↔ x.getLsbD (y.toNat % 64) = true := by rw [Cond.holds, bit_toNat]
theorem holds_bc : Cond.bc.holds x y = true ↔ x.getLsbD (y.toNat % 64) = false := by rw [Cond.holds, bit_toNat, Bool.not_eq_true']

/-- Sign extension leaves the bit number that format BI names. -/
theorem signExtend_mod (imm : BitVec 30) : (imm.signExtend 64).toNat % 64 = imm.toNat % 64 := by
  rw [BitVec.toNat_signExtend, BitVec.toNat_setWidth]
  split
  · omega
  · omega

end

/-! ### COND in the word (R61) -/

/-- A branch carries the condition that COND of the word names. -/
def CoreOp.condFrom (w : Nat) : CoreOp → Prop
  | .br c _ _ _ | .bi c _ _ _ => c.code = bits w 55 53
  | _ => True

/-- A word decodes to no branch with another condition than its COND. -/
def Decoded.condFrom (w : Nat) (x : Decoded) : Prop := ∀ o, x = .op o → o.condFrom w

section
variable {w : Nat} {l : List (Nat × Nat)} {o : CoreOp}

theorem whenClear_condFrom (h : o.condFrom w) : (whenClear w l o).condFrom w := by
  intro o' ho
  obtain ⟨-, rfl⟩ := whenClear_eq_op.1 ho
  exact h

theorem fault_condFrom (code : Nat) : (Decoded.fault code).condFrom w := fun _ h => by cases h

theorem condOf_code_eq {n : Nat} (h : n < 8) : (condOf n).code = n := by
  interval_cases n <;> rfl

theorem decodeWait_condFrom : (decodeWait w).condFrom w := by
  unfold decodeWait
  split
  all_goals exact whenClear_condFrom trivial

theorem decodeOwn_condFrom : (decodeOwn w).condFrom w := by
  unfold decodeOwn
  split
  case h_4 => exact decodeWait_condFrom
  case h_18 => exact fault_condFrom 3
  case h_3 | h_10 | h_15 | h_16 => split <;> exact whenClear_condFrom trivial
  all_goals exact whenClear_condFrom trivial

theorem decodeCore_condFrom : (decodeCore w).condFrom w := by
  have hc : (condOf (bits w 55 53)).code = bits w 55 53 := condOf_code_eq (bits_lt w 55 53)
  unfold decodeCore
  extract_lets op
  clear_value op
  split
  · exact whenClear_condFrom trivial
  split
  · exact whenClear_condFrom trivial
  split
  · exact whenClear_condFrom trivial
  split
  case h_5 => split <;> exact whenClear_condFrom trivial
  case h_6 | h_7 => exact whenClear_condFrom hc
  case h_12 => exact decodeOwn_condFrom
  all_goals exact whenClear_condFrom trivial

/-- A bit number above 63 in format BI sets a reserved field. -/
theorem decodeCore_bitNumber (h : bits w 63 56 = 0x21) (hc : 6 ≤ bits w 55 53) (hr : bits w 45 22 ≠ 0) : decodeCore w = .fault 4 := by
  simp [decodeCore, h, hc, hr, whenClear]

end

/-- Settles O9: a branch compares as its condition says, COND of the word is its condition, and a bit number has no reserved bit set. -/
theorem branchConditions : Obligations.BranchConditions := by
  refine ⟨fun k e a b imm tgt s => ?_, fun w c a b imm tgt => ⟨fun h => decodeCore_condFrom _ h, fun h => decodeCore_condFrom _ h⟩,
    fun w => decodeCore_bitNumber⟩
  refine ⟨br_branches holds_eq, br_branches holds_ne, br_branches holds_lt, br_branches holds_ge, br_branches holds_ltu, br_branches holds_geu,
    br_branches holds_bs, br_branches holds_bc, bi_branches holds_eq, bi_branches holds_ne, bi_branches holds_lt, bi_branches holds_ge,
    bi_branches holds_ltu, bi_branches holds_geu, ?_, ?_⟩
  · rw [← signExtend_mod]
    exact bi_branches holds_bs
  · rw [← signExtend_mod]
    exact bi_branches holds_bc

/-! ### Calls and returns (R56, R62) -/

section
variable {s : State} {k : Fin 64} {e : Ecc} {tgt : Fin 8192}

theorem call_beyond (h : Issues s k e (.call tgt)) (ht : s.textWords k ≤ tgt) : Gives (exec (.call k e tgt) s) fun t => Faulted s t k 2 :=
  issue_faults_at_once h (by simp only [State.perform, fetched_textWords]; rw [if_pos ht]) (by decide)

theorem ret_beyond (h : Issues s k e .ret) (hsp : 0 < s.f F.CORE_STATUS_SP k)
    (hb : s.textWords k ≤ s.f F.CORE_STACK_RET k (s.f F.CORE_STATUS_SP k - 1)) : Gives (exec (.ret k e) s) fun t => Faulted s t k 2 :=
  issue_faults_at_once h (by
    simp only [State.perform, fetched_textWords, fetched_sp, fetched_ret]
    rw [if_neg (Nat.ne_of_gt hsp), if_pos hb]) (by decide)

end

/-- Settles O10: a branch looks at its target only when it is taken, and so do CALL and RET. -/
theorem targetsInTheText : Obligations.TargetsInTheText := by
  intro k e a b imm tgt s
  refine ⟨?_, call_beyond, fun h ht hsp => ⟨_, call_performs h ht hsp, pc_setPc_same ..⟩, ret_beyond,
    fun h hsp hb => (ret_completes h hsp hb).imp fun t ht => ht.1⟩
  simp only [List.forall_mem_cons]
  exact ⟨br_branches Iff.rfl, br_branches Iff.rfl, br_branches Iff.rfl, br_branches Iff.rfl, br_branches Iff.rfl, br_branches Iff.rfl,
    br_branches Iff.rfl, br_branches Iff.rfl, bi_branches Iff.rfl, bi_branches Iff.rfl, bi_branches Iff.rfl, bi_branches Iff.rfl,
    bi_branches Iff.rfl, bi_branches Iff.rfl, bi_branches Iff.rfl, bi_branches Iff.rfl, goto_branches, List.forall_mem_nil _⟩

end Sys2Proof.Machine
end

section
/-! PROOFS. What each emission puts in the descriptor queue (O12; R36, R63 to R71, R113). -/

namespace Sys2Proof.Machine

section
variable {s u t : State} {k : Fin 64} {e ecc : Ecc} {o : CoreOp} {d : Desc}

/-- What emits from a state with the same cores, queue and instant emits from s. -/
theorem Emitted.of_same (h : Emitted u t k d) (hc : u.cored = s.cored) (hv : u.voice k = s.voice k) (hn : u.now = s.now) : Emitted s t k d := by
  obtain ⟨hq, hpc, hst, hg, hdm, hsr, hdr⟩ := h
  rw [hv, hn] at hq
  exact ⟨hq, hpc.trans (by rw [cored_pc hc]), hst, fun r => (hg r).trans (cored_greg hc k r), hdm.trans (cored_dmem hc),
    hsr.trans (cored_sram hc), hdr.trans (cored_dram hc)⟩

/-- A descriptor whose checks pass, where there is room, joins the queue, and PC goes on (R36). -/
theorem emit_emits {q : QEntry} (hc : u.cored = s.cored) (hv : u.voice k = s.voice k) (hn : u.now = s.now) (hst : s.st k = 5)
    (hq : s.qfill k < 32) : u.emit k false q = .next (s.pc k + 1) (u.emitNow k q) ∧
      Emitted s ((u.emit k false q).apply k) k q.desc := by
  have he : u.emit k false q = .next (s.pc k + 1) (u.emitNow k q) := by
    rw [State.emit, if_pos (by rwa [State.qfill, hv]), cored_pc hc]
  refine ⟨he, ?_⟩
  rw [he, CoreRes.apply]
  exact (emitNow_emitted u q k.isLt ((cored_st hc k).trans hst) (by rw [cored_pc hc])).of_same hc hv hn

/-- An instruction that only emits, whose descriptor is let pass. -/
theorem emission_emits {good : Bool} (h : Issues s k e o) (hp : (s.fetched k e).perform k false o ecc = (s.fetched k e).emitIf k false good d)
    (hg : good = true) (hq : s.qfill k < 32) (hb : (s.voice k).openBody = 0 ∨ d.inBody = true) :
    Gives (s.issue k e o ecc) fun t => Emitted s t k d := by
  refine issue_gives h ?_
  have hpass : ¬ (!good || (decide (0 < ((s.fetched k e).voice k).openBody) && !d.inBody)) = true := by
    rw [fetched_voice, hg]
    rcases hb with hb | hb
    · simp [hb]
    · simp [hb]
  rw [hp, State.emitIf, if_neg hpass]
  exact (emit_emits (cored_noted s (fetched_noted s k e)) (fetched_voice _) fetched_now h.1 hq).2

theorem loop_emits {count : Operand 24} {len : BitVec 5} (h : Issues s k e (.loop count len)) (hr : Room s k) (h1 : 1 ≤ s.oper k count)
    (h2 : s.oper k count < 2 ^ 24) (h3 : 1 ≤ len.toNat) (h4 : len.toNat ≤ 16) :
    Gives (exec (.loop k e count len) s) fun t => Emitted s t k (.loop (s.oper k count) len.toNat) :=
  emission_emits h (by rw [State.perform, fetched_oper]) (by simp only [h1, h2, h3, h4, and_self, decide_true, Bool.and_self]) hr.1 (.inl hr.2)

theorem jump_emits {mode : Fin 3} {discard : Bool} {ec : BitVec 8} {entry : Fin 16} (h : Issues s k e (.jump mode discard ec entry))
    (hr : Room s k) (hl : bit (s.f F.VOICE_JT_STAT_LOADED k) entry = true)
    (hec : ec.getLsbD 7 = true ∨ s.on F.EC_CTL_LK_CORE (ec.toNat % 128) = false) :
    Gives (exec (.jump k e mode discard ec entry) s) fun t => Emitted s t k (.jump mode discard ec.toNat entry) := by
  refine emission_emits h rfl ?_ hr.1 (.inl hr.2)
  rw [fetched_jtLoaded, hl, Bool.true_and, Bool.not_eq_true', channelOf_eq]
  split
  · next hc =>
    split at hc
    · cases hc
    · next h7 =>
      cases hc
      rw [fetched_lockedEc (issues_ecc h)]
      exact hec.resolve_left h7
  · rfl

theorem jumpDisarm_emits {n : Bool} (h : Issues s k e (.jumpDisarm n)) (hr : Room s k) :
    Gives (exec (.jumpDisarm k e n) s) fun t => Emitted s t k (.jump 3 false 0 0) := emission_emits h rfl rfl hr.1 (.inl hr.2)

section
variable (hq : s.qfill k < 32)
include hq

theorem waitTrig_emits {arg : BitVec 16} (h : Issues s k e (.waitTrig arg)) (ha : arg.toNat < 16) :
    Gives (exec (.waitTrig k e arg) s) fun t => Emitted s t k (.waitTrig arg.toNat) :=
  emission_emits h rfl (decide_eq_true ha) hq (.inr rfl)

theorem waitEvent_emits {arg : BitVec 16} (h : Issues s k e (.waitEvent arg)) (ha : arg.toNat < 128)
    (hl : s.on F.EC_CTL_LK_CORE arg.toNat = false) :
    Gives (exec (.waitEvent k e arg) s) fun t => Emitted s t k (.waitEvent arg.toNat) :=
  emission_emits h rfl (by rw [fetched_lockedEc (issues_ecc h), Nat.mod_eq_of_lt ha, hl, decide_eq_true ha]; rfl) hq (.inr rfl)

theorem waitTime_emits {a b : Fin 32} (h : Issues s k e (.waitTime a b)) (ha : (s.greg k a).toNat < 2 ^ 48) (hb : (s.greg k b).toNat < 2 ^ 48) :
    Gives (exec (.waitTime k e a b) s) fun t => Emitted s t k (.waitTime ((s.greg k a).toNat * 2 ^ 48 + (s.greg k b).toNat)) :=
  emission_emits h (by rw [State.perform, fetched_greg, fetched_greg]; rfl) (Bool.and_eq_true_iff.2 ⟨decide_eq_true ha, decide_eq_true hb⟩) hq
    (.inr rfl)

theorem waitKerf_emits {arg : BitVec 16} (h : Issues s k e (.waitKerf arg)) (ha : arg.toNat < 16) (hk : arg.toNat ≠ k.val % 16) :
    Gives (exec (.waitKerf k e arg) s) fun t => Emitted s t k (.waitKerf arg.toNat) :=
  emission_emits h rfl (Bool.and_eq_true_iff.2 ⟨decide_eq_true ha, bne_iff_ne.2 hk⟩) hq (.inr rfl)

theorem setf_emits {a : Fin 32} (h : Issues s k e (.setf a)) :
    Gives (exec (.setf k e a) s) fun t => Emitted s t k (.setf ((s.greg k a).toNat % 2 ^ 48)) :=
  emission_emits h (by rw [State.perform, fetched_greg]) rfl hq (.inr rfl)

theorem setp_emits {add : Bool} {phase : Operand 32} (h : Issues s k e (.setp add phase)) :
    Gives (exec (.setp k e add phase) s) fun t => Emitted s t k (.setp add (s.oper k phase % 2 ^ 32)) :=
  emission_emits h (by rw [State.perform, fetched_oper]) rfl hq (.inr rfl)

theorem rampf_emits {a b : Fin 32} (h : Issues s k e (.rampf a b)) :
    Gives (exec (.rampf k e a b) s) fun t => Emitted s t k (.rampf ((s.greg k b).toNat % 2 ^ 32) ((s.greg k a).toNat % 2 ^ 48)) :=
  emission_emits h (by rw [State.perform, fetched_greg, fetched_greg]) rfl hq (.inr rfl)

theorem mark_emits {lane lm : Fin 4} {offset : BitVec 28} {width : BitVec 16} (h : Issues s k e (.mark lane lm offset width))
    (hv : (s.voiceChan k).isSome = true) (hw : lm = 2 → width ≠ 0) :
    Gives (exec (.mark k e lane lm offset width) s) fun t => Emitted s t k (.mark lane lm offset.toNat width.toNat) := by
  refine emission_emits h rfl ?_ hq (.inr rfl)
  rw [fetched_voiceChan, hv, Bool.true_and, Bool.not_eq_true', Bool.and_eq_false_imp]
  exact fun hm => beq_false_of_ne fun h0 => hw (Fin.ext (eq_of_beq hm)) (BitVec.eq_of_toNat_eq h0)

theorem trigo_emits {out : Fin 16} (h : Issues s k e (.trigo out)) : Gives (exec (.trigo k e out) s) fun t => Emitted s t k (.trigo out) :=
  emission_emits h rfl rfl hq (.inr rfl)

end

end

/-! ### The DRAM slot of a PLAY (R113) -/

section
variable (s : State) {k : Nat}

theorem hasSlot_setF {x : Fld} (n i j v : Nat) (h : Reg.DRAM_BACKED.addr 0 0 ≠ x.reg.addr i j) : (s.setF x n i j).hasSlot v = s.hasSlot v := by
  rw [State.hasSlot, f_setF_ne _ _ h, State.hasSlot]

theorem hasSlot_trouble (x : Trouble) (v : Nat) : (s.trouble x).hasSlot v = s.hasSlot v := hasSlot_setF s _ _ 0 v (by cases x <;> decide)

theorem hasSlot_setPc (l n v : Nat) : (s.setPc l n).hasSlot v = s.hasSlot v := by rfl

theorem hasSlot_modVoice (u : Nat) (g : VoiceSt → VoiceSt) (v : Nat) : (s.modVoice u g).hasSlot v = s.hasSlot v := by rfl

/-- The refill counters of a voice lie apart from the register of the slots. -/
theorem hasSlot_refillStat (hk : k < 64) {x : Fld} (hx : x.reg = .REFILL_STAT) (n v : Nat) : (s.setF x n k).hasSlot v = s.hasSlot v := by
  refine hasSlot_setF s n k 0 v ?_
  rw [hx, show Reg.DRAM_BACKED.addr 0 0 = 0x6A028 by decide, show Reg.REFILL_STAT.addr k 0 = 0x69008 + k * 0x10 + 0 * 0 from rfl]
  omega

theorem hasSlot_takeSlot (hk : k < 64) : (s.takeSlot k).hasSlot k = true := by
  rw [State.takeSlot, State.flag, hasSlot_refillStat _ hk rfl, State.hasSlot, f_setF_same _ _ _ _ _ (by constructor <;> decide)]
  have hlt : setBits (s.f F.DRAM_BACKED_VOICES) k k 1 < 2 ^ (F.DRAM_BACKED_VOICES.hi + 1 - F.DRAM_BACKED_VOICES.lo) :=
    setBits_lt (bits_lt ..) hk (Nat.le_succ k)
  rw [Nat.mod_eq_of_lt hlt, bit_eq_bits, bits_setBits_same, Nat.add_sub_cancel_left]
  rfl

theorem hasSlot_request (l : List Ahead) (s : State) (v : Nat) : (State.request k l s).hasSlot v = s.hasSlot v := by
  induction l generalizing s with
  | nil => rfl
  | cons a l ih =>
    rw [State.request]
    split_ifs
    · rw [ih, hasSlot_modVoice, hasSlot_trouble]
    · rw [ih, hasSlot_modVoice]
    · rfl

theorem hasSlot_refill (hk : k < 64) (v : Nat) : (s.refill k).hasSlot v = s.hasSlot v := by
  rw [State.refill, State.showRefill, hasSlot_refillStat _ hk rfl, hasSlot_refillStat _ hk rfl, hasSlot_refillStat _ hk rfl, hasSlot_request]

theorem hasSlot_emitNow (hk : k < 64) (q : QEntry) (v : Nat) : (s.emitNow k q).hasSlot v = s.hasSlot v := by
  unfold State.emitNow
  split
  · rw [hasSlot_refill _ hk, hasSlot_modVoice]
    rfl
  · rw [hasSlot_refill _ hk, hasSlot_modVoice]

theorem cored_takeSlot (hk : k < 64) : (s.takeSlot k).cored = s.cored := by
  rw [State.takeSlot, State.flag, cored_refillStat _ hk _ _ rfl, cored_setF _ _ _ _ (by decide)]

@[simp] theorem takeSlot_voice (k v : Nat) : (s.takeSlot k).voice v = s.voice v := by
  rw [State.takeSlot, State.flag, setF_voice, setF_voice]
@[simp] theorem takeSlot_time (k : Nat) : (s.takeSlot k).time = s.time := by
  rw [State.takeSlot, flag_time, setF_time]

end

/-! ### PLAY (R65, R113) -/

section
variable {s : State} {k : Fin 64} {e ee : Ecc} {seg kerf : Operand 16}

/-- The state in which a PLAY of entry g that passed its checks emits: with the slot that a DRAM-backed entry needs. -/
def State.playFrom (s : State) (k g : Nat) : State := if s.entryInDram (s.readEntry k g) then s.takeSlot k else s

theorem playFrom_keeps (s : State) (k : Fin 64) (g : Nat) :
    (s.playFrom k g).cored = s.cored ∧ (s.playFrom k g).voice k = s.voice k ∧ (s.playFrom k g).now = s.now := by
  unfold State.playFrom
  split
  · exact ⟨cored_takeSlot _ k.isLt, takeSlot_voice .., by rw [State.now, takeSlot_time]; rfl⟩
  · exact ⟨rfl, rfl, rfl⟩

/-- PLAY whose entry passes the checks of word 0, where the entry is not in DRAM or a slot can be had. -/
theorem play_passes {u : State} (hu : s.entryRead k (s.oper k seg % 65536) ee = u)
    (hc : issueChecks (u.entryCount k) (s.oper k seg % 65536) (wordOf (u.readEntry k (s.oper k seg % 65536)) 0) = true)
    (hd : u.entryInDram (u.readEntry k (s.oper k seg % 65536)) = false ∨ u.hasSlot k = true ∨ u.canSlot k = true ∧ u.hdrDramv k = true) :
    ∃ q : QEntry, q.desc = .play (u.oper k kerf % 65536) (s.oper k seg % 65536) ∧
      s.play k false kerf seg ee = (u.playFrom k (s.oper k seg % 65536)).emit k false q := by
  have hslot : (u.entryInDram (u.readEntry k (s.oper k seg % 65536)) && !u.hasSlot k && !(u.canSlot k && u.hdrDramv k)) = false := by
    rcases hd with hd | hd | ⟨h1, h2⟩
    · rw [hd, Bool.false_and, Bool.false_and]
    · rw [hd, Bool.not_true, Bool.and_false, Bool.false_and]
    · rw [h1, h2, Bool.and_true, Bool.not_true, Bool.and_false]
  subst hu
  refine ⟨_, rfl, (if_neg ?_).trans ((if_neg ?_).trans ((if_neg ?_).trans rfl))⟩
  · simpa [State.entryRead] using hc
  · simpa [State.entryRead] using hslot
  · rw [Bool.false_and]
    exact Bool.false_ne_true

/-- The PLAY of an entry whose checks pass is emitted, and where the entry is in DRAM the voice then holds a slot. -/
theorem play_emits (h : Issues s k e (.play kerf seg)) (hq : s.qfill k < 32)
    (hc : issueChecks (s.entryCount k) (s.oper k seg % 2 ^ 16) (wordOf (s.readEntry k (s.oper k seg % 2 ^ 16)) 0) = true)
    (hd : s.entryInDram (s.readEntry k (s.oper k seg % 2 ^ 16)) = false ∨ s.hasSlot k = true ∨ s.canSlot k = true ∧ s.hdrDramv k = true) :
    Gives (exec (.play k ⟨e, ee⟩ seg kerf) s) fun t => Emitted s t k (.play (s.oper k kerf % 2 ^ 16) (s.oper k seg % 2 ^ 16)) ∧
      (s.entryInDram (s.readEntry k (s.oper k seg % 2 ^ 16)) = true → t.hasSlot k = true) := by
  have hn := ErrorNoted_trans (fetched_noted s k e) (entryRead_noted (s.fetched k e) k ((s.fetched k e).oper k seg % 65536) ee)
  have hcan : ((s.fetched k e).entryRead k ((s.fetched k e).oper k seg % 65536) ee).canSlot k = s.canSlot k := by
    rw [State.canSlot, hn.hasSlot, hn.slotCount]; rfl
  obtain ⟨q, hdesc, hp⟩ := play_passes (s := s.fetched k e) (k := k) (ee := ee) (kerf := kerf) (seg := seg) rfl
    (by rw [hn.entryCount, hn.readEntry, fetched_oper]; exact hc)
    (by rw [hn.readEntry, hn.entryInDram, hn.hasSlot, hcan, hn.hdrDramv, fetched_oper]; exact hd)
  generalize ((s.fetched k e).entryRead k ((s.fetched k e).oper k seg % 65536) ee) = u at hn hdesc hp
  rw [fetched_oper] at hdesc hp
  obtain ⟨hcored, hvoice, hnow⟩ := playFrom_keeps u k (s.oper k seg % 65536)
  have hun : u.now = s.now := by rw [State.now, hn.recorded.time]; rfl
  obtain ⟨he, hem⟩ := emit_emits (q := q) (hcored.trans (cored_noted s hn)) (hvoice.trans (hn.voice k)) (hnow.trans hun) h.1 hq
  have hkerf : u.oper k kerf = s.oper k kerf := by cases kerf <;> simp [State.oper, hn.greg]
  rw [hdesc, hkerf] at hem
  refine issue_gives h ⟨?_, fun hin => ?_⟩
  · rw [State.perform, hp]
    exact hem
  · rw [State.perform, hp, he, CoreRes.apply]
    rw [hasSlot_setPc, hasSlot_emitNow _ k.isLt, State.playFrom, hn.readEntry, hn.entryInDram]
    exact (congrArg (State.hasSlot · k) (if_pos hin)).trans (hasSlot_takeSlot u k.isLt)

end

/-- Settles O12: a descriptor that its checks let pass joins the queue, a PLAY with the slot that its entry needs. -/
theorem emissions : Obligations.Emissions := by
  intro k e ee a b seg kerf count len mode discard n add ec entry arg phase lane lm out offset width s
  exact ⟨play_emits, loop_emits, jump_emits, jumpDisarm_emits, fun h hq => waitTrig_emits hq h, fun h hq => waitEvent_emits hq h,
    fun h hq => waitTime_emits hq h, fun h hq => waitKerf_emits hq h, fun h hq => setf_emits hq h, fun h hq => setp_emits hq h,
    fun h hq => rampf_emits hq h, fun h hq => mark_emits hq h, fun h hq => trigo_emits hq h⟩

end Sys2Proof.Machine
end

section
/-! PROOFS. Marker actions, marker pulses and ramps (O23; R69, R176). -/

namespace Sys2Proof.Machine

/-! ### What sending a channel's lanes leaves -/

theorem sendChange_keeps (s : State) (n l : Nat) (x : Int × Int) :
    (s.sendChange n l x).time = s.time ∧ (s.sendChange n l x).voices = s.voices := by
  unfold State.sendChange
  extract_lets b
  split_ifs
  · exact ⟨rfl, rfl⟩
  · exact ⟨rfl, rfl⟩

theorem sendLanesAt_keeps (s : State) (n : Nat) (x : Int × Int) :
    (s.sendLanesAt n x).time = s.time ∧ (s.sendLanesAt n x).voices = s.voices := by
  refine forN_keeps (P := fun t : State => t.time = s.time ∧ t.voices = s.voices) 4 (fun l t ⟨ht, hv⟩ => ?_) ⟨rfl, rfl⟩
  obtain ⟨h1, h2⟩ := sendChange_keeps t n l x
  exact ⟨h1.trans ht, h2.trans hv⟩

/-- A change of voice v at instant x that is sent to the lanes of channel n at once. -/
theorem changeAt_leaves (s : State) (v n x : Nat) (g : VoiceSt → VoiceSt) (y : Int × Int) :
    Reached s (((s.reach x).modVoice v g).sendLanesAt n y) x ∧
      (((s.reach x).modVoice v g).sendLanesAt n y).voice v = g (s.voice v) := by
  obtain ⟨ht, hv⟩ := sendLanesAt_keeps ((s.reach x).modVoice v g) n y
  refine ⟨reached_of_time (ht.trans (modVoice_time ..)), ?_⟩
  rw [State.voice, hv, ← State.voice, voice_modVoice_same, reach_voice]

/-! ### What an action makes of its voice (R176) -/

theorem bit_setBits_same (n l v : Nat) : bit (setBits n l l v) l = (v % 2 == 1) := by
  rw [bit_eq_bits, bits_setBits_same, Nat.add_sub_cancel_left, Nat.pow_one]

theorem bit_setBits_ne (n v : Nat) {l j : Nat} (h : j ≠ l) : bit (setBits n l l v) j = bit n j := by
  rw [bit_eq_bits, bit_eq_bits]
  rcases Nat.lt_or_gt_of_ne h with h | h
  · rw [bits_setBits_below n v h]
  · rw [bits_setBits_above n v h (Nat.le_succ l)]

section
variable (x : VoiceSt) (a : MarkAct)

theorem mark_acts : (x.mark a).acts = x.acts := by
  unfold VoiceSt.mark; split <;> rfl

theorem mark_set (h : a.mode = 0) : bit (x.mark a).level a.lane = true := by
  rw [VoiceSt.mark, h]
  exact bit_setBits_same ..

theorem mark_clears (h : a.mode = 1) : bit (x.mark a).level a.lane = false ∧ ∀ y ∈ (x.mark a).pulses, y.lane ≠ a.lane := by
  rw [VoiceSt.mark, h]
  exact ⟨bit_setBits_same .., fun y hy => by simpa using (List.mem_filter.1 hy).2⟩

theorem mark_pulses (h : a.mode = 2) : (x.mark a).pulses = x.pulses ++ [⟨a.lane, a.at_ + a.width * 1024, a.grid⟩] := by
  rw [VoiceSt.mark, h]
  rfl

theorem mark_toggles (h : a.mode = 3) : bit (x.mark a).level a.lane = !bit x.level a.lane := by
  have hb := bits_lt x.level a.lane a.lane
  rw [Nat.add_sub_cancel_left] at hb
  rw [VoiceSt.mark, h]
  refine (bit_setBits_same ..).trans ?_
  rw [bit_eq_bits]
  generalize bits x.level a.lane a.lane = b at hb ⊢
  interval_cases b <;> rfl

theorem mark_other {l : Nat} (h : l ≠ a.lane) : bit (x.mark a).level l = bit x.level l := by
  unfold VoiceSt.mark
  split
  · exact bit_setBits_ne _ _ h
  · exact bit_setBits_ne _ _ h
  · rfl
  · exact bit_setBits_ne _ _ h

end

/-! ### The three events -/

section
variable {v : Fin 64} {n : Nat} {s : State}

theorem markAction_acts {a : MarkAct} (hn : s.voiceChan v = some n) (ha : (s.voice v).firstMark = some a) :
    Gives (exec (.markAction v) s) fun t => Reached s t (nearestTime a.time) ∧
      t.voice v = ({ s.voice v with acts := (s.voice v).acts.erase a } : VoiceSt).mark a := by
  refine ⟨_, ?_, changeAt_leaves s v n (nearestTime a.time) (fun x => ({ x with acts := x.acts.erase a } : VoiceSt).mark a) a.time⟩
  change execMarkAction v s = _
  rw [execMarkAction, ha, hn]

theorem markPulseEnd_ends {p : Pulse} (hn : s.voiceChan v = some n) (hp : (s.voice v).firstEnd = some p) :
    Gives (exec (.markPulseEnd v) s) fun t => Reached s t (nearestTime p.time) ∧
      t.voice v = { s.voice v with pulses := (s.voice v).pulses.erase p } := by
  refine ⟨_, ?_, changeAt_leaves s v n (nearestTime p.time) (fun x => { x with pulses := x.pulses.erase p }) p.time⟩
  change execMarkPulseEnd v s = _
  rw [execMarkPulseEnd, hp, hn]

theorem rampEnd_ends (hr : (s.voice v).ramping = true) (hl : (s.voice v).rampLeft = some 0) : Gives (exec (.rampEnd v) s) fun t =>
    (t.voice v).ramping = false ∧ (t.voice v).fw = (s.voice v).fw ∧ SameWords s t := by
  refine ⟨s.modVoice v fun x => { x with ramping := false, rampLeft := none }, if_pos ⟨hr, hl⟩, ?_, ?_, fun _ _ => rfl, rfl, rfl, rfl⟩
  · rw [voice_modVoice_same]
  · rw [voice_modVoice_same]

end

/-- Settles O23: each event changes its voice as R176 and R69 say, at its own instant. -/
theorem marksAndRamps : Obligations.MarksAndRamps := by
  intro v n a p s
  refine ⟨fun hn ha => (markAction_acts hn ha).imp fun t ⟨hr, hv⟩ => ?_, fun hn hp => (markPulseEnd_ends hn hp).imp fun t ⟨hr, hv⟩ => ?_,
    rampEnd_ends⟩
  · rw [hv]
    exact ⟨hr, mark_acts .., mark_set _ a, mark_clears _ a, mark_pulses _ a, mark_toggles _ a, fun l => mark_other _ a⟩
  · rw [hv]
    exact ⟨hr, rfl, rfl⟩

end Sys2Proof.Machine
end

section
/-! PROOFS. Places of new buffers, words copied between buffers and data memory, and the buffer instructions (O14; R72, R73, R123, R125). -/

namespace Sys2Proof.Machine

/-! ### Where a new buffer lies (R123, R246) -/

section
variable {s t : State}

/-- The least of a list of pages is one of them. -/
theorem foldl_min_mem (l : List Nat) (m : Option Nat) {q : Nat}
    (h : l.foldl (fun m p => match m with | none => some p | some q => some (min p q)) m = some q) : m = some q ∨ q ∈ l := by
  induction l generalizing m with
  | nil => exact .inl h
  | cons p l ih =>
    rcases ih _ h with hm | hq
    · cases m with
      | none => cases hm; exact .inr (List.mem_cons_self ..)
      | some r =>
        cases hm
        rcases min_choice p r with hp | hr
        · rw [hp]; exact .inr (List.mem_cons_self ..)
        · rw [hr]; exact .inl rfl
    · exact .inr (List.mem_cons_of_mem _ hq)

theorem placement_fits {d : Bool} {n p : Nat} (h : s.placement d n = some p) : s.fits d p n = true := by
  unfold State.placement at h
  dsimp only at h
  split at h
  · next hf => cases h; exact hf
  · rcases foldl_min_mem _ _ h with hm | hp
    · cases hm
    · exact (List.mem_filter.1 hp).2

theorem entryFor_free {i : Nat} (h : s.entryFor = some i) : (s.buffer i).life = .free := by
  have hf : s.entryFree i = true := by
    unfold State.entryFor at h
    dsimp only at h
    split at h
    · next hf => cases h; exact hf
    · exact List.find?_some h
  exact eq_of_beq (Bool.and_eq_true_iff.1 hf).1

/-- A handle h that an allocation of n pages from state s made: its entry, which was free, is the new buffer, in a region that was asked for. -/
def NewBuffer (s t : State) (region n h : Nat) (hold : BufferSt → BufferSt) : Prop :=
  ∃ (d : Bool) (i p : Nat), (region = 0 → d = false) ∧ (region = 1 → d = true) ∧ s.fits d p n = true ∧ (s.buffer i).life = .free ∧
    h = handleOf i (t.buffer i) ∧ t.buffer i = hold { s.buffer i with life := .live, dram := d, page := p, pages := n, gone := none }

theorem allocIn_newBuffer {d : Bool} {region n h : Nat} {hold : BufferSt → BufferSt} (h0 : region = 0 → d = false) (h1 : region = 1 → d = true)
    (ha : s.allocIn d n hold = some (h, t)) : NewBuffer s t region n h hold := by
  unfold State.allocIn at ha
  split at ha
  · next p i hp hi =>
    cases ha
    refine ⟨d, i, p, h0, h1, placement_fits hp, entryFor_free hi, ?_, ?_⟩
    · rw [buffer_modBuffer_same]
    · rw [buffer_modBuffer_same]
  · cases ha

theorem alloc_newBuffer {region n h : Nat} {hold : BufferSt → BufferSt} (ha : s.alloc region n hold = some (h, t)) :
    NewBuffer s t region n h hold := by
  unfold State.alloc at ha
  split at ha
  · exact allocIn_newBuffer (fun _ => rfl) (by omega) ha
  split at ha
  · exact allocIn_newBuffer (by omega) (fun _ => rfl) ha
  split at ha
  · next he => cases ha; exact allocIn_newBuffer (by omega) (by omega) he
  · exact allocIn_newBuffer (by omega) (by omega) ha

end

/-! ### Words between buffers and data memory (R72) -/

section
variable (s : State) (k : Nat) (d : Bool) (a m : Nat)

/-- What a memory error leaves of SRAM and DRAM. -/
theorem ErrorNoted.byte {t : State} (h : ErrorNoted s t) (d : Bool) (a : Nat) : t.byte d a = s.byte d a := by
  have hd : t.mem.dramDefault = s.mem.dramDefault := by funext x; rw [MemSt.dramDefault, h.recorded.gens]; rfl
  simp only [State.byte, State.sramByte, State.dramByte, h.recorded.sram, h.recorded.dram, hd]

theorem readWord_bytes {s t : State} {d : Bool} (h : ∀ x, t.byte d x = s.byte d x) (a : Nat) : t.readWord d a = s.readWord d a :=
  congrArg (BitVec.ofNat 64) (readLE_congr fun _ _ => h _)

@[simp] theorem setDmem_sram (i : Nat) (w : Word) : (s.setDmem k i w).sram = s.sram := by rfl
@[simp] theorem setDmem_dram (i : Nat) (w : Word) : (s.setDmem k i w).dram = s.dram := by rfl

/-- The last word of a copy to data memory, after what its read met. -/
theorem copyIn_succ (e : Ecc) (n : Nat) : ∃ u, Recorded (s.copyIn k d a m e n) u ∧
    s.copyIn k d a m e (n + 1) = u.setDmem k (m + n) (s.readWord d (a + 8 * n)) :=
  ⟨_, eccEvent_recorded .., rfl⟩

theorem Recorded.dmemWord {s t : State} (h : Recorded s t) (l j : Nat) : t.dmemWord l j = s.dmemWord l j := by
  rw [State.dmemWord, h.dmem]
  rfl

/-- Words copied to data memory from word m on: each is there, and no other word of the core and no byte of a buffer changes. -/
theorem copyIn_leaves (e : Ecc) (n : Nat) :
    (∀ i < n, (s.copyIn k d a m e n).dmemWord k (m + i) = s.readWord d (a + 8 * i)) ∧
    (∀ j, (j < m ∨ m + n ≤ j) → (s.copyIn k d a m e n).dmemWord k j = s.dmemWord k j) ∧
    (s.copyIn k d a m e n).sram = s.sram ∧ (s.copyIn k d a m e n).dram = s.dram := by
  induction n with
  | zero => exact ⟨fun i hi => absurd hi (Nat.not_lt_zero i), fun _ _ => rfl, rfl, rfl⟩
  | succ n ih =>
    obtain ⟨hin, hout, hsr, hdr⟩ := ih
    obtain ⟨u, hr, hs⟩ := copyIn_succ s k d a m e n
    rw [hs]
    refine ⟨fun i hi => ?_, fun j hj => ?_, ?_, ?_⟩
    · by_cases h : i = n
      · rw [h, dmemWord_setDmem_same]
      · rw [dmemWord_setDmem_ne _ _ (by omega), hr.dmemWord, hin i (by omega)]
    · rw [dmemWord_setDmem_ne _ _ (by omega), hr.dmemWord, hout j (by omega)]
    · rw [setDmem_sram, hr.sram, hsr]
    · rw [setDmem_dram, hr.dram, hdr]

/-- Words copied from data memory, from word m on, to byte address a: each is there, and nothing else changes. -/
theorem copyOut_leaves (n : Nat) :
    (∀ i < n, (s.copyOut k d a m n).readWord d (a + 8 * i) = s.dmemWord k (m + i)) ∧
    (∀ d' x, (d' ≠ d ∨ x < a ∨ a + 8 * n ≤ x) → (s.copyOut k d a m n).byte d' x = s.byte d' x) ∧ (s.copyOut k d a m n).dmem = s.dmem := by
  induction n with
  | zero => exact ⟨fun i hi => absurd hi (Nat.not_lt_zero i), fun _ _ _ => rfl, rfl⟩
  | succ n ih =>
    obtain ⟨hin, hout, hdm⟩ := ih
    have hs : s.copyOut k d a m (n + 1) = (s.copyOut k d a m n).writeWord d (a + 8 * n) (s.dmemWord k (m + n)) := rfl
    rw [hs]
    refine ⟨fun i hi => ?_, fun d' x hx => ?_, (writeLE_dmem ..).trans hdm⟩
    · by_cases h : i = n
      · rw [h, readWord_writeWord_same]
      · rw [readWord_writeWord_apart _ _ (by omega), hin i (by omega)]
    · rw [byte_writeWord_outside _ _ _ _ (hx.imp_right fun h => by omega), hout d' x (hx.imp_right fun h => by omega)]

end

/-! ### What the fetch leaves of buffers and memories -/

section
variable {s : State} {k : Fin 64} {e : Ecc}

@[simp] theorem fetched_buffers : (s.fetched k e).buffers = s.buffers := (fetched_noted s k e).recorded.buffers
@[simp] theorem fetched_buffer (i : Nat) : (s.fetched k e).buffer i = s.buffer i := by rw [State.buffer, fetched_buffers]; rfl
@[simp] theorem fetched_heldCount (l : Nat) : (s.fetched k e).heldCount l = s.heldCount l := by rw [State.heldCount, fetched_buffers]; rfl
@[simp] theorem fetched_liveHandle (h : Nat) : (s.fetched k e).liveHandle h = s.liveHandle h := by rw [State.liveHandle, fetched_buffer]; rfl
@[simp] theorem fetched_byte (d : Bool) (x : Nat) : (s.fetched k e).byte d x = s.byte d x := (fetched_noted s k e).byte s d x
@[simp] theorem fetched_readWord (d : Bool) (x : Nat) : (s.fetched k e).readWord d x = s.readWord d x := readWord_bytes (fun y => fetched_byte d y) x

theorem fetched_fits (he : e.bad = false) (d : Bool) (p n : Nat) : (s.fetched k e).fits d p n = s.fits d p n := by
  have hf := fun x => fetched_f (s := s) (k := k) he x (i := 0) (j := 0)
  have hb : (s.fetched k e).poolBase d = s.poolBase d := by
    rw [State.poolBase, hf F.MEM_POOL_DRAM_BASE4K (by decide), hf F.MEM_POOL_SRAM_BASE4K (by decide)]; rfl
  have hd : (s.fetched k e).dramBytes = s.dramBytes := by rw [State.dramBytes, hf F.MEM_CFG_POP (by decide)]; rfl
  have ho : (s.fetched k e).occupied d = s.occupied d := by simp only [State.occupied, State.thisCycle, fetched_buffers, fetched_now]
  rw [State.fits, hb, State.poolEnd, hd, ho]
  rfl

theorem fetched_copyStatus (h off : Word) (n : Nat) : (s.fetched k e).copyStatus k h off n = s.copyStatus k h off n := by
  rw [State.copyStatus, fetched_holds, State.bufferSize, fetched_buffer]
  rfl

end

/-! ### The core blocked on its instruction (R72) -/

/-- The state after a buffer instruction of core k that gave gd the word w: the core is blocked on it. -/
def State.blockedWith (s : State) (k : Nat) (d : Fin 32) (w : Word) : State := (s.setGreg k d w).modCore k fun c => { c with blocked := true }

section
variable (s : State) (k : Nat) (d : Fin 32) (w : Word)

theorem blockedWith_only : s.blockedWith k d w = { s with regs := (s.blockedWith k d w).regs, cores := (s.blockedWith k d w).cores } := by
  rw [State.blockedWith, setGreg_only]
  rfl

theorem blockedWith_greg (hd : d ≠ 0) : (s.blockedWith k d w).greg k d = w := by
  rw [State.blockedWith, greg_modCore, greg_setGreg_same, if_neg hd]

@[simp] theorem blockedWith_buffers : (s.blockedWith k d w).buffers = s.buffers := by rw [blockedWith_only]
@[simp] theorem blockedWith_sram : (s.blockedWith k d w).sram = s.sram := by rw [blockedWith_only]
@[simp] theorem blockedWith_dram : (s.blockedWith k d w).dram = s.dram := by rw [blockedWith_only]
@[simp] theorem blockedWith_dmem : (s.blockedWith k d w).dmem = s.dmem := by rw [blockedWith_only]
@[simp] theorem blockedWith_buffer (i : Nat) : (s.blockedWith k d w).buffer i = s.buffer i := by rw [State.buffer, blockedWith_buffers]; rfl
@[simp] theorem blockedWith_dmemWord (l i : Nat) : (s.blockedWith k d w).dmemWord l i = s.dmemWord l i := by
  rw [State.dmemWord, blockedWith_dmem]; rfl
@[simp] theorem blockedWith_byte (m : Bool) (x : Nat) : (s.blockedWith k d w).byte m x = s.byte m x := by rw [blockedWith_only]; rfl
@[simp] theorem blockedWith_readWord (m : Bool) (x : Nat) : (s.blockedWith k d w).readWord m x = s.readWord m x :=
  readWord_bytes (blockedWith_byte s k d w m) x

end

/-- Core k waits for its instruction to complete. -/
def Waits (s t : State) (k : Nat) : Prop := (t.core k).blocked = true ∧ t.pc k = s.pc k ∧ t.st k = 5

section
variable {s t : State} {k : Fin 64} {e : Ecc} {d a b : Fin 32}

/-- A buffer instruction that blocks its core leaves it waiting. -/
theorem waits_of_blocks {r : Res} (hb : Gives r fun t => Blocks s t k) (hr : r = .next t) : Waits s t k := by
  obtain ⟨_, h, hbl, hpc, hst, -⟩ := hb
  cases h.symm.trans hr
  exact ⟨hbl, hpc, hst⟩

/-! ### BUF.ALLOC and ATTACH (R72, R123) -/

theorem bufAlloc_performs {region : Fin 3} (h : Issues s k e (.bufAlloc d a region)) {w : Word}
    (hp : (s.fetched k e).coreAlloc k region (s.greg k a) = (w, t)) : exec (.bufAlloc k e d a region) s = .next (t.blockedWith k d w) := by
  refine (issue_performs h).trans ?_
  rw [State.perform, fetched_greg, hp]
  rfl

/-- A new buffer whose one hold is core k's. -/
def BufferSt.heldBy (k : Nat) : BufferSt → BufferSt := fun b => { b with progs := [k] }

section
variable {u : State} {l region : Nat} {size : Word} (h0 : 0 < size.toNat) (h30 : size.toNat ≤ 2 ^ 30) (hc : u.heldCount l < 16)
include h0 h30 hc

theorem coreAlloc_some {h : Nat} (ha : u.alloc region ((size.toNat + 4095) / 4096) (BufferSt.heldBy l) = some (h, t)) :
    u.coreAlloc l region size = (BitVec.ofNat 64 h, t) := by
  unfold BufferSt.heldBy at ha
  rw [State.coreAlloc, if_neg (by omega), if_neg (by omega), ha]

theorem coreAlloc_none (ha : u.alloc region ((size.toNat + 4095) / 4096) (BufferSt.heldBy l) = none) :
    u.coreAlloc l region size = (bufStatus 1, u.drawn.drawn) := by
  unfold BufferSt.heldBy at ha
  rw [State.coreAlloc, if_neg (by omega), if_neg (by omega), ha]

end

/-- What gd receives of an allocation that may be made, and the buffer that it names. -/
theorem bufAlloc_answers {region : Fin 3} (hd : d ≠ 0) (h : Issues s k e (.bufAlloc d a region)) (h0 : 0 < (s.greg k a).toNat)
    (h30 : (s.greg k a).toNat ≤ 2 ^ 30) (hc : s.heldCount k < 16) :
    Gives (exec (.bufAlloc k e d a region) s) fun t => Waits s t k ∧ (t.greg k d = bufStatus 1 ∨
      ∃ (i : Nat) (x : BufferSt), t.greg k d = BitVec.ofNat 64 (handleOf i x) ∧ t.buffer i = x ∧ (s.buffer i).life = .free ∧
        x.life = .live ∧ x.progs = [k.val] ∧ x.pages = ((s.greg k a).toNat + 4095) / 4096 ∧ s.fits x.dram x.page x.pages = true ∧
        (region = 0 → x.dram = false) ∧ (region = 1 → x.dram = true)) := by
  rw [← fetched_heldCount (e := e)] at hc
  cases hr : (s.fetched k e).alloc region (((s.greg k a).toNat + 4095) / 4096) (BufferSt.heldBy k) with
  | none =>
    have hx := bufAlloc_performs h (coreAlloc_none h0 h30 hc hr)
    exact ⟨_, hx, waits_of_blocks (bufAlloc_blocks h) hx, .inl (blockedWith_greg _ _ _ _ hd)⟩
  | some r =>
    obtain ⟨m, i, p, hm0, hm1, hf, hfree, hh, hb⟩ := alloc_newBuffer hr
    have hx := bufAlloc_performs h (coreAlloc_some h0 h30 hc hr)
    refine ⟨_, hx, waits_of_blocks (bufAlloc_blocks h) hx, .inr ⟨i, r.2.buffer i, ?_, blockedWith_buffer .., ?_, ?_⟩⟩
    · rw [blockedWith_greg _ _ _ _ hd, hh]
    · rwa [fetched_buffer] at hfree
    · rw [hb]
      rw [fetched_fits (issues_ecc h)] at hf
      exact ⟨rfl, rfl, rfl, hf, fun hr => hm0 (congrArg Fin.val hr), fun hr => hm1 (congrArg Fin.val hr)⟩

theorem bufAlloc_badSize {region : Fin 3} (hd : d ≠ 0) (h : Issues s k e (.bufAlloc d a region))
    (hn : (s.greg k a).toNat = 0 ∨ 2 ^ 30 < (s.greg k a).toNat) :
    Gives (exec (.bufAlloc k e d a region) s) fun t => Waits s t k ∧ t.greg k d = bufStatus 4 ∧ t.buffers = s.buffers := by
  have hx := bufAlloc_performs h (if_pos hn)
  exact ⟨_, hx, waits_of_blocks (bufAlloc_blocks h) hx, blockedWith_greg _ _ _ _ hd, (blockedWith_buffers ..).trans fetched_buffers⟩

theorem bufAttach_performs (h : Issues s k e (.bufAttach d a)) {w : Word} (hp : (s.fetched k e).coreAttach k (s.greg k a) = (w, t)) :
    exec (.bufAttach k e d a) s = .next (t.blockedWith k d w) := by
  refine (issue_performs h).trans ?_
  rw [State.perform, fetched_greg, hp]
  rfl

/-- A program that holds a live handle once more holds it. -/
theorem holds_holdBy {u : State} {l h : Nat} (hl : u.liveHandle h = true) : (u.holdBy l h).holds l h = true := by
  unfold State.liveHandle at hl
  simp only [Bool.and_eq_true] at hl
  obtain ⟨⟨h32, hh⟩, -⟩ := hl
  have hb : (u.holdBy l h).buffer (indexOf h) =
      { u.buffer (indexOf h) with progs := l :: (u.buffer (indexOf h)).progs, life := .live, after := none } := buffer_modBuffer_same ..
  unfold State.holds State.liveHandle
  rw [hb]
  simp only [h32, Bool.true_and, Bool.and_eq_true, List.contains_cons, beq_self_eq_true, Bool.true_or, and_true]
  exact ⟨hh, rfl⟩

theorem bufAttach_holds (hd : d ≠ 0) (h : Issues s k e (.bufAttach d a)) (hl : s.liveHandle (s.greg k a).toNat = true)
    (hc : s.heldCount k < 16) : Gives (exec (.bufAttach k e d a) s) fun t =>
      Waits s t k ∧ t.greg k d = s.greg k a ∧ t.holds k (s.greg k a).toNat = true := by
  have hp : (s.fetched k e).coreAttach k (s.greg k a) = (s.greg k a, (s.fetched k e).holdBy k (s.greg k a).toNat) := by
    rw [State.coreAttach, if_neg (by rw [fetched_liveHandle, hl]; decide), if_neg (by rw [fetched_heldCount]; omega)]
  have hx := bufAttach_performs h hp
  refine ⟨_, hx, waits_of_blocks (bufAttach_blocks h) hx, blockedWith_greg _ _ _ _ hd, ?_⟩
  have hb : ∀ u : State, (u.blockedWith k d (s.greg k a)).holds k (s.greg k a).toNat = u.holds k (s.greg k a).toNat := fun u => by
    rw [State.holds, State.liveHandle, blockedWith_buffer]; rfl
  rw [hb]
  exact holds_holdBy ((fetched_liveHandle _).trans hl)

theorem bufAttach_dead (hd : d ≠ 0) (h : Issues s k e (.bufAttach d a)) (hl : s.liveHandle (s.greg k a).toNat = false) :
    Gives (exec (.bufAttach k e d a) s) fun t => Waits s t k ∧ t.greg k d = bufStatus 3 ∧ t.buffers = s.buffers := by
  have hx := bufAttach_performs h (if_pos (by rw [fetched_liveHandle, hl]; decide))
  exact ⟨_, hx, waits_of_blocks (bufAttach_blocks h) hx, blockedWith_greg _ _ _ _ hd, (blockedWith_buffers ..).trans fetched_buffers⟩

end

/-! ### BUF.FREE and FENCE (R66, R72, R125) -/

section
variable {s : State} {k : Fin 64} {e : Ecc} {a : Fin 32}

theorem request_buffers (v : Nat) (l : List Ahead) (s : State) : (State.request v l s).buffers = s.buffers := by
  induction l generalizing s with
  | nil => rfl
  | cons a l ih =>
    rw [State.request]
    split_ifs
    · exact ih _
    · exact ih _
    · rfl

theorem refill_buffers (s : State) (v : Nat) : (s.refill v).buffers = s.buffers := by
  rw [State.refill, State.showRefill, setF_buffers, setF_buffers, setF_buffers, request_buffers]

/-- The hold that a queued BUF.FREE took over from its core. -/
theorem emitNow_bufFree_buffer (s : State) (k h : Nat) {q : QEntry} (hq : q.desc = .bufFree h) :
    (s.emitNow k q).buffer (indexOf h) =
      { s.buffer (indexOf h) with progs := (s.buffer (indexOf h)).progs.erase k, descs := (s.buffer (indexOf h)).descs + 1 } := by
  have hb : (s.emitNow k q).buffers = (s.moveHold k h).buffers := by
    rw [State.emitNow, refill_buffers, modVoice_buffers, hq]
  rw [State.buffer, hb]
  exact buffer_modBuffer_same ..

theorem setPc_buffer (s : State) (k n i : Nat) : (s.setPc k n).buffer i = s.buffer i := rfl

/-- Outside a loop body, a BUF.FREE of a handle that the core holds only emits. -/
theorem bufFree_emission (ho : (s.voice k).openBody = 0) (hh : s.holds k (s.greg k a).toNat = true) :
    ∃ q : QEntry, q.desc = .bufFree (s.greg k a).toNat ∧
      (s.fetched k e).perform k false (.bufFree a) .clean = (s.fetched k e).emit k false q :=
  ⟨_, rfl, by rw [State.perform, if_neg (by rw [fetched_voice, ho]; decide), fetched_greg, if_neg (by rw [fetched_holds, hh]; decide)]⟩

theorem bufFree_moves (h : Issues s k e (.bufFree a)) (hr : Room s k) (hh : s.holds k (s.greg k a).toNat = true) :
    Gives (exec (.bufFree k e a) s) fun t => Emitted s t k (.bufFree (s.greg k a).toNat) ∧
      (t.buffer (indexOf (s.greg k a).toNat)).descs = (s.buffer (indexOf (s.greg k a).toNat)).descs + 1 ∧
      (t.buffer (indexOf (s.greg k a).toNat)).progs = (s.buffer (indexOf (s.greg k a).toNat)).progs.erase k.val := by
  obtain ⟨hq, ho⟩ := hr
  obtain ⟨q, hd, hp⟩ := bufFree_emission (e := e) ho hh
  obtain ⟨hem, hE⟩ := emit_emits (q := q) (cored_noted s (fetched_noted s k e)) (fetched_voice _) fetched_now h.1 hq
  rw [hd] at hE
  refine issue_gives h ?_
  rw [hp]
  refine ⟨hE, ?_⟩
  rw [hem, CoreRes.apply, setPc_buffer, emitNow_bufFree_buffer _ _ _ hd, fetched_buffer]
  exact ⟨rfl, rfl⟩

theorem bufFence_waits (h : Issues s k e (.bufFence a)) (hh : s.holds k (s.greg k a).toNat = true) :
    exec (.bufFence k e a) s = .next ((s.fetched k e).modCore k fun c => { c with blocked := true }) := by
  refine (issue_performs h).trans ?_
  rw [State.perform, fetched_greg, if_pos ((fetched_holds _).trans hh)]
  rfl

theorem bufFence_faults (h : Issues s k e (.bufFence a)) (hh : s.holds k (s.greg k a).toNat = false) :
    Gives (exec (.bufFence k e a) s) fun t => Faulted s t k 0x0C :=
  issue_faults_at_once h (by rw [State.perform, fetched_greg, if_neg (by rw [fetched_holds, hh]; decide)]) (by decide)

end

/-! ### BUF.GET and PUT (R72, R73) -/

/-- Core k may copy n words between data memory, from word m on, and the bytes of handle h from offset off on. -/
def MayCopy (s : State) (k : Nat) (h off : Word) (m n : Nat) : Prop :=
  m + n ≤ 4096 ∧ s.holds k h.toNat = true ∧ off.toNat % 8 = 0 ∧ off.toNat + 8 * n ≤ s.bufferSize h.toNat

section
variable {s : State} {k : Fin 64} {e : Ecc} {d a b : Fin 32} {daddr : BitVec 12} {nw : BitVec 8}

theorem copyStatus_of_mayCopy {h off : Word} {m n : Nat} (hc : MayCopy s k h off m n) : s.copyStatus k h off n = 0 := by
  obtain ⟨-, hh, h8, hsz⟩ := hc
  rw [State.copyStatus, if_neg (by rw [hh]; decide), if_neg (by omega)]

theorem fetched_poisoned (m : Bool) (x : Nat) : (s.fetched k e).poisoned m x = s.poisoned m x := by
  rw [State.poisoned, (fetched_noted s k e).recorded.poison]
  rfl

theorem fetched_bufferBase (h : Nat) : (s.fetched k e).bufferBase h = s.bufferBase h := by
  rw [State.bufferBase, fetched_buffer]
  rfl

theorem bufGet_performs (h : Issues s k e (.bufGet d a b daddr nw))
    (hc : MayCopy s k (s.greg k a) (s.greg k b) daddr.toNat (nw.toNat + 1))
    (hp : ∀ i < nw.toNat + 1, s.poisoned (bit (s.greg k a).toNat 23) (s.bufferBase (s.greg k a).toNat + (s.greg k b).toNat + 8 * i) = false) :
    exec (.bufGet k e .clean d a b daddr nw) s = .next (((s.fetched k e).copyIn k (bit (s.greg k a).toNat 23)
      (s.bufferBase (s.greg k a).toNat + (s.greg k b).toNat) daddr.toNat .clean (nw.toNat + 1)).blockedWith k d 0) := by
  have hclean : anyN (nw.toNat + 1) (fun i => (s.fetched k e).poisoned (bit (s.greg k a).toNat 23)
      (s.bufferBase (s.greg k a).toNat + (s.greg k b).toNat + 8 * i)) = false := by
    rw [Bool.eq_false_iff, Ne, anyN_iff]
    rintro ⟨i, hi, hpi⟩
    rw [fetched_poisoned, hp i hi] at hpi
    cases hpi
  refine (issue_performs h).trans ?_
  rw [State.perform, if_neg (by have := hc.1; omega), fetched_greg, fetched_greg, State.bufGet, fetched_copyStatus, copyStatus_of_mayCopy hc]
  dsimp only
  rw [fetched_bufferBase, hclean]
  rfl

theorem bufGet_copies (hd : d ≠ 0) (h : Issues s k e (.bufGet d a b daddr nw))
    (hc : MayCopy s k (s.greg k a) (s.greg k b) daddr.toNat (nw.toNat + 1))
    (hp : ∀ i < nw.toNat + 1, s.poisoned (bit (s.greg k a).toNat 23) (s.bufferBase (s.greg k a).toNat + (s.greg k b).toNat + 8 * i) = false) :
    Gives (exec (.bufGet k e .clean d a b daddr nw) s) fun t => Waits s t k ∧ t.greg k d = 0 ∧
      (∀ i < nw.toNat + 1, t.dmemWord k (daddr.toNat + i) =
        s.readWord (bit (s.greg k a).toNat 23) (s.bufferBase (s.greg k a).toNat + (s.greg k b).toNat + 8 * i)) ∧
      (∀ j < 4096, (j < daddr.toNat ∨ daddr.toNat + (nw.toNat + 1) ≤ j) → t.dmemWord k j = s.dmemWord k j) ∧
      t.sram = s.sram ∧ t.dram = s.dram := by
  have hx := bufGet_performs h hc hp
  obtain ⟨hin, hout, hsr, hdr⟩ := copyIn_leaves (s.fetched k e) k (bit (s.greg k a).toNat 23)
    (s.bufferBase (s.greg k a).toNat + (s.greg k b).toNat) daddr.toNat .clean (nw.toNat + 1)
  refine ⟨_, hx, waits_of_blocks (bufGet_blocks h hc.1) hx, blockedWith_greg _ _ _ _ hd, fun i hi => ?_, fun j _ hj => ?_, ?_, ?_⟩
  · rw [blockedWith_dmemWord, hin i hi, fetched_readWord]
  · rw [blockedWith_dmemWord, hout j hj, State.dmemWord, fetched_dmem]
    rfl
  · rw [blockedWith_sram, hsr, fetched_sram]
  · rw [blockedWith_dram, hdr, fetched_dram]

theorem bufPut_performs (h : Issues s k e (.bufPut d a b daddr nw))
    (hc : MayCopy s k (s.greg k a) (s.greg k b) daddr.toNat (nw.toNat + 1)) :
    exec (.bufPut k e .clean d a b daddr nw) s = .next (((s.fetched k e).copyOut k (bit (s.greg k a).toNat 23)
      (s.bufferBase (s.greg k a).toNat + (s.greg k b).toNat) daddr.toNat (nw.toNat + 1)).blockedWith k d 0) := by
  refine (issue_performs h).trans ?_
  rw [State.perform, if_neg (by have := hc.1; omega), if_neg (by simp [Ecc.bad]), coreEcc_clean, ite_self]
  have hput : (s.fetched k e).bufPut k (s.greg k a) (s.greg k b) daddr.toNat (nw.toNat + 1) = (0, (s.fetched k e).copyOut k
      (bit (s.greg k a).toNat 23) (s.bufferBase (s.greg k a).toNat + (s.greg k b).toNat) daddr.toNat (nw.toNat + 1)) := by
    rw [State.bufPut, fetched_copyStatus, copyStatus_of_mayCopy hc, fetched_bufferBase]
    rfl
  dsimp only
  rw [fetched_greg, fetched_greg, hput]
  rfl

theorem bufPut_copies (hd : d ≠ 0) (h : Issues s k e (.bufPut d a b daddr nw))
    (hc : MayCopy s k (s.greg k a) (s.greg k b) daddr.toNat (nw.toNat + 1)) :
    Gives (exec (.bufPut k e .clean d a b daddr nw) s) fun t => Waits s t k ∧ t.greg k d = 0 ∧
      (∀ i < nw.toNat + 1, t.readWord (bit (s.greg k a).toNat 23) (s.bufferBase (s.greg k a).toNat + (s.greg k b).toNat + 8 * i) =
        s.dmemWord k (daddr.toNat + i)) ∧
      (∀ x, (x < s.bufferBase (s.greg k a).toNat + (s.greg k b).toNat ∨
          s.bufferBase (s.greg k a).toNat + (s.greg k b).toNat + 8 * (nw.toNat + 1) ≤ x) →
        t.byte (bit (s.greg k a).toNat 23) x = s.byte (bit (s.greg k a).toNat 23) x) ∧
      (∀ x, t.byte (!bit (s.greg k a).toNat 23) x = s.byte (!bit (s.greg k a).toNat 23) x) ∧ t.dmem = s.dmem := by
  have hx := bufPut_performs h hc
  obtain ⟨hin, hout, hdm⟩ := copyOut_leaves (s.fetched k e) k (bit (s.greg k a).toNat 23)
    (s.bufferBase (s.greg k a).toNat + (s.greg k b).toNat) daddr.toNat (nw.toNat + 1)
  refine ⟨_, hx, waits_of_blocks (bufPut_blocks h hc.1) hx, blockedWith_greg _ _ _ _ hd, fun i hi => ?_, fun x hx => ?_, fun x => ?_, ?_⟩
  · rw [blockedWith_readWord, hin i hi, State.dmemWord, fetched_dmem]
    rfl
  · rw [blockedWith_byte, hout _ x (.inr hx), fetched_byte]
  · rw [blockedWith_byte, hout _ x (.inl (by simp)), fetched_byte]
  · rw [blockedWith_dmem, hdm, fetched_dmem]

theorem bufGet_outOfRange (h : Issues s k e (.bufGet d a b daddr nw)) (hn : 4096 < daddr.toNat + (nw.toNat + 1)) :
    Gives (exec (.bufGet k e .clean d a b daddr nw) s) fun t => Faulted s t k 8 :=
  issue_faults_at_once h (if_pos hn) (by decide)

end

/-- Settles O14: each buffer instruction is performed on what its fetch leaves, where the buffers and the memories are as they were. -/
theorem bufferInstructions : Obligations.BufferInstructions := by
  intro k e d a b region daddr nw s hd
  exact ⟨bufAlloc_answers hd, bufAlloc_badSize hd, bufAttach_holds hd, bufAttach_dead hd, bufFree_moves, bufFence_waits, bufFence_faults,
    bufGet_copies hd, bufPut_copies hd, bufGet_outOfRange⟩

end Sys2Proof.Machine
end

section
/-! PROOFS. A preload whose end completes an IMAGE_LOAD (O22; R101, R275, R277). -/

namespace Sys2Proof.Machine

/-! ### A device whose PORT0 waits for a jump-table entry -/

/-- The device in ACTIVE with its domains on, its Service Cores running and the rings of PORT0 enabled. Core 0 is in HALT and holds the header
of an armable program of one instruction whose image has one jump-table entry. -/
def headLoaded : State :=
  let s : State := { State.reset with boot := { running := true }, power := { stage := .up } }
  let s := (s.setRw .PWR_DOM_STAT0 (BitVec.allOnes 64)).setRw .PWR_DOM_STAT1 0xFF
  let s := (s.setF F.P0_QCFG_CMD_EN 1).setF F.P0_QCFG_RSP_EN 1
  let s := (s.setRw .CORE_HDR 0x960000015844564E 0 0).setRw .CORE_HDR 0x800000000 0 2
  ((s.setRw .CORE_HDR 0x100000000 0 4).setRw .CORE_HDR 0x100000000 0 5).setF F.CORE_STATUS_STATE 2

/-- The REG_WRITE with HSN 1 that makes entry 0 of the jump table of V0 not VALID. -/
def unloadCommand : MlpMsg :=
  ⟨{ hsn := 1, oob := false, fits := true, room := 1024 }, .regWrite (BitVec.ofNat 64 (Reg.VOICE_JT.addr 0 0)) 1 [0] .clean⟩

/-- That device while entry 0 of V0 is being preloaded: the IMAGE_LOAD with HSN 0 waits for the entry, and the REG_WRITE is held behind it. -/
def imageWaits : State :=
  (headLoaded.modJt 0 0 fun j => { j with loading := true }).modPort 0 fun x =>
    { x with opened := true, held := [unloadCommand], exec := some { hsn := 0, core := 0, session := 0, eseq := 0, until_ := second / 500 } }

/-! ### What the end of the preload leads to -/

theorem imageWaits_loading : imageWaits.jtEntry 0 0 = { loading := true } := by decide +kernel

/-- No word of the grain that was preloaded is marked. -/
theorem imageWaits_readable : (imageWaits.copyOf (imageWaits.grainSpans [] (segLen (wordOf [] 0)) 0)).bad = [] := by decide +kernel

/-- The image is loaded once the preload has ended. The IMAGE_LOAD then completes and arms its core, and the REG_WRITE unloads the entry. -/
theorem preload_unloads : let t := imageWaits.jtPreloaded 0 0 .clean
    imageWaits.imageLoaded 0 = false ∧ t.imageLoaded 0 = true ∧ t.serveImages.st 0 = 3 ∧
      bit (t.serveImages.f F.VOICE_JT_STAT_LOADED 0) 0 = false := by
  and_intros <;> decide +kernel

/-- Refutes O22: the end of a preload also completes the IMAGE_LOAD of PORT0 that waits for it, and a REG_WRITE held behind that command then
unloads the entry. -/
theorem not_voiceTables : ¬ Obligations.VoiceTables := by
  intro h
  obtain ⟨-, -, hloads, -⟩ := h 0 0 .port0 0 .clean imageWaits
  have hentry : imageWaits.jtEntry (0 : Fin 64) (0 : Fin 16) = { loading := true } := imageWaits_loading
  rw [hentry] at hloads
  obtain ⟨t, ht, hloaded, -⟩ := hloads rfl (fun hdram => absurd hdram Bool.false_ne_true) rfl imageWaits_readable
  cases (Host.Outcome.next.inj ht : (imageWaits.jtPreloaded 0 0 .clean).serveImages = t)
  obtain ⟨-, -, -, hunloaded⟩ := preload_unloads
  exact Bool.false_ne_true (hunloaded.symm.trans hloaded)

end Sys2Proof.Machine
end

section
/-! PROOFS. What the operations of a voice leave of its jumps and its queue (for O21). -/

namespace Sys2Proof.Machine

/-! ### The view -/

/-- A voice's jumps, its jump table and its queue. -/
def VoiceSt.jumps (x : VoiceSt) : Option Armed × Option Pending × List (Nat × JtSt) × List QEntry := (x.armed, x.pending, x.jt, x.queue)

/-- The jumps, the jump table and the queue of voice v, with the registers that show its jumps and hold its jump table. -/
def State.jumping (s : State) (v : Nat) : (Option Armed × Option Pending × List (Nat × JtSt) × List QEntry) × Word × (Fin 16 → Word) :=
  ((s.voice v).jumps, s.rw .VOICE_JT_STAT v, fun e => s.rw .VOICE_JT v e)

/-- A register that shows or holds nothing of a voice's jumps: below the windows of the channels, or another register of a voice. -/
def Reg.offJumps (r : Reg) : Bool :=
  r.low || r.spec.voice && decide (r.spec.base < 0x40 ∨ 0x40 < r.spec.base ∧ r.spec.base < 0x80)

section
variable {s t : State} {v : Nat}

theorem jumping_ext (hv : (t.voice v).jumps = (s.voice v).jumps) (hs : t.rw .VOICE_JT_STAT v = s.rw .VOICE_JT_STAT v)
    (he : ∀ e : Fin 16, t.rw .VOICE_JT v e = s.rw .VOICE_JT v e) : t.jumping v = s.jumping v :=
  Prod.ext hv (Prod.ext hs (funext he))

theorem armed_of_jumping (h : t.jumping v = s.jumping v) : (t.voice v).armed = (s.voice v).armed := congrArg (·.1.1) h
theorem pending_of_jumping (h : t.jumping v = s.jumping v) : (t.voice v).pending = (s.voice v).pending := congrArg (·.1.2.1) h
theorem jt_of_jumping (h : t.jumping v = s.jumping v) : (t.voice v).jt = (s.voice v).jt := congrArg (·.1.2.2.1) h
theorem queue_of_jumping (h : t.jumping v = s.jumping v) : (t.voice v).queue = (s.voice v).queue := congrArg (·.1.2.2.2) h
theorem stat_of_jumping (h : t.jumping v = s.jumping v) {x : Fld} (hx : x.reg = .VOICE_JT_STAT) : t.f x v = s.f x v := by
  rw [State.f, State.f, hx]
  exact congrArg (fun y => bits y.2.1.toNat x.hi x.lo) h
theorem entry_of_jumping (h : t.jumping v = s.jumping v) {e : Nat} (he : e < 16) : t.rw .VOICE_JT v e = s.rw .VOICE_JT v e :=
  congrFun (congrArg (·.2.2) h) ⟨e, he⟩

end

section
variable (s : State) (v : Nat)

/-! ### Registers and hidden state -/

theorem addr_offJumps {r : Reg} (h : r.offJumps = true) {i : Nat} (hi : i < 64) :
    Reg.VOICE_JT_STAT.addr v 0 ≠ r.addr i 0 ∧ ∀ e : Fin 16, Reg.VOICE_JT.addr v e ≠ r.addr i 0 := by
  have hs : Reg.VOICE_JT_STAT.addr v 0 = 0x108000 + v / 4 * 0x10000 + v % 4 * 0x1000 + 0x40 + 0 * 0 := rfl
  have he : ∀ e : Fin 16, Reg.VOICE_JT.addr v e = 0x108000 + v / 4 * 0x10000 + v % 4 * 0x1000 + 0x80 + e * 8 := fun _ => rfl
  simp only [Reg.offJumps, Bool.or_eq_true, Bool.and_eq_true, decide_eq_true_eq] at h
  rcases h with h | ⟨hv, hb⟩
  · have := addr_low h hi
    exact ⟨by omega, fun e => by rw [he]; omega⟩
  · have hr : r.addr i 0 = 0x108000 + i / 4 * 0x10000 + i % 4 * 0x1000 + r.spec.base + 0 * r.spec.s2 := by rw [Reg.addr, hv]; rfl
    rw [hr, Nat.zero_mul]
    exact ⟨by omega, fun e => by have := e.isLt; rw [he]; omega⟩

variable {v} in
theorem jumping_setRw {r : Reg} (h : r.offJumps = true) (w : Word) {i : Nat} (hi : i < 64) : (s.setRw r w i).jumping v = s.jumping v :=
  have ⟨hs, he⟩ := addr_offJumps v h hi
  jumping_ext rfl (rw_setRw_ne s w hs) fun e => rw_setRw_ne s w (he e)

theorem jumping_setF {x : Fld} (h : x.reg.offJumps = true) (w : Nat) {i : Nat} (hi : i < 64) : (s.setF x w i).jumping v = s.jumping v :=
  jumping_setRw s h _ hi

theorem jumping_modVoice {g : VoiceSt → VoiceSt} (h : ∀ x, (g x).jumps = x.jumps) (u : Nat) : (s.modVoice u g).jumping v = s.jumping v :=
  jumping_ext (modVoice_keeps s VoiceSt.jumps h u v) rfl fun _ => rfl

@[simp] theorem jumping_reach (x : Nat) : (s.reach x).jumping v = s.jumping v := by
  unfold State.reach
  split <;> rfl

@[simp] theorem jumping_fire (src x : Nat) : (s.fire src x).jumping v = s.jumping v := by
  unfold State.fire
  split <;> rfl

@[simp] theorem jumping_fireVtrb (u b x : Nat) : (s.fireVtrb u b x).jumping v = s.jumping v := by
  unfold State.fireVtrb
  split
  · exact jumping_fire ..
  · rfl

@[simp] theorem jumping_trouble (x : Trouble) : (s.trouble x).jumping v = s.jumping v :=
  jumping_setF s v (by cases x <;> decide) _ (by cases x <;> decide)

@[simp] theorem jumping_troubleBy (x : Trouble) (k : Nat) : (s.troubleBy x k).jumping v = s.jumping v :=
  jumping_setF s v (by cases x <;> decide) _ (by cases x <;> decide)

theorem jumping_foldl {α : Type} {f : State → α → State} (h : ∀ t x, (f t x).jumping v = t.jumping v) (l : List α) :
    (l.foldl f s).jumping v = s.jumping v := foldl_same (State.jumping · v) h l s

/-! ### Buffers (R124, R125) -/

@[simp] theorem jumping_settle (i : Nat) (last : Option Nat) : (s.settle i last).jumping v = s.jumping v := by
  unfold State.settle
  split
  · split <;> rfl
  · rfl

@[simp] theorem jumping_dropDesc (h : Nat) : (s.dropDesc h).jumping v = s.jumping v := jumping_settle ..
@[simp] theorem jumping_dropRefs (u : Option Nat) (hs : List Nat) : (s.dropRefs u hs).jumping v = s.jumping v :=
  jumping_foldl s v (fun t _ => jumping_settle (t.modBuffer _ _) v ..) hs
@[simp] theorem jumping_addRefs (hs : List Nat) : (s.addRefs hs).jumping v = s.jumping v := jumping_foldl s v (by exact fun _ _ => rfl) hs
@[simp] theorem jumping_retireAt (u : Nat) : (s.retireAt u).jumping v = s.jumping v :=
  jumping_foldl s v (fun t p => by split <;> rfl) s.buffers

@[simp] theorem jumping_queueLow (u k : Nat) : (s.queueLow u k).jumping v = s.jumping v := by
  unfold State.queueLow
  dsimp only
  split
  · exact jumping_fire ..
  · rfl

/-! ### Refill and what is shown (R108, R109, R113, R175) -/

variable {v} in
theorem jumping_request (l : List Ahead) : (State.request v l s).jumping v = s.jumping v := by
  induction l generalizing s with
  | nil => rfl
  | cons a l ih =>
    rw [State.request]
    split_ifs
    · rw [ih, jumping_modVoice _ v (fun _ => by rfl), jumping_trouble]
    · rw [ih, jumping_modVoice _ v (fun _ => by rfl)]
    · rfl

variable {v} in
theorem jumping_refill (hv : v < 64) : (s.refill v).jumping v = s.jumping v := by
  rw [State.refill, State.showRefill, jumping_setF _ v (by decide) _ hv, jumping_setF _ v (by decide) _ hv, jumping_setF _ v (by decide) _ hv,
    jumping_request]

variable {v} in
theorem jumping_freeSlot (hv : v < 64) : (s.freeSlot v).jumping v = s.jumping v := by
  unfold State.freeSlot
  split
  · rw [jumping_modVoice _ v (fun _ => by rfl), State.clr, jumping_setF _ v (by decide) _ hv, jumping_setF _ v (by decide) _ (by decide)]
  · rfl

variable {v} in
theorem jumping_showVoice (hv : v < 64) : (s.showVoice v).jumping v = s.jumping v := by
  have hset := fun (t : State) (x : Fld) (w : Nat) (h : x.reg = .VOICE_STATUS) => jumping_setF t v (x := x) (by rw [h]; decide) w hv
  unfold State.showVoice
  split
  · exact hset _ _ _ rfl
  · extract_lets at_ t
    have ht : t.jumping v = s.jumping v := (hset _ _ _ rfl).trans (hset _ _ _ rfl)
    split
    · exact ((hset _ _ _ rfl).trans (hset _ _ _ rfl)).trans ht
    · exact (hset _ _ _ rfl).trans ht

@[simp] theorem jumping_sendLanes (n : Nat) (p : Int) : (s.sendLanes n p).jumping v = s.jumping v := by
  have hchange : ∀ (t : State) (l : Nat) (x : Int × Int), (t.sendChange n l x).jumping v = t.jumping v := fun t l x => by
    unfold State.sendChange
    extract_lets
    split_ifs <;> rfl
  exact forN_keeps (P := fun t : State => t.jumping v = s.jumping v) 4 (fun l t ht => (hchange ..).trans ht) rfl

/-! ### Samples and grains (R112, R115, R249) -/

@[simp] theorem jumping_presentAt (p : Int) : (s.presentAt v p).jumping v = s.jumping v := by
  unfold State.presentAt State.presentSamples
  split
  · exact jumping_modVoice s v (by exact fun _ => rfl) v
  · rfl

@[simp] theorem jumping_keepLine (j : Nat) (c : Copy) : (s.keepLine v j c).jumping v = s.jumping v := jumping_modVoice s v (by exact fun _ => rfl) v

@[simp] theorem jumping_settleLine (j : Nat) (spans : List Span) (first : Option Copy) : (s.settleLine v j spans first).jumping v = s.jumping v := by
  unfold State.settleLine
  dsimp only
  split
  · split
    · exact jumping_keepLine ..
    · exact (jumping_keepLine ..).trans rfl
  · exact jumping_keepLine ..

variable {v} in
theorem jumping_missGrain (hv : v < 64) (j len : Nat) (p : Int) : (s.missGrain v j len p).jumping v = s.jumping v := by
  unfold State.missGrain State.missSamples
  extract_lets u d fresh
  have hu : u.jumping v = s.jumping v := (jumping_setF _ v (by decide) _ hv).trans (jumping_modVoice s v (by exact fun _ => rfl) v)
  have hf : (fresh u).jumping v = s.jumping v := by
    unfold fresh
    rw [jumping_modVoice _ v (fun _ => by rfl), jumping_fire, jumping_trouble, State.bump, State.bumpBy, jumping_setF _ v (by decide) _ hv, hu]
  split
  · exact hu
  · split
    · exact (jumping_modVoice u v (by exact fun _ => rfl) v).trans hu
    · exact hf
  · exact hf

@[simp] theorem jumping_lateLines (late : List LateLine) : (s.lateLines v late).jumping v = s.jumping v := by
  unfold State.lateLines
  split
  · rfl
  · rw [jumping_modVoice _ v (fun _ => by rfl), jumping_setF _ v (by decide) _ (by decide), State.bumpBy,
      jumping_setF _ v (by decide) _ (by decide)]

variable {v} in
theorem jumping_dramGrain (hv : v < 64) (j len : Nat) (p : Int) (spans : List Span) : (s.dramGrain v j len p spans).jumping v = s.jumping v := by
  unfold State.dramGrain
  extract_lets due drop
  have hd : (drop s).jumping v = s.jumping v := jumping_modVoice s v (by exact fun _ => rfl) v
  have hw : ((drop s).bump F.REFILL_STAT_WITHDRAWN v).jumping v = s.jumping v := (jumping_setF _ v (by decide) _ hv).trans hd
  split
  · rw [jumping_refill _ hv, jumping_modVoice _ v (fun _ => by rfl), hd]
  · split
    · rw [jumping_refill _ hv, jumping_presentAt, jumping_keepLine, hd]
    · split
      · rw [jumping_refill _ hv, jumping_presentAt, jumping_settleLine, hd]
      · rw [jumping_refill _ hv, jumping_missGrain _ hv, hw]
  · rw [jumping_refill _ hv, jumping_missGrain _ hv, hw]
  · rw [jumping_refill _ hv, jumping_missGrain _ hv]

/-! ### Streams (R119, R120) -/

theorem jumping_placeByTime {b : Nat} (hb : b < 64) (u : Nat) (g : Grid) (it : Item) (pk : Packet) :
    (s.placeByTime u b g it pk).jumping v = s.jumping v := by
  have hslip : ∀ t : State, (if pk.start then t.modBinding b fun y => { y with slip := 0 } else t).jumping v = t.jumping v := fun t => by
    split <;> rfl
  unfold State.placeByTime State.modStream State.shave
  dsimp only
  rw [jumping_setF _ v (by decide) _ hb, jumping_setF _ v (by decide) _ hb, jumping_modVoice _ v (fun _ => by rfl), hslip, jumping_troubleBy,
    State.bumpBy, jumping_setF _ v (by decide) _ hb]

@[simp] theorem jumping_openStream (u : Nat) (g : Grid) (it : Item) : (s.openStream u g it).jumping v = s.jumping v := by
  unfold State.openStream
  split
  · rfl
  · next b hb =>
    have hb := binding_lt hb
    extract_lets t ps
    have ht : t.jumping v = s.jumping v := (jumping_setF _ v (by decide) _ hb).trans (jumping_modVoice s v (by exact fun _ => rfl) u)
    split
    · exact ht
    · rw [jumping_foldl _ v (fun _ _ => jumping_placeByTime _ v hb ..), jumping_placeByTime _ v hb, ht]

@[simp] theorem jumping_closeStream (u : Nat) : (s.closeStream u).jumping v = s.jumping v := by
  unfold State.closeStream
  split
  · split
    · next b hb =>
      split
      · rfl
      · exact jumping_setF s v (by decide) _ (binding_lt hb)
    · rfl
  · rfl

/-! ### The start of a grain (R93, R107) -/

@[simp] theorem jumping_gmatch (it : Item) (j x : Nat) : (s.gmatch v it j x).jumping v = s.jumping v := by
  unfold State.gmatch
  split
  · exact jumping_fire ..
  · rfl

theorem jumping_firstSample (n : Nat) {it : Item} (h : it.kind = .target) : (s.firstSample v n it).jumping v = s.jumping v := by
  unfold State.firstSample
  dsimp only
  rw [if_pos h, jumping_fire, jumping_fire]

variable {v} in
theorem jumping_grainData (hv : v < 64) (n j : Nat) (it : Item) (late : List LateLine) : (s.grainData v n j it late).jumping v = s.jumping v := by
  unfold State.grainData
  extract_lets ws p spans t t'
  have ht : t.jumping v = s.jumping v := by
    unfold t
    split
    · exact jumping_openStream ..
    · rfl
  have ht' : t'.jumping v = s.jumping v := jumping_presentAt ..
  split
  · split
    · exact (jumping_refill _ hv).trans ((jumping_modVoice _ v (by exact fun _ => rfl) v).trans ht)
    · split
      · exact ht
      · exact (jumping_lateLines ..).trans ht
  · split
    · exact (jumping_lateLines ..).trans (jumping_dramGrain _ hv ..)
    · split
      · rfl
      · split
        · exact ht'
        · split
          · exact (jumping_lateLines ..).trans ht'
          · exact (jumping_lateLines ..).trans ((jumping_settleLine ..).trans ht')

variable {v} in
theorem jumping_beginGrain (hv : v < 64) (n : Nat) (h : ∀ it, (s.voice v).item = some it → it.kind = .target) (late : List LateLine) :
    (s.beginGrain v n late).jumping v = s.jumping v := by
  unfold State.beginGrain
  split
  · rfl
  · next it hit =>
    extract_lets j p x t u w
    have hu : u.jumping v = s.jumping v := (jumping_modVoice t v (by exact fun _ => rfl) v).trans (jumping_reach ..)
    have hw : w.jumping v = s.jumping v := by
      unfold w
      split
      · exact (jumping_firstSample _ v n (h it hit)).trans hu
      · exact hu
    split
    · exact hu
    · rw [jumping_grainData _ hv, jumping_setF _ v (by decide) _ hv, jumping_gmatch, hw]

/-! ### Register commits (R94, R95) -/

variable {v} in
theorem jumping_regsAt (hv : v < 64) (p : Int) (w : Option Word) (r : Option Nat) : (s.regsAt v p w r).jumping v = s.jumping v := by
  unfold State.regsAt
  extract_lets t
  have ht : t.jumping v = s.jumping v := by
    unfold t
    split
    · exact jumping_setRw s (by decide) _ hv
    · rfl
  split
  · split
    · exact ht
    · exact ht
  · exact ht

variable {v} in
theorem jumping_landRegs (hv : v < 64) (j : Pending) (p : Int) : (s.landRegs v j p).jumping v = s.jumping v := by
  have happly : ∀ t : State, (t.applyRegs v p).jumping v = t.jumping v := fun t =>
    (jumping_regsAt _ hv ..).trans (jumping_modVoice t v (by exact fun _ => rfl) v)
  unfold State.landRegs
  split
  · split
    · split
      · exact happly s
      · exact (happly _).trans (jumping_modVoice s v (by exact fun _ => rfl) v)
    · exact happly s
  · exact (jumping_regsAt _ hv ..).trans (jumping_modVoice s v (by exact fun _ => rfl) v)

/-! ### Items (R78, R99) -/

@[simp] theorem jumping_endItem : (s.endItem v).jumping v = s.jumping v := by
  unfold State.endItem
  split
  · rw [jumping_dropRefs, jumping_modVoice _ v (fun _ => by rfl), jumping_closeStream]
  · rfl

variable {v} in
theorem jumping_beginItem (hv : v < 64) (it : Item) : (s.beginItem v it).jumping v = s.jumping v := by
  rw [State.beginItem, jumping_modVoice _ v (fun _ => by rfl), jumping_setF _ v (by decide) _ hv, jumping_setF _ v (by decide) _ hv]

@[simp] theorem jumping_offerKerf (x : Nat) : (s.offerKerf v x).jumping v = s.jumping v := by
  refine forN_keeps (P := fun t : State => t.jumping v = s.jumping v) 16 (fun i t ht => ?_) rfl
  dsimp only
  split
  · split
    · exact (jumping_modVoice t v (by exact fun _ => rfl) _).trans ht
    · exact ht
  · exact ht

end

end Sys2Proof.Machine
end

section
/-! PROOFS. Jumps that are accepted, and landings in an entry that is not loaded (O21; R102, R103, R105). -/

namespace Sys2Proof.Machine

section
variable {s : State} {v : Nat}

/-! ### Acceptance (R102, R103) -/

/-- VOICE_JT_STAT shows voice v's armed jump a as pending. -/
def State.showPending (s : State) (v : Nat) (a : Armed) : State :=
  ((s.clr F.VOICE_JT_STAT_ARMED v).flag F.VOICE_JT_STAT_PEND v).setF F.VOICE_JT_STAT_PEND_ENTRY a.entry v

/-- Voice v's armed jump gives way to the pending jump y. -/
def State.putPending (s : State) (v : Nat) (y : Pending) : State :=
  s.modVoice v fun x => { x with armed := none, jumpSeen := none, pending := some y }

/-- A jump a that is pending with release instant rel, and that lands on grid g at the nearest position if it is IMMEDIATE. -/
structure Accepted (a : Armed) (g : Grid) (rel : Nat) (y : Pending) : Prop where
  entry : y.entry = a.entry
  land : a.mode = 2 → y.land = some (g.immediate rel)
  rel : y.rel = rel

/-- An accepted jump is shown and put, a LATE_JUMP being counted between if it met the horizon. -/
theorem acceptJump_eq (s : State) (v : Nat) (a : Armed) (rel : Nat) : ∃ u y, s.acceptJump v a rel = u.putPending v y ∧
    (u = s.showPending v a ∨ u = (s.showPending v a).lateJump v rel) ∧ Accepted a (s.voiceGrid v) rel y := by
  unfold State.acceptJump
  extract_lets g base u put
  split
  · exact ⟨_, _, rfl, .inl rfl, rfl, fun _ => rfl, rfl⟩
  · next hm =>
    have hacc : ∀ y : Pending, y.entry = a.entry → y.rel = rel → Accepted a (s.voiceGrid v) rel y := fun y he hr =>
      ⟨he, fun h => absurd h hm, hr⟩
    split
    · exact ⟨_, _, rfl, .inl rfl, hacc _ rfl rfl⟩
    · split
      · exact ⟨_, _, rfl, .inl rfl, hacc _ rfl rfl⟩
      · split
        · exact ⟨_, _, rfl, .inl rfl, hacc _ rfl rfl⟩
        · split
          · exact ⟨_, _, rfl, .inl rfl, hacc _ rfl rfl⟩
          · exact ⟨_, _, rfl, .inr rfl, hacc _ rfl rfl⟩

theorem lateJump_jumping (hv : v < 64) (s : State) (rel : Nat) : (s.lateJump v rel).jumping v = s.jumping v := by
  rw [State.lateJump, jumping_fireVtrb, jumping_trouble, State.bump, State.bumpBy, jumping_setF _ v (by decide) _ hv]

theorem showPending_shows (s : State) (v : Nat) (a : Armed) : (s.showPending v a).on F.VOICE_JT_STAT_ARMED v = false ∧
    (s.showPending v a).on F.VOICE_JT_STAT_PEND v = true ∧ (s.showPending v a).f F.VOICE_JT_STAT_PEND_ENTRY v = a.entry % 16 := by
  have hentry : ∀ u : State, (u.setF F.VOICE_JT_STAT_PEND_ENTRY a.entry v).f F.VOICE_JT_STAT_PEND v = u.f F.VOICE_JT_STAT_PEND v ∧
      (u.setF F.VOICE_JT_STAT_PEND_ENTRY a.entry v).f F.VOICE_JT_STAT_ARMED v = u.f F.VOICE_JT_STAT_ARMED v := fun u =>
    ⟨f_setF_disjoint u _ (by constructor <;> decide) (.inl (by decide)), f_setF_disjoint u _ (by constructor <;> decide) (.inr (by decide))⟩
  have hpend : (s.showPending v a).f F.VOICE_JT_STAT_PEND v = 1 :=
    (hentry _).1.trans (f_setF_same _ F.VOICE_JT_STAT_PEND 1 v 0 (by constructor <;> decide))
  have harm : (s.showPending v a).f F.VOICE_JT_STAT_ARMED v = 0 :=
    (hentry _).2.trans ((f_setF_disjoint _ 1 (by constructor <;> decide) (.inr (by decide))).trans
      (f_setF_same s F.VOICE_JT_STAT_ARMED 0 v 0 (by constructor <;> decide)))
  refine ⟨by rw [State.on, harm]; rfl, by rw [State.on, hpend]; rfl, f_setF_same _ F.VOICE_JT_STAT_PEND_ENTRY _ v 0 (by constructor <;> decide)⟩

/-- What the acceptance of jump a with release instant rel leaves. -/
theorem acceptJump_accepts (hv : v < 64) (s : State) (a : Armed) (rel : Nat) : let t := s.acceptJump v a rel
    (t.voice v).armed = none ∧ t.on F.VOICE_JT_STAT_ARMED v = false ∧ t.on F.VOICE_JT_STAT_PEND v = true ∧
      t.f F.VOICE_JT_STAT_PEND_ENTRY v = a.entry % 16 ∧ ∃ y, (t.voice v).pending = some y ∧ Accepted a (s.voiceGrid v) rel y := by
  obtain ⟨u, y, he, hu, hy⟩ := acceptJump_eq s v a rel
  have hj : u.jumping v = (s.showPending v a).jumping v := by
    rcases hu with rfl | rfl
    · rfl
    · exact lateJump_jumping hv ..
  obtain ⟨harm, hpend, hentry⟩ := showPending_shows s v a
  have hstat : ∀ x : Fld, x.reg = .VOICE_JT_STAT → (u.putPending v y).f x v = (s.showPending v a).f x v := fun x hx => stat_of_jumping hj hx
  have hput : (u.putPending v y).voice v = { u.voice v with armed := none, jumpSeen := none, pending := some y } := voice_modVoice_same ..
  dsimp only
  rw [he, State.on, State.on, hstat _ rfl, hstat _ rfl, hstat _ rfl, hput]
  exact ⟨rfl, harm, hpend, hentry, y, rfl, hy⟩

theorem reach_voiceGrid (s : State) (x v : Nat) : (s.reach x).voiceGrid v = s.voiceGrid v := by
  unfold State.reach
  split <;> rfl

theorem jump_seen {v : Fin 64} {a : Armed} {r : Nat} (ha : (s.voice v).armed = some a) (hp : (s.voice v).pending = none)
    (hec : bit a.ec 7 = false) (hr : (s.voice v).jumpSeen = some r) (he : a.entry < 16) :
    Gives (exec (.jumpAccept v) s) fun t => (t.voice v).armed = none ∧ t.on F.VOICE_JT_STAT_ARMED v = false ∧
      t.on F.VOICE_JT_STAT_PEND v = true ∧ t.f F.VOICE_JT_STAT_PEND_ENTRY v = a.entry ∧
      ∃ y, (t.voice v).pending = some y ∧ y.entry = a.entry ∧ y.rel = r * 10000000000 + 65 * second ∧
        (a.mode = 2 → y.land = some ((s.voiceGrid v).immediate y.rel)) := by
  have hx : exec (.jumpAccept v) s =
      .next ((s.reach (r + 13 * second / 2000000000)).acceptJump v a (r * 10000000000 + 65 * second)) := by
    change execJumpAccept v s = _
    unfold execJumpAccept
    rw [ha, hp]
    dsimp only
    rw [hec, if_neg Bool.false_ne_true, hr]
  obtain ⟨harmed, harm, hpend, hentry, y, hy, hacc⟩ :=
    acceptJump_accepts v.isLt (s.reach (r + 13 * second / 2000000000)) a (r * 10000000000 + 65 * second)
  refine ⟨_, hx, harmed, harm, hpend, hentry.trans (Nat.mod_eq_of_lt he), y, hy, hacc.entry, hacc.rel, fun hm => ?_⟩
  rw [hacc.land hm, hacc.rel, reach_voiceGrid]

theorem jump_none {v : Fin 64} {a : Armed} (ha : (s.voice v).armed = some a) (hp : (s.voice v).pending = none) (hec : bit a.ec 7 = true) :
    Gives (exec (.jumpAccept v) s) fun t =>
      (t.voice v).armed = none ∧ ∃ y, (t.voice v).pending = some y ∧ y.rel = a.armed * 10000000000 := by
  have hx : exec (.jumpAccept v) s = .next (s.acceptJump v a (a.armed * 10000000000)) := by
    change execJumpAccept v s = _
    unfold execJumpAccept State.acceptNone
    rw [ha, hp]
    dsimp only
    rw [if_pos hec, if_pos hec]
  obtain ⟨harmed, -, -, -, y, hy, hacc⟩ := acceptJump_accepts v.isLt s a (a.armed * 10000000000)
  exact ⟨_, hx, harmed, y, hy, hacc.rel⟩

/-! ### A landing in an entry that is not loaded (R105) -/

theorem acceptNone_unarmed (h : (s.voice v).armed = none) (x : Nat) : s.acceptNone v x = s := by
  unfold State.acceptNone
  rw [h]

theorem clearPending_voice (s : State) (v : Nat) : (s.clearPending v).voice v = { s.voice v with pending := none } := by
  rw [State.clearPending, State.voice, clr_voices]
  exact voice_modVoice_same ..

theorem clearPending_pend (s : State) (v : Nat) : (s.clearPending v).on F.VOICE_JT_STAT_PEND v = false := by
  rw [State.on, State.clearPending, State.clr, f_setF_same _ F.VOICE_JT_STAT_PEND 0 v 0 (by constructor <;> decide)]
  rfl

theorem jump_lands {v : Fin 64} {n : Nat} {j : Pending} {p : Int} (hc : s.voiceChan v = some n) (hj : (s.voice v).pending = some j)
    (hl : j.land = some p) : exec (.jumpLand v) s = .next (s.landJump v n j p) := by
  change execJumpLand v s = _
  unfold execJumpLand
  rw [hc, hj]
  dsimp only
  rw [hl]

/-- A jump of voice v is a miss at DTIME x (R105). -/
def State.missJump (s : State) (v x : Nat) : State :=
  (((s.clearPending v).flag F.VOICE_STATUS_JUMP_MISS v).bump F.VOICE_TROUBLE_JUMP_MISS v).fireVtrb v 1 x

theorem fireVtrb_f (s : State) (v b x : Nat) (y : Fld) (i : Nat) : (s.fireVtrb v b x).f y i = s.f y i := by
  unfold State.fireVtrb
  split
  · exact fire_f ..
  · rfl

theorem fireVtrb_voices (s : State) (v b x : Nat) : (s.fireVtrb v b x).voices = s.voices := by
  unfold State.fireVtrb State.fire
  split
  · split <;> rfl
  · rfl

theorem missJump_voice (s : State) (v x : Nat) : (s.missJump v x).voice v = { s.voice v with pending := none } := by
  rw [State.missJump, State.voice, fireVtrb_voices, State.bump, State.bumpBy, setF_voices, flag_voices, ← State.voice, clearPending_voice]

/-- A miss is flagged and counted. -/
theorem missJump_shows (s : State) (v x : Nat) : (s.missJump v x).on F.VOICE_STATUS_JUMP_MISS v = true ∧
    (s.missJump v x).f F.VOICE_TROUBLE_JUMP_MISS v = s.upped F.VOICE_TROUBLE_JUMP_MISS v := by
  have hoff : ∀ r ∈ [Reg.VOICE_STATUS, Reg.VOICE_JT_STAT], Reg.VOICE_TROUBLE.addr v 0 ≠ r.addr v 0 := by
    simp only [List.forall_mem_cons, List.not_mem_nil, false_imp_iff, implies_true, and_true, Reg.addr, Reg.spec, if_true]
    omega
  refine ⟨?_, ?_⟩
  · rw [State.on, State.missJump, fireVtrb_f, State.bump, State.bumpBy, f_setF_ne _ _ (hoff _ (by decide)).symm, State.flag,
      f_setF_same _ F.VOICE_STATUS_JUMP_MISS 1 v 0 (by constructor <;> decide)]
    rfl
  · rw [State.missJump, fireVtrb_f, f_bump_same _ _ _ _ (by constructor <;> decide), State.upped, State.flag, f_setF_ne _ _ (hoff _ (by decide)),
      State.clearPending, State.clr, f_setF_ne _ _ (hoff _ (by decide)), modVoice_f, State.upped]

theorem jump_misses {v : Fin 64} {n : Nat} {j : Pending} {p : Int} (hc : s.voiceChan v = some n) (hj : (s.voice v).pending = some j)
    (hl : j.land = some p) (ha : (s.voice v).armed = none) (hload : bit (s.f F.VOICE_JT_STAT_LOADED v) j.entry = false) :
    Gives (exec (.jumpLand v) s) fun t => (t.voice v).pending = none ∧ (t.voice v).item = (s.voice v).item ∧
      (t.voice v).queue = (s.voice v).queue ∧ t.on F.VOICE_STATUS_JUMP_MISS v = true ∧
      t.f F.VOICE_TROUBLE_JUMP_MISS v = min (s.f F.VOICE_TROUBLE_JUMP_MISS v + 1) 65535 := by
  have hv := missJump_voice (s.reach (s.posTime v p)) v (s.posTime v p)
  obtain ⟨hmiss, hcount⟩ := missJump_shows (s.reach (s.posTime v p)) v (s.posTime v p)
  have hx : exec (.jumpLand v) s = .next ((s.reach (s.posTime v p)).missJump v (s.posTime v p)) := by
    rw [jump_lands hc hj hl, State.landJump, reach_f, hload, if_neg Bool.false_ne_true]
    exact congrArg _ (acceptNone_unarmed (s := (s.reach (s.posTime v p)).missJump v (s.posTime v p)) (by rw [hv, reach_voice]; exact ha) _)
  refine ⟨_, hx, ?_, ?_, ?_, hmiss, hcount.trans ?_⟩
  · rw [hv]
  · rw [hv, reach_voice]
  · rw [hv, reach_voice]
  · rw [State.upped, reach_f, show 2 ^ (F.VOICE_TROUBLE_JUMP_MISS.hi + 1 - F.VOICE_TROUBLE_JUMP_MISS.lo) - 1 = 65535 from rfl]

end

end Sys2Proof.Machine
end

section
/-! PROOFS. Landings in an entry that is loaded, and jumps together (O21; R67, R104, R106). -/

namespace Sys2Proof.Machine

section
variable {s t : State} {v n : Nat} {j : Pending} {p : Int}

/-! ### What a landing is made of (R104) -/

/-- Voice v where its jump j lands at position p, once the item that the jump cuts has ended. -/
def State.atLanding (s : State) (v : Nat) (j : Pending) (p : Int) : State :=
  let s := (s.putTime F.VOICE_KERF_SEC_SEC F.VOICE_KERF_FRAC_FRAC (s.posTime v p) v).landRegs v j p
  let ended := (s.voice v).passEnds
  let s := ((s.endItem v).presentAt v p).modVoice v fun x => { x with kerfAt := none, starved := false }
  (if j.discard then s.discardQueue v else s.modVoice v fun x => { x with queue := showPass ended x.queue }).retireAt v

/-- The item in which jump j of voice v lands at position p. -/
def State.targetOf (s : State) (v : Nat) (j : Pending) (p : Int) : Item :=
  let e := s.jtEntry v j.entry
  let h := if j.mode = 2 then 0 else bits (s.rw .VOICE_JT v j.entry).toNat 47 32
  { kind := .target, seg := bits (s.rw .VOICE_JT v j.entry).toNat 15 0, words := e.words, kerf := h,
    start := p, first := p + h * 1024, len := segLen (wordOf e.words 0), refs := e.refs }

/-- Voice v begins item it from entry e of its jump table, whose first grain is in the jump buffer. -/
def State.beginLoaded (s : State) (v : Nat) (e : JtSt) (it : Item) : State :=
  let s := s.modVoice v fun x => { x with coveredNext := false, fetchedNext := false, lines := [] }
  ((s.addRefs e.refs).beginItem v it).modVoice v fun x =>
    { x with slots := if e.dram then [.here 0 e.data] else [], lines := if e.dram then [] else [(0, 0, e.data)], fetched := 1,
             taken := rekerf (s.voiceGrid v) it.stop x.taken }

/-- Voice v begins that item, and its first grain where that comes at once. -/
def State.beginTarget (s : State) (v n : Nat) (e : JtSt) (it : Item) : State :=
  if it.kerf = 0 then (s.beginLoaded v e it).beginGrain v n [] else s.beginLoaded v e it

/-- The landing goes on with what the voice shows once its target has begun. -/
def State.pastLanding (s : State) (v n : Nat) (p : Int) (x : Nat) : State :=
  ((((s.clearPending v).offerKerf v x).freeSlot v).refill v |>.showVoice v).sendLanes n p

theorem takeJump_eq (s : State) (v n : Nat) (j : Pending) (p : Int) : s.takeJump v n j p =
    ((s.atLanding v j p).beginTarget v n ((s.atLanding v j p).jtEntry v j.entry) ((s.atLanding v j p).targetOf v j p)).pastLanding v n p
      (s.posTime v p) := by
  rfl

/-! ### What the jump cuts (R67, R97) -/

/-- The queue of voice v holds q. -/
def State.setQueue (s : State) (v : Nat) (q : List QEntry) : State := s.modVoice v fun x => { x with queue := q }

theorem setQueue_jumping (h : t.jumping v = s.jumping v) (q : List QEntry) : (t.setQueue v q).jumping v = (s.setQueue v q).jumping v := by
  refine jumping_ext ?_ (congrArg (·.2.1) h) (congrFun (congrArg (·.2.2) h))
  simp only [State.setQueue, voice_modVoice_same, VoiceSt.jumps, armed_of_jumping h, pending_of_jumping h, jt_of_jumping h]

theorem setQueue_voice (s : State) (v : Nat) (q : List QEntry) : (s.setQueue v q).voice v = { s.voice v with queue := q } := by
  rw [State.setQueue, voice_modVoice_same]

/-- A change of voice v that keeps its jumps and leaves q as its queue. -/
theorem modVoice_jumping_setQueue {g : VoiceSt → VoiceSt} {q : List QEntry}
    (h : (g (s.voice v)).jumps = ({ s.voice v with queue := q } : VoiceSt).jumps) :
    (s.modVoice v g).jumping v = (s.setQueue v q).jumping v := by
  refine jumping_ext ?_ rfl fun _ => rfl
  rw [voice_modVoice_same, setQueue_voice, h]

theorem dropQueue_jumping (s : State) (v : Nat) : (s.dropQueue v fun _ => true).jumping v = (s.setQueue v []).jumping v := by
  have hkeep : ((s.voice v).keepOnly fun _ => !true).queue = [] := List.filter_false _
  rw [State.dropQueue, jumping_queueLow, jumping_foldl _ v fun t h => jumping_dropDesc t v h]
  exact modVoice_jumping_setQueue (by rw [VoiceSt.jumps, hkeep]; rfl)

theorem discardQueue_jumping (s : State) (v : Nat) : (s.discardQueue v).jumping v = (s.setQueue v []).jumping v := by
  rw [State.discardQueue, jumping_modVoice _ v (fun _ => by rfl), jumping_dropRefs, dropQueue_jumping]
  exact setQueue_jumping (jumping_modVoice s v (by exact fun _ => rfl) v) []

/-- A landing keeps the jumps of its voice until its target begins, and leaves its queue empty if the jump discards it. -/
theorem atLanding_jumping (hv : v < 64) (s : State) (j : Pending) (p : Int) : ∃ q,
    (s.atLanding v j p).jumping v = (s.setQueue v q).jumping v ∧ (j.discard = true → q = []) := by
  unfold State.atLanding
  extract_lets u ended w
  have hw : w.jumping v = s.jumping v := by
    unfold w u State.putTime
    rw [jumping_modVoice _ v (fun _ => by rfl), jumping_presentAt, jumping_endItem, jumping_landRegs _ hv, jumping_setF _ v (by decide) _ hv,
      jumping_setF _ v (by decide) _ hv]
  rw [jumping_retireAt]
  split
  · exact ⟨[], (discardQueue_jumping w v).trans (setQueue_jumping hw []), fun _ => rfl⟩
  · next hd =>
    exact ⟨_, (modVoice_jumping_setQueue rfl).trans (setQueue_jumping hw (showPass ended (w.voice v).queue)), fun h => absurd h hd⟩

/-! ### The target begins (R104) -/

section
variable (s : State) (e : JtSt) {it : Item}

theorem beginLoaded_item (v : Nat) (it : Item) : ((s.beginLoaded v e it).voice v).item = some it := by
  rw [State.beginLoaded, voice_modVoice_same]
  exact congrArg Prod.fst (beginItem_plan ..)

theorem beginTarget_item (hv : v < 64) (n : Nat) (hk : it.kind = .target) :
    ∃ k, ((s.beginTarget v n e it).voice v).item = some { it with next := k } := by
  have hit := beginLoaded_item s e v it
  unfold State.beginTarget
  split
  · have hp := beginGrain_playing (n := n) hv hit (.inr hk) []
    exact ⟨it.next + 1, (item_of_plan (plan_of_playing hp)).trans (congrArg Prod.fst (atGrain_plan ..))⟩
  · exact ⟨it.next, hit⟩

theorem beginTarget_jumping (hv : v < 64) (n : Nat) (hk : it.kind = .target) : (s.beginTarget v n e it).jumping v = s.jumping v := by
  have hloaded : (s.beginLoaded v e it).jumping v = s.jumping v := by
    rw [State.beginLoaded, jumping_modVoice _ v (fun _ => by rfl), jumping_beginItem _ hv, jumping_addRefs, jumping_modVoice _ v (fun _ => by rfl)]
  have hkind : ∀ i, ((s.beginLoaded v e it).voice v).item = some i → i.kind = .target := fun i hi => by
    rw [beginLoaded_item] at hi
    cases hi
    exact hk
  unfold State.beginTarget
  split
  · rw [jumping_beginGrain _ hv n hkind, hloaded]
  · exact hloaded

theorem pastLanding_jumping (hv : v < 64) (n : Nat) (p : Int) (x : Nat) : (s.pastLanding v n p x).jumping v = (s.clearPending v).jumping v := by
  rw [State.pastLanding, jumping_sendLanes, jumping_showVoice _ hv, jumping_refill _ hv, jumping_freeSlot _ hv, jumping_offerKerf]

theorem pastLanding_item (hv : v < 64) (n : Nat) (p : Int) (x : Nat) (h : ∀ i, (s.voice v).item = some i → i.kind ≠ .wait) :
    ((s.pastLanding v n p x).voice v).item = (s.voice v).item := by
  have hc : ((s.clearPending v).voice v).item = (s.voice v).item := by rw [clearPending_voice]
  have ho := offerKerf_playing (s := s.clearPending v) x fun i hi => h i (hc ▸ hi)
  refine (item_of_plan (plan_of_playing ?_)).trans hc
  rw [State.pastLanding, playing_sendLanes, playing_showVoice, playing_refill _ hv, playing_freeSlot _ hv, ho]

end

/-! ### The landing (R104) -/

theorem lt_of_bit {m e : Nat} (k : Nat) (hm : m < 2 ^ k) (h : bit m e = true) : e < k := by
  rw [bit_eq_testBit] at h
  exact (Nat.pow_lt_pow_iff_right (by decide)).1 (Nat.lt_of_le_of_lt (Nat.ge_two_pow_of_testBit h) hm)

theorem targetOf_congr (hjt : (t.voice v).jt = (s.voice v).jt) (hrw : t.rw .VOICE_JT v j.entry = s.rw .VOICE_JT v j.entry) :
    t.targetOf v j p = s.targetOf v j p := by
  rw [State.targetOf, State.jtEntry, hjt, hrw]
  rfl

/-- What a jump that lands in its loaded entry leaves. -/
theorem takeJump_lands (hv : v < 64) (s : State) (n : Nat) (p : Int) (he : j.entry < 16) : let t := s.takeJump v n j p
    (t.voice v).armed = (s.voice v).armed ∧ (t.voice v).pending = none ∧ t.on F.VOICE_JT_STAT_PEND v = false ∧
      (j.discard = true → (t.voice v).queue = []) ∧ ∃ k, (t.voice v).item = some { s.targetOf v j p with next := k } := by
  obtain ⟨q, hq, hdis⟩ := atLanding_jumping hv s j p
  have htarget : (s.atLanding v j p).targetOf v j p = s.targetOf v j p :=
    targetOf_congr ((jt_of_jumping hq).trans (by rw [setQueue_voice])) (entry_of_jumping hq he)
  rw [takeJump_eq, htarget]
  generalize s.atLanding v j p = u at hq
  have hb : (u.beginTarget v n (u.jtEntry v j.entry) (s.targetOf v j p)).jumping v = (s.setQueue v q).jumping v :=
    (beginTarget_jumping u _ hv n rfl).trans hq
  obtain ⟨k, hk⟩ := beginTarget_item u (u.jtEntry v j.entry) hv n (it := s.targetOf v j p) rfl
  generalize u.beginTarget v n _ _ = w at hb hk
  have hp := pastLanding_jumping w hv n p (s.posTime v p)
  have hitem := pastLanding_item w hv n p (s.posTime v p) fun i hi => by
    rw [hk] at hi
    cases hi
    exact ItemKind.noConfusion
  have hpend : ((w.pastLanding v n p (s.posTime v p)).on F.VOICE_JT_STAT_PEND v) = false := by
    rw [State.on, stat_of_jumping hp rfl]
    exact clearPending_pend w v
  refine ⟨?_, ?_, hpend, fun hd => ?_, k, hitem.trans hk⟩
  · rw [armed_of_jumping hp, clearPending_voice, armed_of_jumping hb, setQueue_voice]
  · rw [pending_of_jumping hp, clearPending_voice]
  · rw [queue_of_jumping hp, clearPending_voice, queue_of_jumping hb, setQueue_voice]
    exact hdis hd

theorem jump_taken {v : Fin 64} (hc : s.voiceChan v = some n) (hj : (s.voice v).pending = some j) (hl : j.land = some p)
    (ha : (s.voice v).armed = none) (hload : bit (s.f F.VOICE_JT_STAT_LOADED v) j.entry = true) :
    Gives (exec (.jumpLand v) s) fun t => (t.voice v).pending = none ∧ t.on F.VOICE_JT_STAT_PEND v = false ∧
      (j.discard = true → (t.voice v).queue = []) ∧
      ∃ it, (t.voice v).item = some it ∧ it.kind = .target ∧ it.start = p ∧ it.words = (s.jtEntry v j.entry).words ∧
        it.first = p + (if j.mode = 2 then 0 else bits (s.rw .VOICE_JT v j.entry).toNat 47 32) * 1024 := by
  have he : j.entry < 16 := lt_of_bit 16 (bits_lt (s.rw .VOICE_JT_STAT v).toNat 15 0) hload
  obtain ⟨harmed, hpend, hshown, hqueue, k, hitem⟩ := takeJump_lands v.isLt (s.reach (s.posTime v p)) n p he
  have hx : exec (.jumpLand v) s = .next ((s.reach (s.posTime v p)).takeJump v n j p) := by
    rw [jump_lands hc hj hl, State.landJump, reach_f, hload, if_pos rfl]
    exact congrArg _ (acceptNone_unarmed (by rw [harmed, reach_voice]; exact ha) _)
  have htarget : (s.reach (s.posTime v p)).targetOf v j p = s.targetOf v j p :=
    targetOf_congr (by rw [reach_voice]) (rw_congr (reach_regs ..) ..)
  rw [htarget] at hitem
  refine ⟨_, hx, hpend, hshown, hqueue, _, hitem, rfl, rfl, rfl, ?_⟩
  simp only [State.targetOf, Nat.cast_ite, Nat.cast_zero]

end

/-- Settles O21: an armed jump is put as the pending one, and the pending one lands in its loaded entry or is a miss. -/
theorem jumps : Obligations.Jumps := by
  intro v n a j r p s
  exact ⟨jump_seen, jump_none, jump_taken, jump_misses⟩

end Sys2Proof.Machine
end

section
/-! PROOFS. Writes that the bus admits, as statements about one register start from them (R9, R326, R331). -/

namespace Sys2Proof.Machine

section
variable {s t u : State} {q : Requester} {r : Reg} {i j : Nat} {w : Word}

/-- An admitted write does what its register makes of it, and beside it only the records of reserved fields. -/
theorem put_noted (e ecc : Ecc) (hm : Reg.ofOffset (r.addr i j) = some (r, i, j)) (ha : Admits s q r i j w) :
    Noted ((s.unshadowed q).act r i j (storedWord r.spec (s.rw r i j) w) w e ecc) (s.put q (r.addr i j) w e ecc) := by
  obtain ⟨hbound, hact, hc, hcore, hstop, -, hlow⟩ := ha
  rw [State.put, nextAccess_of_no_low hlow]
  exact busWrite_noted (s := s.unshadowed q) (c := none) e ecc ⟨hbound, hact, hm⟩ (by rw [unshadowed_checkWrite, hc]) hcore hstop

/-- The records of reserved fields leave every register above theirs. -/
theorem Noted.rw_above (h : Noted u t) (hr : 0x40 < r.addr i j) : t.rw r i j = u.rw r i j :=
  h.word _ (Nat.ne_of_gt (Nat.lt_trans (by decide) hr)) (Nat.ne_of_gt hr)

theorem Noted.f_above (h : Noted u t) (x : Fld) (hx : 0x40 < x.reg.addr i j) : t.f x i j = u.f x i j := by
  rw [State.f, h.rw_above hx]; rfl

theorem Noted.on_above (h : Noted u t) (x : Fld) (hx : 0x40 < x.reg.addr i j) : t.on x i j = u.on x i j :=
  congrArg (· != 0) (h.f_above x hx)

theorem Noted.buffer (h : Noted u t) (n : Nat) : t.buffer n = u.buffer n := by rw [State.buffer, h.recorded.buffers]; rfl

/-- Fields that a write stores read as written. -/
theorem bits_storedWord_taken {x : RegSpec} {hi lo : Nat} (hh : hi < 64)
    (ht : ∀ n : Fin 64, lo ≤ n.val → n.val ≤ hi → bit x.rwl n = true ∧ bit x.w1c n = false) (old w : Word) :
    bits (storedWord x old w).toNat hi lo = bits w.toNat hi lo := by
  refine Nat.eq_of_testBit_eq fun i => ?_
  simp only [bits, Nat.testBit_mod_two_pow, Nat.testBit_div_two_pow]
  by_cases hi' : i < hi + 1 - lo
  · have h64 : i + lo < 64 := by omega
    have hb := bit_storedWord x old w ⟨i + lo, h64⟩
    obtain ⟨hl, hc⟩ := ht ⟨i + lo, h64⟩ (by simp) (by simp; omega)
    simp only [hl, hc, bit_eq_testBit] at hb
    simp only [hi', decide_true, Bool.true_and]
    simpa using hb
  · simp [hi']

/-- A flag reads 1 once it is set. -/
theorem on_flag_same (s : State) {x : Fld} (hx : x.ok) (i j : Nat) : (s.flag x i j).on x i j = true := by
  have h1 : 1 < 2 ^ (x.hi + 1 - x.lo) := Nat.one_lt_two_pow (by have := hx.2; omega)
  rw [State.on, State.flag, f_setF_same _ _ _ _ _ hx, Nat.mod_eq_of_lt h1]
  rfl

end

end Sys2Proof.Machine
end

section
/-! PROOFS. The buffer commands of the host (O26; R72, R73, R123 to R125, R130). -/

namespace Sys2Proof.Machine

/-! ### The word of a command (R130) -/

/-- w with OP and GO of BUF_CMD set. -/
def bufWord (op : Nat) (w : Word) : Word := force (force w 57 56 op) 63 63 1

/-- ARG and REGION as the host writes them. -/
abbrev bufArg (w : Word) : Nat := bits w.toNat 31 0
abbrev bufRegion (w : Word) : Nat := bits w.toNat 33 32

theorem bufArg_mod (w : Word) : bufArg w % 2 ^ 32 = bufArg w := Nat.mod_eq_of_lt (bits_lt ..)

theorem toNat_bufWord (op : Nat) (w : Word) : (bufWord op w).toNat = setBits (setBits w.toNat 57 56 op) 63 63 1 := by
  rw [bufWord, toNat_force _ (by decide) (by decide), toNat_force _ (by decide) (by decide)]

theorem bufWord_go (op : Nat) (w : Word) : bit (bufWord op w).toNat 63 = true := by
  rw [toNat_bufWord, bit_eq_bits, bits_setBits_same]
  rfl

theorem bufWord_op (op : Nat) (w : Word) : bits (bufWord op w).toNat 57 56 = op % 4 := by
  rw [toNat_bufWord, bits_setBits_below _ _ (by decide), bits_setBits_same]
  rfl

theorem bufWord_below (op : Nat) (w : Word) {hi lo : Nat} (h : hi < 56) : bits (bufWord op w).toNat hi lo = bits w.toNat hi lo := by
  rw [toNat_bufWord, bits_setBits_below _ _ (by omega), bits_setBits_below _ _ h]

/-! ### What a command finds (R130) -/

/-- The machine in which command op of the host runs: BUF_CMD holds it with GO = 1, and no half of an access of q is held. -/
def State.commanded (s : State) (q : Requester) (op : Nat) (w : Word) : State :=
  ((s.unshadowed q).wrote .BUF_CMD 0 0 (bufWord op w)).flag F.BUF_CMD_GO

section
variable (s : State) (q : Requester) (op : Nat) (w : Word)

@[simp] theorem commanded_buffers : (s.commanded q op w).buffers = s.buffers := by
  rw [State.commanded, flag_buffers, State.wrote, setRw_buffers]; rfl
@[simp] theorem commanded_time : (s.commanded q op w).time = s.time := by
  rw [State.commanded, flag_time, State.wrote, setRw_time]; rfl
@[simp] theorem commanded_choice : (s.commanded q op w).choice = s.choice := by
  rw [State.commanded, flag_choice, State.wrote, setRw_choice]; rfl
@[simp] theorem commanded_now : (s.commanded q op w).now = s.now := by rw [State.now, commanded_time]; rfl
@[simp] theorem commanded_buffer (i : Nat) : (s.commanded q op w).buffer i = s.buffer i := by rw [State.buffer, commanded_buffers]; rfl
@[simp] theorem commanded_liveHandle (h : Nat) : (s.commanded q op w).liveHandle h = s.liveHandle h := by
  rw [State.liveHandle, commanded_buffer]; rfl

theorem commanded_f_ne {x : Fld} (h : x.reg.addr 0 0 ≠ Reg.BUF_CMD.addr 0 0) : (s.commanded q op w).f x = s.f x :=
  (f_setF_ne _ _ h).trans (f_setRw_ne (s.unshadowed q) _ h)

/-- The fields of the command below GO read as the host wrote them. -/
theorem commanded_f {hi lo : Nat} (h : hi < 63) : (s.commanded q op w).f ⟨.BUF_CMD, hi, lo⟩ = bits (bufWord op w).toNat hi lo := by
  have hs : ((s.unshadowed q).wrote .BUF_CMD 0 0 (bufWord op w)).rw .BUF_CMD =
      storedWord Reg.BUF_CMD.spec ((s.unshadowed q).rw .BUF_CMD) (bufWord op w) := rw_setRw_same ..
  have hl : ∀ n : Fin 64, n.val < 63 → bit Reg.BUF_CMD.spec.rwl n = true ∧ bit Reg.BUF_CMD.spec.w1c n = false := by decide
  have ha : (s.commanded q op w).f ⟨.BUF_CMD, hi, lo⟩ = ((s.unshadowed q).wrote .BUF_CMD 0 0 (bufWord op w)).f ⟨.BUF_CMD, hi, lo⟩ :=
    f_setF_disjoint _ (x := F.BUF_CMD_GO) _ (by constructor <;> decide) (.inr h)
  rw [ha, State.f, hs, bits_storedWord_taken (show hi < 64 by omega) fun n _ hn => hl n (Nat.lt_of_le_of_lt hn h)]

theorem commanded_op : (s.commanded q op w).f F.BUF_CMD_OP = op % 4 := (commanded_f s q op w (by decide)).trans (bufWord_op op w)
theorem commanded_region : (s.commanded q op w).f F.BUF_CMD_REGION = bufRegion w :=
  (commanded_f s q op w (by decide)).trans (bufWord_below op w (by decide))
theorem commanded_arg : (s.commanded q op w).f F.BUF_CMD_ARG = bufArg w :=
  (commanded_f s q op w (by decide)).trans (bufWord_below op w (by decide))

theorem commanded_poolBase (d : Bool) : (s.commanded q op w).poolBase d = s.poolBase d := by
  rw [State.poolBase, commanded_f_ne s q op w (by decide), commanded_f_ne s q op w (by decide)]
  rfl

theorem commanded_occupied (d : Bool) : (s.commanded q op w).occupied d = s.occupied d := by
  simp only [State.occupied, State.thisCycle, commanded_buffers, commanded_now]

theorem commanded_fits (d : Bool) : (s.commanded q op w).fits d = s.fits d := by
  have hd : (s.commanded q op w).dramBytes = s.dramBytes := by
    rw [State.dramBytes, commanded_f_ne s q op w (by decide)]
    rfl
  funext p n
  rw [State.fits, commanded_poolBase, State.poolEnd, hd, commanded_occupied]
  rfl

theorem commanded_placement (d : Bool) (n : Nat) : (s.commanded q op w).placement d n = s.placement d n := by
  rw [State.placement, State.firstFit, commanded_poolBase, commanded_occupied, commanded_fits, State.free, commanded_choice]
  rfl

theorem commanded_entryFor : (s.commanded q op w).entryFor = s.entryFor := by
  have he : (s.commanded q op w).entryFree = s.entryFree := funext fun i => by
    simp only [State.entryFree, State.thisCycle, commanded_buffer, commanded_now]
  rw [State.entryFor, he, commanded_choice]
  rfl

end

/-! ### Allocation (R72, R123) -/

section
variable {s t : State} {n : Nat} {hold : BufferSt → BufferSt}

/-- Whether an allocation finds room turns on the placements and the free entry alone. -/
theorem alloc_none_congr (region : Nat) (hp : ∀ d, t.placement d n = s.placement d n) (he : t.entryFor = s.entryFor) :
    t.alloc region n hold = none ↔ s.alloc region n hold = none := by
  have hi : ∀ d, t.allocIn d n hold = none ↔ s.allocIn d n hold = none := fun d => by
    rw [State.allocIn, State.allocIn, hp, he]
    cases s.placement d n <;> cases s.entryFor <;> simp
  unfold State.alloc
  split_ifs
  · exact hi false
  · exact hi true
  · have h0 := hi false
    cases hs : s.allocIn false n hold with
    | none => rw [h0.2 hs]; exact hi true
    | some r =>
      obtain ⟨x, hx⟩ := Option.ne_none_iff_exists'.1 (mt h0.1 (by rw [hs]; exact Option.some_ne_none r))
      rw [hx]
      exact iff_of_false (Option.some_ne_none x) (Option.some_ne_none r)

/-- An allocation changes one entry of the table. -/
theorem alloc_frame {region h : Nat} (ha : s.alloc region n hold = some (h, t)) : ∃ i, ∀ j, j ≠ i → t.buffer j = s.buffer j := by
  have hi : ∀ {d}, s.allocIn d n hold = some (h, t) → ∃ i, ∀ j, j ≠ i → t.buffer j = s.buffer j := fun {d} ha => by
    unfold State.allocIn at ha
    split at ha
    · next p i _ _ => cases ha; exact ⟨i, fun j hj => buffer_modBuffer_ne _ _ hj⟩
    · cases ha
  unfold State.alloc at ha
  split at ha
  · exact hi ha
  split at ha
  · exact hi ha
  split at ha
  · next he => cases ha; exact hi he
  · exact hi ha

end

/-! ### The answer (R73, R130) -/

/-- BUF_RES holds a status and a handle, and GO reads 0. -/
def HostAnswer (t : State) (status handle : Nat) : Prop :=
  t.on F.BUF_CMD_GO = false ∧ t.f F.BUF_RES_STATUS = status ∧ t.f F.BUF_RES_HANDLE = handle

/-- The result of a command is put into BUF_RES, and GO cleared. -/
def State.answered (s : State) (status h : Nat) : State :=
  ((s.setF F.BUF_RES_STATUS status).setF F.BUF_RES_HANDLE h).clr F.BUF_CMD_GO

theorem answered_rw_ne (s : State) (status h : Nat) {r : Reg} (hc : r.addr 0 0 ≠ Reg.BUF_CMD.addr 0 0) (hr : r.addr 0 0 ≠ Reg.BUF_RES.addr 0 0) :
    (s.answered status h).rw r = s.rw r :=
  (rw_setRw_ne _ _ hc).trans ((rw_setRw_ne _ _ hr).trans (rw_setRw_ne _ _ hr))

@[simp] theorem answered_buffers (s : State) (status h : Nat) : (s.answered status h).buffers = s.buffers := by
  rw [State.answered, clr_buffers, setF_buffers, setF_buffers]

theorem answered_answer (s : State) {status : Nat} (h : Nat) (hs : status < 256) : HostAnswer (s.answered status h) status (h % 2 ^ 32) := by
  have hclr : ∀ x : Fld, x.reg = .BUF_RES → (s.answered status h).f x = ((s.setF F.BUF_RES_STATUS status).setF F.BUF_RES_HANDLE h).f x :=
    fun x hx => f_setF_ne _ _ (by rw [hx]; decide)
  refine ⟨?_, ?_, ?_⟩
  · rw [State.on, State.answered, State.clr, f_setF_same _ _ _ _ _ (by constructor <;> decide)]
    rfl
  · rw [hclr _ rfl, f_setF_disjoint _ (x := F.BUF_RES_HANDLE) _ (by constructor <;> decide) (.inl (by decide)),
      f_setF_same _ _ _ _ _ (by constructor <;> decide)]
    exact Nat.mod_eq_of_lt hs
  · rw [hclr _ rfl, f_setF_same _ _ _ _ _ (by constructor <;> decide)]
    rfl

theorem Noted.hostAnswer {u t : State} (h : Noted u t) {status handle : Nat} (hu : HostAnswer u status handle) : HostAnswer t status handle := by
  obtain ⟨hgo, hstatus, hhandle⟩ := hu
  exact ⟨(h.on_above F.BUF_CMD_GO (by decide)).trans hgo, (h.f_above F.BUF_RES_STATUS (by decide)).trans hstatus,
    (h.f_above F.BUF_RES_HANDLE (by decide)).trans hhandle⟩

/-- What a command leaves beside its answer: the buffers, and BUF_INFO and BUF_ADDR, as u has them. -/
structure LeftBy (u t : State) : Prop where
  buffers : t.buffers = u.buffers
  rw : ∀ r, r = .BUF_INFO ∨ r = .BUF_ADDR → t.rw r = u.rw r

theorem LeftBy.buffer {u t : State} (h : LeftBy u t) (i : Nat) : t.buffer i = u.buffer i := by rw [State.buffer, h.buffers]; rfl
theorem LeftBy.f {u t : State} (h : LeftBy u t) (x : Fld) (hx : x.reg = .BUF_INFO ∨ x.reg = .BUF_ADDR) : t.f x = u.f x := by
  rw [State.f, h.rw _ hx]; rfl

section
variable {s u : State} {q : Requester} {op : Nat} {w : Word} {status h h' : Nat} (ha : Admits s q .BUF_CMD 0 0 (bufWord op w))
  (hc : (s.commanded q op w).bufCommand = u.answered status h) (hs : status < 256) (hh : h % 2 ^ 32 = h')
include ha hc hs hh

/-- An admitted command of the host gives its answer, and leaves what its operation on buffers leaves. -/
theorem hostBuf_answers : Gives (s.hostBuf q op w) fun t => HostAnswer t status h' ∧ LeftBy u t := by
  have hn := put_noted .clean .clean (by decide) ha
  have hact : (s.unshadowed q).act .BUF_CMD 0 0 (storedWord Reg.BUF_CMD.spec (s.rw .BUF_CMD) (bufWord op w)) (bufWord op w) .clean .clean =
      u.answered status h := by
    rw [← hc]
    exact if_pos (bufWord_go op w)
  rw [hact] at hn
  refine ⟨_, rfl, hn.hostAnswer (hh ▸ answered_answer u h hs), hn.recorded.buffers.trans (answered_buffers ..), fun r hr => ?_⟩
  obtain ⟨hlow, hcmd, hres⟩ : 0x40 < r.addr 0 0 ∧ r.addr 0 0 ≠ Reg.BUF_CMD.addr 0 0 ∧ r.addr 0 0 ≠ Reg.BUF_RES.addr 0 0 := by
    rcases hr with rfl | rfl <;> decide
  exact (hn.rw_above hlow).trans (answered_rw_ne u status h hcmd hres)

/-- A command that changes no buffer. -/
theorem hostBuf_answers_only (hb : u.buffers = s.buffers) : Gives (s.hostBuf q op w) fun t => HostAnswer t status h' ∧ t.buffers = s.buffers := by
  obtain ⟨t, hx, ht, hl⟩ := hostBuf_answers ha hc hs hh
  exact ⟨t, hx, ht, hl.buffers.trans hb⟩

end

/-! ### What each operation makes of its handle (R72, R125, R130) -/

/-- What QUERY puts into BUF_INFO and BUF_ADDR of buffer b. -/
def State.queried (s : State) (b : BufferSt) : State :=
  let t := (((s.setF F.BUF_INFO_HOLDS (b.host + b.progs.length + b.descs)).setF F.BUF_INFO_REFS b.refs).setF
    F.BUF_INFO_STATE (if b.life = .live then 1 else 2)).setF F.BUF_INFO_SIZE4K b.pages
  (t.setF F.BUF_ADDR_REGION b.dram.toNat).setF F.BUF_ADDR_ADDR (b.page * 4096)

/-- A hold of the host on buffer i ends. -/
def State.hostFreed (s : State) (i : Nat) : State := (s.modBuffer i fun b => { b with host := b.host - 1 }).settle i none

/-- The host holds buffer i once more. -/
def State.hostAttached (s : State) (i : Nat) : State := s.modBuffer i fun b => { b with host := b.host + 1, life := .live, after := none }

section
variable {u : State}

theorem bufCommand_free (h : u.f F.BUF_CMD_OP = 1) : u.bufCommand =
    if u.liveHandle (u.f F.BUF_CMD_ARG) ∧ 0 < (u.buffer (indexOf (u.f F.BUF_CMD_ARG))).host
    then (u.hostFreed (indexOf (u.f F.BUF_CMD_ARG))).answered 0 (u.f F.BUF_CMD_ARG) else u.answered 6 (u.f F.BUF_CMD_ARG) := by
  rw [State.bufCommand, h]
  rfl

theorem bufCommand_attach (h : u.f F.BUF_CMD_OP = 2) : u.bufCommand =
    if u.liveHandle (u.f F.BUF_CMD_ARG) then (u.hostAttached (indexOf (u.f F.BUF_CMD_ARG))).answered 0 (u.f F.BUF_CMD_ARG)
    else u.answered 3 (u.f F.BUF_CMD_ARG) := by
  rw [State.bufCommand, h]
  rfl

theorem bufCommand_query (h : u.f F.BUF_CMD_OP = 3) : u.bufCommand =
    if u.liveHandle (u.f F.BUF_CMD_ARG) then (u.queried (u.buffer (indexOf (u.f F.BUF_CMD_ARG)))).answered 0 (u.f F.BUF_CMD_ARG)
    else ((u.setRw .BUF_INFO 0).setRw .BUF_ADDR 0).answered 0 (u.f F.BUF_CMD_ARG) := by
  rw [State.bufCommand, h]
  rfl

theorem hostFreed_buffer (i : Nat) : (u.hostFreed i).buffer i =
    let x : BufferSt := { u.buffer i with host := (u.buffer i).host - 1 }
    if (u.buffer i).life = .live ∧ x.idle = true then x.retire u.now else x := by
  rw [State.hostFreed, State.settle, buffer_modBuffer_same]
  dsimp only
  split
  · rw [buffer_modBuffer_same, buffer_modBuffer_same]
    rfl
  · rw [buffer_modBuffer_same]

end

/-! ### Each command (R72, R123 to R125, R130) -/

section
variable {s : State} {q : Requester} {w : Word}

theorem hostBuf_alloc_reserved (ha : Admits s q .BUF_CMD 0 0 (bufWord 0 w)) (hr : bufRegion w = 3) :
    Gives (s.hostBuf q 0 w) fun t => HostAnswer t 8 0 ∧ t.buffers = s.buffers := by
  have hc : (s.commanded q 0 w).bufCommand = (s.commanded q 0 w).answered 8 0 := by
    rw [State.bufCommand, commanded_op, commanded_region, if_pos hr]
    rfl
  exact hostBuf_answers_only ha hc (by decide) rfl (commanded_buffers ..)

theorem hostBuf_alloc_badSize (ha : Admits s q .BUF_CMD 0 0 (bufWord 0 w)) (hr : bufRegion w ≠ 3)
    (hn : bufArg w = 0 ∨ 262144 < bufArg w) :
    Gives (s.hostBuf q 0 w) fun t => HostAnswer t 4 0 ∧ t.buffers = s.buffers := by
  have hc : (s.commanded q 0 w).bufCommand = (s.commanded q 0 w).answered 4 0 := by
    rw [State.bufCommand, commanded_op, commanded_region, commanded_arg, if_neg hr, if_pos hn]
    rfl
  exact hostBuf_answers_only ha hc (by decide) rfl (commanded_buffers ..)

section
variable (ha : Admits s q .BUF_CMD 0 0 (bufWord 0 w)) (hr : bufRegion w ≠ 3) (h0 : 0 < bufArg w)
  (hn : bufArg w ≤ 262144)
include ha hr h0 hn

theorem hostBuf_alloc_noSpace (hs : s.alloc (bufRegion w) (bufArg w) (fun x => { x with host := 1 }) = none) :
    Gives (s.hostBuf q 0 w) fun t => HostAnswer t 1 0 ∧ t.buffers = s.buffers := by
  have hs := (alloc_none_congr _ (fun d => commanded_placement s q 0 w d _) (commanded_entryFor s q 0 w)).2 hs
  have hc : (s.commanded q 0 w).bufCommand = (s.commanded q 0 w).drawn.drawn.answered 1 0 := by
    rw [State.bufCommand, commanded_op, commanded_region, commanded_arg, if_neg hr, if_neg (by omega), hs]
    rfl
  exact hostBuf_answers_only ha hc (by decide) rfl (by rw [drawn_buffers, drawn_buffers, commanded_buffers])

theorem hostBuf_alloc_room (hs : s.alloc (bufRegion w) (bufArg w) (fun x => { x with host := 1 }) ≠ none) :
    Gives (s.hostBuf q 0 w) fun t => ∃ (i : Nat) (x : BufferSt), HostAnswer t 0 (handleOf i x % 2 ^ 32) ∧ t.buffer i = x ∧
      (s.buffer i).life = .free ∧ x.life = .live ∧ x.host = 1 ∧ x.pages = bufArg w ∧
      s.fits x.dram x.page (bufArg w) = true ∧ (bufRegion w = 0 → x.dram = false) ∧
      (bufRegion w = 1 → x.dram = true) ∧ ∀ j, j ≠ i → t.buffer j = s.buffer j := by
  have hs := mt (alloc_none_congr _ (fun d => commanded_placement s q 0 w d _) (commanded_entryFor s q 0 w)).1 hs
  obtain ⟨⟨h, u⟩, he⟩ := Option.ne_none_iff_exists'.1 hs
  have hc : (s.commanded q 0 w).bufCommand = u.answered 0 h := by
    rw [State.bufCommand, commanded_op, commanded_region, commanded_arg, if_neg hr, if_neg (by omega), he]
    rfl
  obtain ⟨t, hx, ht, hl⟩ := hostBuf_answers ha hc (by decide) rfl
  obtain ⟨d, i, p, hd0, hd1, hfit, hfree, hh, hb⟩ := alloc_newBuffer he
  obtain ⟨i', hframe⟩ := alloc_frame he
  have hi : i' = i := by
    by_contra hne
    have := congrArg BufferSt.life ((hframe i (Ne.symm hne)).symm.trans hb)
    rw [hfree] at this
    cases this
  subst hi
  refine ⟨t, hx, i', u.buffer i', hh ▸ ht, hl.buffer i', ?_, ?_⟩
  · rwa [commanded_buffer] at hfree
  · rw [commanded_fits] at hfit
    rw [hb]
    exact ⟨rfl, rfl, rfl, hfit, hd0, hd1, fun j hj => (hl.buffer j).trans ((hframe j hj).trans (commanded_buffer ..))⟩

end

theorem hostBuf_free_held (ha : Admits s q .BUF_CMD 0 0 (bufWord 1 w)) (hl : s.liveHandle (bufArg w) = true)
    (hh : 0 < (s.buffer (indexOf (bufArg w))).host) :
    Gives (s.hostBuf q 1 w) fun t => HostAnswer t 0 (bufArg w) ∧
      t.buffer (indexOf (bufArg w)) = (let b := s.buffer (indexOf (bufArg w)); let x : BufferSt := { b with host := b.host - 1 }
        if b.life = .live ∧ x.idle = true then x.retire s.now else x) := by
  have hc : (s.commanded q 1 w).bufCommand =
      ((s.commanded q 1 w).hostFreed (indexOf (bufArg w))).answered 0 (bufArg w) := by
    rw [bufCommand_free (commanded_op ..), commanded_arg, commanded_liveHandle, commanded_buffer, if_pos ⟨hl, hh⟩]
  obtain ⟨t, hx, ht, hb⟩ := hostBuf_answers ha hc (by decide) (bufArg_mod w)
  exact ⟨t, hx, ht, (hb.buffer _).trans ((hostFreed_buffer _).trans (by rw [commanded_buffer, commanded_now]))⟩

theorem hostBuf_free_notHeld (ha : Admits s q .BUF_CMD 0 0 (bufWord 1 w))
    (hn : s.liveHandle (bufArg w) = false ∨ (s.buffer (indexOf (bufArg w))).host = 0) :
    Gives (s.hostBuf q 1 w) fun t => HostAnswer t 6 (bufArg w) ∧ t.buffers = s.buffers := by
  have hn : ¬ (s.liveHandle (bufArg w) = true ∧ 0 < (s.buffer (indexOf (bufArg w))).host) := by
    rintro ⟨hl, hh⟩
    rcases hn with hn | hn
    · rw [hl] at hn; cases hn
    · omega
  have hc : (s.commanded q 1 w).bufCommand = (s.commanded q 1 w).answered 6 (bufArg w) := by
    rw [bufCommand_free (commanded_op ..), commanded_arg, commanded_liveHandle, commanded_buffer, if_neg hn]
  exact hostBuf_answers_only ha hc (by decide) (bufArg_mod w) (commanded_buffers ..)

theorem hostBuf_attach_live (ha : Admits s q .BUF_CMD 0 0 (bufWord 2 w)) (hl : s.liveHandle (bufArg w) = true) :
    Gives (s.hostBuf q 2 w) fun t => HostAnswer t 0 (bufArg w) ∧
      t.buffer (indexOf (bufArg w)) = { s.buffer (indexOf (bufArg w)) with
        host := (s.buffer (indexOf (bufArg w))).host + 1, life := .live, after := none } := by
  have hc : (s.commanded q 2 w).bufCommand =
      ((s.commanded q 2 w).hostAttached (indexOf (bufArg w))).answered 0 (bufArg w) := by
    rw [bufCommand_attach (commanded_op ..), commanded_arg, commanded_liveHandle, if_pos hl]
  obtain ⟨t, hx, ht, hb⟩ := hostBuf_answers ha hc (by decide) (bufArg_mod w)
  exact ⟨t, hx, ht, (hb.buffer _).trans (by rw [State.hostAttached, buffer_modBuffer_same, commanded_buffer])⟩

theorem hostBuf_attach_dead (ha : Admits s q .BUF_CMD 0 0 (bufWord 2 w)) (hl : s.liveHandle (bufArg w) = false) :
    Gives (s.hostBuf q 2 w) fun t => HostAnswer t 3 (bufArg w) ∧ t.buffers = s.buffers := by
  have hc : (s.commanded q 2 w).bufCommand = (s.commanded q 2 w).answered 3 (bufArg w) := by
    rw [bufCommand_attach (commanded_op ..), commanded_arg, commanded_liveHandle, if_neg (by rw [hl]; decide)]
  exact hostBuf_answers_only ha hc (by decide) (bufArg_mod w) (commanded_buffers ..)

theorem queried_state (s : State) (b : BufferSt) : (s.queried b).f F.BUF_INFO_STATE = if b.life = .live then 1 else 2 := by
  rw [State.queried, f_setF_ne _ _ (by decide), f_setF_ne _ _ (by decide),
    f_setF_disjoint _ (x := F.BUF_INFO_SIZE4K) _ (by constructor <;> decide) (.inl (by decide)),
    f_setF_same _ _ _ _ _ (by constructor <;> decide)]
  split <;> rfl

theorem queried_refs (s : State) (b : BufferSt) : (s.queried b).f F.BUF_INFO_REFS = b.refs % 2 ^ 16 := by
  rw [State.queried, f_setF_ne _ _ (by decide), f_setF_ne _ _ (by decide),
    f_setF_disjoint _ (x := F.BUF_INFO_SIZE4K) _ (by constructor <;> decide) (.inl (by decide)),
    f_setF_disjoint _ (x := F.BUF_INFO_STATE) _ (by constructor <;> decide) (.inl (by decide)),
    f_setF_same _ _ _ _ _ (by constructor <;> decide)]
  rfl

theorem queried_region (s : State) (b : BufferSt) : (s.queried b).f F.BUF_ADDR_REGION = b.dram.toNat := by
  rw [State.queried, f_setF_disjoint _ (x := F.BUF_ADDR_ADDR) _ (by constructor <;> decide) (.inl (by decide)),
    f_setF_same _ _ _ _ _ (by constructor <;> decide)]
  cases b.dram <;> rfl

theorem hostBuf_query_live (ha : Admits s q .BUF_CMD 0 0 (bufWord 3 w)) (hl : s.liveHandle (bufArg w) = true) :
    Gives (s.hostBuf q 3 w) fun t => HostAnswer t 0 (bufArg w) ∧ t.buffers = s.buffers ∧
      t.f F.BUF_INFO_STATE = (if (s.buffer (indexOf (bufArg w))).life = .live then 1 else 2) ∧
      t.f F.BUF_INFO_REFS = (s.buffer (indexOf (bufArg w))).refs % 2 ^ 16 ∧
      t.f F.BUF_ADDR_REGION = (s.buffer (indexOf (bufArg w))).dram.toNat := by
  have hc : (s.commanded q 3 w).bufCommand =
      ((s.commanded q 3 w).queried (s.buffer (indexOf (bufArg w)))).answered 0 (bufArg w) := by
    rw [bufCommand_query (commanded_op ..), commanded_arg, commanded_liveHandle, commanded_buffer, if_pos hl]
  obtain ⟨t, hx, ht, hb⟩ := hostBuf_answers ha hc (by decide) (bufArg_mod w)
  refine ⟨t, hx, ht, hb.buffers.trans ?_, (hb.f _ (.inl rfl)).trans (queried_state ..), (hb.f _ (.inl rfl)).trans (queried_refs ..),
    (hb.f _ (.inr rfl)).trans (queried_region ..)⟩
  rw [State.queried, setF_buffers, setF_buffers, setF_buffers, setF_buffers, setF_buffers, setF_buffers, commanded_buffers]

theorem hostBuf_query_dead (ha : Admits s q .BUF_CMD 0 0 (bufWord 3 w)) (hl : s.liveHandle (bufArg w) = false) :
    Gives (s.hostBuf q 3 w) fun t => HostAnswer t 0 (bufArg w) ∧ t.rw .BUF_INFO = 0 ∧ t.rw .BUF_ADDR = 0 := by
  have hc : (s.commanded q 3 w).bufCommand =
      (((s.commanded q 3 w).setRw .BUF_INFO 0).setRw .BUF_ADDR 0).answered 0 (bufArg w) := by
    rw [bufCommand_query (commanded_op ..), commanded_arg, commanded_liveHandle, if_neg (by rw [hl]; decide)]
  obtain ⟨t, hx, ht, hb⟩ := hostBuf_answers ha hc (by decide) (bufArg_mod w)
  exact ⟨t, hx, ht, (hb.rw _ (.inl rfl)).trans ((rw_setRw_ne _ _ (by decide)).trans (rw_setRw_same ..)),
    (hb.rw _ (.inr rfl)).trans (rw_setRw_same ..)⟩

end

/-- Settles O26: each command by its own rule, and its answer in BUF_RES. -/
theorem hostBuffers : Obligations.HostBuffers := by
  intro q w s
  exact ⟨fun ha => ⟨hostBuf_alloc_reserved ha, hostBuf_alloc_badSize ha, hostBuf_alloc_noSpace ha, hostBuf_alloc_room ha⟩,
    fun ha => ⟨hostBuf_free_held ha, hostBuf_free_notHeld ha⟩, fun ha => ⟨hostBuf_attach_live ha, hostBuf_attach_dead ha⟩,
    fun ha => ⟨hostBuf_query_live ha, hostBuf_query_dead ha⟩⟩

end Sys2Proof.Machine
end

section
/-! PROOFS. Stream blocks at their check instants (O25; R119 to R121). -/

namespace Sys2Proof.Machine

/-! ### What missing and present samples leave of the streams (R115) -/

/-- What the samples of voice v leave alone: the rings and the bindings, and how its own stream stands. -/
def State.streaming (s : State) (v : Nat) : StreamView × StreamPlay := (s.streams, (s.voice v).stream)

section
variable (s : State) (v : Nat)

theorem streaming_modVoice {g : VoiceSt → VoiceSt} (h : ∀ x, (g x).stream = x.stream) (u : Nat) :
    (s.modVoice u g).streaming v = s.streaming v := Prod.ext rfl (modVoice_keeps s VoiceSt.stream h u v)

theorem streaming_setF (x : Fld) (k i : Nat) (h : apartFromStreams (x.reg.addr i 0)) : (s.setF x k i).streaming v = s.streaming v :=
  Prod.ext (streams_setF s x k i 0 h) rfl

/-- The counts of refill lie above the registers of the bindings. -/
theorem streaming_refillCount {x : Fld} (hx : x.reg = .REFILL_STAT) (k i : Nat) : (s.bumpBy x k i).streaming v = s.streaming v :=
  streaming_setF s v x _ i (.inr (by rw [hx]; simp [Reg.addr, Reg.spec]; omega))

theorem streaming_trouble (x : Trouble) : (s.trouble x).streaming v = s.streaming v :=
  Prod.ext (streams_trouble s x) (congrArg VoiceSt.stream (trouble_voice s x v))

theorem streaming_fire (src x : Nat) : (s.fire src x).streaming v = s.streaming v := by
  unfold State.fire
  split <;> rfl

theorem streaming_missSamples (u : Nat) (p : Int) (n : Nat) : (s.missSamples u p n).streaming v = s.streaming v := by
  have hb : (s.bumpBy F.REFILL_STAT_MISS_BLK (n / 64) u).streaming v = s.streaming v := streaming_refillCount s v rfl ..
  unfold State.missSamples
  extract_lets t d fresh
  change t.streaming v = _ at hb
  have hf : (fresh t).streaming v = s.streaming v := by
    unfold fresh
    rw [streaming_modVoice _ v (fun _ => by rfl), streaming_fire, streaming_trouble, State.bump, streaming_refillCount _ v rfl, hb]
  split
  · exact hb
  · split
    · exact (streaming_modVoice t v (by exact fun _ => rfl) u).trans hb
    · exact hf
  · exact hf

theorem streaming_missStream (u : Nat) (x y : Int) : (s.missStream u x y).streaming v = s.streaming v := streaming_missSamples ..

theorem streaming_presentAt (u : Nat) (p : Int) : (s.presentAt u p).streaming v = s.streaming v := by
  unfold State.presentAt State.presentSamples
  split
  · exact streaming_modVoice s v (by exact fun _ => rfl) u
  · rfl

end

theorem streams_of_streaming {s t : State} {v : Nat} (h : t.streaming v = s.streaming v) : t.streams = s.streams := congrArg Prod.fst h
theorem stream_of_streaming {s t : State} {v : Nat} (h : t.streaming v = s.streaming v) : (t.voice v).stream = (s.voice v).stream :=
  congrArg Prod.snd h
theorem time_of_streams {s t : State} (h : t.streams = s.streams) : t.time = s.time := congrArg StreamView.time h

/-- The registers of a binding are different ones. -/
theorem addr_stream_ne {r r' : Reg} (hr : r ∈ streamRegs) (hr' : r' ∈ streamRegs) (h : r ≠ r') {b : Nat} (hb : b < 64) :
    r.addr b 0 ≠ r'.addr b 0 := by
  have hall : ∀ b : Fin 64, ∀ r ∈ streamRegs, ∀ r' ∈ streamRegs, r ≠ r' → r.addr b 0 ≠ r'.addr b 0 := by decide
  exact hall ⟨b, hb⟩ r hr r' hr' h

theorem modStream_stream (s : State) (v : Nat) (g : StreamPlay → StreamPlay) :
    ((s.modStream v g).voice v).stream = g (s.voice v).stream := by
  rw [State.modStream, voice_modVoice_same]

/-! ### A block that plays (R119, R120) -/

section
variable {s : State} {v b n : Nat} {pos : Int} {seq : Nat}

/-- From s to t, block pos of voice v's stream, of binding b, played what lies at addr, at DTIME of s. -/
structure BlockPlayed (s t : State) (v b : Nat) (pos : Int) (addr : Nat) : Prop where
  time : t.time = s.time
  running : t.f F.STM_STAT_STATE b = 2
  gap : (t.voice v).stream.gap = none
  decided : (t.voice v).stream.decided.head? = some (pos, some (addr, s.copyOf [(s.ringDram b, addr, 64 * s.stmBytes b)]))

theorem playBlock_plays (addr : Nat) (last : Bool) {found : Nat} (h : s.poisoned (s.ringDram b) found = false) :
    BlockPlayed s (s.playBlock v b pos addr last .clean found) v b pos addr := by
  unfold State.playBlock
  rw [fetchSpans_clean _ h]
  dsimp only
  refine ⟨?_, ?_, ?_, ?_⟩
  · rw [State.modStream, modVoice_time, setF_time]
    exact time_of_streams (streams_of_streaming (streaming_presentAt s v v (pos * 1024)))
  · rw [State.modStream, modVoice_f]
    exact f_setF_same _ _ _ _ _ (by constructor <;> decide)
  · rw [modStream_stream]
    split <;> rfl
  · rw [modStream_stream]
    split <;> rfl

/-! ### A block that is missing (R120, R121) -/

/-- The count of a gap that begins with packet seq: no voice that plays the binding counts it twice. -/
def State.gapCounted (s : State) (v b seq : Nat) : State :=
  if (s.voice v).stream.gap.isSome ∨ s.gapShared v b seq then s else (s.bump F.STM_CNT_GAPS b).setF F.STM_STAT_STATE 3 b

/-- Voice v's stream once block pos, up to stop, is missing. -/
def StreamPlay.missed (x : StreamPlay) (pos stop : Int) (seq : Nat) : StreamPlay :=
  { (x.advance pos stop none) with
    gap := some (x.gap.getD seq), resumed := x.resumed && x.placed.head?.any fun p => decide (pos < p.first) }

theorem gapCounted_voice (u : Nat) : (s.gapCounted v b seq).voice u = s.voice u := by
  unfold State.gapCounted
  split
  · rfl
  · rw [setF_voice, State.bump, State.bumpBy, setF_voice]

theorem gapCounted_time : (s.gapCounted v b seq).time = s.time := by
  unfold State.gapCounted
  split
  · rfl
  · rw [setF_time, bump_time]

theorem gapCounted_policy (hb : b < 64) : (s.gapCounted v b seq).f F.STM_CFG_POLICY b = s.f F.STM_CFG_POLICY b := by
  unfold State.gapCounted
  split
  · rfl
  · rw [f_setF_ne _ _ (addr_stream_ne (by decide) (by decide) (by decide) hb), State.bump, State.bumpBy,
      f_setF_ne _ _ (addr_stream_ne (by decide) (by decide) (by decide) hb)]

/-- Under POLICY 0 and 1 a missing block is counted and passed over. -/
theorem missBlock_passes (hb : b < 64) (hp : s.f F.STM_CFG_POLICY b ≠ 2) (it : Item) (e : SnapshotRead) :
    s.missBlock v n b it pos seq e = ((s.gapCounted v b seq).missStream v pos ((s.voice v).stream.blockEnd pos)).modStream v
      (·.missed pos ((s.voice v).stream.blockEnd pos) seq) :=
  if_neg fun h => hp ((gapCounted_policy hb).symm.trans h.2)

/-- From s to t, block pos of voice v's stream was found missing, in a gap that begins with packet seq, at DTIME of s. -/
structure BlockMissed (s t : State) (v : Nat) (pos : Int) (seq : Nat) : Prop where
  time : t.time = s.time
  gap : (t.voice v).stream.gap = some seq
  decided : (t.voice v).stream.decided.head? = some (pos, none)

theorem missBlock_misses (hb : b < 64) (hp : s.f F.STM_CFG_POLICY b ≠ 2) (hg : (s.voice v).stream.gap = none) (it : Item) (e : SnapshotRead) :
    BlockMissed s (s.missBlock v n b it pos seq e) v pos seq := by
  have hm := streaming_missStream (s.gapCounted v b seq) v v pos ((s.voice v).stream.blockEnd pos)
  have hs := stream_of_streaming hm
  rw [gapCounted_voice] at hs
  rw [missBlock_passes hb hp]
  refine ⟨?_, ?_, ?_⟩
  · rw [State.modStream, modVoice_time, time_of_streams (streams_of_streaming hm), gapCounted_time]
  · rw [modStream_stream, hs, StreamPlay.missed, hg]
    rfl
  · rw [modStream_stream]
    rfl

/-- The binding's own registers, when a block is missing, change by the count of the gap alone. -/
theorem missBlock_f (hb : b < 64) (hp : s.f F.STM_CFG_POLICY b ≠ 2) (it : Item) (e : SnapshotRead) (x : Fld) (hx : x.reg ∈ streamRegs) :
    (s.missBlock v n b it pos seq e).f x b = (s.gapCounted v b seq).f x b := by
  rw [missBlock_passes hb hp, State.modStream, modVoice_f]
  exact f_streams (streams_of_streaming (streaming_missStream _ v ..)) hb x hx

/-- A gap that no other voice of the binding is in counts once, and the binding reads GAP. -/
theorem gapCounted_alone (hb : b < 64) (hg : (s.voice v).stream.gap = none) (hs : s.gapShared v b seq = false) :
    (s.gapCounted v b seq).f F.STM_STAT_STATE b = 3 ∧ (s.gapCounted v b seq).f F.STM_CNT_GAPS b = s.upped F.STM_CNT_GAPS b := by
  rw [State.gapCounted, if_neg (by simp [hg, hs])]
  exact ⟨f_setF_same _ _ _ _ _ (by constructor <;> decide),
    (f_setF_ne _ _ (addr_stream_ne (by decide) (by decide) (by decide) hb)).trans (f_bump_same _ _ _ _ (by constructor <;> decide))⟩

/-! ### STREAM_BLOCK_CHECK (R119 to R121) -/

/-- SEQ of the packet of binding b that has block pos, by a placement. -/
def State.blockSeq (s : State) (b : Nat) (pl : Placement) (pos : Int) : Nat :=
  wrap 32 (pl.seq + (pos - pl.begin_) / (max 1 (s.stmSamples b) : Nat))

/-- Byte address of block pos of binding b, by a placement. -/
def State.blockAddr (s : State) (b : Nat) (pl : Placement) (pos : Int) : Nat :=
  s.slotAddr b (s.blockSeq b pl pos) + 32 + ((pos - pl.begin_) % (max 1 (s.stmSamples b) : Nat)).toNat * s.stmBytes b

/-- The DTIME at which block pos of binding b is checked on channel n. -/
def State.blockCheck (s : State) (n b : Nat) (pos : Int) : Nat := ((s.chan n).grid.voiceAt (pos - s.stmLead b)).toNat

/-- Reaching an instant changes DTIME and the fabric alone. -/
theorem reach_only (s : State) (x : Nat) : s.reach x = { s with time := (s.reach x).time, fabric := (s.reach x).fabric } := by
  unfold State.reach
  split <;> rfl

/-- Voice v plays item it of binding b on channel n, whose next block to check is pos, before the item's end and not covered, in placement pl. -/
structure ChecksBlock (s : State) (v n b : Nat) (it : Item) (pos : Int) (pl : Placement) : Prop where
  chan : s.voiceChan v = some n
  item : (s.voice v).item = some it
  binding : it.binding = some b
  block : (s.voice v).stream.block = some pos
  inside : it.len = 0 ∨ pos < it.first / 1024 + it.len
  uncovered : s.blockCovered v it pos = false
  placed : (s.voice v).stream.placement pos = some pl

variable {it : Item} {pl : Placement} {pk : Packet}

theorem streamBlockCheck_checks {v : Fin 64} (h : ChecksBlock s v n b it pos pl) (r : BlockRead) :
    exec (.streamBlockCheck v r) s = .next (s.checkBlock v n b it pos r) := by
  change execStreamBlockCheck v r s = _
  unfold execStreamBlockCheck
  rw [h.item, h.chan]
  dsimp only
  rw [h.binding, h.block]
  exact if_neg fun hn => by rcases h.inside with h0 | h1 <;> omega

/-- The machine at the check instant of block pos of binding b on channel n. -/
def State.atCheck (s : State) (n b : Nat) (pos : Int) : State := s.reach (s.blockCheck n b pos)

theorem atCheck_only (s : State) (n b : Nat) (pos : Int) :
    s.atCheck n b pos = { s with time := (s.atCheck n b pos).time, fabric := (s.atCheck n b pos).fabric } := reach_only ..

theorem atCheck_voice (u : Nat) : (s.atCheck n b pos).voice u = s.voice u := reach_voice ..
theorem atCheck_f (x : Fld) (i : Nat) : (s.atCheck n b pos).f x i = s.f x i := reach_f ..
theorem atCheck_blockSeq : (s.atCheck n b pos).blockSeq b pl pos = s.blockSeq b pl pos := by rw [atCheck_only]; rfl
theorem atCheck_blockAddr : (s.atCheck n b pos).blockAddr b pl pos = s.blockAddr b pl pos := by rw [atCheck_only]; rfl
theorem atCheck_packet (q : Nat) : (s.atCheck n b pos).packet b q = s.packet b q := by rw [atCheck_only]; rfl
theorem atCheck_ringDram : (s.atCheck n b pos).ringDram b = s.ringDram b := by rw [atCheck_only]; rfl
theorem atCheck_stmBytes : (s.atCheck n b pos).stmBytes b = s.stmBytes b := by rw [atCheck_only]; rfl
theorem atCheck_gapShared (u seq : Nat) : (s.atCheck n b pos).gapShared u b seq = s.gapShared u b seq := by rw [atCheck_only]; rfl
theorem atCheck_copyOf (l : List Span) : (s.atCheck n b pos).copyOf l = s.copyOf l := by rw [atCheck_only]; rfl
theorem atCheck_poisoned (d : Bool) (x : Nat) : (s.atCheck n b pos).poisoned d x = s.poisoned d x := by rw [atCheck_only]; rfl

theorem ChecksBlock.atCheck (h : ChecksBlock s v n b it pos pl) : ChecksBlock (s.atCheck n b pos) v n b it pos pl := by
  rw [atCheck_only]
  exact ⟨h.chan, h.item, h.binding, h.block, h.inside, h.uncovered, h.placed⟩

/-- A block whose packet arrived before its check instant plays from its slot. -/
theorem checkBlock_present (h : ChecksBlock s v n b it pos pl) (hk : s.packet b (s.blockSeq b pl pos) = some pk)
    (ht : (s.chan n).grid.before pk.arrived ((pos - s.stmLead b) * 1024) = true) (r : BlockRead) :
    ∃ last, s.checkBlock v n b it pos r = (s.atCheck n b pos).playBlock v b pos (s.blockAddr b pl pos) last r.ecc r.addr.toNat := by
  have hk' : (s.atCheck n b pos).packet b ((s.atCheck n b pos).blockSeq b pl pos) = some pk := by rw [atCheck_packet, atCheck_blockSeq, hk]
  rw [← atCheck_blockAddr (n := n)]
  unfold State.checkBlock
  extract_lets g lead u x e
  rw [if_neg (show ¬ u.blockCovered v it pos = true from Bool.eq_false_iff.1 h.atCheck.uncovered), show x.placement pos = some pl from h.atCheck.placed]
  dsimp only
  rw [show u.packet b (wrap 32 (pl.seq + (pos - pl.begin_) / (max 1 (u.stmSamples b) : Nat))) = some pk from hk']
  exact ⟨_, if_pos (.inl ht)⟩

/-- A block without a packet is missing. -/
theorem checkBlock_absent (h : ChecksBlock s v n b it pos pl) (hk : s.packet b (s.blockSeq b pl pos) = none) (r : BlockRead) :
    s.checkBlock v n b it pos r = (s.atCheck n b pos).missBlock v n b it pos (s.blockSeq b pl pos) r.snap := by
  have hk' : (s.atCheck n b pos).packet b ((s.atCheck n b pos).blockSeq b pl pos) = none := by rw [atCheck_packet, atCheck_blockSeq, hk]
  rw [← atCheck_blockSeq (n := n)]
  unfold State.checkBlock
  extract_lets g lead u x e
  rw [if_neg (show ¬ u.blockCovered v it pos = true from Bool.eq_false_iff.1 h.atCheck.uncovered), show x.placement pos = some pl from h.atCheck.placed]
  dsimp only
  rw [show u.packet b (wrap 32 (pl.seq + (pos - pl.begin_) / (max 1 (u.stmSamples b) : Nat))) = none from hk']
  rfl

theorem reached_atCheck {t : State} (h : t.time = (s.atCheck n b pos).time) : Reached s t (s.blockCheck n b pos) := reached_of_time h

section
variable {v : Fin 64} (h : ChecksBlock s v n b it pos pl) (r : BlockRead)
include h

theorem streamBlockCheck_plays (hk : s.packet b (s.blockSeq b pl pos) = some pk)
    (ht : (s.chan n).grid.before pk.arrived ((pos - s.stmLead b) * 1024) = true) (he : r.ecc = .clean)
    (hp : s.poisoned (s.ringDram b) r.addr.toNat = false) : Gives (exec (.streamBlockCheck v r) s) fun t =>
      Reached s t (s.blockCheck n b pos) ∧ t.f F.STM_STAT_STATE b = 2 ∧ (t.voice v).stream.gap = none ∧
      (t.voice v).stream.decided.head? =
        some (pos, some (s.blockAddr b pl pos, s.copyOf [(s.ringDram b, s.blockAddr b pl pos, 64 * s.stmBytes b)])) := by
  obtain ⟨last, hc⟩ := checkBlock_present h hk ht r
  have hpl := playBlock_plays (s := s.atCheck n b pos) (v := v) (b := b) (pos := pos) (s.blockAddr b pl pos) last
    (by rw [atCheck_poisoned, atCheck_ringDram, hp])
  rw [← he, ← hc] at hpl
  have hd := hpl.decided
  rw [atCheck_copyOf, atCheck_ringDram, atCheck_stmBytes] at hd
  exact ⟨_, streamBlockCheck_checks h r, reached_atCheck hpl.time, hpl.running, hpl.gap, hd⟩

section
variable (hk : s.packet b (s.blockSeq b pl pos) = none) (hp : s.f F.STM_CFG_POLICY b ≠ 2) (hg : (s.voice v).stream.gap = none)
include hk hp hg

theorem streamBlockCheck_misses : Gives (exec (.streamBlockCheck v r) s) fun t =>
    BlockMissed (s.atCheck n b pos) t v pos (s.blockSeq b pl pos) ∧
      ∀ x, x.reg ∈ streamRegs → t.f x b = ((s.atCheck n b pos).gapCounted v b (s.blockSeq b pl pos)).f x b := by
  have hb := binding_lt h.binding
  have hp' : (s.atCheck n b pos).f F.STM_CFG_POLICY b ≠ 2 := by rwa [atCheck_f]
  have hm := missBlock_misses (n := n) (pos := pos) (seq := s.blockSeq b pl pos) hb hp' (by rwa [atCheck_voice]) it r.snap
  have hf := missBlock_f (v := v) (n := n) (pos := pos) (seq := s.blockSeq b pl pos) hb hp' it r.snap
  rw [← checkBlock_absent h hk] at hm hf
  exact ⟨_, streamBlockCheck_checks h r, hm, hf⟩

theorem streamBlockCheck_misses_shared (hs : s.gapShared v b (s.blockSeq b pl pos) = true) : Gives (exec (.streamBlockCheck v r) s) fun t =>
    t.f F.STM_CNT_GAPS b = s.f F.STM_CNT_GAPS b ∧ (t.voice v).stream.gap = some (s.blockSeq b pl pos) := by
  obtain ⟨t, hx, hm, hf⟩ := streamBlockCheck_misses h r hk hp hg
  refine ⟨t, hx, (hf _ (by decide)).trans ?_, hm.gap⟩
  rw [State.gapCounted, if_pos (.inr (by rw [atCheck_gapShared, hs])), atCheck_f]

theorem streamBlockCheck_misses_alone (hs : s.gapShared v b (s.blockSeq b pl pos) = false) : Gives (exec (.streamBlockCheck v r) s) fun t =>
    Reached s t (s.blockCheck n b pos) ∧ t.f F.STM_STAT_STATE b = 3 ∧ t.f F.STM_CNT_GAPS b = s.upped F.STM_CNT_GAPS b ∧
      (t.voice v).stream.gap = some (s.blockSeq b pl pos) ∧ (t.voice v).stream.decided.head? = some (pos, none) := by
  obtain ⟨t, hx, hm, hf⟩ := streamBlockCheck_misses h r hk hp hg
  obtain ⟨hst, hcnt⟩ := gapCounted_alone (s := s.atCheck n b pos) (v := v) (seq := s.blockSeq b pl pos) (binding_lt h.binding)
    (by rwa [atCheck_voice]) (by rwa [atCheck_gapShared])
  rw [State.upped, atCheck_f] at hcnt
  exact ⟨t, hx, reached_atCheck hm.time, (hf _ (by decide)).trans hst, (hf _ (by decide)).trans hcnt, hm.gap, hm.decided⟩

end

end

end

end Sys2Proof.Machine
end

section
/-! PROOFS. Enabling a binding, and stream bindings together (O25; R116, R119 to R121, R124, R127). -/

namespace Sys2Proof.Machine

/-! ### The word of an enable (R116) -/

/-- A word with EN cleared, as a number. -/
theorem toNat_clearEn (w : Word) : (w &&& ~~~1#64).toNat = w.toNat / 2 * 2 := by
  refine Nat.eq_of_testBit_eq fun i => ?_
  rw [BitVec.testBit_toNat, BitVec.getLsbD_and, BitVec.getLsbD_not]
  cases i with
  | zero => simp
  | succ i =>
    rw [Nat.testBit_succ, Nat.mul_div_cancel _ (by decide), ← Nat.testBit_succ, BitVec.testBit_toNat]
    by_cases h : i + 1 < 64
    · simp [h]
    · simp [BitVec.getLsbD_of_ge w (i + 1) (by omega)]

theorem toNat_setEn (w : Word) : (force w 0 0 1).toNat = w.toNat / 2 * 2 + 1 := by
  rw [toNat_force w (by decide) (by decide), setBits_eq]
  omega

theorem clearEn_setEn (w : Word) : force w 0 0 1 &&& ~~~1#64 = w &&& ~~~1#64 :=
  BitVec.eq_of_toNat_eq (by rw [toNat_clearEn, toNat_clearEn, toNat_setEn]; omega)

theorem setEn_clearEn (w : Word) : force (w &&& ~~~1#64) 0 0 1 = force w 0 0 1 :=
  BitVec.eq_of_toNat_eq (by rw [toNat_setEn, toNat_setEn, toNat_clearEn]; omega)

/-! ### What an enable finds, and what it leaves (R116, R124, R127) -/

theorem ofOffset_stmCfg : ∀ b : Fin 64, Reg.ofOffset (Reg.STM_CFG.addr b 0) = some (.STM_CFG, b.val, 0) := by decide

/-- The machine in which binding b is enabled: STM_CFG holds the fields written with EN = 0, and no half of an access of q is held. -/
def State.configured (s : State) (q : Requester) (b : Nat) (w : Word) : State := (s.unshadowed q).setRw .STM_CFG (w &&& ~~~1#64) b

/-- Whether the fields of a binding are legal depends on registers and buffers alone. -/
theorem stmLegal_congr {s t : State} (hr : t.regs = s.regs) (hb : t.buffers = s.buffers) (b : Nat) : t.stmLegal b = s.stmLegal b := by
  have hf : @State.f t = @State.f s := funext fun x => funext fun i => funext fun j => f_congr hr x i j
  have hu : t.buffer = s.buffer := funext fun i => by rw [State.buffer, hb]; rfl
  unfold State.stmLegal State.fitsDatagram State.slotBytes State.stmSamples State.stmBytes State.liveHandle State.bufferSize State.on
  rw [hf, hu]

/-- What a register update leaves of the register words depends on the words before it alone. -/
theorem setRw_regs_congr {s t : State} (h : t.regs = s.regs) (r : Reg) (w : Word) (i j : Nat) : (t.setRw r w i j).regs = (s.setRw r w i j).regs := by
  simp only [State.setRw, State.setWord, h]

theorem unshadowed_regs (s : State) (q : Requester) : (s.unshadowed q).regs = s.regs := rfl
theorem unshadowed_buffers (s : State) (q : Requester) : (s.unshadowed q).buffers = s.buffers := rfl

section
variable {s : State} {q : Requester} {b : Fin 64} {w : Word}

theorem configured_legal : (s.configured q b w).stmLegal b = (s.setRw .STM_CFG (w &&& ~~~1#64) b).stmLegal b :=
  stmLegal_congr (setRw_regs_congr (unshadowed_regs s q) ..) ((setRw_buffers ..).trans ((unshadowed_buffers s q).trans (setRw_buffers ..).symm)) b

theorem configured_handle : (s.configured q b w).f F.STM_RING_HANDLE b = s.f F.STM_RING_HANDLE b :=
  f_setRw_ne (s.unshadowed q) _ (addr_stream_ne (by decide) (by decide) (by decide) b.isLt)

/-- A write of EN = 1 to a disabled binding that is admitted enables it or flags CFG_ERR, and leaves beside that only the records of reserved
fields. -/
theorem stmCfgEnable_noted (ha : Admits s q .STM_CFG b 0 (force w 0 0 1)) (hen : s.on F.STM_CFG_EN b = false) :
    Noted ((s.configured q b w).enableStream b) (s.put q (Reg.STM_CFG.addr b 0) (force w 0 0 1) .clean .clean) := by
  have hn := put_noted .clean .clean (ofOffset_stmCfg b) ha
  have hgo : bit (force w 0 0 1).toNat 0 = true := by rw [toNat_setEn, bit, beq_iff_eq]; omega
  have hact : ∀ y : Word, (s.unshadowed q).act .STM_CFG b 0 y (force w 0 0 1) .clean .clean = (s.unshadowed q).writeStmCfg b y := fun _ => rfl
  have hoff : (s.unshadowed q).on F.STM_CFG_EN b = false := hen
  rw [hact, storedWord_takes_all (by decide) (by decide), State.writeStmCfg, if_neg (by rw [hoff]; decide), clearEn_setEn, if_pos hgo] at hn
  exact hn

theorem stmCfgEnable_legal (ha : Admits s q .STM_CFG b 0 (force w 0 0 1)) (hen : s.on F.STM_CFG_EN b = false)
    (hl : (s.setRw .STM_CFG (w &&& ~~~1#64) b).stmLegal b = true) :
    Gives (exec (.stmCfgEnable b q w) s) fun t => t.rw .STM_CFG b = force w 0 0 1 ∧ t.binding b = {} ∧
      (t.buffer (indexOf (s.f F.STM_RING_HANDLE b))).refs = (s.buffer (indexOf (s.f F.STM_RING_HANDLE b))).refs + 1 := by
  have hn := stmCfgEnable_noted ha hen
  rw [State.enableStream, configured_legal, if_pos hl, configured_handle] at hn
  refine ⟨_, rfl, (hn.rw_above ?_).trans ?_, ?_, ?_⟩
  · exact Nat.lt_of_lt_of_le (by decide) (streamRegs_addr .STM_CFG (by decide) b).1
  · have hset : (s.configured q b w).rw .STM_CFG b = w &&& ~~~1#64 := rw_setRw_same ..
    have hflag : ((s.configured q b w).flag F.STM_CFG_EN b).rw .STM_CFG b = force ((s.configured q b w).rw .STM_CFG b) 0 0 1 := rw_setRw_same ..
    exact hflag.trans (by rw [hset, setEn_clearEn])
  · have hb : ∀ (u : State) (x : Nat), (u.addRef x).bindings = u.bindings := fun _ _ => rfl
    rw [State.binding, hn.recorded.bindings, hb]
    exact binding_modBinding_same ..
  · rw [hn.buffer, State.addRef, buffer_modBuffer_same]
    exact congrArg (·.refs + 1) (show _ = s.buffer _ by rfl)

theorem stmCfgEnable_illegal (ha : Admits s q .STM_CFG b 0 (force w 0 0 1)) (hen : s.on F.STM_CFG_EN b = false)
    (hl : (s.setRw .STM_CFG (w &&& ~~~1#64) b).stmLegal b = false) :
    Gives (exec (.stmCfgEnable b q w) s) fun t => t.rw .STM_CFG b = w &&& ~~~1#64 ∧ t.on F.STM_STAT_CFG_ERR b = true ∧
      t.buffers = s.buffers := by
  have hn := stmCfgEnable_noted ha hen
  rw [State.enableStream, if_neg (by rw [configured_legal, hl]; decide)] at hn
  have habove : ∀ r ∈ streamRegs, 0x40 < r.addr b 0 := fun r hr => Nat.lt_of_lt_of_le (by decide) (streamRegs_addr r hr b).1
  refine ⟨_, rfl, (hn.rw_above (habove _ (by decide))).trans ?_, (hn.on_above _ (habove _ (by decide))).trans ?_, ?_⟩
  · exact (rw_setRw_ne _ _ (addr_stream_ne (by decide) (by decide) (by decide) b.isLt)).trans (rw_setRw_same ..)
  · exact on_flag_same _ (by constructor <;> decide) _ _
  · rw [hn.recorded.buffers, flag_buffers, State.configured, setRw_buffers]
    rfl

end

/-- Settles O25: a block plays or is missing by what its check finds, and an enable is taken or refused by the fields it finds. -/
theorem streamBindings : Obligations.StreamBindings := by
  refine ⟨?_, fun b q w s ha hen => ⟨stmCfgEnable_legal ha hen, stmCfgEnable_illegal ha hen⟩⟩
  intro v e n b it pos pl s hchan hit hbind hblock hin hcov hpl
  have h : ChecksBlock s v n b it pos pl := ⟨hchan, hit, hbind, hblock, hin, hcov, hpl⟩
  exact ⟨fun _ => streamBlockCheck_plays h e, streamBlockCheck_misses_shared h e, streamBlockCheck_misses_alone h e⟩

end Sys2Proof.Machine
end
